-- ==== Sys2Proof/Word.lean ====
section
/-!
DEFINITION. The word types of the model and their plainest arithmetic (R12, R13, R23, R58).
-/
namespace Sys2Proof

/-- A byte of a memory (R58). -/
abbrev Byte := BitVec 8
/-- One Ummus instruction word (R94). -/
abbrev Word32 := BitVec 32
/-- A general register v0 to v31 (R58). -/
abbrev Word := BitVec 64
/-- An XT128 instant: seconds 127:64, nanoseconds 63:32, fraction 31:0 (R23). -/
abbrev XT := BitVec 128
/-- The number of a general register (R95). -/
abbrev Reg := BitVec 5
/-- The number of a time register t0 to t7 (R95). -/
abbrev TReg := BitVec 3
/-- The 16-bit immediate of an I-format word (R94). -/
abbrev Imm16 := BitVec 16

/-- Bit `i` of a number is set. -/
def bitSet (n i : Nat) : Bool := n.testBit i

/-- Bits `lo + w - 1 : lo` of a number (R12). -/
def bitsOf (n lo w : Nat) : Nat := (n / 2 ^ lo) % 2 ^ w

/-- A Boolean as a bit. -/
def ofBool (b : Bool) : Nat := if b then 1 else 0

/-- The signed value of the low `w` bits of a number (two's complement). -/
def toSigned (w n : Nat) : Int :=
  let m := n % 2 ^ w
  if m < 2 ^ (w - 1) then Int.ofNat m else Int.ofNat m - Int.ofNat (2 ^ w)

/-- The low `w` bits, two's complement, of a signed number. -/
def ofSigned (w : Nat) (i : Int) : Nat := (i % (2 ^ w : Int)).toNat

end Sys2Proof
end

