-- ==== Sys2Proof/Config.lean ====
section
/-!
DEFINITION. What an implementation of the part fixes: the three parts with their quantities (R2, R3, R26), and the
values the spec leaves to each implementation, which stay free (opaque, no body).
-/
namespace Sys2Proof

/-- The three parts of the family (R2). -/
inductive Part where
  | xu9048 | xu9096 | xu9192
  deriving DecidableEq, Repr

namespace Config

/-- Dies of the part (R2). -/
def nDies : Part → Nat
  | .xu9048 => 2
  | .xu9096 => 4
  | .xu9192 => 8

/-- Ports and lanes of the part: 24 on each die (R2, R3). -/
def nPorts (p : Part) : Nat := 24 * nDies p
/-- Cairn engines of the part: four on each die (R2, R3). -/
def nEngines (p : Part) : Nat := 4 * nDies p
/-- Event channels of the part: eight on each die (R2, R3). -/
def nChannels (p : Part) : Nat := 8 * nDies p
/-- Host endpoints, and so partitions, of the part (R2, R4). -/
def nHosts : Part → Nat
  | .xu9048 => 2
  | .xu9096 => 4
  | .xu9192 => 4
/-- The die that carries endpoint `h` (R2): H_0 to H_3 sit on D0, D2, D4, D6 of the XU9192, else on D`h`. -/
def hostDie (p : Part) (h : Nat) : Nat :=
  match p with
  | .xu9192 => 2 * h
  | _ => h
/-- The endpoint on die `d`, where there is one (R2). -/
def dieHost (p : Part) (d : Nat) : Option Nat :=
  match p with
  | .xu9192 => if d % 2 = 0 ∧ d < 8 then some (d / 2) else none
  | _ => if d < nHosts p then some d else none
/-- SYS.ID.PART of the part. -/
def partId : Part → Nat
  | .xu9048 => 0x9048
  | .xu9096 => 0x9096
  | .xu9192 => 0x9192
/-- The bit of an image's PARTS byte that admits the part (R89). -/
def partBit : Part → Nat
  | .xu9048 => 0
  | .xu9096 => 1
  | .xu9192 => 2
/-- SYS.PRESENT.DIE_MASK of the part. -/
def dieMask (p : Part) : Nat := 2 ^ nDies p - 1

/-- SYS.ID.STEPPING: the stepping letter's code, per implementation. -/
opaque stepping : BitVec 8
/-- SYS.ROMVER.MAJOR, per ROM. -/
opaque romMajor : BitVec 16
/-- SYS.ROMVER.MINOR, per ROM. -/
opaque romMinor : BitVec 16
/-- SUMMIT.DEV_ID, the part's own 64-bit identity. -/
opaque deviceId : BitVec 64
/-- FREE VALUES: the value the part happens to give where the spec states none; the number counts the draws. -/
opaque freeValue : Nat → BitVec 64
/-- The ROM-resident program set (R85): the byte at an IMEM address of a die's local engine. -/
opaque romImem : Nat → Nat → Nat → Byte
/-- The ROM-resident program set (R85): the byte at a DMEM address of a die's local engine. -/
opaque romDmem : Nat → Nat → Nat → Byte
/-- The ROM program's entry, as START_PC, on a die's local engine (R167). -/
opaque romEntry : Nat → Nat → BitVec 14

/-- The bytes of an LPM lookup key: a family and a masked address (R361); the spec does not give their order. -/
opaque lpmKey : Nat → Nat → List Byte
/-- The three filter bits taken from the CRC-32C of a masked key (R362); the spec does not say which they are. -/
opaque lpmFilterPick : BitVec 32 → BitVec 16 × BitVec 16 × BitVec 16
/-- The two buckets of a prefix (R361) under a bucket seed, by its length and key; the spec does not give the hash. -/
opaque lpmBuckets : Nat → Nat → List Byte → BitVec 14 × BitVec 14

/-- The delay by the broadcast ionosphere model (R300) under its parameters, at a time of the week and a position, in ps; the
spec does not give the model. -/
opaque ionoDelay : List Int → Nat → Int × Int × Int → Int
/-- The MAC address of a port, which the port timing handler holds (R261). -/
opaque portMac : Nat → BitVec 48
/-- The egress queue that the ROM-resident programs name in a SEND, which the spec does not state. -/
opaque romQueue : BitVec 4
/-- The return address at which a ROM-resident program calls hook `k` (R87), as a word of IMEM below 0xC000. -/
opaque hookReturn : Nat → BitVec 16
/-- Where a ROM-resident program lays what it hands to hook `k` (R88): a 16-byte unit of DMEM below 0xA000. -/
opaque hookBuffer : Nat → BitVec 12
/-- The frequency of the clock that a port receives, against the XO, in 2^-16 ppb, at a ridge tick of its die (R217). -/
opaque portFreq : Nat → Nat → Int
/-- The PTP domain that the node serves (R290). -/
opaque ptpDomain : BitVec 8
/-- Whether a link exchange frame says that its sender's upstream is the node of a DEVICE_ID (R276); the spec gives the frame no
field for it. -/
opaque namesUpstream : List Byte → BitVec 64 → Bool
/-- The estimate in ps and the hops of a port's peer that has sent no link exchange frame (R268, R276). -/
opaque unknownPeer : Nat → Nat × Nat
/-- ERR_EST of a frame where the servo's estimate exceeds 32 bits (R261). -/
opaque errBeyond : Nat → BitVec 32

/-- What the standards of R290 act on: their data sets, the port, the die's time in 2^-32 ns, a message with its receive
timestamp, a transmit timestamp with its identifier, whether the port is in PHASE and the meanLinkDelay and master offset in
use there (R291), the port's ASYM (R272), the servo's estimate, and whether the node holds the summit role. -/
structure PtpIn where
  data : List Byte
  port : Nat
  now : Nat
  message : Option (List Byte × Nat)
  sent : Option (Nat × Nat)
  phase : Bool
  delay : Int
  offset : Int
  asym : Int
  err : Nat
  summit : Bool
  deriving DecidableEq, Repr

/-- What they answer: their data sets, the frames to send with the identifiers of transmit timestamps asked for, and the
meanLinkDelay and master offset of a port that is not in PHASE. -/
structure PtpOut where
  data : List Byte := []
  frames : List (List Byte × Option Nat) := []
  delay : Int := 0
  offset : Int := 0
  deriving DecidableEq, Repr, Inhabited

/-- The standards of R290 as the ROM-resident programs implement them: the spec names them and does not restate them. -/
opaque ptpStep : PtpIn → PtpOut

/-- The SHA-384 digest of bytes (R89, R175), which the spec takes as a standard. -/
opaque sha384 : List Byte → List Byte
/-- The verification of ECDSA over P-384 with SHA-384 (R91): public key X‖Y, signed bytes, r, s. -/
opaque ecdsaValid : List Byte → List Byte → Nat → Nat → Bool
/-- A point X‖Y lies on P-384 (R175). -/
opaque onCurve : List Byte → Bool
/-- HMAC-SHA-256 of a message under the debug secret (R179). -/
opaque hmacSha256 : List Byte → List Byte → BitVec 256
/-- The salted SHA-256 digest of a password (R179): salt, password. -/
opaque saltedDigest : List Byte → List Byte → BitVec 256

end Config
end Sys2Proof
end

