-- ==== Sys2Proof/Syntax.lean ====
section
/-!
DEFINITION. The commands: one constructor for each row of the opcode table. An Ummus instruction names the engine `e`
that executes it (global number, R16) and its operands (R94, R95); an event names where it happens and what the outside
world decides of it.
-/
namespace Sys2Proof

/-- The condition codes (R116). -/
inductive Cond where
  | al | eq | ne | lt | ge | gt | le | lo | hs | hi | ls | mi | pl | vs | vc | tmo | nto | pv | npv
  deriving DecidableEq, Repr

/-- The shift that SHI selects (R102). -/
inductive ShiftOp where
  | sll | srl | sra
  deriving DecidableEq, Repr

/-- Where an event comes from (R73, R77): event `event` of an instance, or a fixed line of an engine. -/
inductive EvSource where
  | block (die blk inst event : Nat)
  | line (e line : Nat)
  deriving DecidableEq, Repr

/-- What a request to an instance asks (R81), and who asks: an engine, or SEC's boot logic and loader (`none`). -/
inductive RunReq where
  | start | stop
  deriving DecidableEq, Repr

/-- Who reads or writes a register (R21, R136): an engine, at a function address, or a host endpoint, at an offset of its
BAR0. -/
inductive Requester where
  | engine (e : Nat)
  | host (h : Nat)
  deriving DecidableEq, Repr

/-- What DBG_ENG asks of an engine (R178). -/
inductive DbgOp where
  | halt | step | readV (r : Reg) | readT (r : TReg) | readPc | readFlags
  deriving DecidableEq, Repr

/-- The start of a frame at a strobe: delay-line taps passed, whether it stands in lane 4 of its block, the offset within
an RS-FEC codeword in unit intervals, and the deskew depth in blocks (R245 to R247). -/
structure Strobe where
  taps : Nat
  lane4 : Bool
  codeword : Int
  deskew : Nat
  deriving DecidableEq, Repr

/-- What the sample interface measures (R295): between two timestamped sample edges lie `blocks` times 16,384 samples; their
strobes lie `ticks` ridge ticks apart, the second `ago` ticks before the present one, and the edges came `taps0` and `taps1`
delay-line taps before their strobes; the epoch reported lies `back` samples before the second; what GNSS_I and GNSS_Q carried
there (R294). -/
structure SampleSpan where
  blocks : Nat
  ticks : Nat
  ago : Nat
  taps0 : Nat
  taps1 : Nat
  back : Nat
  i : BitVec 4
  q : BitVec 4
  deriving DecidableEq, Repr

/-- What a navigation message carries of the satellites (R297, R298, R300): the sender's health; an almanac with it; the
parameters of the broadcast ionosphere model. -/
structure NavMessage where
  healthy : Bool
  almanac : Bool
  iono : Option (List Int)
  deriving DecidableEq, Repr

/-- The epoch of a solution: the samples whose named one it is, and the week that the satellites broadcast (R295, R300). -/
structure SolvedEpoch where
  span : SampleSpan
  week : Nat
  deriving DecidableEq, Repr

/-- A lane's search for its block position (R193): the slips made, and the valid sync headers in a row at the last candidate. -/
structure HeaderSearch where
  lane : Nat
  slips : Nat
  valid : Nat
  deriving DecidableEq, Repr

/-- The invalid ones of a lane's last 64 sync headers (R193). -/
structure HeaderCount where
  lane : Nat
  invalid : Nat
  deriving DecidableEq, Repr

/-- Code groups of 1000BASE-X (R199): ordered sets in a row, and whether a resetting code group came with or after them. -/
structure CodeGroups where
  sets : Nat
  resets : Bool
  deriving DecidableEq, Repr

/-- The bits a lane's pattern checker took in, newest first (R203). -/
structure PatternBits where
  lane : Nat
  bits : List Bool
  deriving DecidableEq, Repr

/-- Bit errors of a pattern (R203): those since the last count, and all those within the last 1,024 bits. -/
structure PatternErrors where
  count : Nat
  window : Nat
  deriving DecidableEq, Repr

/-- What resets a host endpoint (R155, R489): its link goes down, the host resets it or its function with the link up, or its
PERST_N changes to a level. -/
inductive HostReset where
  | linkDown | hotReset | functionReset | perst (high : Bool)
  deriving DecidableEq, Repr

/-- The commands. -/
inductive Instr where
  -- R96
  | nop (e : Nat)
  -- R95
  | illegal (e : Nat) (w : Word32)
  -- R101
  | add (e : Nat) (rd rs1 rs2 : Reg)
  | sub (e : Nat) (rd rs1 rs2 : Reg)
  | and (e : Nat) (rd rs1 rs2 : Reg)
  | or (e : Nat) (rd rs1 rs2 : Reg)
  | xor (e : Nat) (rd rs1 rs2 : Reg)
  | sll (e : Nat) (rd rs1 rs2 : Reg)
  | srl (e : Nat) (rd rs1 rs2 : Reg)
  | sra (e : Nat) (rd rs1 rs2 : Reg)
  | mul (e : Nat) (rd rs1 rs2 : Reg)
  | mulhu (e : Nat) (rd rs1 rs2 : Reg)
  | mulhs (e : Nat) (rd rs1 rs2 : Reg)
  | divu (e : Nat) (rd rs1 rs2 : Reg)
  | remu (e : Nat) (rd rs1 rs2 : Reg)
  | clz (e : Nat) (rd rs1 : Reg)
  | popc (e : Nat) (rd rs1 : Reg)
  -- R102
  | addi (e : Nat) (rd rs1 : Reg) (imm : Imm16)
  | andi (e : Nat) (rd rs1 : Reg) (imm : Imm16)
  | ori (e : Nat) (rd rs1 : Reg) (imm : Imm16)
  | xori (e : Nat) (rd rs1 : Reg) (imm : Imm16)
  | shi (e : Nat) (rd rs1 : Reg) (op : ShiftOp) (sh : BitVec 6)
  | cmpi (e : Nat) (rs1 : Reg) (imm : Imm16)
  | movz (e : Nat) (rd : Reg) (imm : Imm16) (k : BitVec 2)
  | movk (e : Nat) (rd : Reg) (imm : Imm16) (k : BitVec 2)
  -- R103
  | ld8u (e : Nat) (rd rs1 : Reg) (imm : Imm16)
  | ld16u (e : Nat) (rd rs1 : Reg) (imm : Imm16)
  | ld32u (e : Nat) (rd rs1 : Reg) (imm : Imm16)
  | ld64 (e : Nat) (rd rs1 : Reg) (imm : Imm16)
  | ld8s (e : Nat) (rd rs1 : Reg) (imm : Imm16)
  | ld16s (e : Nat) (rd rs1 : Reg) (imm : Imm16)
  | ld32s (e : Nat) (rd rs1 : Reg) (imm : Imm16)
  | st8 (e : Nat) (rd rs1 : Reg) (imm : Imm16)
  | st16 (e : Nat) (rd rs1 : Reg) (imm : Imm16)
  | st32 (e : Nat) (rd rs1 : Reg) (imm : Imm16)
  | st64 (e : Nat) (rd rs1 : Reg) (imm : Imm16)
  | ldt (e : Nat) (td : TReg) (rs1 : Reg) (imm : Imm16)
  | stt (e : Nat) (ts : TReg) (rs1 : Reg) (imm : Imm16)
  -- R104
  | fld32 (e : Nat) (rd rs1 : Reg) (imm : Imm16)
  | fld64 (e : Nat) (rd rs1 : Reg) (imm : Imm16)
  | fst32 (e : Nat) (rd rs1 : Reg) (imm : Imm16)
  | fst64 (e : Nat) (rd rs1 : Reg) (imm : Imm16)
  | fldt (e : Nat) (td : TReg) (rs1 : Reg) (imm : Imm16)
  | fstt (e : Nat) (ts : TReg) (rs1 : Reg) (imm : Imm16)
  -- R105
  | functionResponseArrive (e : Nat)
  | postedAckArrive (e k : Nat)
  -- R106
  | tnow (e : Nat) (td : TReg)
  | tnowTk (e : Nat) (rd : Reg)
  -- R107
  | tadd (e : Nat) (td ts1 : TReg) (rs2 : Reg)
  | tsub (e : Nat) (rd : Reg) (ts1 ts2 : TReg)
  -- R106
  | tcmp (e : Nat) (ts1 ts2 : TReg)
  -- R107
  | tcvtPack (e : Nat) (td : TReg) (rs1 rs2 : Reg)
  -- R106
  | tcvtSec (e : Nat) (rd : Reg) (ts1 : TReg)
  | tcvtLo (e : Nat) (rd : Reg) (ts1 : TReg)
  | tcvtMov (e : Nat) (td ts1 : TReg)
  -- R109
  | tblSrch (e : Nat) (rd rs1 rs2 : Reg)
  | tblNext (e : Nat) (rd rs1 rs2 : Reg)
  | tblFlush (e : Nat) (rd rs1 rs2 : Reg)
  | tblCmd (e : Nat) (rd rs1 rs2 : Reg)
  -- R112
  | fnStop (e : Nat) (rs1 : Reg)
  | fnStart (e : Nat) (rd rs1 : Reg)
  | fnStat (e : Nat) (rd rs1 : Reg)
  -- R81
  | runStateRequestArrive (by_ : Option Nat) (die blk inst : Nat) (req : RunReq)
  | drainComplete (die blk inst : Nat)
  | drainLimitExpire (die blk inst : Nat)
  | enterFault (die blk inst code : Nat)
  -- R115
  | b (e : Nat) (cc : Cond) (imm : Imm16)
  | call (e : Nat) (rd : Reg) (imm : Imm16)
  | jalr (e : Nat) (rd rs1 : Reg) (imm : Imm16)
  -- R117
  | rdf (e : Nat) (rd : Reg)
  | wrf (e : Nat) (rs1 : Reg)
  | clf (e : Nat) (mask : BitVec 6)
  -- R118
  | wait (e : Nat) (rd rs1 rs2 : Reg)
  | waitT (e : Nat) (rd rs1 : Reg) (ts2 : TReg)
  -- R119
  | waitHit (e : Nat)
  | waitTimeout (e : Nat)
  -- R122
  | send (e : Nat) (rs1 rs2 : Reg)
  -- R124
  | recv (e : Nat) (rd rs1 rs2 : Reg)
  -- R125
  | mbx (e : Nat) (rd rs1 : Reg) (imm : Imm16)
  -- R126
  | trap (e : Nat) (n : BitVec 6)
  -- R127
  | fence (e : Nat)
  -- R128
  | halt (e : Nat)
  -- R73
  | eventOccurrence (src : EvSource)
  -- R500
  | eventMessageArrive (e line : Nat)
  -- R76
  | evmapWrite (by_ e k : Nat) (data : Word32)
  -- R77
  | engSignalWrite (by_ e : Nat) (data : Word32)
  -- R21
  | registerWrite (by_ : Requester) (addr width data : Nat)
  | readClear (by_ : Requester) (addr width : Nat)
  -- R71
  | ownCmdSet (e die blk inst part : Nat)
  -- R70
  | ownCmdQuery (e die blk inst : Nat)
  -- R71
  | ownHoldRequest (d : Nat)
  | ownHoldReply
  | ownEntriesApply (d : Nat)
  | ownCmdComplete
  | ownResync (d : Nat)
  -- R72
  | policyWrite (e : Nat) (data : Word32)
  | policyCopyApply (d : Nat)
  -- R139
  | loadGo (h : Nat) (spi : Bool)
  | loadStaged (h : Nat) (bytes : List Byte) (failed : Bool)
  -- R142
  | signatureCheckDone
  -- R93
  | loadEnd (h : Nat)
  -- R143
  | mbiPost (h slot len : Nat)
  -- R145
  | svcPost (h slot len : Nat)
  -- R144
  | mbiTake (e d : Nat)
  -- R143
  | mbiFree (e d : Nat) (slot : BitVec 4)
  -- R145
  | mboTake (h : Nat)
  | mboFree (h : Nat) (slot : BitVec 4)
  | svcTake (e : Nat)
  | svcReply (e : Nat) (data : Word)
  -- R146
  | ringCfgWrite (e d k : Nat) (data : Word32)
  -- R147
  | dbTx (h k : Nat) (prod : BitVec 16)
  | dbRx (h k : Nat) (prod : BitVec 16)
  -- R148
  | txDescriptorFetched (h k addr length kind queue dest flags tsId : Nat)
  -- R150
  | txFrameRead (h k : Nat) (bytes : List Byte) (failed : Bool)
  -- R151
  | injectionServe (d : Nat) (spare : Bool)
  -- R149
  | rxRingDeliver (h k bufLen : Nat)
  -- R150
  | msixHoldoffExpire (h k : Nat)
  -- R155
  | hostLinkReset (h : Nat) (cause : HostReset)
  -- R167
  | hostLinkUp (h speed width : Nat)
  -- R154
  | grantWrite (e p : Nat) (data : Word32)
  -- R160
  | pwrgoodFall
  | pwrgoodRise
  | resetNFall
  | resetNFiltered
  | resetNRise
  -- R164
  | resetRelease (secAreaBad : Bool)
  -- R163
  | tapReset (low : Bool)
  -- R167
  | secSelfTestEnd (ok : Bool)
  | bootD0Locked
  | bootFollowerLocked (d : Nat)
  -- R173
  | lcAdvance (e target confirm : Nat)
  -- R175
  | keyEnrol (e slot : Nat)
  -- R174
  | keyRevoke (e slot : Nat)
  | debugSecretEnrol (e : Nat)
  | ownerPasswordSet (e len : Nat)
  -- R177
  | keyCmdDone (fuseErr : Bool)
  -- R176
  | rollbackAdvance (e new : Nat)
  | rollbackDone (fuseErr : Bool) (blown : Nat)
  -- R181
  | dbgRelock (e : Nat) (pwd chal : Bool)
  -- R180
  | dbgFailsClr (e : Nat) (pwd chal : Bool)
  -- R171
  | spiGo (e : Nat) (wpRel dir : Bool) (addrBytes opcode len : Nat)
  | spiAccessDone (bytes : List Byte)
  -- R178
  | idcode
  | samplePreload (pins preload : List Bool)
  | extest (pins drive : List Bool)
  | clamp
  | highz
  -- R179
  | dbgChal
  -- R180
  | dbgResp (resp : BitVec 256)
  | dbgPwd (len : Nat) (bytes : List Byte)
  -- R178
  | dbgStatus
  | dbgAccess (addr : BitVec 40) (write : Bool) (data : Word)
  | dbgEng (e : Nat) (op : DbgOp)
  | bypass
  -- R180
  | dbgHoldExpire
  -- R179
  | nonceExpire
  -- R188
  | phaseReport (l : Nat) (move : Int) (sub : Nat)
  -- R189
  | trackerLock (l : Nat) (ppb : Int)
  -- R191
  | trackerUnlock (l : Nat) (signal : Bool)
  -- R190
  | freqWindowEnd (l : Nat) (rate : Int)
  -- R193
  | blockLockAcquire (h : HeaderSearch)
  | blockLockLoss (h : HeaderCount)
  -- R194
  | alignLockChange (p : Nat) (lock : Bool) (skew : Nat)
  -- R195
  | hiBerChange (p : Nat) (hi : Bool)
  | faultOrderedSetReceive (p : Nat) (localFault : Bool)
  | pcsLinkUp (p : Nat)
  -- R184
  | uncorrectableCodeword (p blocks corrected symbols : Nat)
  -- R198
  | ctleAdaptStep (l : Nat) (up : Bool)
  -- R199
  | adaptFreeze (l : Nat) (g : CodeGroups)
  -- R204
  | laneSleepRequest (e l : Nat) (idle : BitVec 16)
  -- R206
  | laneWakeRequest (e l : Nat) (idle : BitVec 16)
  | txIdleExpire (p : Nat)
  | txWakeDone (p : Nat)
  -- R204
  | rxSleepEnter (l : Nat)
  -- R206
  | rxWake (l : Nat) (bad : Bool)
  -- R203
  | prbsLock (b : PatternBits)
  | prbsLoss (l : Nat) (x : PatternErrors)
  -- R215
  | pllSelect (e : Nat) (src : BitVec 3) (port : BitVec 8)
  -- R216
  | pllSelectBoundary
  -- R214
  | refValidityChange (ref : Nat) (ppb : Option Int)
  -- R219
  | pllLockAchieved (d : Nat) (err freq : Int)
  | pllLockLoss (d : Nat) (err : Int)
  | pllRefQualified (d : Nat)
  -- R221
  | histOkSet (d : Nat)
  -- R222
  | handoverTimeout (d : Nat)
  -- R224
  | steerWrite (e : Nat) (data : Word)
  -- R225
  | steerStep
  -- R226
  | rampGo (e : Nat) (nseg : BitVec 3)
  | rampStart
  | rampSegmentEnd
  -- R228
  | outUpdGo (e : Nat)
  | outUpdApply
  -- R230
  | deltaMeasureBegin (d : Nat)
  | deltaMeasureEnd (d : Nat) (delta : Int)
  -- R233
  | rateWrite (e d : Nat) (data : Word)
  -- R234
  | stepWrite (e d : Nat) (data : Word)
  -- R232
  | changeApply (d : Nat)
  -- R241
  | alignMessageArrive (d : Nat) (skew : Int)
  -- R243
  | skewStale (d : Nat)
  -- R244
  | replicaCheck (d : Nat) (bad : Bool)
  -- R238
  | millisecondBoundary (d : Nat)
  | secondBoundary (d : Nat)
  -- R253
  | txqMetaRead (e p : Nat)
  -- R264
  | linkWindowEnd (p : Nat)
  -- R265
  | linkCommit (e p : Nat)
  -- R280
  | beaconSend
  -- R282
  | beaconReceive
  -- R283
  | summitEligible
  -- R284
  | summitTake (e : Nat)
  -- R280
  | summitRenew (e : Nat)
  -- R288
  | summitRelease (e : Nat)
  -- R286
  | leaseLapse
  -- R289
  | pathTimeout (k : Nat)
  -- R297
  | gnssAcquisitionDwell (m : SampleSpan) (visible : BitVec 32) (bin : Option Nat)
  -- R300
  | gnssSolution (at_ : SolvedEpoch) (tow est : Nat) (pos : Int × Int × Int) (chans : List (Nat × Nat × Int))
  -- R304
  | gnssEpochMissed
  -- R303
  | gnssSlewUpdate
  -- R299
  | surveyDone
  -- R302
  | sparseBurst
  -- R296
  | gnssClkLost
  -- R308
  | ppsSchedule
  -- R307
  | ppsEdge
  -- R305
  | gnssAck (e : Nat)
  -- R317
  | eventCrossing (ch : Nat) (rising : Bool) (taps : Nat)
  -- R315
  | threshWrite (e ch : Nat) (code : BitVec 12)
  | threshSettled (ch : Nat)
  -- R324
  | armWrite (e ch : Nat) (arm : Bool)
  -- R327
  | trainWindowClose (ch : Nat)
  -- R328
  | pairedWindowClose (ch : Nat)
  -- R330
  | gatedTimeout (ch : Nat)
  -- R333
  | evtRecHeadRead (e ch : Nat)
  -- R334
  | eventFrameDeliver (ch : Nat)
  -- R338
  | frameReceiveStart (p : Nat) (bytes : List Byte) (k : Strobe) (spare : Bool)
  -- R372
  | frameCellReceive (p : Nat)
  -- R395
  | frameReceiveEnd (p : Nat) (bad : Bool)
  -- R373
  | cellSend (d dest : Nat)
  -- R374
  | cellArrive (d src : Nat) (hdrOk : Bool)
  -- R39
  | ctlMessageReceive (a b : Nat) (crcOk : Bool)
  -- R388
  | frameTransmitStart (p : Nat) (k : Strobe)
  -- R378
  | frameTransmitEnd (p : Nat)
  -- R501
  | stoppedPortDiscard (p q : Nat)
  -- R390
  | gateEntryStart (p : Nat)
  -- R400
  | mirrRecHeadRead (e d : Nat)
  -- R401
  | saddleDirectionDown (a b : Nat) (clk : Bool)
  | saddleTrainingEnd (a b : Nat) (failed : Word32) (clk : Bool)
  -- R350
  | orderPointArrive (src : Nat)
  -- R349
  | agePeriodExpire
  -- R49
  | l2ChangeArrive (d : Nat)
  -- R347
  | applyLearn (d : Nat)
  -- R349
  | applyAge (d upTo : Nat)
  -- R357
  | applyFlush (d upTo : Nat)
  -- R350
  | tableScanEnd (d : Nat)
  -- R355
  | l2UpdWrite (e : Nat)
  | l2UpdDelete (e : Nat)
  | applyUpd (d : Nat)
  -- R359
  | rehashGo (e : Nat)
  | applyRehash (d : Nat)
  | rehashResult
  -- R360
  | tableSwitchApply (d blk : Nat)
  | bankDrainEnd (d blk : Nat)
  -- R354
  | l2ResyncStart (d : Nat)
  | l2ResyncEnd (d : Nat)
  -- R365
  | tableCmdGo (e d blk : Nat)
  -- R366
  | insert (d blk : Nat)
  | delete (d blk : Nat)
  -- R365
  | read (d blk : Nat)
  -- R367
  | rebuildBegin (d blk : Nat)
  | shadowInsert (d blk : Nat)
  | shadowDelete (d blk : Nat)
  | commit (d blk : Nat)
  | abort (d blk : Nat)
  -- R366
  | tableReplicaWrite (d blk : Nat)
  | tableAcksComplete (blk : Nat)
  -- R367
  | tableSyncEnd (blk : Nat)
  -- R369
  | tableResyncStart (d blk : Nat)
  | tableResyncEnd (d blk : Nat)
  -- R411
  | prpForget (d i src : Nat)
  | lanOkExpire (d i : Nat) (onB : Bool)
  -- R422
  | tempSample (d : Nat) (t0 t1 t2 t3 : BitVec 16)
  -- R431
  | calRunGo (e d : Nat)
  -- R426
  | calPiTimeout (d i : Nat)
  -- R427
  | calRunEnd (d : Nat) (meas : List Byte)
  -- R428
  | calInterpolate (d : Nat)
  -- R436
  | calStoreEnd (d : Nat)
  -- R433
  | nvsWrite (e d off width data : Nat)
  -- R432
  | nvsWordWriteDone (d : Nat)
  -- R433
  | nvsRead (e d off width : Nat)
  -- R445
  | perfCompareReached (d c amount : Nat)
  | perfCounterWrap (d c amount : Nat)
  -- R448
  | bwWindowEnd (d : Nat)
  -- R450
  | tagStageReport (d : Nat)
  -- R452
  | tagHeadRead (e d : Nat)
  -- R453
  | histLevelSample (d i : Nat)
  -- R456
  | histClear (e d i : Nat) (hold : Bool)
  | histHold (e d i : Nat) (hold : Bool)
  -- R460
  | fvddLoss (d : Nat)
  | fvddRestore (d : Nat)
  -- R464
  | outputEdgeSchedule (d k : Nat)
  | outputEdge (d k : Nat)
  -- R465
  | outputPulseEnd (d k : Nat)
  -- R469
  | triggerArm (e d k : Nat)
  -- R480
  | thermAssert (d k : Nat)
  | thermRelease
  -- R476
  | clkoSupplyChange (low : Bool)
  -- R296
  | gnssClkRestored
  -- R298
  | channelPullInEnd (k cn0 : Nat) (elev : Int)
  | channelSignalLost (k : Nat)
  | ephemerisDecoded (k : Nat) (nav : NavMessage) (utc : Option (BitVec 8))
  deriving DecidableEq, Repr

end Sys2Proof
end

