-- ==== Sys2Proof/Decode.lean ====
section
/-!
DEFINITION. The opcode table gives no row any bits, so no word spells a command: `decodeTableWord` answers none. The
Ummus instruction words (R94 to R97, R101, R102, R106, R109, R112, R115 to R118) have a decoder and an encoder of their
own here; ILLEGAL is judged by the decoder.
-/
namespace Sys2Proof

/-- The command that a word spells by the opcode table's bits: the table gives none. -/
def decodeTableWord (_nbits _w : Nat) : Option Instr := none

/-- The fields of a word (R94). -/
def Word32.opcode (w : Word32) : Nat := w.toNat / 2 ^ 26
def Word32.rdF (w : Word32) : Reg := BitVec.ofNat 5 (w.toNat / 2 ^ 21)
def Word32.rs1F (w : Word32) : Reg := BitVec.ofNat 5 (w.toNat / 2 ^ 16)
def Word32.rs2F (w : Word32) : Reg := BitVec.ofNat 5 (w.toNat / 2 ^ 11)
def Word32.funct (w : Word32) : Nat := w.toNat % 2 ^ 11
def Word32.imm (w : Word32) : Imm16 := BitVec.ofNat 16 w.toNat

/-- A field as a time register: bits 4:3 must be zero (R95). -/
def asTReg (r : Reg) : Option TReg := if r.toNat < 8 then some (BitVec.ofNat 3 r.toNat) else none

/-- The condition of a code (R116). -/
def condOfCode : Nat → Option Cond
  | 0 => some .al
  | 1 => some .eq
  | 2 => some .ne
  | 3 => some .lt
  | 4 => some .ge
  | 5 => some .gt
  | 6 => some .le
  | 7 => some .lo
  | 8 => some .hs
  | 9 => some .hi
  | 10 => some .ls
  | 11 => some .mi
  | 12 => some .pl
  | 13 => some .vs
  | 14 => some .vc
  | 15 => some .tmo
  | 16 => some .nto
  | 17 => some .pv
  | 18 => some .npv
  | _ => none

/-- The code of a condition (R116). -/
def codeOfCond : Cond → Nat
  | .al => 0
  | .eq => 1
  | .ne => 2
  | .lt => 3
  | .ge => 4
  | .gt => 5
  | .le => 6
  | .lo => 7
  | .hs => 8
  | .hi => 9
  | .ls => 10
  | .mi => 11
  | .pl => 12
  | .vs => 13
  | .vc => 14
  | .tmo => 15
  | .nto => 16
  | .pv => 17
  | .npv => 18

/-- `x` where the condition holds. -/
def onlyIf (c : Bool) (x : Option Instr) : Option Instr := if c then x else none

/-- Opcode 0x01 (R101). -/
def decodeAlu (e : Nat) (d a b : Reg) (f : Nat) : Option Instr :=
  match f with
  | 0x000 => some (.add e d a b)
  | 0x001 => some (.sub e d a b)
  | 0x003 => some (.and e d a b)
  | 0x004 => some (.or e d a b)
  | 0x005 => some (.xor e d a b)
  | 0x006 => some (.sll e d a b)
  | 0x007 => some (.srl e d a b)
  | 0x008 => some (.sra e d a b)
  | 0x010 => some (.mul e d a b)
  | 0x011 => some (.mulhu e d a b)
  | 0x012 => some (.mulhs e d a b)
  | 0x014 => some (.divu e d a b)
  | 0x015 => some (.remu e d a b)
  | 0x020 => onlyIf (b == 0) (some (.clz e d a))
  | 0x021 => onlyIf (b == 0) (some (.popc e d a))
  | _ => none

/-- The shift SHI selects by imm16[7:6] (R102). -/
def shiftOfCode : Nat → Option ShiftOp
  | 0 => some .sll
  | 1 => some .srl
  | 2 => some .sra
  | _ => none

def codeOfShift : ShiftOp → Nat
  | .sll => 0
  | .srl => 1
  | .sra => 2

/-- SHI: imm16[15:8] must be zero (R102). -/
def decodeShi (e : Nat) (d a : Reg) (i : Imm16) : Option Instr :=
  onlyIf (i.toNat < 2 ^ 8)
    ((shiftOfCode (i.toNat / 2 ^ 6)).map fun op => .shi e d a op (BitVec.ofNat 6 i.toNat))

/-- Opcode 0x28 (R106). -/
def decodeTime (e : Nat) (d a b : Reg) (f : Nat) : Option Instr :=
  match f with
  | 0x000 => onlyIf (a == 0 && b == 0) ((asTReg d).map fun td => .tnow e td)
  | 0x001 => onlyIf (a == 0 && b == 0) (some (.tnowTk e d))
  | 0x002 => (asTReg d).bind fun td => (asTReg a).map fun t1 => .tadd e td t1 b
  | 0x003 => (asTReg a).bind fun t1 => (asTReg b).map fun t2 => .tsub e d t1 t2
  | 0x004 => onlyIf (d == 0) ((asTReg a).bind fun t1 => (asTReg b).map fun t2 => .tcmp e t1 t2)
  | 0x008 => (asTReg d).map fun td => .tcvtPack e td a b
  | 0x009 => onlyIf (b == 0) ((asTReg a).map fun t1 => .tcvtSec e d t1)
  | 0x00A => onlyIf (b == 0) ((asTReg a).map fun t1 => .tcvtLo e d t1)
  | 0x00B => onlyIf (b == 0) ((asTReg d).bind fun td => (asTReg a).map fun t1 => .tcvtMov e td t1)
  | _ => none

/-- Opcode 0x2C (R109). -/
def decodeTable (e : Nat) (d a b : Reg) (f : Nat) : Option Instr :=
  match f with
  | 0x000 => some (.tblSrch e d a b)
  | 0x001 => some (.tblNext e d a b)
  | 0x002 => some (.tblFlush e d a b)
  | 0x003 => some (.tblCmd e d a b)
  | _ => none

/-- Opcode 0x2D (R112). -/
def decodeFn (e : Nat) (d a b : Reg) (f : Nat) : Option Instr :=
  match f with
  | 0x000 => onlyIf (d == 0 && b == 0) (some (.fnStop e a))
  | 0x001 => onlyIf (b == 0) (some (.fnStart e d a))
  | 0x002 => onlyIf (b == 0) (some (.fnStat e d a))
  | _ => none

/-- MOVZ and MOVK: k in bits 17:16, bits 20:18 zero (R102). -/
def decodeMov (a : Reg) (mk : BitVec 2 → Instr) : Option Instr :=
  onlyIf (a.toNat < 4) (some (mk (BitVec.ofNat 2 a.toNat)))

/-- The instruction a 32-bit word spells on engine `e`; none for an ill-formed or unassigned word (R95, R96). -/
def decodeUmmus (e : Nat) (w : Word32) : Option Instr :=
  let d := Word32.rdF w
  let a := Word32.rs1F w
  let b := Word32.rs2F w
  let f := Word32.funct w
  let i := Word32.imm w
  match Word32.opcode w with
  | 0x00 => onlyIf (w == 0) (some (.nop e))
  | 0x01 => decodeAlu e d a b f
  | 0x02 => some (.addi e d a i)
  | 0x03 => some (.andi e d a i)
  | 0x04 => some (.ori e d a i)
  | 0x05 => some (.xori e d a i)
  | 0x06 => decodeShi e d a i
  | 0x07 => onlyIf (d == 0) (some (.cmpi e a i))
  | 0x08 => decodeMov a fun k => .movz e d i k
  | 0x09 => decodeMov a fun k => .movk e d i k
  | 0x10 => some (.ld8u e d a i)
  | 0x11 => some (.ld16u e d a i)
  | 0x12 => some (.ld32u e d a i)
  | 0x13 => some (.ld64 e d a i)
  | 0x14 => some (.ld8s e d a i)
  | 0x15 => some (.ld16s e d a i)
  | 0x16 => some (.ld32s e d a i)
  | 0x17 => some (.st8 e d a i)
  | 0x18 => some (.st16 e d a i)
  | 0x19 => some (.st32 e d a i)
  | 0x1A => some (.st64 e d a i)
  | 0x1B => (asTReg d).map fun td => .ldt e td a i
  | 0x1C => (asTReg d).map fun td => .stt e td a i
  | 0x20 => some (.fld32 e d a i)
  | 0x21 => some (.fld64 e d a i)
  | 0x22 => some (.fst32 e d a i)
  | 0x23 => some (.fst64 e d a i)
  | 0x24 => (asTReg d).map fun td => .fldt e td a i
  | 0x25 => (asTReg d).map fun td => .fstt e td a i
  | 0x28 => decodeTime e d a b f
  | 0x2C => decodeTable e d a b f
  | 0x2D => decodeFn e d a b f
  | 0x30 => onlyIf (a == 0) ((condOfCode d.toNat).map fun cc => .b e cc i)
  | 0x31 => onlyIf (a == 0) (some (.call e d i))
  | 0x32 => some (.jalr e d a i)
  | 0x33 =>
    match f with
    | 0 => some (.wait e d a b)
    | 1 => (asTReg b).map fun t2 => .waitT e d a t2
    | _ => none
  | 0x34 =>
    match f with
    | 0 => onlyIf (a == 0 && b == 0) (some (.rdf e d))
    | 1 => onlyIf (d == 0 && b == 0) (some (.wrf e a))
    | _ => none
  | 0x35 => onlyIf (d == 0 && a == 0 && decide (i.toNat < 2 ^ 6)) (some (.clf e (BitVec.ofNat 6 i.toNat)))
  | 0x38 => onlyIf (d == 0 && f == 0) (some (.send e a b))
  | 0x39 => onlyIf (f == 0) (some (.recv e d a b))
  | 0x3A => some (.mbx e d a i)
  | 0x3B => onlyIf (d == 0 && a == 0 && decide (i.toNat < 2 ^ 6)) (some (.trap e (BitVec.ofNat 6 i.toNat)))
  | 0x3C => onlyIf (d == 0 && a == 0 && i == 0) (some (.fence e))
  | 0x3D => onlyIf (d == 0 && a == 0 && i == 0) (some (.halt e))
  | _ => none

/-! ## The encoder -/

/-- An R-format word. -/
def wordR (op d a b f : Nat) : Word32 := BitVec.ofNat 32 (op * 2 ^ 26 + d * 2 ^ 21 + a * 2 ^ 16 + b * 2 ^ 11 + f)
/-- An I-format word. -/
def wordI (op d a i : Nat) : Word32 := BitVec.ofNat 32 (op * 2 ^ 26 + d * 2 ^ 21 + a * 2 ^ 16 + i)

/-- The word of an Ummus instruction; none for a command that is no instruction, and for ILLEGAL. -/
def encodeUmmus : Instr → Option Word32
  | .nop _ => some 0
  | .add _ d a b => some (wordR 0x01 d.toNat a.toNat b.toNat 0x000)
  | .sub _ d a b => some (wordR 0x01 d.toNat a.toNat b.toNat 0x001)
  | .and _ d a b => some (wordR 0x01 d.toNat a.toNat b.toNat 0x003)
  | .or _ d a b => some (wordR 0x01 d.toNat a.toNat b.toNat 0x004)
  | .xor _ d a b => some (wordR 0x01 d.toNat a.toNat b.toNat 0x005)
  | .sll _ d a b => some (wordR 0x01 d.toNat a.toNat b.toNat 0x006)
  | .srl _ d a b => some (wordR 0x01 d.toNat a.toNat b.toNat 0x007)
  | .sra _ d a b => some (wordR 0x01 d.toNat a.toNat b.toNat 0x008)
  | .mul _ d a b => some (wordR 0x01 d.toNat a.toNat b.toNat 0x010)
  | .mulhu _ d a b => some (wordR 0x01 d.toNat a.toNat b.toNat 0x011)
  | .mulhs _ d a b => some (wordR 0x01 d.toNat a.toNat b.toNat 0x012)
  | .divu _ d a b => some (wordR 0x01 d.toNat a.toNat b.toNat 0x014)
  | .remu _ d a b => some (wordR 0x01 d.toNat a.toNat b.toNat 0x015)
  | .clz _ d a => some (wordR 0x01 d.toNat a.toNat 0 0x020)
  | .popc _ d a => some (wordR 0x01 d.toNat a.toNat 0 0x021)
  | .addi _ d a i => some (wordI 0x02 d.toNat a.toNat i.toNat)
  | .andi _ d a i => some (wordI 0x03 d.toNat a.toNat i.toNat)
  | .ori _ d a i => some (wordI 0x04 d.toNat a.toNat i.toNat)
  | .xori _ d a i => some (wordI 0x05 d.toNat a.toNat i.toNat)
  | .shi _ d a op sh => some (wordI 0x06 d.toNat a.toNat (codeOfShift op * 2 ^ 6 + sh.toNat))
  | .cmpi _ a i => some (wordI 0x07 0 a.toNat i.toNat)
  | .movz _ d i k => some (wordI 0x08 d.toNat k.toNat i.toNat)
  | .movk _ d i k => some (wordI 0x09 d.toNat k.toNat i.toNat)
  | .ld8u _ d a i => some (wordI 0x10 d.toNat a.toNat i.toNat)
  | .ld16u _ d a i => some (wordI 0x11 d.toNat a.toNat i.toNat)
  | .ld32u _ d a i => some (wordI 0x12 d.toNat a.toNat i.toNat)
  | .ld64 _ d a i => some (wordI 0x13 d.toNat a.toNat i.toNat)
  | .ld8s _ d a i => some (wordI 0x14 d.toNat a.toNat i.toNat)
  | .ld16s _ d a i => some (wordI 0x15 d.toNat a.toNat i.toNat)
  | .ld32s _ d a i => some (wordI 0x16 d.toNat a.toNat i.toNat)
  | .st8 _ d a i => some (wordI 0x17 d.toNat a.toNat i.toNat)
  | .st16 _ d a i => some (wordI 0x18 d.toNat a.toNat i.toNat)
  | .st32 _ d a i => some (wordI 0x19 d.toNat a.toNat i.toNat)
  | .st64 _ d a i => some (wordI 0x1A d.toNat a.toNat i.toNat)
  | .ldt _ t a i => some (wordI 0x1B t.toNat a.toNat i.toNat)
  | .stt _ t a i => some (wordI 0x1C t.toNat a.toNat i.toNat)
  | .fld32 _ d a i => some (wordI 0x20 d.toNat a.toNat i.toNat)
  | .fld64 _ d a i => some (wordI 0x21 d.toNat a.toNat i.toNat)
  | .fst32 _ d a i => some (wordI 0x22 d.toNat a.toNat i.toNat)
  | .fst64 _ d a i => some (wordI 0x23 d.toNat a.toNat i.toNat)
  | .fldt _ t a i => some (wordI 0x24 t.toNat a.toNat i.toNat)
  | .fstt _ t a i => some (wordI 0x25 t.toNat a.toNat i.toNat)
  | .tnow _ t => some (wordR 0x28 t.toNat 0 0 0x000)
  | .tnowTk _ d => some (wordR 0x28 d.toNat 0 0 0x001)
  | .tadd _ t t1 b => some (wordR 0x28 t.toNat t1.toNat b.toNat 0x002)
  | .tsub _ d t1 t2 => some (wordR 0x28 d.toNat t1.toNat t2.toNat 0x003)
  | .tcmp _ t1 t2 => some (wordR 0x28 0 t1.toNat t2.toNat 0x004)
  | .tcvtPack _ t a b => some (wordR 0x28 t.toNat a.toNat b.toNat 0x008)
  | .tcvtSec _ d t1 => some (wordR 0x28 d.toNat t1.toNat 0 0x009)
  | .tcvtLo _ d t1 => some (wordR 0x28 d.toNat t1.toNat 0 0x00A)
  | .tcvtMov _ t t1 => some (wordR 0x28 t.toNat t1.toNat 0 0x00B)
  | .tblSrch _ d a b => some (wordR 0x2C d.toNat a.toNat b.toNat 0x000)
  | .tblNext _ d a b => some (wordR 0x2C d.toNat a.toNat b.toNat 0x001)
  | .tblFlush _ d a b => some (wordR 0x2C d.toNat a.toNat b.toNat 0x002)
  | .tblCmd _ d a b => some (wordR 0x2C d.toNat a.toNat b.toNat 0x003)
  | .fnStop _ a => some (wordR 0x2D 0 a.toNat 0 0x000)
  | .fnStart _ d a => some (wordR 0x2D d.toNat a.toNat 0 0x001)
  | .fnStat _ d a => some (wordR 0x2D d.toNat a.toNat 0 0x002)
  | .b _ cc i => some (wordI 0x30 (codeOfCond cc) 0 i.toNat)
  | .call _ d i => some (wordI 0x31 d.toNat 0 i.toNat)
  | .jalr _ d a i => some (wordI 0x32 d.toNat a.toNat i.toNat)
  | .wait _ d a b => some (wordR 0x33 d.toNat a.toNat b.toNat 0x000)
  | .waitT _ d a t2 => some (wordR 0x33 d.toNat a.toNat t2.toNat 0x001)
  | .rdf _ d => some (wordR 0x34 d.toNat 0 0 0x000)
  | .wrf _ a => some (wordR 0x34 0 a.toNat 0 0x001)
  | .clf _ m => some (wordI 0x35 0 0 m.toNat)
  | .send _ a b => some (wordR 0x38 0 a.toNat b.toNat 0)
  | .recv _ d a b => some (wordR 0x39 d.toNat a.toNat b.toNat 0)
  | .mbx _ d a i => some (wordI 0x3A d.toNat a.toNat i.toNat)
  | .trap _ n => some (wordI 0x3B 0 0 n.toNat)
  | .fence _ => some (wordI 0x3C 0 0 0)
  | .halt _ => some (wordI 0x3D 0 0 0)
  | _ => none

end Sys2Proof
end

