-- ==== Sys2Proof/Machine/Regs.lean ====
section
/-!
DEFINITION. The register maps of the spec, one descriptor for every field of every map (R17, R19, R21): its block, its
register's byte offset, its lowest bit and width, its access type and its reset value. An indexed register's
descriptor is a function of the index. The list of each block serves the generic accesses by address.
-/
namespace Sys2Proof.Machine

/-- The access types (R21). -/
inductive Acc where
  | ro | rwL | rwS | w1c | rc
  deriving DecidableEq, Repr

/-- One field of a register map (R19). -/
structure Fld where
  /-- block ID (R65); 0xFE for the host BAR, 0xFF never -/
  blk : Nat
  /-- byte offset of the register in its instance -/
  off : Nat
  /-- width of the register in bits -/
  regw : Nat
  /-- lowest bit of the field in its register -/
  lo : Nat
  /-- width of the field in bits -/
  w : Nat
  acc : Acc
  /-- the register exists on D0 only -/
  d0 : Bool
  /-- reset value, by part, die and instance -/
  rst : Part → Nat → Nat → Nat

/-- Where a field of one die's one instance is kept. -/
def Fld.key (f : Fld) (die inst : Nat) : Nat :=
  die * 2 ^ 44 + f.blk * 2 ^ 36 + inst % 2 ^ 9 * 2 ^ 27 + f.off * 2 ^ 7 + f.lo

/-- A register map's line: a field, or a family of `count` fields at a fixed stride. -/
structure FldRow where
  /-- first index -/
  first : Nat
  /-- one past the last index -/
  count : Nat
  stride : Nat
  fld : Nat → Fld


/-! SYS (02_ummus_model.md) -/

/-- SYS.ID.PART -/
def F.SYS.ID_PART : Fld := ⟨0x0, 0x0, 32, 16, 16, .ro, false, fun p _ _ => Config.partId p⟩

/-- SYS.ID.STEPPING -/
def F.SYS.ID_STEPPING : Fld := ⟨0x0, 0x0, 32, 8, 8, .ro, false, fun _ _ _ => Config.stepping.toNat⟩

/-- SYS.ID.DIE -/
def F.SYS.ID_DIE : Fld := ⟨0x0, 0x0, 32, 0, 3, .ro, false, fun _ d _ => d⟩

/-- SYS.ROMVER.MAJOR -/
def F.SYS.ROMVER_MAJOR : Fld := ⟨0x0, 0x4, 32, 16, 16, .ro, false, fun _ _ _ => Config.romMajor.toNat⟩

/-- SYS.ROMVER.MINOR -/
def F.SYS.ROMVER_MINOR : Fld := ⟨0x0, 0x4, 32, 0, 16, .ro, false, fun _ _ _ => Config.romMinor.toNat⟩

/-- SYS.PRESENT.DIE_MASK -/
def F.SYS.PRESENT_DIE_MASK : Fld := ⟨0x0, 0x8, 32, 0, 8, .ro, false, fun p _ _ => Config.dieMask p⟩

/-- SYS.OWN_CMD.BUSY -/
def F.SYS.OWN_CMD_BUSY : Fld := ⟨0x0, 0x10, 32, 31, 1, .ro, true, fun _ _ _ => 0⟩

/-- SYS.OWN_CMD.OP -/
def F.SYS.OWN_CMD_OP : Fld := ⟨0x0, 0x10, 32, 29, 2, .rwL, true, fun _ _ _ => 0⟩

/-- SYS.OWN_CMD.DIE -/
def F.SYS.OWN_CMD_DIE : Fld := ⟨0x0, 0x10, 32, 26, 3, .rwL, true, fun _ _ _ => 0⟩

/-- SYS.OWN_CMD.BLOCK -/
def F.SYS.OWN_CMD_BLOCK : Fld := ⟨0x0, 0x10, 32, 18, 8, .rwL, true, fun _ _ _ => 0⟩

/-- SYS.OWN_CMD.INSTANCE -/
def F.SYS.OWN_CMD_INSTANCE : Fld := ⟨0x0, 0x10, 32, 9, 9, .rwL, true, fun _ _ _ => 0⟩

/-- SYS.OWN_CMD.PART -/
def F.SYS.OWN_CMD_PART : Fld := ⟨0x0, 0x10, 32, 7, 2, .rwL, true, fun _ _ _ => 0⟩

/-- SYS.OWN_CMD.STATUS -/
def F.SYS.OWN_CMD_STATUS : Fld := ⟨0x0, 0x10, 32, 4, 3, .ro, true, fun _ _ _ => 0⟩

/-- SYS.POLICY.ALLOW -/
def F.SYS.POLICY_ALLOW : Fld := ⟨0x0, 0x14, 32, 0, 16, .rwL, true, fun _ _ _ => 0x8421⟩

def F.SYS.rows0 : List FldRow :=
  [⟨0, 1, 0, fun _ => F.SYS.ID_PART⟩,
   ⟨0, 1, 0, fun _ => F.SYS.ID_STEPPING⟩,
   ⟨0, 1, 0, fun _ => F.SYS.ID_DIE⟩,
   ⟨0, 1, 0, fun _ => F.SYS.ROMVER_MAJOR⟩,
   ⟨0, 1, 0, fun _ => F.SYS.ROMVER_MINOR⟩,
   ⟨0, 1, 0, fun _ => F.SYS.PRESENT_DIE_MASK⟩,
   ⟨0, 1, 0, fun _ => F.SYS.OWN_CMD_BUSY⟩,
   ⟨0, 1, 0, fun _ => F.SYS.OWN_CMD_OP⟩,
   ⟨0, 1, 0, fun _ => F.SYS.OWN_CMD_DIE⟩,
   ⟨0, 1, 0, fun _ => F.SYS.OWN_CMD_BLOCK⟩,
   ⟨0, 1, 0, fun _ => F.SYS.OWN_CMD_INSTANCE⟩,
   ⟨0, 1, 0, fun _ => F.SYS.OWN_CMD_PART⟩]

def F.SYS.rows1 : List FldRow :=
  [⟨0, 1, 0, fun _ => F.SYS.OWN_CMD_STATUS⟩,
   ⟨0, 1, 0, fun _ => F.SYS.POLICY_ALLOW⟩]

/-- The map of SYS. -/
def F.SYS.rows : List FldRow := F.SYS.rows0 ++ F.SYS.rows1

/-! ENG (02_ummus_model.md) -/

/-- ENG.CTRL.START_PC -/
def F.ENG.CTRL_START_PC : Fld := ⟨0x1, 0x0, 32, 2, 14, .rwS, false, fun _ _ _ => 0⟩

/-- ENG.STATUS.LAST_PC -/
def F.ENG.STATUS_LAST_PC : Fld := ⟨0x1, 0x4, 32, 16, 16, .ro, false, fun _ _ _ => 0⟩

/-- ENG.STATUS.TRAP_CAUSE -/
def F.ENG.STATUS_TRAP_CAUSE : Fld := ⟨0x1, 0x4, 32, 8, 8, .ro, false, fun _ _ _ => 0⟩

/-- ENG.ERR.EVMAP_REF -/
def F.ENG.ERR_EVMAP_REF : Fld := ⟨0x1, 0x8, 32, 2, 1, .w1c, false, fun _ _ _ => 0⟩

/-- ENG.ERR.DMEM_ECC_CORR -/
def F.ENG.ERR_DMEM_ECC_CORR : Fld := ⟨0x1, 0x8, 32, 1, 1, .w1c, false, fun _ _ _ => 0⟩

/-- ENG.ERR.IMEM_ECC_CORR -/
def F.ENG.ERR_IMEM_ECC_CORR : Fld := ⟨0x1, 0x8, 32, 0, 1, .w1c, false, fun _ _ _ => 0⟩

/-- ENG.SIGNAL.WORD -/
def F.ENG.SIGNAL_WORD : Fld := ⟨0x1, 0xC, 32, 0, 32, .rwL, false, fun _ _ _ => 0⟩

def F.ENG.rows0 : List FldRow :=
  [⟨0, 1, 0, fun _ => F.ENG.CTRL_START_PC⟩,
   ⟨0, 1, 0, fun _ => F.ENG.STATUS_LAST_PC⟩,
   ⟨0, 1, 0, fun _ => F.ENG.STATUS_TRAP_CAUSE⟩,
   ⟨0, 1, 0, fun _ => F.ENG.ERR_EVMAP_REF⟩,
   ⟨0, 1, 0, fun _ => F.ENG.ERR_DMEM_ECC_CORR⟩,
   ⟨0, 1, 0, fun _ => F.ENG.ERR_IMEM_ECC_CORR⟩,
   ⟨0, 1, 0, fun _ => F.ENG.SIGNAL_WORD⟩]

/-- The map of ENG. -/
def F.ENG.rows : List FldRow := F.ENG.rows0

/-! BLOCK: the common registers of every instance (R66, R81); `b` is the block ID. -/

/-- BLOCK.FSTATE.START_ERR (02_ummus_model.md) -/
def F.BLOCK.FSTATE_START_ERR (b : Nat) : Fld := ⟨b, 0xFFF00, 32, 16, 8, .ro, false, fun _ _ _ => 0⟩

/-- BLOCK.FSTATE.FAULT_CODE (02_ummus_model.md) -/
def F.BLOCK.FSTATE_FAULT_CODE (b : Nat) : Fld := ⟨b, 0xFFF00, 32, 8, 8, .ro, false, fun _ _ _ => 0⟩

/-- BLOCK.FSTATE.OWNER (02_ummus_model.md) -/
def F.BLOCK.FSTATE_OWNER (b : Nat) : Fld := ⟨b, 0xFFF00, 32, 2, 2, .ro, false, fun _ _ _ => 0⟩

/-- BLOCK.FSTATE.STATE (02_ummus_model.md) -/
def F.BLOCK.FSTATE_STATE (b : Nat) : Fld := ⟨b, 0xFFF00, 32, 0, 2, .ro, false, fun _ _ _ => if b = 0x00 ∨ b = 0x04 then 1 else 0⟩

/-- BLOCK.CFLAGS.DRAIN_FORCED (02_ummus_model.md) -/
def F.BLOCK.CFLAGS_DRAIN_FORCED (b : Nat) : Fld := ⟨b, 0xFFF04, 32, 4, 1, .w1c, false, fun _ _ _ => 0⟩

/-- BLOCK.CFLAGS.ECC_CORR (02_ummus_model.md) -/
def F.BLOCK.CFLAGS_ECC_CORR (b : Nat) : Fld := ⟨b, 0xFFF04, 32, 3, 1, .w1c, false, fun _ _ _ => 0⟩

/-- BLOCK.CFLAGS.FAULT_SEEN (02_ummus_model.md) -/
def F.BLOCK.CFLAGS_FAULT_SEEN (b : Nat) : Fld := ⟨b, 0xFFF04, 32, 2, 1, .w1c, false, fun _ _ _ => 0⟩

/-- BLOCK.CFLAGS.START_REFUSED (02_ummus_model.md) -/
def F.BLOCK.CFLAGS_START_REFUSED (b : Nat) : Fld := ⟨b, 0xFFF04, 32, 1, 1, .w1c, false, fun _ _ _ => 0⟩

/-- BLOCK.CFLAGS.SWR_IGN (02_ummus_model.md) -/
def F.BLOCK.CFLAGS_SWR_IGN (b : Nat) : Fld := ⟨b, 0xFFF04, 32, 0, 1, .w1c, false, fun _ _ _ => 0⟩

/-- The common registers as lines of a map. -/
def F.BLOCK.rows (b : Nat) : List FldRow :=
  [⟨0, 1, 0, fun _ => F.BLOCK.FSTATE_START_ERR b⟩,
   ⟨0, 1, 0, fun _ => F.BLOCK.FSTATE_FAULT_CODE b⟩,
   ⟨0, 1, 0, fun _ => F.BLOCK.FSTATE_OWNER b⟩,
   ⟨0, 1, 0, fun _ => F.BLOCK.FSTATE_STATE b⟩,
   ⟨0, 1, 0, fun _ => F.BLOCK.CFLAGS_DRAIN_FORCED b⟩,
   ⟨0, 1, 0, fun _ => F.BLOCK.CFLAGS_ECC_CORR b⟩,
   ⟨0, 1, 0, fun _ => F.BLOCK.CFLAGS_FAULT_SEEN b⟩,
   ⟨0, 1, 0, fun _ => F.BLOCK.CFLAGS_START_REFUSED b⟩,
   ⟨0, 1, 0, fun _ => F.BLOCK.CFLAGS_SWR_IGN b⟩]

/-! HBAR (04_hosts_and_partitions.md) -/

/-- HBAR.ID.PART -/
def F.HBAR.ID_PART : Fld := ⟨0xFE, 0x0, 32, 16, 16, .ro, false, fun p _ _ => Config.partId p⟩

/-- HBAR.ID.STEPPING -/
def F.HBAR.ID_STEPPING : Fld := ⟨0xFE, 0x0, 32, 8, 8, .ro, false, fun _ _ _ => Config.stepping.toNat⟩

/-- HBAR.ID.DIE -/
def F.HBAR.ID_DIE : Fld := ⟨0xFE, 0x0, 32, 5, 3, .ro, false, fun p d _ => Config.hostDie p d⟩

/-- HBAR.ID.PARTITION -/
def F.HBAR.ID_PARTITION : Fld := ⟨0xFE, 0x0, 32, 0, 2, .ro, false, fun _ d _ => d⟩

/-- HBAR.STATE.OWNED -/
def F.HBAR.STATE_OWNED : Fld := ⟨0xFE, 0x4, 32, 2, 1, .ro, false, fun _ d _ => if d = 0 then 1 else 0⟩

/-- HBAR.STATE.STATE -/
def F.HBAR.STATE_STATE : Fld := ⟨0xFE, 0x4, 32, 0, 2, .ro, false, fun _ _ _ => 0⟩

/-- HBAR.LOAD_ADDR.ADDR -/
def F.HBAR.LOAD_ADDR_ADDR : Fld := ⟨0xFE, 0x8, 64, 4, 60, .rwL, false, fun _ _ _ => 0⟩

/-- HBAR.LOAD_CMD.GO -/
def F.HBAR.LOAD_CMD_GO : Fld := ⟨0xFE, 0x10, 32, 31, 1, .rwL, false, fun _ _ _ => 0⟩

/-- HBAR.LOAD_CMD.SRC -/
def F.HBAR.LOAD_CMD_SRC : Fld := ⟨0xFE, 0x10, 32, 30, 1, .rwL, false, fun _ _ _ => 0⟩

/-- HBAR.LOAD_STATUS.BUSY -/
def F.HBAR.LOAD_STATUS_BUSY : Fld := ⟨0xFE, 0x14, 32, 31, 1, .ro, false, fun _ _ _ => 0⟩

/-- HBAR.LOAD_STATUS.SEG -/
def F.HBAR.LOAD_STATUS_SEG : Fld := ⟨0xFE, 0x14, 32, 16, 8, .ro, false, fun _ _ _ => 0⟩

/-- HBAR.LOAD_STATUS.CODE -/
def F.HBAR.LOAD_STATUS_CODE : Fld := ⟨0xFE, 0x14, 32, 0, 8, .ro, false, fun _ _ _ => 0⟩

/-- HBAR.MBI_POST.SVC -/
def F.HBAR.MBI_POST_SVC : Fld := ⟨0xFE, 0x20, 32, 31, 1, .rwL, false, fun _ _ _ => 0⟩

/-- HBAR.MBI_POST.SLOT -/
def F.HBAR.MBI_POST_SLOT : Fld := ⟨0xFE, 0x20, 32, 16, 4, .rwL, false, fun _ _ _ => 0⟩

/-- HBAR.MBI_POST.LEN -/
def F.HBAR.MBI_POST_LEN : Fld := ⟨0xFE, 0x20, 32, 0, 9, .rwL, false, fun _ _ _ => 0⟩

/-- HBAR.MBI_FREE.FREE -/
def F.HBAR.MBI_FREE_FREE : Fld := ⟨0xFE, 0x24, 32, 0, 16, .ro, false, fun _ _ _ => 0xffff⟩

/-- HBAR.MBO_TAKE.VALID -/
def F.HBAR.MBO_TAKE_VALID : Fld := ⟨0xFE, 0x28, 32, 31, 1, .rc, false, fun _ _ _ => 0⟩

/-- HBAR.MBO_TAKE.SVC -/
def F.HBAR.MBO_TAKE_SVC : Fld := ⟨0xFE, 0x28, 32, 30, 1, .rc, false, fun _ _ _ => 0⟩

/-- HBAR.MBO_TAKE.SLOT -/
def F.HBAR.MBO_TAKE_SLOT : Fld := ⟨0xFE, 0x28, 32, 16, 4, .rc, false, fun _ _ _ => 0⟩

/-- HBAR.MBO_TAKE.LEN -/
def F.HBAR.MBO_TAKE_LEN : Fld := ⟨0xFE, 0x28, 32, 0, 9, .rc, false, fun _ _ _ => 0⟩

/-- HBAR.MBO_FREE.SLOT -/
def F.HBAR.MBO_FREE_SLOT : Fld := ⟨0xFE, 0x2C, 32, 0, 4, .rwL, false, fun _ _ _ => 0⟩

/-- HBAR.IRQ.MB_ERR -/
def F.HBAR.IRQ_MB_ERR : Fld := ⟨0xFE, 0x30, 32, 5, 1, .w1c, false, fun _ _ _ => 0⟩

/-- HBAR.IRQ.STATE_CHG -/
def F.HBAR.IRQ_STATE_CHG : Fld := ⟨0xFE, 0x30, 32, 4, 1, .w1c, false, fun _ _ _ => 0⟩

/-- HBAR.IRQ.DB_ERR -/
def F.HBAR.IRQ_DB_ERR : Fld := ⟨0xFE, 0x30, 32, 3, 1, .w1c, false, fun _ _ _ => 0⟩

/-- HBAR.IRQ.LOAD_DONE -/
def F.HBAR.IRQ_LOAD_DONE : Fld := ⟨0xFE, 0x30, 32, 2, 1, .w1c, false, fun _ _ _ => 0⟩

/-- HBAR.IRQ.MBI_FREED -/
def F.HBAR.IRQ_MBI_FREED : Fld := ⟨0xFE, 0x30, 32, 1, 1, .w1c, false, fun _ _ _ => 0⟩

/-- HBAR.IRQ.MBO_NEW -/
def F.HBAR.IRQ_MBO_NEW : Fld := ⟨0xFE, 0x30, 32, 0, 1, .w1c, false, fun _ _ _ => 0⟩

/-- HBAR.DB_TX_k.PROD -/
def F.HBAR.DB_TX_PROD (k : Nat) : Fld := ⟨0xFE, 0x100 + k * 8, 32, 0, 16, .rwL, false, fun _ _ _ => 0⟩

/-- HBAR.DB_RX_k.PROD -/
def F.HBAR.DB_RX_PROD (k : Nat) : Fld := ⟨0xFE, 0x104 + k * 8, 32, 0, 16, .rwL, false, fun _ _ _ => 0⟩

/-- HBAR.CONS_k.RX_CONS -/
def F.HBAR.CONS_RX_CONS (k : Nat) : Fld := ⟨0xFE, 0x200 + k * 4, 32, 16, 16, .ro, false, fun _ _ _ => 0⟩

/-- HBAR.CONS_k.TX_CONS -/
def F.HBAR.CONS_TX_CONS (k : Nat) : Fld := ⟨0xFE, 0x200 + k * 4, 32, 0, 16, .ro, false, fun _ _ _ => 0⟩

def F.HBAR.rows0 : List FldRow :=
  [⟨0, 1, 0, fun _ => F.HBAR.ID_PART⟩,
   ⟨0, 1, 0, fun _ => F.HBAR.ID_STEPPING⟩,
   ⟨0, 1, 0, fun _ => F.HBAR.ID_DIE⟩,
   ⟨0, 1, 0, fun _ => F.HBAR.ID_PARTITION⟩,
   ⟨0, 1, 0, fun _ => F.HBAR.STATE_OWNED⟩,
   ⟨0, 1, 0, fun _ => F.HBAR.STATE_STATE⟩,
   ⟨0, 1, 0, fun _ => F.HBAR.LOAD_ADDR_ADDR⟩,
   ⟨0, 1, 0, fun _ => F.HBAR.LOAD_CMD_GO⟩,
   ⟨0, 1, 0, fun _ => F.HBAR.LOAD_CMD_SRC⟩,
   ⟨0, 1, 0, fun _ => F.HBAR.LOAD_STATUS_BUSY⟩,
   ⟨0, 1, 0, fun _ => F.HBAR.LOAD_STATUS_SEG⟩,
   ⟨0, 1, 0, fun _ => F.HBAR.LOAD_STATUS_CODE⟩]

def F.HBAR.rows1 : List FldRow :=
  [⟨0, 1, 0, fun _ => F.HBAR.MBI_POST_SVC⟩,
   ⟨0, 1, 0, fun _ => F.HBAR.MBI_POST_SLOT⟩,
   ⟨0, 1, 0, fun _ => F.HBAR.MBI_POST_LEN⟩,
   ⟨0, 1, 0, fun _ => F.HBAR.MBI_FREE_FREE⟩,
   ⟨0, 1, 0, fun _ => F.HBAR.MBO_TAKE_VALID⟩,
   ⟨0, 1, 0, fun _ => F.HBAR.MBO_TAKE_SVC⟩,
   ⟨0, 1, 0, fun _ => F.HBAR.MBO_TAKE_SLOT⟩,
   ⟨0, 1, 0, fun _ => F.HBAR.MBO_TAKE_LEN⟩,
   ⟨0, 1, 0, fun _ => F.HBAR.MBO_FREE_SLOT⟩,
   ⟨0, 1, 0, fun _ => F.HBAR.IRQ_MB_ERR⟩,
   ⟨0, 1, 0, fun _ => F.HBAR.IRQ_STATE_CHG⟩,
   ⟨0, 1, 0, fun _ => F.HBAR.IRQ_DB_ERR⟩]

def F.HBAR.rows2 : List FldRow :=
  [⟨0, 1, 0, fun _ => F.HBAR.IRQ_LOAD_DONE⟩,
   ⟨0, 1, 0, fun _ => F.HBAR.IRQ_MBI_FREED⟩,
   ⟨0, 1, 0, fun _ => F.HBAR.IRQ_MBO_NEW⟩,
   ⟨0, 16, 8, F.HBAR.DB_TX_PROD⟩,
   ⟨0, 16, 8, F.HBAR.DB_RX_PROD⟩,
   ⟨0, 16, 4, F.HBAR.CONS_RX_CONS⟩,
   ⟨0, 16, 4, F.HBAR.CONS_TX_CONS⟩]

/-- The map of HBAR. -/
def F.HBAR.rows : List FldRow := F.HBAR.rows0 ++ F.HBAR.rows1 ++ F.HBAR.rows2

/-! HOST (04_hosts_and_partitions.md) -/

/-- HOST.LINK.UP -/
def F.HOST.LINK_UP : Fld := ⟨0x2, 0x0, 32, 31, 1, .ro, false, fun _ _ _ => 0⟩

/-- HOST.LINK.SPEED -/
def F.HOST.LINK_SPEED : Fld := ⟨0x2, 0x0, 32, 20, 4, .ro, false, fun _ _ _ => 0⟩

/-- HOST.LINK.WIDTH -/
def F.HOST.LINK_WIDTH : Fld := ⟨0x2, 0x0, 32, 16, 4, .ro, false, fun _ _ _ => 0⟩

/-- HOST.ERR.RING_CFG -/
def F.HOST.ERR_RING_CFG : Fld := ⟨0x2, 0x4, 32, 4, 1, .w1c, false, fun _ _ _ => 0⟩

/-- HOST.ERR.MBI_FREE_BAD -/
def F.HOST.ERR_MBI_FREE_BAD : Fld := ⟨0x2, 0x4, 32, 3, 1, .w1c, false, fun _ _ _ => 0⟩

/-- HOST.ERR.DMA_ERR -/
def F.HOST.ERR_DMA_ERR : Fld := ⟨0x2, 0x4, 32, 2, 1, .w1c, false, fun _ _ _ => 0⟩

/-- HOST.ERR.DB_RANGE -/
def F.HOST.ERR_DB_RANGE : Fld := ⟨0x2, 0x4, 32, 1, 1, .w1c, false, fun _ _ _ => 0⟩

/-- HOST.ERR.LINK_RESET -/
def F.HOST.ERR_LINK_RESET : Fld := ⟨0x2, 0x4, 32, 0, 1, .w1c, false, fun _ _ _ => 0⟩

/-- HOST.MBI_TAKE.VALID -/
def F.HOST.MBI_TAKE_VALID : Fld := ⟨0x2, 0x10, 32, 31, 1, .rc, false, fun _ _ _ => 0⟩

/-- HOST.MBI_TAKE.SLOT -/
def F.HOST.MBI_TAKE_SLOT : Fld := ⟨0x2, 0x10, 32, 16, 4, .rc, false, fun _ _ _ => 0⟩

/-- HOST.MBI_TAKE.LEN -/
def F.HOST.MBI_TAKE_LEN : Fld := ⟨0x2, 0x10, 32, 0, 9, .rc, false, fun _ _ _ => 0⟩

/-- HOST.MBI_FREE.SLOT -/
def F.HOST.MBI_FREE_SLOT : Fld := ⟨0x2, 0x14, 32, 0, 4, .rwL, false, fun _ _ _ => 0⟩

/-- HOST.SVC_TAKE.VALID -/
def F.HOST.SVC_TAKE_VALID : Fld := ⟨0x2, 0x20, 32, 31, 1, .rc, true, fun _ _ _ => 0⟩

/-- HOST.SVC_TAKE.SRC -/
def F.HOST.SVC_TAKE_SRC : Fld := ⟨0x2, 0x20, 32, 24, 2, .rc, true, fun _ _ _ => 0⟩

/-- HOST.SVC_TAKE.SLOT -/
def F.HOST.SVC_TAKE_SLOT : Fld := ⟨0x2, 0x20, 32, 16, 3, .rc, true, fun _ _ _ => 0⟩

/-- HOST.SVC_TAKE.LEN -/
def F.HOST.SVC_TAKE_LEN : Fld := ⟨0x2, 0x20, 32, 0, 9, .rc, true, fun _ _ _ => 0⟩

/-- HOST.SVC_REPLY.DEST -/
def F.HOST.SVC_REPLY_DEST : Fld := ⟨0x2, 0x28, 64, 62, 2, .rwL, true, fun _ _ _ => 0⟩

/-- HOST.SVC_REPLY.SLOT -/
def F.HOST.SVC_REPLY_SLOT : Fld := ⟨0x2, 0x28, 64, 59, 3, .rwL, true, fun _ _ _ => 0⟩

/-- HOST.SVC_REPLY.WORD -/
def F.HOST.SVC_REPLY_WORD : Fld := ⟨0x2, 0x28, 64, 0, 59, .rwL, true, fun _ _ _ => 0⟩

/-- HOST.GRANT_k.HIST, k from 1 -/
def F.HOST.GRANT_HIST (k : Nat) : Fld := ⟨0x2, 0x100 + k * 4, 32, 16, 8, .rwL, true, fun _ _ _ => 0⟩

/-- HOST.GRANT_k.PORTS, k from 1 -/
def F.HOST.GRANT_PORTS (k : Nat) : Fld := ⟨0x2, 0x100 + k * 4, 32, 8, 8, .rwL, true, fun _ _ _ => 0⟩

/-- HOST.GRANT_k.PERF, k from 1 -/
def F.HOST.GRANT_PERF (k : Nat) : Fld := ⟨0x2, 0x100 + k * 4, 32, 0, 8, .rwL, true, fun _ _ _ => 0⟩

/-- HOST.RING_TXBASE_k.BASE -/
def F.HOST.RING_TXBASE_BASE (k : Nat) : Fld := ⟨0x2, 0x1000 + k * 64, 64, 5, 59, .rwL, false, fun _ _ _ => 0⟩

/-- HOST.RING_RXBASE_k.BASE -/
def F.HOST.RING_RXBASE_BASE (k : Nat) : Fld := ⟨0x2, 0x1008 + k * 64, 64, 5, 59, .rwL, false, fun _ _ _ => 0⟩

/-- HOST.RING_CFG_k.TX_EN -/
def F.HOST.RING_CFG_TX_EN (k : Nat) : Fld := ⟨0x2, 0x1010 + k * 64, 32, 31, 1, .rwL, false, fun _ _ _ => 0⟩

/-- HOST.RING_CFG_k.RX_EN -/
def F.HOST.RING_CFG_RX_EN (k : Nat) : Fld := ⟨0x2, 0x1010 + k * 64, 32, 30, 1, .rwL, false, fun _ _ _ => 0⟩

/-- HOST.RING_CFG_k.TX_LOG2 -/
def F.HOST.RING_CFG_TX_LOG2 (k : Nat) : Fld := ⟨0x2, 0x1010 + k * 64, 32, 20, 4, .rwL, false, fun _ _ _ => 6⟩

/-- HOST.RING_CFG_k.RX_LOG2 -/
def F.HOST.RING_CFG_RX_LOG2 (k : Nat) : Fld := ⟨0x2, 0x1010 + k * 64, 32, 16, 4, .rwL, false, fun _ _ _ => 6⟩

/-- HOST.RING_CFG_k.INJ_PCP -/
def F.HOST.RING_CFG_INJ_PCP (k : Nat) : Fld := ⟨0x2, 0x1010 + k * 64, 32, 12, 3, .rwL, false, fun _ _ _ => 0⟩

/-- HOST.RING_CFG_k.INJ_VID -/
def F.HOST.RING_CFG_INJ_VID (k : Nat) : Fld := ⟨0x2, 0x1010 + k * 64, 32, 0, 12, .rwL, false, fun _ _ _ => 1⟩

/-- HOST.RING_DROPS_k.COUNT -/
def F.HOST.RING_DROPS_COUNT (k : Nat) : Fld := ⟨0x2, 0x1018 + k * 64, 32, 0, 32, .rc, false, fun _ _ _ => 0⟩

def F.HOST.rows0 : List FldRow :=
  [⟨0, 1, 0, fun _ => F.HOST.LINK_UP⟩,
   ⟨0, 1, 0, fun _ => F.HOST.LINK_SPEED⟩,
   ⟨0, 1, 0, fun _ => F.HOST.LINK_WIDTH⟩,
   ⟨0, 1, 0, fun _ => F.HOST.ERR_RING_CFG⟩,
   ⟨0, 1, 0, fun _ => F.HOST.ERR_MBI_FREE_BAD⟩,
   ⟨0, 1, 0, fun _ => F.HOST.ERR_DMA_ERR⟩,
   ⟨0, 1, 0, fun _ => F.HOST.ERR_DB_RANGE⟩,
   ⟨0, 1, 0, fun _ => F.HOST.ERR_LINK_RESET⟩,
   ⟨0, 1, 0, fun _ => F.HOST.MBI_TAKE_VALID⟩,
   ⟨0, 1, 0, fun _ => F.HOST.MBI_TAKE_SLOT⟩,
   ⟨0, 1, 0, fun _ => F.HOST.MBI_TAKE_LEN⟩,
   ⟨0, 1, 0, fun _ => F.HOST.MBI_FREE_SLOT⟩]

def F.HOST.rows1 : List FldRow :=
  [⟨0, 1, 0, fun _ => F.HOST.SVC_TAKE_VALID⟩,
   ⟨0, 1, 0, fun _ => F.HOST.SVC_TAKE_SRC⟩,
   ⟨0, 1, 0, fun _ => F.HOST.SVC_TAKE_SLOT⟩,
   ⟨0, 1, 0, fun _ => F.HOST.SVC_TAKE_LEN⟩,
   ⟨0, 1, 0, fun _ => F.HOST.SVC_REPLY_DEST⟩,
   ⟨0, 1, 0, fun _ => F.HOST.SVC_REPLY_SLOT⟩,
   ⟨0, 1, 0, fun _ => F.HOST.SVC_REPLY_WORD⟩,
   ⟨1, 4, 4, F.HOST.GRANT_HIST⟩,
   ⟨1, 4, 4, F.HOST.GRANT_PORTS⟩,
   ⟨1, 4, 4, F.HOST.GRANT_PERF⟩,
   ⟨0, 16, 64, F.HOST.RING_TXBASE_BASE⟩,
   ⟨0, 16, 64, F.HOST.RING_RXBASE_BASE⟩]

def F.HOST.rows2 : List FldRow :=
  [⟨0, 16, 64, F.HOST.RING_CFG_TX_EN⟩,
   ⟨0, 16, 64, F.HOST.RING_CFG_RX_EN⟩,
   ⟨0, 16, 64, F.HOST.RING_CFG_TX_LOG2⟩,
   ⟨0, 16, 64, F.HOST.RING_CFG_RX_LOG2⟩,
   ⟨0, 16, 64, F.HOST.RING_CFG_INJ_PCP⟩,
   ⟨0, 16, 64, F.HOST.RING_CFG_INJ_VID⟩,
   ⟨0, 16, 64, F.HOST.RING_DROPS_COUNT⟩]

/-- The map of HOST. -/
def F.HOST.rows : List FldRow := F.HOST.rows0 ++ F.HOST.rows1 ++ F.HOST.rows2

/-! SEC (05_bringup_and_access.md) -/

/-- SEC.LC.CONFIRM -/
def F.SEC.LC_CONFIRM : Fld := ⟨0x4, 0x0, 32, 16, 8, .rwL, false, fun _ _ _ => 0⟩

/-- SEC.LC.TARGET -/
def F.SEC.LC_TARGET : Fld := ⟨0x4, 0x0, 32, 8, 4, .rwL, false, fun _ _ _ => 0⟩

/-- SEC.LC.ADV_STATUS -/
def F.SEC.LC_ADV_STATUS : Fld := ⟨0x4, 0x0, 32, 4, 4, .ro, false, fun _ _ _ => 0⟩

/-- SEC.LC.STATE -/
def F.SEC.LC_STATE : Fld := ⟨0x4, 0x0, 32, 0, 4, .ro, false, fun _ _ _ => 1⟩

/-- SEC.BOOT.DONE -/
def F.SEC.BOOT_DONE : Fld := ⟨0x4, 0x4, 32, 31, 1, .ro, false, fun _ _ _ => 0⟩

/-- SEC.BOOT.BOOT_SEL -/
def F.SEC.BOOT_BOOT_SEL : Fld := ⟨0x4, 0x4, 32, 24, 2, .ro, false, fun _ _ _ => 0⟩

/-- SEC.BOOT.SLOT -/
def F.SEC.BOOT_SLOT : Fld := ⟨0x4, 0x4, 32, 20, 2, .ro, false, fun _ _ _ => 0⟩

/-- SEC.BOOT.CODE_B -/
def F.SEC.BOOT_CODE_B : Fld := ⟨0x4, 0x4, 32, 8, 8, .ro, false, fun _ _ _ => 0xff⟩

/-- SEC.BOOT.CODE_A -/
def F.SEC.BOOT_CODE_A : Fld := ⟨0x4, 0x4, 32, 0, 8, .ro, false, fun _ _ _ => 0xff⟩

/-- SEC.KEY_CMD.BUSY -/
def F.SEC.KEY_CMD_BUSY : Fld := ⟨0x4, 0x10, 32, 31, 1, .ro, false, fun _ _ _ => 0⟩

/-- SEC.KEY_CMD.OP -/
def F.SEC.KEY_CMD_OP : Fld := ⟨0x4, 0x10, 32, 28, 3, .rwL, false, fun _ _ _ => 0⟩

/-- SEC.KEY_CMD.SLOT -/
def F.SEC.KEY_CMD_SLOT : Fld := ⟨0x4, 0x10, 32, 26, 2, .rwL, false, fun _ _ _ => 0⟩

/-- SEC.KEY_CMD.STATUS -/
def F.SEC.KEY_CMD_STATUS : Fld := ⟨0x4, 0x10, 32, 16, 3, .ro, false, fun _ _ _ => 0⟩

/-- SEC.KEY_CMD.LEN -/
def F.SEC.KEY_CMD_LEN : Fld := ⟨0x4, 0x10, 32, 0, 7, .rwL, false, fun _ _ _ => 0⟩

/-- SEC.KEY_STATE.PWD -/
def F.SEC.KEY_STATE_PWD : Fld := ⟨0x4, 0x14, 32, 9, 1, .ro, false, fun _ _ _ => 0⟩

/-- SEC.KEY_STATE.DBG_SECRET -/
def F.SEC.KEY_STATE_DBG_SECRET : Fld := ⟨0x4, 0x14, 32, 8, 1, .ro, false, fun _ _ _ => 0⟩

/-- SEC.KEY_STATE.SLOTS -/
def F.SEC.KEY_STATE_SLOTS : Fld := ⟨0x4, 0x14, 32, 0, 8, .ro, false, fun _ _ _ => 0⟩

/-- SEC.KEY_ID_k.KEY_ID -/
def F.SEC.KEY_ID_KEY_ID (k : Nat) : Fld := ⟨0x4, 0x20 + k * 8, 64, 0, 64, .ro, false, fun _ _ _ => 0⟩

/-- SEC.ROLLBACK.BUSY -/
def F.SEC.ROLLBACK_BUSY : Fld := ⟨0x4, 0x40, 32, 31, 1, .ro, false, fun _ _ _ => 0⟩

/-- SEC.ROLLBACK.STATUS -/
def F.SEC.ROLLBACK_STATUS : Fld := ⟨0x4, 0x40, 32, 28, 3, .ro, false, fun _ _ _ => 0⟩

/-- SEC.ROLLBACK.NEW -/
def F.SEC.ROLLBACK_NEW : Fld := ⟨0x4, 0x40, 32, 16, 9, .rwL, false, fun _ _ _ => 0⟩

/-- SEC.ROLLBACK.COUNT -/
def F.SEC.ROLLBACK_COUNT : Fld := ⟨0x4, 0x40, 32, 0, 9, .ro, false, fun _ _ _ => 0⟩

/-- SEC.DBG.RELOCK -/
def F.SEC.DBG_RELOCK : Fld := ⟨0x4, 0x48, 32, 9, 1, .rwL, false, fun _ _ _ => 0⟩

/-- SEC.DBG.FAILS_CLR -/
def F.SEC.DBG_FAILS_CLR : Fld := ⟨0x4, 0x48, 32, 8, 1, .rwL, false, fun _ _ _ => 0⟩

/-- SEC.DBG.OPEN -/
def F.SEC.DBG_OPEN : Fld := ⟨0x4, 0x48, 32, 7, 1, .ro, false, fun _ _ _ => 1⟩

/-- SEC.DBG.LOCKOUT -/
def F.SEC.DBG_LOCKOUT : Fld := ⟨0x4, 0x48, 32, 6, 1, .ro, false, fun _ _ _ => 0⟩

/-- SEC.DBG.ALLOW_PWD -/
def F.SEC.DBG_ALLOW_PWD : Fld := ⟨0x4, 0x48, 32, 5, 1, .rwL, false, fun _ _ _ => 1⟩

/-- SEC.DBG.ALLOW_CHAL -/
def F.SEC.DBG_ALLOW_CHAL : Fld := ⟨0x4, 0x48, 32, 4, 1, .rwL, false, fun _ _ _ => 1⟩

/-- SEC.DBG.FAILS -/
def F.SEC.DBG_FAILS : Fld := ⟨0x4, 0x48, 32, 0, 4, .ro, false, fun _ _ _ => 0⟩

/-- SEC.SPI_CMD.BUSY -/
def F.SEC.SPI_CMD_BUSY : Fld := ⟨0x4, 0x50, 32, 31, 1, .ro, false, fun _ _ _ => 0⟩

/-- SEC.SPI_CMD.GO -/
def F.SEC.SPI_CMD_GO : Fld := ⟨0x4, 0x50, 32, 30, 1, .rwL, false, fun _ _ _ => 0⟩

/-- SEC.SPI_CMD.WP_REL -/
def F.SEC.SPI_CMD_WP_REL : Fld := ⟨0x4, 0x50, 32, 29, 1, .rwL, false, fun _ _ _ => 0⟩

/-- SEC.SPI_CMD.DIR -/
def F.SEC.SPI_CMD_DIR : Fld := ⟨0x4, 0x50, 32, 26, 1, .rwL, false, fun _ _ _ => 0⟩

/-- SEC.SPI_CMD.ADDR_BYTES -/
def F.SEC.SPI_CMD_ADDR_BYTES : Fld := ⟨0x4, 0x50, 32, 24, 2, .rwL, false, fun _ _ _ => 0⟩

/-- SEC.SPI_CMD.OPCODE -/
def F.SEC.SPI_CMD_OPCODE : Fld := ⟨0x4, 0x50, 32, 16, 8, .rwL, false, fun _ _ _ => 0⟩

/-- SEC.SPI_CMD.LEN -/
def F.SEC.SPI_CMD_LEN : Fld := ⟨0x4, 0x50, 32, 0, 9, .rwL, false, fun _ _ _ => 0⟩

/-- SEC.SPI_ADDR.ADDR -/
def F.SEC.SPI_ADDR_ADDR : Fld := ⟨0x4, 0x54, 32, 0, 32, .rwL, false, fun _ _ _ => 0⟩

/-- SEC.ERR.NVS_SEC_CRC -/
def F.SEC.ERR_NVS_SEC_CRC : Fld := ⟨0x4, 0x58, 32, 1, 1, .w1c, false, fun _ _ _ => 0⟩

/-- SEC.ERR.SPI_ARG -/
def F.SEC.ERR_SPI_ARG : Fld := ⟨0x4, 0x58, 32, 0, 1, .w1c, false, fun _ _ _ => 0⟩

def F.SEC.rows0 : List FldRow :=
  [⟨0, 1, 0, fun _ => F.SEC.LC_CONFIRM⟩,
   ⟨0, 1, 0, fun _ => F.SEC.LC_TARGET⟩,
   ⟨0, 1, 0, fun _ => F.SEC.LC_ADV_STATUS⟩,
   ⟨0, 1, 0, fun _ => F.SEC.LC_STATE⟩,
   ⟨0, 1, 0, fun _ => F.SEC.BOOT_DONE⟩,
   ⟨0, 1, 0, fun _ => F.SEC.BOOT_BOOT_SEL⟩,
   ⟨0, 1, 0, fun _ => F.SEC.BOOT_SLOT⟩,
   ⟨0, 1, 0, fun _ => F.SEC.BOOT_CODE_B⟩,
   ⟨0, 1, 0, fun _ => F.SEC.BOOT_CODE_A⟩,
   ⟨0, 1, 0, fun _ => F.SEC.KEY_CMD_BUSY⟩,
   ⟨0, 1, 0, fun _ => F.SEC.KEY_CMD_OP⟩,
   ⟨0, 1, 0, fun _ => F.SEC.KEY_CMD_SLOT⟩]

def F.SEC.rows1 : List FldRow :=
  [⟨0, 1, 0, fun _ => F.SEC.KEY_CMD_STATUS⟩,
   ⟨0, 1, 0, fun _ => F.SEC.KEY_CMD_LEN⟩,
   ⟨0, 1, 0, fun _ => F.SEC.KEY_STATE_PWD⟩,
   ⟨0, 1, 0, fun _ => F.SEC.KEY_STATE_DBG_SECRET⟩,
   ⟨0, 1, 0, fun _ => F.SEC.KEY_STATE_SLOTS⟩,
   ⟨0, 4, 8, F.SEC.KEY_ID_KEY_ID⟩,
   ⟨0, 1, 0, fun _ => F.SEC.ROLLBACK_BUSY⟩,
   ⟨0, 1, 0, fun _ => F.SEC.ROLLBACK_STATUS⟩,
   ⟨0, 1, 0, fun _ => F.SEC.ROLLBACK_NEW⟩,
   ⟨0, 1, 0, fun _ => F.SEC.ROLLBACK_COUNT⟩,
   ⟨0, 1, 0, fun _ => F.SEC.DBG_RELOCK⟩,
   ⟨0, 1, 0, fun _ => F.SEC.DBG_FAILS_CLR⟩]

def F.SEC.rows2 : List FldRow :=
  [⟨0, 1, 0, fun _ => F.SEC.DBG_OPEN⟩,
   ⟨0, 1, 0, fun _ => F.SEC.DBG_LOCKOUT⟩,
   ⟨0, 1, 0, fun _ => F.SEC.DBG_ALLOW_PWD⟩,
   ⟨0, 1, 0, fun _ => F.SEC.DBG_ALLOW_CHAL⟩,
   ⟨0, 1, 0, fun _ => F.SEC.DBG_FAILS⟩,
   ⟨0, 1, 0, fun _ => F.SEC.SPI_CMD_BUSY⟩,
   ⟨0, 1, 0, fun _ => F.SEC.SPI_CMD_GO⟩,
   ⟨0, 1, 0, fun _ => F.SEC.SPI_CMD_WP_REL⟩,
   ⟨0, 1, 0, fun _ => F.SEC.SPI_CMD_DIR⟩,
   ⟨0, 1, 0, fun _ => F.SEC.SPI_CMD_ADDR_BYTES⟩,
   ⟨0, 1, 0, fun _ => F.SEC.SPI_CMD_OPCODE⟩,
   ⟨0, 1, 0, fun _ => F.SEC.SPI_CMD_LEN⟩]

def F.SEC.rows3 : List FldRow :=
  [⟨0, 1, 0, fun _ => F.SEC.SPI_ADDR_ADDR⟩,
   ⟨0, 1, 0, fun _ => F.SEC.ERR_NVS_SEC_CRC⟩,
   ⟨0, 1, 0, fun _ => F.SEC.ERR_SPI_ARG⟩]

/-- The map of SEC. -/
def F.SEC.rows : List FldRow := F.SEC.rows0 ++ F.SEC.rows1 ++ F.SEC.rows2 ++ F.SEC.rows3

/-! LANE (06_serial_lanes.md) -/

/-- LANE.CFG.SSC_TOL -/
def F.LANE.CFG_SSC_TOL : Fld := ⟨0x8, 0x0, 32, 7, 1, .rwS, false, fun _ _ _ => 0⟩

/-- LANE.CFG.POL_RX -/
def F.LANE.CFG_POL_RX : Fld := ⟨0x8, 0x0, 32, 6, 1, .rwS, false, fun _ _ _ => 0⟩

/-- LANE.CFG.POL_TX -/
def F.LANE.CFG_POL_TX : Fld := ⟨0x8, 0x0, 32, 5, 1, .rwS, false, fun _ _ _ => 0⟩

/-- LANE.CFG.PT_BW -/
def F.LANE.CFG_PT_BW : Fld := ⟨0x8, 0x0, 32, 3, 2, .rwS, false, fun _ _ _ => 0⟩

/-- LANE.CFG.RATE -/
def F.LANE.CFG_RATE : Fld := ⟨0x8, 0x0, 32, 0, 3, .rwS, false, fun _ _ _ => 3⟩

/-- LANE.EQ.RX_MODE -/
def F.LANE.EQ_RX_MODE : Fld := ⟨0x8, 0x4, 32, 16, 2, .rwS, false, fun _ _ _ => 0⟩

/-- LANE.EQ.PEAK -/
def F.LANE.EQ_PEAK : Fld := ⟨0x8, 0x4, 32, 8, 5, .rwS, false, fun _ _ _ => 0xc⟩

/-- LANE.TXEQ.C0 -/
def F.LANE.TXEQ_C0 : Fld := ⟨0x8, 0x8, 32, 16, 6, .rwS, false, fun _ _ _ => 0x3f⟩

/-- LANE.TXEQ.CP1 -/
def F.LANE.TXEQ_CP1 : Fld := ⟨0x8, 0x8, 32, 8, 5, .rwS, false, fun _ _ _ => 0⟩

/-- LANE.TXEQ.CM1 -/
def F.LANE.TXEQ_CM1 : Fld := ⟨0x8, 0x8, 32, 0, 4, .rwS, false, fun _ _ _ => 0⟩

/-- LANE.SLEEP.TX_IDLE -/
def F.LANE.SLEEP_TX_IDLE : Fld := ⟨0x8, 0xC, 32, 16, 16, .rwL, false, fun _ _ _ => 0x64⟩

/-- LANE.SLEEP.TX_MODE -/
def F.LANE.SLEEP_TX_MODE : Fld := ⟨0x8, 0xC, 32, 4, 2, .rwL, false, fun _ _ _ => 0⟩

/-- LANE.SLEEP.TX_REQ -/
def F.LANE.SLEEP_TX_REQ : Fld := ⟨0x8, 0xC, 32, 3, 1, .rwL, false, fun _ _ _ => 0⟩

/-- LANE.SLEEP.TX_ASLEEP -/
def F.LANE.SLEEP_TX_ASLEEP : Fld := ⟨0x8, 0xC, 32, 1, 1, .ro, false, fun _ _ _ => 0⟩

/-- LANE.SLEEP.RX_ASLEEP -/
def F.LANE.SLEEP_RX_ASLEEP : Fld := ⟨0x8, 0xC, 32, 0, 1, .ro, false, fun _ _ _ => 0⟩

/-- LANE.TEST.RX_PAT -/
def F.LANE.TEST_RX_PAT : Fld := ⟨0x8, 0x10, 32, 4, 3, .rwS, false, fun _ _ _ => 0⟩

/-- LANE.TEST.TX_PAT -/
def F.LANE.TEST_TX_PAT : Fld := ⟨0x8, 0x10, 32, 0, 3, .rwS, false, fun _ _ _ => 0⟩

/-- LANE.PRBS_ERR.COUNT -/
def F.LANE.PRBS_ERR_COUNT : Fld := ⟨0x8, 0x14, 32, 0, 32, .rc, false, fun _ _ _ => 0⟩

/-- LANE.PRBS_STAT.LOST -/
def F.LANE.PRBS_STAT_LOST : Fld := ⟨0x8, 0x18, 32, 1, 1, .w1c, false, fun _ _ _ => 0⟩

/-- LANE.PRBS_STAT.LOCK -/
def F.LANE.PRBS_STAT_LOCK : Fld := ⟨0x8, 0x18, 32, 0, 1, .ro, false, fun _ _ _ => 0⟩

/-- LANE.STATUS.PT_GEN -/
def F.LANE.STATUS_PT_GEN : Fld := ⟨0x8, 0x20, 32, 16, 16, .ro, false, fun _ _ _ => 0⟩

/-- LANE.STATUS.TG_CAP -/
def F.LANE.STATUS_TG_CAP : Fld := ⟨0x8, 0x20, 32, 7, 1, .ro, false, fun _ _ _ => 0⟩

/-- LANE.STATUS.MESO -/
def F.LANE.STATUS_MESO : Fld := ⟨0x8, 0x20, 32, 6, 1, .ro, false, fun _ _ _ => 0⟩

/-- LANE.STATUS.PT_LOCK -/
def F.LANE.STATUS_PT_LOCK : Fld := ⟨0x8, 0x20, 32, 5, 1, .ro, false, fun _ _ _ => 0⟩

/-- LANE.STATUS.SIG_DET -/
def F.LANE.STATUS_SIG_DET : Fld := ⟨0x8, 0x20, 32, 4, 1, .ro, false, fun _ _ _ => 0⟩

/-- LANE.STATUS.ADAPT_FROZEN -/
def F.LANE.STATUS_ADAPT_FROZEN : Fld := ⟨0x8, 0x20, 32, 3, 1, .ro, false, fun _ _ _ => 0⟩

/-- LANE.STATUS.BYPASS -/
def F.LANE.STATUS_BYPASS : Fld := ⟨0x8, 0x20, 32, 2, 1, .ro, false, fun _ _ _ => 0⟩

/-- LANE.ERR.SNAP_BAD -/
def F.LANE.ERR_SNAP_BAD : Fld := ⟨0x8, 0x24, 32, 4, 1, .w1c, false, fun _ _ _ => 0⟩

/-- LANE.ERR.ADAPT_LIMIT -/
def F.LANE.ERR_ADAPT_LIMIT : Fld := ⟨0x8, 0x24, 32, 3, 1, .w1c, false, fun _ _ _ => 0⟩

/-- LANE.ERR.SLEEP_NA -/
def F.LANE.ERR_SLEEP_NA : Fld := ⟨0x8, 0x24, 32, 2, 1, .w1c, false, fun _ _ _ => 0⟩

/-- LANE.ERR.FREQ_RANGE -/
def F.LANE.ERR_FREQ_RANGE : Fld := ⟨0x8, 0x24, 32, 1, 1, .w1c, false, fun _ _ _ => 0⟩

/-- LANE.ERR.PT_UNLOCK -/
def F.LANE.ERR_PT_UNLOCK : Fld := ⟨0x8, 0x24, 32, 0, 1, .w1c, false, fun _ _ _ => 0⟩

/-- LANE.EQ_NOW.SNAP -/
def F.LANE.EQ_NOW_SNAP : Fld := ⟨0x8, 0x28, 32, 8, 5, .ro, false, fun _ _ _ => 0⟩

/-- LANE.EQ_NOW.PEAK_NOW -/
def F.LANE.EQ_NOW_PEAK_NOW : Fld := ⟨0x8, 0x28, 32, 0, 5, .ro, false, fun _ _ _ => 0⟩

/-- LANE.FREQ.OFFSET -/
def F.LANE.FREQ_OFFSET : Fld := ⟨0x8, 0x30, 64, 0, 64, .ro, false, fun _ _ _ => 0⟩

/-- LANE.PT_SAMPLE.TICK -/
def F.LANE.PT_SAMPLE_TICK : Fld := ⟨0x8, 0x40, 128, 64, 64, .ro, false, fun _ _ _ => 0⟩

/-- LANE.PT_SAMPLE.PHASE -/
def F.LANE.PT_SAMPLE_PHASE : Fld := ⟨0x8, 0x40, 128, 16, 48, .ro, false, fun _ _ _ => 0⟩

/-- LANE.PT_SAMPLE.GEN -/
def F.LANE.PT_SAMPLE_GEN : Fld := ⟨0x8, 0x40, 128, 0, 16, .ro, false, fun _ _ _ => 0⟩

/-- LANE.SKEW_k.SKEW, k from 1 -/
def F.LANE.SKEW_SKEW (k : Nat) : Fld := ⟨0x8, 0x4C + k * 4, 32, 0, 32, .ro, false, fun _ _ _ => 0⟩

def F.LANE.rows0 : List FldRow :=
  [⟨0, 1, 0, fun _ => F.LANE.CFG_SSC_TOL⟩,
   ⟨0, 1, 0, fun _ => F.LANE.CFG_POL_RX⟩,
   ⟨0, 1, 0, fun _ => F.LANE.CFG_POL_TX⟩,
   ⟨0, 1, 0, fun _ => F.LANE.CFG_PT_BW⟩,
   ⟨0, 1, 0, fun _ => F.LANE.CFG_RATE⟩,
   ⟨0, 1, 0, fun _ => F.LANE.EQ_RX_MODE⟩,
   ⟨0, 1, 0, fun _ => F.LANE.EQ_PEAK⟩,
   ⟨0, 1, 0, fun _ => F.LANE.TXEQ_C0⟩,
   ⟨0, 1, 0, fun _ => F.LANE.TXEQ_CP1⟩,
   ⟨0, 1, 0, fun _ => F.LANE.TXEQ_CM1⟩,
   ⟨0, 1, 0, fun _ => F.LANE.SLEEP_TX_IDLE⟩,
   ⟨0, 1, 0, fun _ => F.LANE.SLEEP_TX_MODE⟩]

def F.LANE.rows1 : List FldRow :=
  [⟨0, 1, 0, fun _ => F.LANE.SLEEP_TX_REQ⟩,
   ⟨0, 1, 0, fun _ => F.LANE.SLEEP_TX_ASLEEP⟩,
   ⟨0, 1, 0, fun _ => F.LANE.SLEEP_RX_ASLEEP⟩,
   ⟨0, 1, 0, fun _ => F.LANE.TEST_RX_PAT⟩,
   ⟨0, 1, 0, fun _ => F.LANE.TEST_TX_PAT⟩,
   ⟨0, 1, 0, fun _ => F.LANE.PRBS_ERR_COUNT⟩,
   ⟨0, 1, 0, fun _ => F.LANE.PRBS_STAT_LOST⟩,
   ⟨0, 1, 0, fun _ => F.LANE.PRBS_STAT_LOCK⟩,
   ⟨0, 1, 0, fun _ => F.LANE.STATUS_PT_GEN⟩,
   ⟨0, 1, 0, fun _ => F.LANE.STATUS_TG_CAP⟩,
   ⟨0, 1, 0, fun _ => F.LANE.STATUS_MESO⟩,
   ⟨0, 1, 0, fun _ => F.LANE.STATUS_PT_LOCK⟩]

def F.LANE.rows2 : List FldRow :=
  [⟨0, 1, 0, fun _ => F.LANE.STATUS_SIG_DET⟩,
   ⟨0, 1, 0, fun _ => F.LANE.STATUS_ADAPT_FROZEN⟩,
   ⟨0, 1, 0, fun _ => F.LANE.STATUS_BYPASS⟩,
   ⟨0, 1, 0, fun _ => F.LANE.ERR_SNAP_BAD⟩,
   ⟨0, 1, 0, fun _ => F.LANE.ERR_ADAPT_LIMIT⟩,
   ⟨0, 1, 0, fun _ => F.LANE.ERR_SLEEP_NA⟩,
   ⟨0, 1, 0, fun _ => F.LANE.ERR_FREQ_RANGE⟩,
   ⟨0, 1, 0, fun _ => F.LANE.ERR_PT_UNLOCK⟩,
   ⟨0, 1, 0, fun _ => F.LANE.EQ_NOW_SNAP⟩,
   ⟨0, 1, 0, fun _ => F.LANE.EQ_NOW_PEAK_NOW⟩,
   ⟨0, 1, 0, fun _ => F.LANE.FREQ_OFFSET⟩,
   ⟨0, 1, 0, fun _ => F.LANE.PT_SAMPLE_TICK⟩]

def F.LANE.rows3 : List FldRow :=
  [⟨0, 1, 0, fun _ => F.LANE.PT_SAMPLE_PHASE⟩,
   ⟨0, 1, 0, fun _ => F.LANE.PT_SAMPLE_GEN⟩,
   ⟨1, 4, 4, F.LANE.SKEW_SKEW⟩]

/-- The map of LANE. -/
def F.LANE.rows : List FldRow := F.LANE.rows0 ++ F.LANE.rows1 ++ F.LANE.rows2 ++ F.LANE.rows3

/-! PCS (06_serial_lanes.md) -/

/-- PCS.CFG.MAX_FRAME -/
def F.PCS.CFG_MAX_FRAME : Fld := ⟨0x9, 0x0, 32, 16, 14, .rwS, false, fun _ _ _ => 0x5f2⟩

/-- PCS.CFG.FEC_BYP_IND -/
def F.PCS.CFG_FEC_BYP_IND : Fld := ⟨0x9, 0x0, 32, 5, 1, .rwS, false, fun _ _ _ => 0⟩

/-- PCS.CFG.FEC -/
def F.PCS.CFG_FEC : Fld := ⟨0x9, 0x0, 32, 4, 1, .rwS, false, fun _ _ _ => 0⟩

/-- PCS.CFG.MODE -/
def F.PCS.CFG_MODE : Fld := ⟨0x9, 0x0, 32, 0, 3, .rwS, false, fun _ _ _ => 3⟩

/-- PCS.STATUS.BLOCK_LOCK -/
def F.PCS.STATUS_BLOCK_LOCK : Fld := ⟨0x9, 0x4, 32, 8, 4, .ro, false, fun _ _ _ => 0⟩

/-- PCS.STATUS.ALIGN_LOCK -/
def F.PCS.STATUS_ALIGN_LOCK : Fld := ⟨0x9, 0x4, 32, 7, 1, .ro, false, fun _ _ _ => 0⟩

/-- PCS.STATUS.FEC_LOCK -/
def F.PCS.STATUS_FEC_LOCK : Fld := ⟨0x9, 0x4, 32, 6, 1, .ro, false, fun _ _ _ => 0⟩

/-- PCS.STATUS.LPI_TX -/
def F.PCS.STATUS_LPI_TX : Fld := ⟨0x9, 0x4, 32, 5, 1, .ro, false, fun _ _ _ => 0⟩

/-- PCS.STATUS.LPI_RX -/
def F.PCS.STATUS_LPI_RX : Fld := ⟨0x9, 0x4, 32, 4, 1, .ro, false, fun _ _ _ => 0⟩

/-- PCS.STATUS.HI_BER -/
def F.PCS.STATUS_HI_BER : Fld := ⟨0x9, 0x4, 32, 3, 1, .ro, false, fun _ _ _ => 0⟩

/-- PCS.STATUS.RF_RX -/
def F.PCS.STATUS_RF_RX : Fld := ⟨0x9, 0x4, 32, 2, 1, .ro, false, fun _ _ _ => 0⟩

/-- PCS.STATUS.LF_RX -/
def F.PCS.STATUS_LF_RX : Fld := ⟨0x9, 0x4, 32, 1, 1, .ro, false, fun _ _ _ => 0⟩

/-- PCS.STATUS.LINK_UP -/
def F.PCS.STATUS_LINK_UP : Fld := ⟨0x9, 0x4, 32, 0, 1, .ro, false, fun _ _ _ => 0⟩

/-- PCS.ERR.ALIGN_LOST -/
def F.PCS.ERR_ALIGN_LOST : Fld := ⟨0x9, 0x8, 32, 3, 1, .w1c, false, fun _ _ _ => 0⟩

/-- PCS.ERR.FEC_UNCORR_SEEN -/
def F.PCS.ERR_FEC_UNCORR_SEEN : Fld := ⟨0x9, 0x8, 32, 2, 1, .w1c, false, fun _ _ _ => 0⟩

/-- PCS.ERR.HI_BER_SEEN -/
def F.PCS.ERR_HI_BER_SEEN : Fld := ⟨0x9, 0x8, 32, 1, 1, .w1c, false, fun _ _ _ => 0⟩

/-- PCS.ERR.LINK_DOWN_SEEN -/
def F.PCS.ERR_LINK_DOWN_SEEN : Fld := ⟨0x9, 0x8, 32, 0, 1, .w1c, false, fun _ _ _ => 0⟩

/-- PCS.BLOCK_ERR.COUNT -/
def F.PCS.BLOCK_ERR_COUNT : Fld := ⟨0x9, 0x10, 32, 0, 32, .rc, false, fun _ _ _ => 0⟩

/-- PCS.FEC_CORR.COUNT -/
def F.PCS.FEC_CORR_COUNT : Fld := ⟨0x9, 0x14, 32, 0, 32, .rc, false, fun _ _ _ => 0⟩

/-- PCS.FEC_UNCORR.COUNT -/
def F.PCS.FEC_UNCORR_COUNT : Fld := ⟨0x9, 0x18, 32, 0, 32, .rc, false, fun _ _ _ => 0⟩

/-- PCS.FEC_SYMB.COUNT -/
def F.PCS.FEC_SYMB_COUNT : Fld := ⟨0x9, 0x1C, 32, 0, 32, .rc, false, fun _ _ _ => 0⟩

def F.PCS.rows0 : List FldRow :=
  [⟨0, 1, 0, fun _ => F.PCS.CFG_MAX_FRAME⟩,
   ⟨0, 1, 0, fun _ => F.PCS.CFG_FEC_BYP_IND⟩,
   ⟨0, 1, 0, fun _ => F.PCS.CFG_FEC⟩,
   ⟨0, 1, 0, fun _ => F.PCS.CFG_MODE⟩,
   ⟨0, 1, 0, fun _ => F.PCS.STATUS_BLOCK_LOCK⟩,
   ⟨0, 1, 0, fun _ => F.PCS.STATUS_ALIGN_LOCK⟩,
   ⟨0, 1, 0, fun _ => F.PCS.STATUS_FEC_LOCK⟩,
   ⟨0, 1, 0, fun _ => F.PCS.STATUS_LPI_TX⟩,
   ⟨0, 1, 0, fun _ => F.PCS.STATUS_LPI_RX⟩,
   ⟨0, 1, 0, fun _ => F.PCS.STATUS_HI_BER⟩,
   ⟨0, 1, 0, fun _ => F.PCS.STATUS_RF_RX⟩,
   ⟨0, 1, 0, fun _ => F.PCS.STATUS_LF_RX⟩]

def F.PCS.rows1 : List FldRow :=
  [⟨0, 1, 0, fun _ => F.PCS.STATUS_LINK_UP⟩,
   ⟨0, 1, 0, fun _ => F.PCS.ERR_ALIGN_LOST⟩,
   ⟨0, 1, 0, fun _ => F.PCS.ERR_FEC_UNCORR_SEEN⟩,
   ⟨0, 1, 0, fun _ => F.PCS.ERR_HI_BER_SEEN⟩,
   ⟨0, 1, 0, fun _ => F.PCS.ERR_LINK_DOWN_SEEN⟩,
   ⟨0, 1, 0, fun _ => F.PCS.BLOCK_ERR_COUNT⟩,
   ⟨0, 1, 0, fun _ => F.PCS.FEC_CORR_COUNT⟩,
   ⟨0, 1, 0, fun _ => F.PCS.FEC_UNCORR_COUNT⟩,
   ⟨0, 1, 0, fun _ => F.PCS.FEC_SYMB_COUNT⟩]

/-- The map of PCS. -/
def F.PCS.rows : List FldRow := F.PCS.rows0 ++ F.PCS.rows1

/-! PLL (07_clock_synthesis.md) -/

/-- PLL.STATUS.LEAD_DIE -/
def F.PLL.STATUS_LEAD_DIE : Fld := ⟨0xA, 0x0, 32, 24, 3, .ro, false, fun _ _ _ => 0⟩

/-- PLL.STATUS.SRC_PORT -/
def F.PLL.STATUS_SRC_PORT : Fld := ⟨0xA, 0x0, 32, 16, 8, .ro, false, fun _ _ _ => 0⟩

/-- PLL.STATUS.SRC -/
def F.PLL.STATUS_SRC : Fld := ⟨0xA, 0x0, 32, 8, 3, .ro, false, fun _ d _ => if d = 0 then 0 else 4⟩

/-- PLL.STATUS.HANDOVER -/
def F.PLL.STATUS_HANDOVER : Fld := ⟨0xA, 0x0, 32, 5, 1, .ro, false, fun _ _ _ => 0⟩

/-- PLL.STATUS.HIST_OK -/
def F.PLL.STATUS_HIST_OK : Fld := ⟨0xA, 0x0, 32, 4, 1, .ro, false, fun _ _ _ => 0⟩

/-- PLL.STATUS.REF_OK -/
def F.PLL.STATUS_REF_OK : Fld := ⟨0xA, 0x0, 32, 3, 1, .ro, false, fun _ d _ => if d = 0 then 1 else 0⟩

/-- PLL.STATUS.MODE -/
def F.PLL.STATUS_MODE : Fld := ⟨0xA, 0x0, 32, 0, 3, .ro, false, fun _ _ _ => 4⟩

/-- PLL.ERR.HANDOVER_LONG -/
def F.PLL.ERR_HANDOVER_LONG : Fld := ⟨0xA, 0x4, 32, 7, 1, .w1c, false, fun _ _ _ => 0⟩

/-- PLL.ERR.DIV_CLIP -/
def F.PLL.ERR_DIV_CLIP : Fld := ⟨0xA, 0x4, 32, 6, 1, .w1c, false, fun _ _ _ => 0⟩

/-- PLL.ERR.STEER_CLIP -/
def F.PLL.ERR_STEER_CLIP : Fld := ⟨0xA, 0x4, 32, 5, 1, .w1c, false, fun _ _ _ => 0⟩

/-- PLL.ERR.RAMP_ABORT -/
def F.PLL.ERR_RAMP_ABORT : Fld := ⟨0xA, 0x4, 32, 4, 1, .w1c, false, fun _ _ _ => 0⟩

/-- PLL.ERR.BYPASS_SEEN -/
def F.PLL.ERR_BYPASS_SEEN : Fld := ⟨0xA, 0x4, 32, 3, 1, .w1c, false, fun _ _ _ => 0⟩

/-- PLL.ERR.HOLD_SEEN -/
def F.PLL.ERR_HOLD_SEEN : Fld := ⟨0xA, 0x4, 32, 2, 1, .w1c, false, fun _ _ _ => 0⟩

/-- PLL.ERR.LOL_SEEN -/
def F.PLL.ERR_LOL_SEEN : Fld := ⟨0xA, 0x4, 32, 1, 1, .w1c, false, fun _ _ _ => 0⟩

/-- PLL.ERR.LOS_SEEN -/
def F.PLL.ERR_LOS_SEEN : Fld := ⟨0xA, 0x4, 32, 0, 1, .w1c, false, fun _ _ _ => 0⟩

/-- PLL.CFG.REFB_FREQ -/
def F.PLL.CFG_REFB_FREQ : Fld := ⟨0xA, 0x8, 32, 20, 4, .rwS, false, fun _ _ _ => 0⟩

/-- PLL.CFG.REFA_FREQ -/
def F.PLL.CFG_REFA_FREQ : Fld := ⟨0xA, 0x8, 32, 16, 4, .rwS, false, fun _ _ _ => 0⟩

/-- PLL.CFG.HOLD_AVG -/
def F.PLL.CFG_HOLD_AVG : Fld := ⟨0xA, 0x8, 32, 10, 2, .rwS, false, fun _ _ _ => 1⟩

/-- PLL.CFG.HOLD_EN -/
def F.PLL.CFG_HOLD_EN : Fld := ⟨0xA, 0x8, 32, 9, 1, .rwS, false, fun _ _ _ => 1⟩

/-- PLL.CFG.BW -/
def F.PLL.CFG_BW : Fld := ⟨0xA, 0x8, 32, 4, 4, .rwS, false, fun _ _ _ => 2⟩

/-- PLL.CFG.LOCK_WIN -/
def F.PLL.CFG_LOCK_WIN : Fld := ⟨0xA, 0x8, 32, 0, 4, .rwS, false, fun _ _ _ => 3⟩

/-- PLL.QUAL.REF_TOL -/
def F.PLL.QUAL_REF_TOL : Fld := ⟨0xA, 0xC, 32, 16, 8, .rwS, false, fun _ _ _ => 0x32⟩

/-- PLL.QUAL.REF_QUAL -/
def F.PLL.QUAL_REF_QUAL : Fld := ⟨0xA, 0xC, 32, 0, 16, .rwS, false, fun _ _ _ => 0x3e8⟩

/-- PLL.SEL.BUSY -/
def F.PLL.SEL_BUSY : Fld := ⟨0xA, 0x10, 32, 31, 1, .ro, true, fun _ _ _ => 0⟩

/-- PLL.SEL.GO -/
def F.PLL.SEL_GO : Fld := ⟨0xA, 0x10, 32, 30, 1, .rwL, true, fun _ _ _ => 0⟩

/-- PLL.SEL.SRC -/
def F.PLL.SEL_SRC : Fld := ⟨0xA, 0x10, 32, 24, 3, .rwL, true, fun _ _ _ => 0⟩

/-- PLL.SEL.PORT -/
def F.PLL.SEL_PORT : Fld := ⟨0xA, 0x10, 32, 16, 8, .rwL, true, fun _ _ _ => 0⟩

/-- PLL.SEL.STATUS -/
def F.PLL.SEL_STATUS : Fld := ⟨0xA, 0x10, 32, 8, 3, .ro, true, fun _ _ _ => 0⟩

/-- PLL.STEER.OFFSET -/
def F.PLL.STEER_OFFSET : Fld := ⟨0xA, 0x18, 64, 0, 64, .rwL, true, fun _ _ _ => 0⟩

/-- PLL.FREQ.OFFSET -/
def F.PLL.FREQ_OFFSET : Fld := ⟨0xA, 0x20, 64, 0, 64, .ro, false, fun _ _ _ => 0⟩

/-- PLL.PHASE_ERR.ERR -/
def F.PLL.PHASE_ERR_ERR : Fld := ⟨0xA, 0x28, 32, 0, 32, .ro, false, fun _ _ _ => 0⟩

/-- PLL.FSLEW.RATE -/
def F.PLL.FSLEW_RATE : Fld := ⟨0xA, 0x30, 32, 0, 10, .rwS, false, fun _ _ _ => 0xa⟩

/-- PLL.OUT_UPD.PENDING -/
def F.PLL.OUT_UPD_PENDING : Fld := ⟨0xA, 0x40, 32, 31, 1, .ro, true, fun _ _ _ => 0⟩

/-- PLL.OUT_UPD.GO -/
def F.PLL.OUT_UPD_GO : Fld := ⟨0xA, 0x40, 32, 30, 1, .rwL, true, fun _ _ _ => 0⟩

/-- PLL.CLKOUT_k.DIV -/
def F.PLL.CLKOUT_DIV (k : Nat) : Fld := ⟨0xA, 0x80 + k * 8, 64, 40, 24, .ro, true, fun _ _ _ => 0x64⟩

/-- PLL.CLKOUT_k.FMT -/
def F.PLL.CLKOUT_FMT (k : Nat) : Fld := ⟨0xA, 0x80 + k * 8, 64, 32, 3, .rwS, true, fun _ _ _ => 0⟩

/-- PLL.CLKOUT_k.DIV_NEXT -/
def F.PLL.CLKOUT_DIV_NEXT (k : Nat) : Fld := ⟨0xA, 0x80 + k * 8, 64, 0, 24, .rwL, true, fun _ _ _ => 0x64⟩

/-- PLL.RAMP_CTL.BUSY -/
def F.PLL.RAMP_CTL_BUSY : Fld := ⟨0xA, 0x100, 32, 31, 1, .ro, true, fun _ _ _ => 0⟩

/-- PLL.RAMP_CTL.GO -/
def F.PLL.RAMP_CTL_GO : Fld := ⟨0xA, 0x100, 32, 30, 1, .rwL, true, fun _ _ _ => 0⟩

/-- PLL.RAMP_CTL.STATUS -/
def F.PLL.RAMP_CTL_STATUS : Fld := ⟨0xA, 0x100, 32, 4, 2, .ro, true, fun _ _ _ => 0⟩

/-- PLL.RAMP_CTL.NSEG -/
def F.PLL.RAMP_CTL_NSEG : Fld := ⟨0xA, 0x100, 32, 0, 3, .rwL, true, fun _ _ _ => 0⟩

/-- PLL.RAMP_SEG_k.RATE -/
def F.PLL.RAMP_SEG_RATE (k : Nat) : Fld := ⟨0xA, 0x140 + k * 8, 64, 32, 32, .rwL, true, fun _ _ _ => 0⟩

/-- PLL.RAMP_SEG_k.DURATION -/
def F.PLL.RAMP_SEG_DURATION (k : Nat) : Fld := ⟨0xA, 0x140 + k * 8, 64, 0, 16, .rwL, true, fun _ _ _ => 0⟩

def F.PLL.rows0 : List FldRow :=
  [⟨0, 1, 0, fun _ => F.PLL.STATUS_LEAD_DIE⟩,
   ⟨0, 1, 0, fun _ => F.PLL.STATUS_SRC_PORT⟩,
   ⟨0, 1, 0, fun _ => F.PLL.STATUS_SRC⟩,
   ⟨0, 1, 0, fun _ => F.PLL.STATUS_HANDOVER⟩,
   ⟨0, 1, 0, fun _ => F.PLL.STATUS_HIST_OK⟩,
   ⟨0, 1, 0, fun _ => F.PLL.STATUS_REF_OK⟩,
   ⟨0, 1, 0, fun _ => F.PLL.STATUS_MODE⟩,
   ⟨0, 1, 0, fun _ => F.PLL.ERR_HANDOVER_LONG⟩,
   ⟨0, 1, 0, fun _ => F.PLL.ERR_DIV_CLIP⟩,
   ⟨0, 1, 0, fun _ => F.PLL.ERR_STEER_CLIP⟩,
   ⟨0, 1, 0, fun _ => F.PLL.ERR_RAMP_ABORT⟩,
   ⟨0, 1, 0, fun _ => F.PLL.ERR_BYPASS_SEEN⟩]

def F.PLL.rows1 : List FldRow :=
  [⟨0, 1, 0, fun _ => F.PLL.ERR_HOLD_SEEN⟩,
   ⟨0, 1, 0, fun _ => F.PLL.ERR_LOL_SEEN⟩,
   ⟨0, 1, 0, fun _ => F.PLL.ERR_LOS_SEEN⟩,
   ⟨0, 1, 0, fun _ => F.PLL.CFG_REFB_FREQ⟩,
   ⟨0, 1, 0, fun _ => F.PLL.CFG_REFA_FREQ⟩,
   ⟨0, 1, 0, fun _ => F.PLL.CFG_HOLD_AVG⟩,
   ⟨0, 1, 0, fun _ => F.PLL.CFG_HOLD_EN⟩,
   ⟨0, 1, 0, fun _ => F.PLL.CFG_BW⟩,
   ⟨0, 1, 0, fun _ => F.PLL.CFG_LOCK_WIN⟩,
   ⟨0, 1, 0, fun _ => F.PLL.QUAL_REF_TOL⟩,
   ⟨0, 1, 0, fun _ => F.PLL.QUAL_REF_QUAL⟩,
   ⟨0, 1, 0, fun _ => F.PLL.SEL_BUSY⟩]

def F.PLL.rows2 : List FldRow :=
  [⟨0, 1, 0, fun _ => F.PLL.SEL_GO⟩,
   ⟨0, 1, 0, fun _ => F.PLL.SEL_SRC⟩,
   ⟨0, 1, 0, fun _ => F.PLL.SEL_PORT⟩,
   ⟨0, 1, 0, fun _ => F.PLL.SEL_STATUS⟩,
   ⟨0, 1, 0, fun _ => F.PLL.STEER_OFFSET⟩,
   ⟨0, 1, 0, fun _ => F.PLL.FREQ_OFFSET⟩,
   ⟨0, 1, 0, fun _ => F.PLL.PHASE_ERR_ERR⟩,
   ⟨0, 1, 0, fun _ => F.PLL.FSLEW_RATE⟩,
   ⟨0, 1, 0, fun _ => F.PLL.OUT_UPD_PENDING⟩,
   ⟨0, 1, 0, fun _ => F.PLL.OUT_UPD_GO⟩,
   ⟨0, 8, 8, F.PLL.CLKOUT_DIV⟩,
   ⟨0, 8, 8, F.PLL.CLKOUT_FMT⟩]

def F.PLL.rows3 : List FldRow :=
  [⟨0, 8, 8, F.PLL.CLKOUT_DIV_NEXT⟩,
   ⟨0, 1, 0, fun _ => F.PLL.RAMP_CTL_BUSY⟩,
   ⟨0, 1, 0, fun _ => F.PLL.RAMP_CTL_GO⟩,
   ⟨0, 1, 0, fun _ => F.PLL.RAMP_CTL_STATUS⟩,
   ⟨0, 1, 0, fun _ => F.PLL.RAMP_CTL_NSEG⟩,
   ⟨0, 8, 8, F.PLL.RAMP_SEG_RATE⟩,
   ⟨0, 8, 8, F.PLL.RAMP_SEG_DURATION⟩]

/-- The map of PLL. -/
def F.PLL.rows : List FldRow := F.PLL.rows0 ++ F.PLL.rows1 ++ F.PLL.rows2 ++ F.PLL.rows3

/-! RIDGE (08_time_scale.md) -/

/-- RIDGE.STATUS.STEP_STAT -/
def F.RIDGE.STATUS_STEP_STAT : Fld := ⟨0xC, 0x0, 32, 13, 3, .ro, false, fun _ _ _ => 0⟩

/-- RIDGE.STATUS.LEADER -/
def F.RIDGE.STATUS_LEADER : Fld := ⟨0xC, 0x0, 32, 8, 1, .ro, false, fun _ d _ => if d = 0 then 1 else 0⟩

/-- RIDGE.STATUS.PEND -/
def F.RIDGE.STATUS_PEND : Fld := ⟨0xC, 0x0, 32, 5, 1, .ro, false, fun _ _ _ => 0⟩

/-- RIDGE.STATUS.REP_OK -/
def F.RIDGE.STATUS_REP_OK : Fld := ⟨0xC, 0x0, 32, 4, 1, .ro, false, fun _ _ _ => 0⟩

/-- RIDGE.STATUS.ALIGN_OK -/
def F.RIDGE.STATUS_ALIGN_OK : Fld := ⟨0xC, 0x0, 32, 3, 1, .ro, false, fun _ _ _ => 0⟩

/-- RIDGE.STATUS.DELTA_OK -/
def F.RIDGE.STATUS_DELTA_OK : Fld := ⟨0xC, 0x0, 32, 2, 1, .ro, false, fun _ d _ => if d = 0 then 1 else 0⟩

/-- RIDGE.STATUS.TG -/
def F.RIDGE.STATUS_TG : Fld := ⟨0xC, 0x0, 32, 1, 1, .ro, false, fun _ _ _ => 0⟩

/-- RIDGE.STATUS.VALID -/
def F.RIDGE.STATUS_VALID : Fld := ⟨0xC, 0x0, 32, 0, 1, .ro, false, fun _ _ _ => 0⟩

/-- RIDGE.ERR.REP_FAULT -/
def F.RIDGE.ERR_REP_FAULT : Fld := ⟨0xC, 0x4, 32, 4, 1, .w1c, false, fun _ _ _ => 0⟩

/-- RIDGE.ERR.ALIGN_LATE -/
def F.RIDGE.ERR_ALIGN_LATE : Fld := ⟨0xC, 0x4, 32, 3, 1, .w1c, false, fun _ _ _ => 0⟩

/-- RIDGE.ERR.RATE_RANGE -/
def F.RIDGE.ERR_RATE_RANGE : Fld := ⟨0xC, 0x4, 32, 2, 1, .w1c, false, fun _ _ _ => 0⟩

/-- RIDGE.ERR.NOT_LEAD -/
def F.RIDGE.ERR_NOT_LEAD : Fld := ⟨0xC, 0x4, 32, 1, 1, .w1c, false, fun _ _ _ => 0⟩

/-- RIDGE.ERR.STEP_REFUSED -/
def F.RIDGE.ERR_STEP_REFUSED : Fld := ⟨0xC, 0x4, 32, 0, 1, .w1c, false, fun _ _ _ => 0⟩

/-- RIDGE.JUMP_LIMIT.LIMIT -/
def F.RIDGE.JUMP_LIMIT_LIMIT : Fld := ⟨0xC, 0x8, 32, 0, 30, .rwS, false, fun _ _ _ => 0x64⟩

/-- RIDGE.STEP_SUM.SUM -/
def F.RIDGE.STEP_SUM_SUM : Fld := ⟨0xC, 0xC, 32, 0, 32, .ro, false, fun _ _ _ => 0⟩

/-- RIDGE.RATE.RATE -/
def F.RIDGE.RATE_RATE : Fld := ⟨0xC, 0x10, 64, 0, 64, .rwL, false, fun _ _ _ => 0x1999999999a⟩

/-- RIDGE.STEP.STEP -/
def F.RIDGE.STEP_STEP : Fld := ⟨0xC, 0x18, 64, 0, 64, .rwL, false, fun _ _ _ => 0⟩

/-- RIDGE.BASE.BASE -/
def F.RIDGE.BASE_BASE : Fld := ⟨0xC, 0x20, 64, 0, 64, .rwS, false, fun _ _ _ => 0⟩

/-- RIDGE.OFFSET.OFFSET -/
def F.RIDGE.OFFSET_OFFSET : Fld := ⟨0xC, 0x30, 128, 0, 128, .rwS, false, fun _ _ _ => 0⟩

/-- RIDGE.ALIGN.DELTA -/
def F.RIDGE.ALIGN_DELTA : Fld := ⟨0xC, 0x40, 64, 0, 64, .ro, false, fun _ _ _ => 0⟩

/-- RIDGE.SKEW.SKEW -/
def F.RIDGE.SKEW_SKEW : Fld := ⟨0xC, 0x48, 32, 0, 32, .ro, false, fun _ _ _ => 0⟩

/-- RIDGE.LAST_APPLY.TICK -/
def F.RIDGE.LAST_APPLY_TICK : Fld := ⟨0xC, 0x50, 64, 0, 64, .ro, false, fun _ _ _ => 0⟩

def F.RIDGE.rows0 : List FldRow :=
  [⟨0, 1, 0, fun _ => F.RIDGE.STATUS_STEP_STAT⟩,
   ⟨0, 1, 0, fun _ => F.RIDGE.STATUS_LEADER⟩,
   ⟨0, 1, 0, fun _ => F.RIDGE.STATUS_PEND⟩,
   ⟨0, 1, 0, fun _ => F.RIDGE.STATUS_REP_OK⟩,
   ⟨0, 1, 0, fun _ => F.RIDGE.STATUS_ALIGN_OK⟩,
   ⟨0, 1, 0, fun _ => F.RIDGE.STATUS_DELTA_OK⟩,
   ⟨0, 1, 0, fun _ => F.RIDGE.STATUS_TG⟩,
   ⟨0, 1, 0, fun _ => F.RIDGE.STATUS_VALID⟩,
   ⟨0, 1, 0, fun _ => F.RIDGE.ERR_REP_FAULT⟩,
   ⟨0, 1, 0, fun _ => F.RIDGE.ERR_ALIGN_LATE⟩,
   ⟨0, 1, 0, fun _ => F.RIDGE.ERR_RATE_RANGE⟩,
   ⟨0, 1, 0, fun _ => F.RIDGE.ERR_NOT_LEAD⟩]

def F.RIDGE.rows1 : List FldRow :=
  [⟨0, 1, 0, fun _ => F.RIDGE.ERR_STEP_REFUSED⟩,
   ⟨0, 1, 0, fun _ => F.RIDGE.JUMP_LIMIT_LIMIT⟩,
   ⟨0, 1, 0, fun _ => F.RIDGE.STEP_SUM_SUM⟩,
   ⟨0, 1, 0, fun _ => F.RIDGE.RATE_RATE⟩,
   ⟨0, 1, 0, fun _ => F.RIDGE.STEP_STEP⟩,
   ⟨0, 1, 0, fun _ => F.RIDGE.BASE_BASE⟩,
   ⟨0, 1, 0, fun _ => F.RIDGE.OFFSET_OFFSET⟩,
   ⟨0, 1, 0, fun _ => F.RIDGE.ALIGN_DELTA⟩,
   ⟨0, 1, 0, fun _ => F.RIDGE.SKEW_SKEW⟩,
   ⟨0, 1, 0, fun _ => F.RIDGE.LAST_APPLY_TICK⟩]

/-- The map of RIDGE. -/
def F.RIDGE.rows : List FldRow := F.RIDGE.rows0 ++ F.RIDGE.rows1

/-! TSU (08_time_scale.md) -/

/-- TSU.CFG.NTG_POISON -/
def F.TSU.CFG_NTG_POISON : Fld := ⟨0xD, 0x0, 32, 7, 1, .rwS, false, fun _ _ _ => 0⟩

/-- TSU.CFG.TC_EN -/
def F.TSU.CFG_TC_EN : Fld := ⟨0xD, 0x0, 32, 6, 1, .rwS, false, fun _ _ _ => 1⟩

/-- TSU.CFG.PTP_UDP6 -/
def F.TSU.CFG_PTP_UDP6 : Fld := ⟨0xD, 0x0, 32, 5, 1, .rwS, false, fun _ _ _ => 1⟩

/-- TSU.CFG.PTP_UDP4 -/
def F.TSU.CFG_PTP_UDP4 : Fld := ⟨0xD, 0x0, 32, 4, 1, .rwS, false, fun _ _ _ => 1⟩

/-- TSU.CFG.PTP_L2 -/
def F.TSU.CFG_PTP_L2 : Fld := ⟨0xD, 0x0, 32, 3, 1, .rwS, false, fun _ _ _ => 1⟩

/-- TSU.STATUS.TG -/
def F.TSU.STATUS_TG : Fld := ⟨0xD, 0x4, 32, 5, 1, .ro, false, fun _ _ _ => 0⟩

/-- TSU.STATUS.DEPTH -/
def F.TSU.STATUS_DEPTH : Fld := ⟨0xD, 0x4, 32, 0, 5, .ro, false, fun _ _ _ => 0⟩

/-- TSU.ERR.NTG_CORR_SEEN -/
def F.TSU.ERR_NTG_CORR_SEEN : Fld := ⟨0xD, 0x8, 32, 1, 1, .w1c, false, fun _ _ _ => 0⟩

/-- TSU.ERR.TSQ_OVF -/
def F.TSU.ERR_TSQ_OVF : Fld := ⟨0xD, 0x8, 32, 0, 1, .w1c, false, fun _ _ _ => 0⟩

/-- TSU.FLUSHED.COUNT -/
def F.TSU.FLUSHED_COUNT : Fld := ⟨0xD, 0xC, 32, 0, 32, .rc, false, fun _ _ _ => 0⟩

/-- TSU.TXQ_META.VALID -/
def F.TSU.TXQ_META_VALID : Fld := ⟨0xD, 0x10, 64, 63, 1, .rc, false, fun _ _ _ => 0⟩

/-- TSU.TXQ_META.TG -/
def F.TSU.TXQ_META_TG : Fld := ⟨0xD, 0x10, 64, 62, 1, .rc, false, fun _ _ _ => 0⟩

/-- TSU.TXQ_META.DROPPED -/
def F.TSU.TXQ_META_DROPPED : Fld := ⟨0xD, 0x10, 64, 61, 1, .rc, false, fun _ _ _ => 0⟩

/-- TSU.TXQ_META.SEQ -/
def F.TSU.TXQ_META_SEQ : Fld := ⟨0xD, 0x10, 64, 32, 16, .rc, false, fun _ _ _ => 0⟩

/-- TSU.TXQ_META.ID -/
def F.TSU.TXQ_META_ID : Fld := ⟨0xD, 0x10, 64, 0, 16, .rc, false, fun _ _ _ => 0⟩

/-- TSU.TXQ_TIME.TIME -/
def F.TSU.TXQ_TIME_TIME : Fld := ⟨0xD, 0x20, 128, 0, 128, .ro, false, fun _ _ _ => 0⟩

/-- TSU.DLY_TX.FIXED -/
def F.TSU.DLY_TX_FIXED : Fld := ⟨0xD, 0x30, 64, 32, 32, .ro, false, fun _ _ _ => 0⟩

/-- TSU.DLY_RX.FIXED -/
def F.TSU.DLY_RX_FIXED : Fld := ⟨0xD, 0x38, 64, 32, 32, .ro, false, fun _ _ _ => 0⟩

/-- TSU.DLY_TX.CAL -/
def F.TSU.DLY_TX_CAL : Fld := ⟨0xD, 0x30, 64, 0, 32, .ro, false, fun _ _ _ => 0⟩

/-- TSU.DLY_RX.CAL -/
def F.TSU.DLY_RX_CAL : Fld := ⟨0xD, 0x38, 64, 0, 32, .ro, false, fun _ _ _ => 0⟩

/-- TSU.ADJ.TX_ADJ -/
def F.TSU.ADJ_TX_ADJ : Fld := ⟨0xD, 0x40, 32, 16, 16, .rwL, false, fun _ _ _ => 0⟩

/-- TSU.ADJ.RX_ADJ -/
def F.TSU.ADJ_RX_ADJ : Fld := ⟨0xD, 0x40, 32, 0, 16, .rwL, false, fun _ _ _ => 0⟩

/-- TSU.NTG_CORR.COUNT -/
def F.TSU.NTG_CORR_COUNT : Fld := ⟨0xD, 0x48, 32, 0, 32, .rc, false, fun _ _ _ => 0⟩

def F.TSU.rows0 : List FldRow :=
  [⟨0, 1, 0, fun _ => F.TSU.CFG_NTG_POISON⟩,
   ⟨0, 1, 0, fun _ => F.TSU.CFG_TC_EN⟩,
   ⟨0, 1, 0, fun _ => F.TSU.CFG_PTP_UDP6⟩,
   ⟨0, 1, 0, fun _ => F.TSU.CFG_PTP_UDP4⟩,
   ⟨0, 1, 0, fun _ => F.TSU.CFG_PTP_L2⟩,
   ⟨0, 1, 0, fun _ => F.TSU.STATUS_TG⟩,
   ⟨0, 1, 0, fun _ => F.TSU.STATUS_DEPTH⟩,
   ⟨0, 1, 0, fun _ => F.TSU.ERR_NTG_CORR_SEEN⟩,
   ⟨0, 1, 0, fun _ => F.TSU.ERR_TSQ_OVF⟩,
   ⟨0, 1, 0, fun _ => F.TSU.FLUSHED_COUNT⟩,
   ⟨0, 1, 0, fun _ => F.TSU.TXQ_META_VALID⟩,
   ⟨0, 1, 0, fun _ => F.TSU.TXQ_META_TG⟩]

def F.TSU.rows1 : List FldRow :=
  [⟨0, 1, 0, fun _ => F.TSU.TXQ_META_DROPPED⟩,
   ⟨0, 1, 0, fun _ => F.TSU.TXQ_META_SEQ⟩,
   ⟨0, 1, 0, fun _ => F.TSU.TXQ_META_ID⟩,
   ⟨0, 1, 0, fun _ => F.TSU.TXQ_TIME_TIME⟩,
   ⟨0, 1, 0, fun _ => F.TSU.DLY_TX_FIXED⟩,
   ⟨0, 1, 0, fun _ => F.TSU.DLY_RX_FIXED⟩,
   ⟨0, 1, 0, fun _ => F.TSU.DLY_TX_CAL⟩,
   ⟨0, 1, 0, fun _ => F.TSU.DLY_RX_CAL⟩,
   ⟨0, 1, 0, fun _ => F.TSU.ADJ_TX_ADJ⟩,
   ⟨0, 1, 0, fun _ => F.TSU.ADJ_RX_ADJ⟩,
   ⟨0, 1, 0, fun _ => F.TSU.NTG_CORR_COUNT⟩]

/-- The map of TSU. -/
def F.TSU.rows : List FldRow := F.TSU.rows0 ++ F.TSU.rows1

/-! LINK (09_time_distribution.md) -/

/-- LINK.CFG.HANDLER -/
def F.LINK.CFG_HANDLER : Fld := ⟨0xE, 0x0, 32, 24, 8, .rwS, false, fun _ d _ => 4 * d⟩

/-- LINK.CFG.XCH -/
def F.LINK.CFG_XCH : Fld := ⟨0xE, 0x0, 32, 16, 4, .rwS, false, fun _ _ _ => 4⟩

/-- LINK.CFG.RES_N -/
def F.LINK.CFG_RES_N : Fld := ⟨0xE, 0x0, 32, 8, 4, .rwS, false, fun _ _ _ => 4⟩

/-- LINK.CFG.TS_ONLY -/
def F.LINK.CFG_TS_ONLY : Fld := ⟨0xE, 0x0, 32, 1, 1, .rwS, false, fun _ _ _ => 0⟩

/-- LINK.ASYM.ASYM -/
def F.LINK.ASYM_ASYM : Fld := ⟨0xE, 0x4, 32, 0, 32, .rwL, false, fun _ _ _ => 0⟩

/-- LINK.STATUS.TRIES -/
def F.LINK.STATUS_TRIES : Fld := ⟨0xE, 0x8, 32, 12, 4, .ro, false, fun _ _ _ => 0⟩

/-- LINK.STATUS.PORT_TG -/
def F.LINK.STATUS_PORT_TG : Fld := ⟨0xE, 0x8, 32, 7, 1, .ro, false, fun _ _ _ => 0⟩

/-- LINK.STATUS.PEER_TG -/
def F.LINK.STATUS_PEER_TG : Fld := ⟨0xE, 0x8, 32, 6, 1, .ro, false, fun _ _ _ => 0⟩

/-- LINK.STATUS.PEER_PHASE -/
def F.LINK.STATUS_PEER_PHASE : Fld := ⟨0xE, 0x8, 32, 5, 1, .ro, false, fun _ _ _ => 0⟩

/-- LINK.STATUS.LSTATE -/
def F.LINK.STATUS_LSTATE : Fld := ⟨0xE, 0x8, 32, 0, 3, .ro, false, fun _ _ _ => 5⟩

/-- LINK.ERR.ASYM_CLIP -/
def F.LINK.ERR_ASYM_CLIP : Fld := ⟨0xE, 0xC, 32, 5, 1, .w1c, false, fun _ _ _ => 0⟩

/-- LINK.ERR.STALE -/
def F.LINK.ERR_STALE : Fld := ⟨0xE, 0xC, 32, 4, 1, .w1c, false, fun _ _ _ => 0⟩

/-- LINK.ERR.RESOLVE_FAIL -/
def F.LINK.ERR_RESOLVE_FAIL : Fld := ⟨0xE, 0xC, 32, 3, 1, .w1c, false, fun _ _ _ => 0⟩

/-- LINK.ERR.AMBIG -/
def F.LINK.ERR_AMBIG : Fld := ⟨0xE, 0xC, 32, 2, 1, .w1c, false, fun _ _ _ => 0⟩

/-- LINK.ERR.SLIP -/
def F.LINK.ERR_SLIP : Fld := ⟨0xE, 0xC, 32, 1, 1, .w1c, false, fun _ _ _ => 0⟩

/-- LINK.ERR.DISCARD -/
def F.LINK.ERR_DISCARD : Fld := ⟨0xE, 0xC, 32, 0, 1, .w1c, false, fun _ _ _ => 0⟩

/-- LINK.X_T1.TIME -/
def F.LINK.X_T1_TIME : Fld := ⟨0xE, 0x10, 128, 0, 128, .rwL, false, fun _ _ _ => 0⟩

/-- LINK.X_T2.TIME -/
def F.LINK.X_T2_TIME : Fld := ⟨0xE, 0x20, 128, 0, 128, .rwL, false, fun _ _ _ => 0⟩

/-- LINK.X_T3.TIME -/
def F.LINK.X_T3_TIME : Fld := ⟨0xE, 0x30, 128, 0, 128, .rwL, false, fun _ _ _ => 0⟩

/-- LINK.X_T4.TIME -/
def F.LINK.X_T4_TIME : Fld := ⟨0xE, 0x40, 128, 0, 128, .rwL, false, fun _ _ _ => 0⟩

/-- LINK.X_PEER.E_OUT -/
def F.LINK.X_PEER_E_OUT : Fld := ⟨0xE, 0x50, 64, 0, 64, .rwL, false, fun _ _ _ => 0⟩

/-- LINK.X_INFO.WIN -/
def F.LINK.X_INFO_WIN : Fld := ⟨0xE, 0x58, 64, 32, 32, .rwL, false, fun _ _ _ => 0⟩

/-- LINK.X_INFO.GEN -/
def F.LINK.X_INFO_GEN : Fld := ⟨0xE, 0x58, 64, 16, 16, .rwL, false, fun _ _ _ => 0⟩

/-- LINK.X_INFO.FLAGS -/
def F.LINK.X_INFO_FLAGS : Fld := ⟨0xE, 0x58, 64, 8, 8, .rwL, false, fun _ _ _ => 0⟩

/-- LINK.X_TXREF.TX_REF -/
def F.LINK.X_TXREF_TX_REF : Fld := ⟨0xE, 0x60, 64, 0, 64, .rwL, false, fun _ _ _ => 0⟩

/-- LINK.X_COMMIT.GO -/
def F.LINK.X_COMMIT_GO : Fld := ⟨0xE, 0x68, 32, 31, 1, .rwL, false, fun _ _ _ => 0⟩

/-- LINK.TX_REF.TX_REF -/
def F.LINK.TX_REF_TX_REF : Fld := ⟨0xE, 0x70, 64, 0, 64, .ro, false, fun _ _ _ => 0⟩

/-- LINK.EIN_W.E_IN -/
def F.LINK.EIN_W_E_IN : Fld := ⟨0xE, 0x80, 128, 64, 64, .ro, false, fun _ _ _ => 0⟩

/-- LINK.EIN_W.WIN -/
def F.LINK.EIN_W_WIN : Fld := ⟨0xE, 0x80, 128, 32, 32, .ro, false, fun _ _ _ => 0⟩

/-- LINK.EIN_W.GEN -/
def F.LINK.EIN_W_GEN : Fld := ⟨0xE, 0x80, 128, 16, 16, .ro, false, fun _ _ _ => 0⟩

/-- LINK.EIN_W.RESOLVED -/
def F.LINK.EIN_W_RESOLVED : Fld := ⟨0xE, 0x80, 128, 0, 1, .ro, false, fun _ _ _ => 0⟩

/-- LINK.THETA_W.THETA -/
def F.LINK.THETA_W_THETA : Fld := ⟨0xE, 0x90, 128, 64, 64, .ro, false, fun _ _ _ => 0⟩

/-- LINK.DELAY_W.D_IN -/
def F.LINK.DELAY_W_D_IN : Fld := ⟨0xE, 0xA0, 128, 64, 64, .ro, false, fun _ _ _ => 0⟩

/-- LINK.RTT_W.D_RT -/
def F.LINK.RTT_W_D_RT : Fld := ⟨0xE, 0xB0, 128, 64, 64, .ro, false, fun _ _ _ => 0⟩

/-- LINK.THETA_W.WIN -/
def F.LINK.THETA_W_WIN : Fld := ⟨0xE, 0x90, 128, 32, 32, .ro, false, fun _ _ _ => 0⟩

/-- LINK.DELAY_W.WIN -/
def F.LINK.DELAY_W_WIN : Fld := ⟨0xE, 0xA0, 128, 32, 32, .ro, false, fun _ _ _ => 0⟩

/-- LINK.RTT_W.WIN -/
def F.LINK.RTT_W_WIN : Fld := ⟨0xE, 0xB0, 128, 32, 32, .ro, false, fun _ _ _ => 0⟩

/-- LINK.M_IN.M_IN -/
def F.LINK.M_IN_M_IN : Fld := ⟨0xE, 0xC0, 64, 0, 64, .ro, false, fun _ _ _ => 0⟩

def F.LINK.rows0 : List FldRow :=
  [⟨0, 1, 0, fun _ => F.LINK.CFG_HANDLER⟩,
   ⟨0, 1, 0, fun _ => F.LINK.CFG_XCH⟩,
   ⟨0, 1, 0, fun _ => F.LINK.CFG_RES_N⟩,
   ⟨0, 1, 0, fun _ => F.LINK.CFG_TS_ONLY⟩,
   ⟨0, 1, 0, fun _ => F.LINK.ASYM_ASYM⟩,
   ⟨0, 1, 0, fun _ => F.LINK.STATUS_TRIES⟩,
   ⟨0, 1, 0, fun _ => F.LINK.STATUS_PORT_TG⟩,
   ⟨0, 1, 0, fun _ => F.LINK.STATUS_PEER_TG⟩,
   ⟨0, 1, 0, fun _ => F.LINK.STATUS_PEER_PHASE⟩,
   ⟨0, 1, 0, fun _ => F.LINK.STATUS_LSTATE⟩,
   ⟨0, 1, 0, fun _ => F.LINK.ERR_ASYM_CLIP⟩,
   ⟨0, 1, 0, fun _ => F.LINK.ERR_STALE⟩]

def F.LINK.rows1 : List FldRow :=
  [⟨0, 1, 0, fun _ => F.LINK.ERR_RESOLVE_FAIL⟩,
   ⟨0, 1, 0, fun _ => F.LINK.ERR_AMBIG⟩,
   ⟨0, 1, 0, fun _ => F.LINK.ERR_SLIP⟩,
   ⟨0, 1, 0, fun _ => F.LINK.ERR_DISCARD⟩,
   ⟨0, 1, 0, fun _ => F.LINK.X_T1_TIME⟩,
   ⟨0, 1, 0, fun _ => F.LINK.X_T2_TIME⟩,
   ⟨0, 1, 0, fun _ => F.LINK.X_T3_TIME⟩,
   ⟨0, 1, 0, fun _ => F.LINK.X_T4_TIME⟩,
   ⟨0, 1, 0, fun _ => F.LINK.X_PEER_E_OUT⟩,
   ⟨0, 1, 0, fun _ => F.LINK.X_INFO_WIN⟩,
   ⟨0, 1, 0, fun _ => F.LINK.X_INFO_GEN⟩,
   ⟨0, 1, 0, fun _ => F.LINK.X_INFO_FLAGS⟩]

def F.LINK.rows2 : List FldRow :=
  [⟨0, 1, 0, fun _ => F.LINK.X_TXREF_TX_REF⟩,
   ⟨0, 1, 0, fun _ => F.LINK.X_COMMIT_GO⟩,
   ⟨0, 1, 0, fun _ => F.LINK.TX_REF_TX_REF⟩,
   ⟨0, 1, 0, fun _ => F.LINK.EIN_W_E_IN⟩,
   ⟨0, 1, 0, fun _ => F.LINK.EIN_W_WIN⟩,
   ⟨0, 1, 0, fun _ => F.LINK.EIN_W_GEN⟩,
   ⟨0, 1, 0, fun _ => F.LINK.EIN_W_RESOLVED⟩,
   ⟨0, 1, 0, fun _ => F.LINK.THETA_W_THETA⟩,
   ⟨0, 1, 0, fun _ => F.LINK.DELAY_W_D_IN⟩,
   ⟨0, 1, 0, fun _ => F.LINK.RTT_W_D_RT⟩,
   ⟨0, 1, 0, fun _ => F.LINK.THETA_W_WIN⟩,
   ⟨0, 1, 0, fun _ => F.LINK.DELAY_W_WIN⟩]

def F.LINK.rows3 : List FldRow :=
  [⟨0, 1, 0, fun _ => F.LINK.RTT_W_WIN⟩,
   ⟨0, 1, 0, fun _ => F.LINK.M_IN_M_IN⟩]

/-- The map of LINK. -/
def F.LINK.rows : List FldRow := F.LINK.rows0 ++ F.LINK.rows1 ++ F.LINK.rows2 ++ F.LINK.rows3

/-! SUMMIT (09_time_distribution.md) -/

/-- SUMMIT.CFG.PRIORITY -/
def F.SUMMIT.CFG_PRIORITY : Fld := ⟨0xF, 0x0, 32, 24, 8, .rwS, false, fun _ _ _ => 0⟩

/-- SUMMIT.CFG.BCN_INT -/
def F.SUMMIT.CFG_BCN_INT : Fld := ⟨0xF, 0x0, 32, 16, 8, .rwS, false, fun _ _ _ => 0xa⟩

/-- SUMMIT.CFG.TERM -/
def F.SUMMIT.CFG_TERM : Fld := ⟨0xF, 0x0, 32, 0, 16, .rwS, false, fun _ _ _ => 0x3e8⟩

/-- SUMMIT.GUARD.GUARD -/
def F.SUMMIT.GUARD_GUARD : Fld := ⟨0xF, 0x4, 32, 0, 16, .rwS, false, fun _ _ _ => 0x14⟩

/-- SUMMIT.PATH_k.EN -/
def F.SUMMIT.PATH_EN (k : Nat) : Fld := ⟨0xF, 0x8 + k * 4, 32, 31, 1, .rwS, false, fun _ _ _ => 0⟩

/-- SUMMIT.PATH_k.QUEUE -/
def F.SUMMIT.PATH_QUEUE (k : Nat) : Fld := ⟨0xF, 0x8 + k * 4, 32, 24, 4, .rwS, false, fun _ _ _ => 0xf⟩

/-- SUMMIT.PATH_k.PORT -/
def F.SUMMIT.PATH_PORT (k : Nat) : Fld := ⟨0xF, 0x8 + k * 4, 32, 16, 8, .rwS, false, fun _ _ _ => 0⟩

/-- SUMMIT.PATH_k.VID -/
def F.SUMMIT.PATH_VID (k : Nat) : Fld := ⟨0xF, 0x8 + k * 4, 32, 0, 12, .rwS, false, fun _ _ _ => 0⟩

/-- SUMMIT.BCN_MAC.MAC -/
def F.SUMMIT.BCN_MAC_MAC : Fld := ⟨0xF, 0x10, 64, 0, 48, .rwS, false, fun _ _ _ => 0⟩

/-- SUMMIT.SRC_MAC.MAC -/
def F.SUMMIT.SRC_MAC_MAC : Fld := ⟨0xF, 0x18, 64, 0, 48, .rwS, false, fun _ _ _ => 0⟩

/-- SUMMIT.DEV_ID.DEVICE_ID -/
def F.SUMMIT.DEV_ID_DEVICE_ID : Fld := ⟨0xF, 0x20, 64, 0, 64, .ro, false, fun _ _ _ => Config.deviceId.toNat⟩

/-- SUMMIT.CMD.BUSY -/
def F.SUMMIT.CMD_BUSY : Fld := ⟨0xF, 0x28, 32, 31, 1, .ro, false, fun _ _ _ => 0⟩

/-- SUMMIT.CMD.OP -/
def F.SUMMIT.CMD_OP : Fld := ⟨0xF, 0x28, 32, 26, 2, .rwL, false, fun _ _ _ => 0⟩

/-- SUMMIT.CMD.STATUS -/
def F.SUMMIT.CMD_STATUS : Fld := ⟨0xF, 0x28, 32, 20, 3, .ro, false, fun _ _ _ => 0⟩

/-- SUMMIT.STATUS.PATH_B_OK -/
def F.SUMMIT.STATUS_PATH_B_OK : Fld := ⟨0xF, 0x2C, 32, 7, 1, .ro, false, fun _ _ _ => 0⟩

/-- SUMMIT.STATUS.PATH_A_OK -/
def F.SUMMIT.STATUS_PATH_A_OK : Fld := ⟨0xF, 0x2C, 32, 6, 1, .ro, false, fun _ _ _ => 0⟩

/-- SUMMIT.STATUS.ELIGIBLE -/
def F.SUMMIT.STATUS_ELIGIBLE : Fld := ⟨0xF, 0x2C, 32, 5, 1, .ro, false, fun _ _ _ => 0⟩

/-- SUMMIT.STATUS.LEASE_LIVE -/
def F.SUMMIT.STATUS_LEASE_LIVE : Fld := ⟨0xF, 0x2C, 32, 4, 1, .ro, false, fun _ _ _ => 0⟩

/-- SUMMIT.STATUS.ROLE -/
def F.SUMMIT.STATUS_ROLE : Fld := ⟨0xF, 0x2C, 32, 0, 2, .ro, false, fun _ _ _ => 0⟩

/-- SUMMIT.ERR.PATH_LOST -/
def F.SUMMIT.ERR_PATH_LOST : Fld := ⟨0xF, 0x30, 32, 4, 1, .w1c, false, fun _ _ _ => 0⟩

/-- SUMMIT.ERR.BCN_BAD -/
def F.SUMMIT.ERR_BCN_BAD : Fld := ⟨0xF, 0x30, 32, 3, 1, .w1c, false, fun _ _ _ => 0⟩

/-- SUMMIT.ERR.LAPSED -/
def F.SUMMIT.ERR_LAPSED : Fld := ⟨0xF, 0x30, 32, 2, 1, .w1c, false, fun _ _ _ => 0⟩

/-- SUMMIT.ERR.YIELDED -/
def F.SUMMIT.ERR_YIELDED : Fld := ⟨0xF, 0x30, 32, 1, 1, .w1c, false, fun _ _ _ => 0⟩

/-- SUMMIT.ERR.FOREIGN -/
def F.SUMMIT.ERR_FOREIGN : Fld := ⟨0xF, 0x30, 32, 0, 1, .w1c, false, fun _ _ _ => 0⟩

/-- SUMMIT.QUALITY.QUALITY -/
def F.SUMMIT.QUALITY_QUALITY : Fld := ⟨0xF, 0x34, 32, 0, 32, .rwL, false, fun _ _ _ => 0⟩

/-- SUMMIT.EPOCH.EPOCH -/
def F.SUMMIT.EPOCH_EPOCH : Fld := ⟨0xF, 0x38, 32, 0, 32, .ro, false, fun _ _ _ => 0⟩

/-- SUMMIT.RENEWED.TIME -/
def F.SUMMIT.RENEWED_TIME : Fld := ⟨0xF, 0x40, 128, 0, 128, .ro, false, fun _ _ _ => 0⟩

/-- SUMMIT.LEASE_EXP.TIME -/
def F.SUMMIT.LEASE_EXP_TIME : Fld := ⟨0xF, 0x50, 128, 0, 128, .ro, false, fun _ _ _ => 0⟩

/-- SUMMIT.HOLDER.HOLDER -/
def F.SUMMIT.HOLDER_HOLDER : Fld := ⟨0xF, 0x60, 64, 0, 64, .ro, false, fun _ _ _ => 0⟩

def F.SUMMIT.rows0 : List FldRow :=
  [⟨0, 1, 0, fun _ => F.SUMMIT.CFG_PRIORITY⟩,
   ⟨0, 1, 0, fun _ => F.SUMMIT.CFG_BCN_INT⟩,
   ⟨0, 1, 0, fun _ => F.SUMMIT.CFG_TERM⟩,
   ⟨0, 1, 0, fun _ => F.SUMMIT.GUARD_GUARD⟩,
   ⟨0, 2, 4, F.SUMMIT.PATH_EN⟩,
   ⟨0, 2, 4, F.SUMMIT.PATH_QUEUE⟩,
   ⟨0, 2, 4, F.SUMMIT.PATH_PORT⟩,
   ⟨0, 2, 4, F.SUMMIT.PATH_VID⟩,
   ⟨0, 1, 0, fun _ => F.SUMMIT.BCN_MAC_MAC⟩,
   ⟨0, 1, 0, fun _ => F.SUMMIT.SRC_MAC_MAC⟩,
   ⟨0, 1, 0, fun _ => F.SUMMIT.DEV_ID_DEVICE_ID⟩,
   ⟨0, 1, 0, fun _ => F.SUMMIT.CMD_BUSY⟩]

def F.SUMMIT.rows1 : List FldRow :=
  [⟨0, 1, 0, fun _ => F.SUMMIT.CMD_OP⟩,
   ⟨0, 1, 0, fun _ => F.SUMMIT.CMD_STATUS⟩,
   ⟨0, 1, 0, fun _ => F.SUMMIT.STATUS_PATH_B_OK⟩,
   ⟨0, 1, 0, fun _ => F.SUMMIT.STATUS_PATH_A_OK⟩,
   ⟨0, 1, 0, fun _ => F.SUMMIT.STATUS_ELIGIBLE⟩,
   ⟨0, 1, 0, fun _ => F.SUMMIT.STATUS_LEASE_LIVE⟩,
   ⟨0, 1, 0, fun _ => F.SUMMIT.STATUS_ROLE⟩,
   ⟨0, 1, 0, fun _ => F.SUMMIT.ERR_PATH_LOST⟩,
   ⟨0, 1, 0, fun _ => F.SUMMIT.ERR_BCN_BAD⟩,
   ⟨0, 1, 0, fun _ => F.SUMMIT.ERR_LAPSED⟩,
   ⟨0, 1, 0, fun _ => F.SUMMIT.ERR_YIELDED⟩,
   ⟨0, 1, 0, fun _ => F.SUMMIT.ERR_FOREIGN⟩]

def F.SUMMIT.rows2 : List FldRow :=
  [⟨0, 1, 0, fun _ => F.SUMMIT.QUALITY_QUALITY⟩,
   ⟨0, 1, 0, fun _ => F.SUMMIT.EPOCH_EPOCH⟩,
   ⟨0, 1, 0, fun _ => F.SUMMIT.RENEWED_TIME⟩,
   ⟨0, 1, 0, fun _ => F.SUMMIT.LEASE_EXP_TIME⟩,
   ⟨0, 1, 0, fun _ => F.SUMMIT.HOLDER_HOLDER⟩]

/-- The map of SUMMIT. -/
def F.SUMMIT.rows : List FldRow := F.SUMMIT.rows0 ++ F.SUMMIT.rows1 ++ F.SUMMIT.rows2

/-! GNSS (10_gnss_reference.md) -/

/-- GNSS.CFG.RETURN -/
def F.GNSS.CFG_RETURN : Fld := ⟨0x10, 0x0, 32, 28, 2, .rwS, false, fun _ _ _ => 0⟩

/-- GNSS.CFG.POS_MODE -/
def F.GNSS.CFG_POS_MODE : Fld := ⟨0x10, 0x0, 32, 26, 2, .rwS, false, fun _ _ _ => 0⟩

/-- GNSS.CFG.SPARSE -/
def F.GNSS.CFG_SPARSE : Fld := ⟨0x10, 0x0, 32, 25, 1, .rwS, false, fun _ _ _ => 0⟩

/-- GNSS.CFG.BITS -/
def F.GNSS.CFG_BITS : Fld := ⟨0x10, 0x0, 32, 24, 1, .rwS, false, fun _ _ _ => 0⟩

/-- GNSS.CFG.CN0_MASK -/
def F.GNSS.CFG_CN0_MASK : Fld := ⟨0x10, 0x0, 32, 16, 8, .rwS, false, fun _ _ _ => 0x1e⟩

/-- GNSS.CFG.ELEV_MASK -/
def F.GNSS.CFG_ELEV_MASK : Fld := ⟨0x10, 0x0, 32, 8, 8, .rwS, false, fun _ _ _ => 0xa⟩

/-- GNSS.IF_RATE.RATE -/
def F.GNSS.IF_RATE_RATE : Fld := ⟨0x10, 0x4, 32, 0, 26, .rwS, false, fun _ _ _ => 0⟩

/-- GNSS.IF_FREQ.FREQ -/
def F.GNSS.IF_FREQ_FREQ : Fld := ⟨0x10, 0x8, 32, 0, 32, .rwS, false, fun _ _ _ => 0⟩

/-- GNSS.CABLE_DLY.DLY -/
def F.GNSS.CABLE_DLY_DLY : Fld := ⟨0x10, 0xC, 32, 0, 32, .rwL, false, fun _ _ _ => 0⟩

/-- GNSS.JUMP.LIMIT -/
def F.GNSS.JUMP_LIMIT : Fld := ⟨0x10, 0x10, 32, 0, 30, .rwS, false, fun _ _ _ => 0x64⟩

/-- GNSS.SLEW.MAX -/
def F.GNSS.SLEW_MAX : Fld := ⟨0x10, 0x14, 32, 0, 10, .rwS, false, fun _ _ _ => 0xa⟩

/-- GNSS.HOLD.F0 -/
def F.GNSS.HOLD_F0 : Fld := ⟨0x10, 0x18, 32, 16, 16, .rwS, false, fun _ _ _ => 0x64⟩

/-- GNSS.HOLD.AGE -/
def F.GNSS.HOLD_AGE : Fld := ⟨0x10, 0x18, 32, 8, 8, .rwS, false, fun _ _ _ => 0x14⟩

/-- GNSS.HOLD.AVG -/
def F.GNSS.HOLD_AVG : Fld := ⟨0x10, 0x18, 32, 0, 2, .rwS, false, fun _ _ _ => 1⟩

/-- GNSS.WN_BASE.WEEK -/
def F.GNSS.WN_BASE_WEEK : Fld := ⟨0x10, 0x1C, 32, 0, 16, .rwS, false, fun _ _ _ => 0x924⟩

/-- GNSS.CTRL.ACK -/
def F.GNSS.CTRL_ACK : Fld := ⟨0x10, 0x20, 32, 0, 1, .rwL, false, fun _ _ _ => 0⟩

/-- GNSS.STATUS.NSV_USED -/
def F.GNSS.STATUS_NSV_USED : Fld := ⟨0x10, 0x24, 32, 24, 8, .ro, false, fun _ _ _ => 0⟩

/-- GNSS.STATUS.NSV_TRACKED -/
def F.GNSS.STATUS_NSV_TRACKED : Fld := ⟨0x10, 0x24, 32, 16, 8, .ro, false, fun _ _ _ => 0⟩

/-- GNSS.STATUS.SPARSE_ON -/
def F.GNSS.STATUS_SPARSE_ON : Fld := ⟨0x10, 0x24, 32, 6, 1, .ro, false, fun _ _ _ => 0⟩

/-- GNSS.STATUS.POS_OK -/
def F.GNSS.STATUS_POS_OK : Fld := ⟨0x10, 0x24, 32, 5, 1, .ro, false, fun _ _ _ => 0⟩

/-- GNSS.STATUS.MODEL_VALID -/
def F.GNSS.STATUS_MODEL_VALID : Fld := ⟨0x10, 0x24, 32, 4, 1, .ro, false, fun _ _ _ => 0⟩

/-- GNSS.STATUS.UTC_VALID -/
def F.GNSS.STATUS_UTC_VALID : Fld := ⟨0x10, 0x24, 32, 3, 1, .ro, false, fun _ _ _ => 0⟩

/-- GNSS.STATUS.GSTATE -/
def F.GNSS.STATUS_GSTATE : Fld := ⟨0x10, 0x24, 32, 0, 3, .ro, false, fun _ _ _ => 0⟩

/-- GNSS.ERR.IF_LOST -/
def F.GNSS.ERR_IF_LOST : Fld := ⟨0x10, 0x28, 32, 4, 1, .w1c, false, fun _ _ _ => 0⟩

/-- GNSS.ERR.IF_RANGE -/
def F.GNSS.ERR_IF_RANGE : Fld := ⟨0x10, 0x28, 32, 3, 1, .w1c, false, fun _ _ _ => 0⟩

/-- GNSS.ERR.ACK_IGN -/
def F.GNSS.ERR_ACK_IGN : Fld := ⟨0x10, 0x28, 32, 2, 1, .w1c, false, fun _ _ _ => 0⟩

/-- GNSS.ERR.HOLD_SEEN -/
def F.GNSS.ERR_HOLD_SEEN : Fld := ⟨0x10, 0x28, 32, 1, 1, .w1c, false, fun _ _ _ => 0⟩

/-- GNSS.ERR.JUMP_REFUSED -/
def F.GNSS.ERR_JUMP_REFUSED : Fld := ⟨0x10, 0x28, 32, 0, 1, .w1c, false, fun _ _ _ => 0⟩

/-- GNSS.FIX.FIX -/
def F.GNSS.FIX_FIX : Fld := ⟨0x10, 0x30, 128, 64, 64, .ro, false, fun _ _ _ => 0⟩

/-- GNSS.FIX.ERR_EST -/
def F.GNSS.FIX_ERR_EST : Fld := ⟨0x10, 0x30, 128, 32, 32, .ro, false, fun _ _ _ => 0⟩

/-- GNSS.FIX.SOL_SEQ -/
def F.GNSS.FIX_SOL_SEQ : Fld := ⟨0x10, 0x30, 128, 16, 16, .ro, false, fun _ _ _ => 0⟩

/-- GNSS.MODEL.MODEL -/
def F.GNSS.MODEL_MODEL : Fld := ⟨0x10, 0x40, 128, 64, 64, .ro, false, fun _ _ _ => 0⟩

/-- GNSS.MODEL.ERR_EST -/
def F.GNSS.MODEL_ERR_EST : Fld := ⟨0x10, 0x40, 128, 32, 32, .ro, false, fun _ _ _ => 0⟩

/-- GNSS.DRIFT.DRIFT -/
def F.GNSS.DRIFT_DRIFT : Fld := ⟨0x10, 0x50, 64, 0, 64, .ro, false, fun _ _ _ => 0⟩

/-- GNSS.POS_k.POS -/
def F.GNSS.POS_POS (k : Nat) : Fld := ⟨0x10, 0x60 + k * 8, 64, 0, 64, .rwS, false, fun _ _ _ => 0⟩

/-- GNSS.SURVEY.MINUTES -/
def F.GNSS.SURVEY_MINUTES : Fld := ⟨0x10, 0x78, 32, 0, 16, .rwS, false, fun _ _ _ => 0x3c⟩

/-- GNSS.UTC.TAI_UTC -/
def F.GNSS.UTC_TAI_UTC : Fld := ⟨0x10, 0x80, 32, 0, 8, .ro, false, fun _ _ _ => 0⟩

/-- GNSS.MSG_CFG.EN -/
def F.GNSS.MSG_CFG_EN : Fld := ⟨0x10, 0x88, 32, 31, 1, .rwS, false, fun _ _ _ => 0⟩

/-- GNSS.MSG_CFG.ENG -/
def F.GNSS.MSG_CFG_ENG : Fld := ⟨0x10, 0x88, 32, 16, 8, .rwS, false, fun _ _ _ => 0⟩

/-- GNSS.MSG_CFG.LEAD -/
def F.GNSS.MSG_CFG_LEAD : Fld := ⟨0x10, 0x88, 32, 0, 16, .rwS, false, fun _ _ _ => 0xa⟩

/-- GNSS.SAMP.OFFSET -/
def F.GNSS.SAMP_OFFSET : Fld := ⟨0x10, 0x90, 64, 0, 64, .ro, false, fun _ _ _ => 0⟩

/-- GNSS.CH_k.ELEV -/
def F.GNSS.CH_ELEV (k : Nat) : Fld := ⟨0x10, 0x200 + k * 8, 64, 32, 8, .ro, false, fun _ _ _ => 0⟩

/-- GNSS.CH_k.CN0 -/
def F.GNSS.CH_CN0 (k : Nat) : Fld := ⟨0x10, 0x200 + k * 8, 64, 24, 8, .ro, false, fun _ _ _ => 0⟩

/-- GNSS.CH_k.PRN -/
def F.GNSS.CH_PRN (k : Nat) : Fld := ⟨0x10, 0x200 + k * 8, 64, 8, 8, .ro, false, fun _ _ _ => 0⟩

/-- GNSS.CH_k.USED -/
def F.GNSS.CH_USED (k : Nat) : Fld := ⟨0x10, 0x200 + k * 8, 64, 2, 1, .ro, false, fun _ _ _ => 0⟩

/-- GNSS.CH_k.CSTATE -/
def F.GNSS.CH_CSTATE (k : Nat) : Fld := ⟨0x10, 0x200 + k * 8, 64, 0, 2, .ro, false, fun _ _ _ => 0⟩

def F.GNSS.rows0 : List FldRow :=
  [⟨0, 1, 0, fun _ => F.GNSS.CFG_RETURN⟩,
   ⟨0, 1, 0, fun _ => F.GNSS.CFG_POS_MODE⟩,
   ⟨0, 1, 0, fun _ => F.GNSS.CFG_SPARSE⟩,
   ⟨0, 1, 0, fun _ => F.GNSS.CFG_BITS⟩,
   ⟨0, 1, 0, fun _ => F.GNSS.CFG_CN0_MASK⟩,
   ⟨0, 1, 0, fun _ => F.GNSS.CFG_ELEV_MASK⟩,
   ⟨0, 1, 0, fun _ => F.GNSS.IF_RATE_RATE⟩,
   ⟨0, 1, 0, fun _ => F.GNSS.IF_FREQ_FREQ⟩,
   ⟨0, 1, 0, fun _ => F.GNSS.CABLE_DLY_DLY⟩,
   ⟨0, 1, 0, fun _ => F.GNSS.JUMP_LIMIT⟩,
   ⟨0, 1, 0, fun _ => F.GNSS.SLEW_MAX⟩,
   ⟨0, 1, 0, fun _ => F.GNSS.HOLD_F0⟩]

def F.GNSS.rows1 : List FldRow :=
  [⟨0, 1, 0, fun _ => F.GNSS.HOLD_AGE⟩,
   ⟨0, 1, 0, fun _ => F.GNSS.HOLD_AVG⟩,
   ⟨0, 1, 0, fun _ => F.GNSS.WN_BASE_WEEK⟩,
   ⟨0, 1, 0, fun _ => F.GNSS.CTRL_ACK⟩,
   ⟨0, 1, 0, fun _ => F.GNSS.STATUS_NSV_USED⟩,
   ⟨0, 1, 0, fun _ => F.GNSS.STATUS_NSV_TRACKED⟩,
   ⟨0, 1, 0, fun _ => F.GNSS.STATUS_SPARSE_ON⟩,
   ⟨0, 1, 0, fun _ => F.GNSS.STATUS_POS_OK⟩,
   ⟨0, 1, 0, fun _ => F.GNSS.STATUS_MODEL_VALID⟩,
   ⟨0, 1, 0, fun _ => F.GNSS.STATUS_UTC_VALID⟩,
   ⟨0, 1, 0, fun _ => F.GNSS.STATUS_GSTATE⟩,
   ⟨0, 1, 0, fun _ => F.GNSS.ERR_IF_LOST⟩]

def F.GNSS.rows2 : List FldRow :=
  [⟨0, 1, 0, fun _ => F.GNSS.ERR_IF_RANGE⟩,
   ⟨0, 1, 0, fun _ => F.GNSS.ERR_ACK_IGN⟩,
   ⟨0, 1, 0, fun _ => F.GNSS.ERR_HOLD_SEEN⟩,
   ⟨0, 1, 0, fun _ => F.GNSS.ERR_JUMP_REFUSED⟩,
   ⟨0, 1, 0, fun _ => F.GNSS.FIX_FIX⟩,
   ⟨0, 1, 0, fun _ => F.GNSS.FIX_ERR_EST⟩,
   ⟨0, 1, 0, fun _ => F.GNSS.FIX_SOL_SEQ⟩,
   ⟨0, 1, 0, fun _ => F.GNSS.MODEL_MODEL⟩,
   ⟨0, 1, 0, fun _ => F.GNSS.MODEL_ERR_EST⟩,
   ⟨0, 1, 0, fun _ => F.GNSS.DRIFT_DRIFT⟩,
   ⟨0, 3, 8, F.GNSS.POS_POS⟩,
   ⟨0, 1, 0, fun _ => F.GNSS.SURVEY_MINUTES⟩]

def F.GNSS.rows3 : List FldRow :=
  [⟨0, 1, 0, fun _ => F.GNSS.UTC_TAI_UTC⟩,
   ⟨0, 1, 0, fun _ => F.GNSS.MSG_CFG_EN⟩,
   ⟨0, 1, 0, fun _ => F.GNSS.MSG_CFG_ENG⟩,
   ⟨0, 1, 0, fun _ => F.GNSS.MSG_CFG_LEAD⟩,
   ⟨0, 1, 0, fun _ => F.GNSS.SAMP_OFFSET⟩,
   ⟨0, 16, 8, F.GNSS.CH_ELEV⟩,
   ⟨0, 16, 8, F.GNSS.CH_CN0⟩,
   ⟨0, 16, 8, F.GNSS.CH_PRN⟩,
   ⟨0, 16, 8, F.GNSS.CH_USED⟩,
   ⟨0, 16, 8, F.GNSS.CH_CSTATE⟩]

/-- The map of GNSS. -/
def F.GNSS.rows : List FldRow := F.GNSS.rows0 ++ F.GNSS.rows1 ++ F.GNSS.rows2 ++ F.GNSS.rows3

/-! EVT (11_event_timing.md) -/

/-- EVT.CFG.START_SRC -/
def F.EVT.CFG_START_SRC : Fld := ⟨0x11, 0x0, 32, 28, 4, .rwS, false, fun _ _ _ => 0xf⟩

/-- EVT.CFG.GATE_SRC -/
def F.EVT.CFG_GATE_SRC : Fld := ⟨0x11, 0x0, 32, 24, 4, .rwS, false, fun _ _ _ => 0xf⟩

/-- EVT.CFG.GATE_POL -/
def F.EVT.CFG_GATE_POL : Fld := ⟨0x11, 0x0, 32, 23, 1, .rwS, false, fun _ _ _ => 0⟩

/-- EVT.CFG.ONESHOT -/
def F.EVT.CFG_ONESHOT : Fld := ⟨0x11, 0x0, 32, 22, 1, .rwS, false, fun _ _ _ => 0⟩

/-- EVT.CFG.SLOPE -/
def F.EVT.CFG_SLOPE : Fld := ⟨0x11, 0x0, 32, 20, 2, .rwS, false, fun _ _ _ => 1⟩

/-- EVT.CFG.HYST -/
def F.EVT.CFG_HYST : Fld := ⟨0x11, 0x0, 32, 18, 2, .rwS, false, fun _ _ _ => 1⟩

/-- EVT.CFG.MODE -/
def F.EVT.CFG_MODE : Fld := ⟨0x11, 0x0, 32, 15, 3, .rwS, false, fun _ _ _ => 0⟩

/-- EVT.THRESH.CODE -/
def F.EVT.THRESH_CODE : Fld := ⟨0x11, 0x4, 32, 0, 12, .rwL, false, fun _ _ _ => 0x800⟩

/-- EVT.WIN.TICKS -/
def F.EVT.WIN_TICKS : Fld := ⟨0x11, 0x8, 32, 0, 20, .rwS, false, fun _ _ _ => 0x9c40⟩

/-- EVT.TMO.TICKS -/
def F.EVT.TMO_TICKS : Fld := ⟨0x11, 0xC, 32, 0, 32, .rwS, false, fun _ _ _ => 0⟩

/-- EVT.ARM.ARM -/
def F.EVT.ARM_ARM : Fld := ⟨0x11, 0x10, 32, 0, 1, .rwL, false, fun _ _ _ => 0⟩

/-- EVT.ADJ.IN_ADJ -/
def F.EVT.ADJ_IN_ADJ : Fld := ⟨0x11, 0x14, 32, 0, 16, .rwL, false, fun _ _ _ => 0⟩

/-- EVT.FR_CFG.EN -/
def F.EVT.FR_CFG_EN : Fld := ⟨0x11, 0x18, 32, 31, 1, .rwS, false, fun _ _ _ => 0⟩

/-- EVT.FR_CFG.ENG -/
def F.EVT.FR_CFG_ENG : Fld := ⟨0x11, 0x18, 32, 0, 8, .rwS, false, fun _ _ _ => 0⟩

/-- EVT.STATUS.DEPTH -/
def F.EVT.STATUS_DEPTH : Fld := ⟨0x11, 0x20, 32, 16, 9, .ro, false, fun _ _ _ => 0⟩

/-- EVT.STATUS.SETTLING -/
def F.EVT.STATUS_SETTLING : Fld := ⟨0x11, 0x20, 32, 6, 1, .ro, false, fun _ _ _ => 0⟩

/-- EVT.STATUS.COMP -/
def F.EVT.STATUS_COMP : Fld := ⟨0x11, 0x20, 32, 5, 1, .ro, false, fun _ _ _ => 0⟩

/-- EVT.STATUS.CAL_OK -/
def F.EVT.STATUS_CAL_OK : Fld := ⟨0x11, 0x20, 32, 4, 1, .ro, false, fun _ _ _ => 0⟩

/-- EVT.STATUS.TG -/
def F.EVT.STATUS_TG : Fld := ⟨0x11, 0x20, 32, 3, 1, .ro, false, fun _ _ _ => 0⟩

/-- EVT.STATUS.OPEN -/
def F.EVT.STATUS_OPEN : Fld := ⟨0x11, 0x20, 32, 2, 1, .ro, false, fun _ _ _ => 0⟩

/-- EVT.STATUS.GATE -/
def F.EVT.STATUS_GATE : Fld := ⟨0x11, 0x20, 32, 1, 1, .ro, false, fun _ _ _ => 0⟩

/-- EVT.STATUS.ARMED -/
def F.EVT.STATUS_ARMED : Fld := ⟨0x11, 0x20, 32, 0, 1, .ro, false, fun _ _ _ => 0⟩

/-- EVT.ERR.READ_IGN -/
def F.EVT.ERR_READ_IGN : Fld := ⟨0x11, 0x24, 32, 2, 1, .w1c, false, fun _ _ _ => 0⟩

/-- EVT.ERR.NOCAL_SEEN -/
def F.EVT.ERR_NOCAL_SEEN : Fld := ⟨0x11, 0x24, 32, 1, 1, .w1c, false, fun _ _ _ => 0⟩

/-- EVT.ERR.FIFO_OVF -/
def F.EVT.ERR_FIFO_OVF : Fld := ⟨0x11, 0x24, 32, 0, 1, .w1c, false, fun _ _ _ => 0⟩

/-- EVT.LOST.COUNT -/
def F.EVT.LOST_COUNT : Fld := ⟨0x11, 0x28, 32, 0, 32, .rc, false, fun _ _ _ => 0⟩

/-- EVT.NOSTART.COUNT -/
def F.EVT.NOSTART_COUNT : Fld := ⟨0x11, 0x2C, 32, 0, 32, .rc, false, fun _ _ _ => 0⟩

/-- EVT.IGNORED.COUNT -/
def F.EVT.IGNORED_COUNT : Fld := ⟨0x11, 0x30, 32, 0, 32, .rc, false, fun _ _ _ => 0⟩

/-- EVT.DEAD.COUNT -/
def F.EVT.DEAD_COUNT : Fld := ⟨0x11, 0x34, 32, 0, 32, .rc, false, fun _ _ _ => 0⟩

/-- EVT.CAL.IN_CAL_R -/
def F.EVT.CAL_IN_CAL_R : Fld := ⟨0x11, 0x38, 64, 48, 16, .ro, false, fun _ _ _ => 0⟩

/-- EVT.CAL.IN_CAL_F -/
def F.EVT.CAL_IN_CAL_F : Fld := ⟨0x11, 0x38, 64, 32, 16, .ro, false, fun _ _ _ => 0⟩

/-- EVT.CAL.BIN -/
def F.EVT.CAL_BIN : Fld := ⟨0x11, 0x38, 64, 16, 16, .ro, false, fun _ _ _ => 0xc80⟩

/-- EVT.REC_HEAD.VALID -/
def F.EVT.REC_HEAD_VALID : Fld := ⟨0x11, 0x40, 64, 63, 1, .rc, false, fun _ _ _ => 0⟩

/-- EVT.REC_HEAD.KIND -/
def F.EVT.REC_HEAD_KIND : Fld := ⟨0x11, 0x40, 64, 32, 3, .rc, false, fun _ _ _ => 0⟩

/-- EVT.REC_HEAD.SEQ -/
def F.EVT.REC_HEAD_SEQ : Fld := ⟨0x11, 0x40, 64, 0, 16, .rc, false, fun _ _ _ => 0⟩

def F.EVT.rows0 : List FldRow :=
  [⟨0, 1, 0, fun _ => F.EVT.CFG_START_SRC⟩,
   ⟨0, 1, 0, fun _ => F.EVT.CFG_GATE_SRC⟩,
   ⟨0, 1, 0, fun _ => F.EVT.CFG_GATE_POL⟩,
   ⟨0, 1, 0, fun _ => F.EVT.CFG_ONESHOT⟩,
   ⟨0, 1, 0, fun _ => F.EVT.CFG_SLOPE⟩,
   ⟨0, 1, 0, fun _ => F.EVT.CFG_HYST⟩,
   ⟨0, 1, 0, fun _ => F.EVT.CFG_MODE⟩,
   ⟨0, 1, 0, fun _ => F.EVT.THRESH_CODE⟩,
   ⟨0, 1, 0, fun _ => F.EVT.WIN_TICKS⟩,
   ⟨0, 1, 0, fun _ => F.EVT.TMO_TICKS⟩,
   ⟨0, 1, 0, fun _ => F.EVT.ARM_ARM⟩,
   ⟨0, 1, 0, fun _ => F.EVT.ADJ_IN_ADJ⟩]

def F.EVT.rows1 : List FldRow :=
  [⟨0, 1, 0, fun _ => F.EVT.FR_CFG_EN⟩,
   ⟨0, 1, 0, fun _ => F.EVT.FR_CFG_ENG⟩,
   ⟨0, 1, 0, fun _ => F.EVT.STATUS_DEPTH⟩,
   ⟨0, 1, 0, fun _ => F.EVT.STATUS_SETTLING⟩,
   ⟨0, 1, 0, fun _ => F.EVT.STATUS_COMP⟩,
   ⟨0, 1, 0, fun _ => F.EVT.STATUS_CAL_OK⟩,
   ⟨0, 1, 0, fun _ => F.EVT.STATUS_TG⟩,
   ⟨0, 1, 0, fun _ => F.EVT.STATUS_OPEN⟩,
   ⟨0, 1, 0, fun _ => F.EVT.STATUS_GATE⟩,
   ⟨0, 1, 0, fun _ => F.EVT.STATUS_ARMED⟩,
   ⟨0, 1, 0, fun _ => F.EVT.ERR_READ_IGN⟩,
   ⟨0, 1, 0, fun _ => F.EVT.ERR_NOCAL_SEEN⟩]

def F.EVT.rows2 : List FldRow :=
  [⟨0, 1, 0, fun _ => F.EVT.ERR_FIFO_OVF⟩,
   ⟨0, 1, 0, fun _ => F.EVT.LOST_COUNT⟩,
   ⟨0, 1, 0, fun _ => F.EVT.NOSTART_COUNT⟩,
   ⟨0, 1, 0, fun _ => F.EVT.IGNORED_COUNT⟩,
   ⟨0, 1, 0, fun _ => F.EVT.DEAD_COUNT⟩,
   ⟨0, 1, 0, fun _ => F.EVT.CAL_IN_CAL_R⟩,
   ⟨0, 1, 0, fun _ => F.EVT.CAL_IN_CAL_F⟩,
   ⟨0, 1, 0, fun _ => F.EVT.CAL_BIN⟩,
   ⟨0, 1, 0, fun _ => F.EVT.REC_HEAD_VALID⟩,
   ⟨0, 1, 0, fun _ => F.EVT.REC_HEAD_KIND⟩,
   ⟨0, 1, 0, fun _ => F.EVT.REC_HEAD_SEQ⟩]

/-- The map of EVT. -/
def F.EVT.rows : List FldRow := F.EVT.rows0 ++ F.EVT.rows1 ++ F.EVT.rows2

/-! L2T (12_forwarding_tables.md) -/

/-- L2T.STATUS.RESYNC -/
def F.L2T.STATUS_RESYNC : Fld := ⟨0x14, 0x0, 32, 3, 1, .ro, false, fun _ _ _ => 0⟩

/-- L2T.STATUS.REHASHING -/
def F.L2T.STATUS_REHASHING : Fld := ⟨0x14, 0x0, 32, 2, 1, .ro, false, fun _ _ _ => 0⟩

/-- L2T.STATUS.EPOCH -/
def F.L2T.STATUS_EPOCH : Fld := ⟨0x14, 0x0, 32, 1, 1, .ro, false, fun _ _ _ => 0⟩

/-- L2T.STATUS.NUMBERING -/
def F.L2T.STATUS_NUMBERING : Fld := ⟨0x14, 0x0, 32, 0, 1, .ro, false, fun _ _ _ => 0⟩

/-- L2T.ERR.SWITCH_LATE -/
def F.L2T.ERR_SWITCH_LATE : Fld := ⟨0x14, 0x4, 32, 4, 1, .w1c, false, fun _ _ _ => 0⟩

/-- L2T.ERR.RESYNC_SEEN -/
def F.L2T.ERR_RESYNC_SEEN : Fld := ⟨0x14, 0x4, 32, 3, 1, .w1c, false, fun _ _ _ => 0⟩

/-- L2T.ERR.LEARN_DROP_SEEN -/
def F.L2T.ERR_LEARN_DROP_SEEN : Fld := ⟨0x14, 0x4, 32, 2, 1, .w1c, false, fun _ _ _ => 0⟩

/-- L2T.ERR.INS_FAIL_SEEN -/
def F.L2T.ERR_INS_FAIL_SEEN : Fld := ⟨0x14, 0x4, 32, 1, 1, .w1c, false, fun _ _ _ => 0⟩

/-- L2T.ERR.REHASH_REQ -/
def F.L2T.ERR_REHASH_REQ : Fld := ⟨0x14, 0x4, 32, 0, 1, .w1c, false, fun _ _ _ => 0⟩

/-- L2T.SEED.SEED_1 -/
def F.L2T.SEED_SEED_1 : Fld := ⟨0x14, 0x8, 64, 32, 32, .ro, false, fun _ _ _ => 0xffffffff⟩

/-- L2T.SEED.SEED_0 -/
def F.L2T.SEED_SEED_0 : Fld := ⟨0x14, 0x8, 64, 0, 32, .ro, false, fun _ _ _ => 0⟩

/-- L2T.APPLIED.SEQ -/
def F.L2T.APPLIED_SEQ : Fld := ⟨0x14, 0x10, 32, 0, 32, .ro, false, fun _ _ _ => 0⟩

/-- L2T.ISSUED.SEQ -/
def F.L2T.ISSUED_SEQ : Fld := ⟨0x14, 0x14, 32, 0, 32, .ro, true, fun _ _ _ => 0⟩

/-- L2T.ALL_APPLIED.SEQ -/
def F.L2T.ALL_APPLIED_SEQ : Fld := ⟨0x14, 0x18, 32, 0, 32, .ro, true, fun _ _ _ => 0⟩

/-- L2T.AGE.PERIOD -/
def F.L2T.AGE_PERIOD : Fld := ⟨0x14, 0x20, 32, 0, 16, .rwL, true, fun _ _ _ => 0x96⟩

/-- L2T.COUNT.ENTRIES -/
def F.L2T.COUNT_ENTRIES : Fld := ⟨0x14, 0x24, 32, 0, 19, .ro, false, fun _ _ _ => 0⟩

/-- L2T.MOVES.COUNT -/
def F.L2T.MOVES_COUNT : Fld := ⟨0x14, 0x30, 32, 0, 32, .rc, false, fun _ _ _ => 0⟩

/-- L2T.AGED.COUNT -/
def F.L2T.AGED_COUNT : Fld := ⟨0x14, 0x34, 32, 0, 32, .rc, false, fun _ _ _ => 0⟩

/-- L2T.INS_FAIL.COUNT -/
def F.L2T.INS_FAIL_COUNT : Fld := ⟨0x14, 0x38, 32, 0, 32, .rc, false, fun _ _ _ => 0⟩

/-- L2T.LEARN_DROP.COUNT -/
def F.L2T.LEARN_DROP_COUNT : Fld := ⟨0x14, 0x3C, 32, 0, 32, .rc, false, fun _ _ _ => 0⟩

/-- L2T.STATIC_CONFLICT.COUNT -/
def F.L2T.STATIC_CONFLICT_COUNT : Fld := ⟨0x14, 0x40, 32, 0, 32, .rc, false, fun _ _ _ => 0⟩

/-- L2T.UNK_DROP.COUNT -/
def F.L2T.UNK_DROP_COUNT : Fld := ⟨0x14, 0x48, 32, 0, 32, .rc, false, fun _ _ _ => 0⟩

/-- L2T.HIT_DROP.COUNT -/
def F.L2T.HIT_DROP_COUNT : Fld := ⟨0x14, 0x4C, 32, 0, 32, .rc, false, fun _ _ _ => 0⟩

/-- L2T.RELOC.COUNT -/
def F.L2T.RELOC_COUNT : Fld := ⟨0x14, 0x44, 32, 0, 32, .ro, false, fun _ _ _ => 0⟩

/-- L2T.FAIL_KEY.KEY -/
def F.L2T.FAIL_KEY_KEY : Fld := ⟨0x14, 0x50, 64, 0, 64, .ro, true, fun _ _ _ => 0⟩

/-- L2T.UPD_KEY.VALUE -/
def F.L2T.UPD_KEY_VALUE : Fld := ⟨0x14, 0x58, 64, 0, 64, .rwL, true, fun _ _ _ => 0⟩

/-- L2T.UPD_WORD.VALUE -/
def F.L2T.UPD_WORD_VALUE : Fld := ⟨0x14, 0x60, 64, 0, 64, .rwL, true, fun _ _ _ => 0⟩

/-- L2T.UPD_CMD.BUSY -/
def F.L2T.UPD_CMD_BUSY : Fld := ⟨0x14, 0x68, 32, 31, 1, .ro, true, fun _ _ _ => 0⟩

/-- L2T.UPD_CMD.OP -/
def F.L2T.UPD_CMD_OP : Fld := ⟨0x14, 0x68, 32, 29, 2, .rwL, true, fun _ _ _ => 0⟩

/-- L2T.UPD_CMD.STATUS -/
def F.L2T.UPD_CMD_STATUS : Fld := ⟨0x14, 0x68, 32, 24, 3, .ro, true, fun _ _ _ => 0⟩

/-- L2T.UPD_SEQ.SEQ -/
def F.L2T.UPD_SEQ_SEQ : Fld := ⟨0x14, 0x6C, 32, 0, 32, .ro, true, fun _ _ _ => 0⟩

/-- L2T.REHASH_SEED.SEEDS -/
def F.L2T.REHASH_SEED_SEEDS : Fld := ⟨0x14, 0x70, 64, 0, 64, .rwL, true, fun _ _ _ => 0⟩

/-- L2T.REHASH_CMD.BUSY -/
def F.L2T.REHASH_CMD_BUSY : Fld := ⟨0x14, 0x78, 32, 31, 1, .ro, true, fun _ _ _ => 0⟩

/-- L2T.REHASH_CMD.GO -/
def F.L2T.REHASH_CMD_GO : Fld := ⟨0x14, 0x78, 32, 30, 1, .rwL, true, fun _ _ _ => 0⟩

/-- L2T.REHASH_CMD.STATUS -/
def F.L2T.REHASH_CMD_STATUS : Fld := ⟨0x14, 0x78, 32, 27, 3, .ro, true, fun _ _ _ => 0⟩

/-- L2T.PORT_k.LEARN -/
def F.L2T.PORT_LEARN (k : Nat) : Fld := ⟨0x14, 0x100 + k * 4, 32, 15, 1, .rwL, false, fun _ _ _ => 1⟩

/-- L2T.PORT_k.UNK_DROP -/
def F.L2T.PORT_UNK_DROP (k : Nat) : Fld := ⟨0x14, 0x100 + k * 4, 32, 14, 1, .rwL, false, fun _ _ _ => 0⟩

/-- L2T.PORT_k.PVID -/
def F.L2T.PORT_PVID (k : Nat) : Fld := ⟨0x14, 0x100 + k * 4, 32, 0, 12, .rwL, false, fun _ _ _ => 1⟩

def F.L2T.rows0 : List FldRow :=
  [⟨0, 1, 0, fun _ => F.L2T.STATUS_RESYNC⟩,
   ⟨0, 1, 0, fun _ => F.L2T.STATUS_REHASHING⟩,
   ⟨0, 1, 0, fun _ => F.L2T.STATUS_EPOCH⟩,
   ⟨0, 1, 0, fun _ => F.L2T.STATUS_NUMBERING⟩,
   ⟨0, 1, 0, fun _ => F.L2T.ERR_SWITCH_LATE⟩,
   ⟨0, 1, 0, fun _ => F.L2T.ERR_RESYNC_SEEN⟩,
   ⟨0, 1, 0, fun _ => F.L2T.ERR_LEARN_DROP_SEEN⟩,
   ⟨0, 1, 0, fun _ => F.L2T.ERR_INS_FAIL_SEEN⟩,
   ⟨0, 1, 0, fun _ => F.L2T.ERR_REHASH_REQ⟩,
   ⟨0, 1, 0, fun _ => F.L2T.SEED_SEED_1⟩,
   ⟨0, 1, 0, fun _ => F.L2T.SEED_SEED_0⟩,
   ⟨0, 1, 0, fun _ => F.L2T.APPLIED_SEQ⟩]

def F.L2T.rows1 : List FldRow :=
  [⟨0, 1, 0, fun _ => F.L2T.ISSUED_SEQ⟩,
   ⟨0, 1, 0, fun _ => F.L2T.ALL_APPLIED_SEQ⟩,
   ⟨0, 1, 0, fun _ => F.L2T.AGE_PERIOD⟩,
   ⟨0, 1, 0, fun _ => F.L2T.COUNT_ENTRIES⟩,
   ⟨0, 1, 0, fun _ => F.L2T.MOVES_COUNT⟩,
   ⟨0, 1, 0, fun _ => F.L2T.AGED_COUNT⟩,
   ⟨0, 1, 0, fun _ => F.L2T.INS_FAIL_COUNT⟩,
   ⟨0, 1, 0, fun _ => F.L2T.LEARN_DROP_COUNT⟩,
   ⟨0, 1, 0, fun _ => F.L2T.STATIC_CONFLICT_COUNT⟩,
   ⟨0, 1, 0, fun _ => F.L2T.UNK_DROP_COUNT⟩,
   ⟨0, 1, 0, fun _ => F.L2T.HIT_DROP_COUNT⟩,
   ⟨0, 1, 0, fun _ => F.L2T.RELOC_COUNT⟩]

def F.L2T.rows2 : List FldRow :=
  [⟨0, 1, 0, fun _ => F.L2T.FAIL_KEY_KEY⟩,
   ⟨0, 1, 0, fun _ => F.L2T.UPD_KEY_VALUE⟩,
   ⟨0, 1, 0, fun _ => F.L2T.UPD_WORD_VALUE⟩,
   ⟨0, 1, 0, fun _ => F.L2T.UPD_CMD_BUSY⟩,
   ⟨0, 1, 0, fun _ => F.L2T.UPD_CMD_OP⟩,
   ⟨0, 1, 0, fun _ => F.L2T.UPD_CMD_STATUS⟩,
   ⟨0, 1, 0, fun _ => F.L2T.UPD_SEQ_SEQ⟩,
   ⟨0, 1, 0, fun _ => F.L2T.REHASH_SEED_SEEDS⟩,
   ⟨0, 1, 0, fun _ => F.L2T.REHASH_CMD_BUSY⟩,
   ⟨0, 1, 0, fun _ => F.L2T.REHASH_CMD_GO⟩,
   ⟨0, 1, 0, fun _ => F.L2T.REHASH_CMD_STATUS⟩,
   ⟨0, 24, 4, F.L2T.PORT_LEARN⟩]

def F.L2T.rows3 : List FldRow :=
  [⟨0, 24, 4, F.L2T.PORT_UNK_DROP⟩,
   ⟨0, 24, 4, F.L2T.PORT_PVID⟩]

/-- The map of L2T. -/
def F.L2T.rows : List FldRow := F.L2T.rows0 ++ F.L2T.rows1 ++ F.L2T.rows2 ++ F.L2T.rows3

/-! LPM (12_forwarding_tables.md) -/

/-- LPM.CMD.BUSY -/
def F.LPM.CMD_BUSY : Fld := ⟨0x15, 0x0, 32, 31, 1, .ro, false, fun _ _ _ => 0⟩

/-- LPM.CMD.GO -/
def F.LPM.CMD_GO : Fld := ⟨0x15, 0x0, 32, 30, 1, .rwL, false, fun _ _ _ => 0⟩

/-- LPM.CMD.STATUS -/
def F.LPM.CMD_STATUS : Fld := ⟨0x15, 0x0, 32, 0, 8, .ro, false, fun _ _ _ => 0⟩

/-- LPM.STATUS.RESYNC -/
def F.LPM.STATUS_RESYNC : Fld := ⟨0x15, 0x4, 32, 3, 1, .ro, false, fun _ _ _ => 0⟩

/-- LPM.STATUS.TSTATE -/
def F.LPM.STATUS_TSTATE : Fld := ⟨0x15, 0x4, 32, 1, 2, .ro, false, fun _ _ _ => 0⟩

/-- LPM.STATUS.EPOCH -/
def F.LPM.STATUS_EPOCH : Fld := ⟨0x15, 0x4, 32, 0, 1, .ro, false, fun _ _ _ => 0⟩

/-- LPM.ERR.RESYNC_SEEN -/
def F.LPM.ERR_RESYNC_SEEN : Fld := ⟨0x15, 0x8, 32, 2, 1, .w1c, false, fun _ _ _ => 0⟩

/-- LPM.ERR.NO_SLOT_SEEN -/
def F.LPM.ERR_NO_SLOT_SEEN : Fld := ⟨0x15, 0x8, 32, 1, 1, .w1c, false, fun _ _ _ => 0⟩

/-- LPM.ERR.SWITCH_LATE -/
def F.LPM.ERR_SWITCH_LATE : Fld := ⟨0x15, 0x8, 32, 0, 1, .w1c, false, fun _ _ _ => 0⟩

/-- LPM.COUNT.V6 -/
def F.LPM.COUNT_V6 : Fld := ⟨0x15, 0x10, 64, 32, 32, .ro, false, fun _ _ _ => 0⟩

/-- LPM.COUNT.V4 -/
def F.LPM.COUNT_V4 : Fld := ⟨0x15, 0x10, 64, 0, 32, .ro, false, fun _ _ _ => 0⟩

/-- LPM.SEED.FILTER -/
def F.LPM.SEED_FILTER : Fld := ⟨0x15, 0x18, 64, 32, 32, .ro, false, fun _ _ _ => 0⟩

/-- LPM.SEED.BUCKET -/
def F.LPM.SEED_BUCKET : Fld := ⟨0x15, 0x18, 64, 0, 32, .ro, false, fun _ _ _ => 0⟩

/-- LPM.MAP_LO.MAP -/
def F.LPM.MAP_LO_MAP : Fld := ⟨0x15, 0x20, 128, 0, 128, .ro, false, fun _ _ _ => 0⟩

/-- LPM.MAP_HI.MAP -/
def F.LPM.MAP_HI_MAP : Fld := ⟨0x15, 0x30, 32, 0, 1, .ro, false, fun _ _ _ => 0⟩

/-- LPM.MISS.COUNT -/
def F.LPM.MISS_COUNT : Fld := ⟨0x15, 0x34, 32, 0, 32, .rc, false, fun _ _ _ => 0⟩

/-- LPM.DEEP.COUNT -/
def F.LPM.DEEP_COUNT : Fld := ⟨0x15, 0x38, 32, 0, 32, .rc, false, fun _ _ _ => 0⟩

/-- LPM.OVERRUN.COUNT -/
def F.LPM.OVERRUN_COUNT : Fld := ⟨0x15, 0x3C, 32, 0, 32, .rc, false, fun _ _ _ => 0⟩

def F.LPM.rows0 : List FldRow :=
  [⟨0, 1, 0, fun _ => F.LPM.CMD_BUSY⟩,
   ⟨0, 1, 0, fun _ => F.LPM.CMD_GO⟩,
   ⟨0, 1, 0, fun _ => F.LPM.CMD_STATUS⟩,
   ⟨0, 1, 0, fun _ => F.LPM.STATUS_RESYNC⟩,
   ⟨0, 1, 0, fun _ => F.LPM.STATUS_TSTATE⟩,
   ⟨0, 1, 0, fun _ => F.LPM.STATUS_EPOCH⟩,
   ⟨0, 1, 0, fun _ => F.LPM.ERR_RESYNC_SEEN⟩,
   ⟨0, 1, 0, fun _ => F.LPM.ERR_NO_SLOT_SEEN⟩,
   ⟨0, 1, 0, fun _ => F.LPM.ERR_SWITCH_LATE⟩,
   ⟨0, 1, 0, fun _ => F.LPM.COUNT_V6⟩,
   ⟨0, 1, 0, fun _ => F.LPM.COUNT_V4⟩,
   ⟨0, 1, 0, fun _ => F.LPM.SEED_FILTER⟩]

def F.LPM.rows1 : List FldRow :=
  [⟨0, 1, 0, fun _ => F.LPM.SEED_BUCKET⟩,
   ⟨0, 1, 0, fun _ => F.LPM.MAP_LO_MAP⟩,
   ⟨0, 1, 0, fun _ => F.LPM.MAP_HI_MAP⟩,
   ⟨0, 1, 0, fun _ => F.LPM.MISS_COUNT⟩,
   ⟨0, 1, 0, fun _ => F.LPM.DEEP_COUNT⟩,
   ⟨0, 1, 0, fun _ => F.LPM.OVERRUN_COUNT⟩]

/-- The map of LPM. -/
def F.LPM.rows : List FldRow := F.LPM.rows0 ++ F.LPM.rows1

/-! MCG (12_forwarding_tables.md) -/

/-- MCG.CMD.BUSY -/
def F.MCG.CMD_BUSY : Fld := ⟨0x16, 0x0, 32, 31, 1, .ro, false, fun _ _ _ => 0⟩

/-- MCG.CMD.GO -/
def F.MCG.CMD_GO : Fld := ⟨0x16, 0x0, 32, 30, 1, .rwL, false, fun _ _ _ => 0⟩

/-- MCG.CMD.STATUS -/
def F.MCG.CMD_STATUS : Fld := ⟨0x16, 0x0, 32, 0, 8, .ro, false, fun _ _ _ => 0⟩

/-- MCG.STATUS.RESYNC -/
def F.MCG.STATUS_RESYNC : Fld := ⟨0x16, 0x4, 32, 3, 1, .ro, false, fun _ _ _ => 0⟩

/-- MCG.STATUS.TSTATE -/
def F.MCG.STATUS_TSTATE : Fld := ⟨0x16, 0x4, 32, 1, 2, .ro, false, fun _ _ _ => 0⟩

/-- MCG.STATUS.EPOCH -/
def F.MCG.STATUS_EPOCH : Fld := ⟨0x16, 0x4, 32, 0, 1, .ro, false, fun _ _ _ => 0⟩

/-- MCG.ERR.RESYNC_SEEN -/
def F.MCG.ERR_RESYNC_SEEN : Fld := ⟨0x16, 0x8, 32, 2, 1, .w1c, false, fun _ _ _ => 0⟩

/-- MCG.ERR.NO_SLOT_SEEN -/
def F.MCG.ERR_NO_SLOT_SEEN : Fld := ⟨0x16, 0x8, 32, 1, 1, .w1c, false, fun _ _ _ => 0⟩

/-- MCG.ERR.SWITCH_LATE -/
def F.MCG.ERR_SWITCH_LATE : Fld := ⟨0x16, 0x8, 32, 0, 1, .w1c, false, fun _ _ _ => 0⟩

/-- MCG.COUNT.GROUPS -/
def F.MCG.COUNT_GROUPS : Fld := ⟨0x16, 0x10, 32, 0, 15, .ro, false, fun _ _ _ => 0⟩

def F.MCG.rows0 : List FldRow :=
  [⟨0, 1, 0, fun _ => F.MCG.CMD_BUSY⟩,
   ⟨0, 1, 0, fun _ => F.MCG.CMD_GO⟩,
   ⟨0, 1, 0, fun _ => F.MCG.CMD_STATUS⟩,
   ⟨0, 1, 0, fun _ => F.MCG.STATUS_RESYNC⟩,
   ⟨0, 1, 0, fun _ => F.MCG.STATUS_TSTATE⟩,
   ⟨0, 1, 0, fun _ => F.MCG.STATUS_EPOCH⟩,
   ⟨0, 1, 0, fun _ => F.MCG.ERR_RESYNC_SEEN⟩,
   ⟨0, 1, 0, fun _ => F.MCG.ERR_NO_SLOT_SEEN⟩,
   ⟨0, 1, 0, fun _ => F.MCG.ERR_SWITCH_LATE⟩,
   ⟨0, 1, 0, fun _ => F.MCG.COUNT_GROUPS⟩]

/-- The map of MCG. -/
def F.MCG.rows : List FldRow := F.MCG.rows0

/-! QUE (13_switch_core.md) -/

/-- QUE.CFG.DEF_PCP -/
def F.QUE.CFG_DEF_PCP : Fld := ⟨0x18, 0x0, 32, 20, 3, .rwL, false, fun _ _ _ => 0⟩

/-- QUE.CFG.EG_TAG -/
def F.QUE.CFG_EG_TAG : Fld := ⟨0x18, 0x0, 32, 16, 2, .rwS, false, fun _ _ _ => 0⟩

/-- QUE.CFG.CT -/
def F.QUE.CFG_CT : Fld := ⟨0x18, 0x0, 32, 12, 1, .rwS, false, fun _ _ _ => 1⟩

/-- QUE.CFG.UNTAG_VID -/
def F.QUE.CFG_UNTAG_VID : Fld := ⟨0x18, 0x0, 32, 0, 12, .rwS, false, fun _ _ _ => 1⟩

/-- QUE.QEN.EN -/
def F.QUE.QEN_EN : Fld := ⟨0x18, 0x4, 32, 0, 16, .rwS, false, fun _ _ _ => 0xffff⟩

/-- QUE.PCP_MAP.MAP -/
def F.QUE.PCP_MAP_MAP : Fld := ⟨0x18, 0x8, 32, 0, 32, .rwL, false, fun _ _ _ => 0xfedc9630⟩

/-- QUE.PMAX.PMAX -/
def F.QUE.PMAX_PMAX : Fld := ⟨0x18, 0xC, 32, 0, 15, .rwS, false, fun _ _ _ => 0x2000⟩

/-- QUE.RMAC.MAC -/
def F.QUE.RMAC_MAC : Fld := ⟨0x18, 0x10, 64, 0, 48, .rwS, false, fun _ _ _ => 0⟩

/-- QUE.STATUS.FRAME_LIM -/
def F.QUE.STATUS_FRAME_LIM : Fld := ⟨0x18, 0x18, 32, 16, 16, .ro, false, fun _ _ _ => 0⟩

/-- QUE.STATUS.PORT_OCC -/
def F.QUE.STATUS_PORT_OCC : Fld := ⟨0x18, 0x18, 32, 0, 15, .ro, false, fun _ _ _ => 0⟩

/-- QUE.POOL.SHARED_FREE -/
def F.QUE.POOL_SHARED_FREE : Fld := ⟨0x18, 0x1C, 32, 16, 15, .ro, false, fun _ _ _ => 0x7c00⟩

/-- QUE.POOL.RSV_TOTAL -/
def F.QUE.POOL_RSV_TOTAL : Fld := ⟨0x18, 0x1C, 32, 0, 15, .ro, false, fun _ _ _ => 0⟩

/-- QUE.ERR.MAXF_STALE -/
def F.QUE.ERR_MAXF_STALE : Fld := ⟨0x18, 0x20, 32, 2, 1, .w1c, false, fun _ _ _ => 0⟩

/-- QUE.ERR.AGE_DROP_SEEN -/
def F.QUE.ERR_AGE_DROP_SEEN : Fld := ⟨0x18, 0x20, 32, 1, 1, .w1c, false, fun _ _ _ => 0⟩

/-- QUE.ERR.ADM_DROP_SEEN -/
def F.QUE.ERR_ADM_DROP_SEEN : Fld := ⟨0x18, 0x20, 32, 0, 1, .w1c, false, fun _ _ _ => 0⟩

/-- QUE.QS_k.QUANTUM -/
def F.QUE.QS_QUANTUM (k : Nat) : Fld := ⟨0x18, 0x100 + k * 8, 32, 16, 16, .rwS, false, fun _ _ _ => 0x640⟩

/-- QUE.QS_k.MIN -/
def F.QUE.QS_MIN (k : Nat) : Fld := ⟨0x18, 0x100 + k * 8, 32, 0, 15, .rwS, false, fun _ _ _ => 0x20⟩

/-- QUE.QL_k.AGE -/
def F.QUE.QL_AGE (k : Nat) : Fld := ⟨0x18, 0x104 + k * 8, 32, 8, 24, .rwL, false, fun _ _ _ => 0⟩

/-- QUE.QL_k.ALPHA -/
def F.QUE.QL_ALPHA (k : Nat) : Fld := ⟨0x18, 0x104 + k * 8, 32, 0, 3, .rwL, false, fun _ _ _ => 4⟩

/-- QUE.OCC_k.OCC -/
def F.QUE.OCC_OCC (k : Nat) : Fld := ⟨0x18, 0x200 + k * 8, 64, 0, 64, .ro, false, fun _ _ _ => 0⟩

def F.QUE.rows0 : List FldRow :=
  [⟨0, 1, 0, fun _ => F.QUE.CFG_DEF_PCP⟩,
   ⟨0, 1, 0, fun _ => F.QUE.CFG_EG_TAG⟩,
   ⟨0, 1, 0, fun _ => F.QUE.CFG_CT⟩,
   ⟨0, 1, 0, fun _ => F.QUE.CFG_UNTAG_VID⟩,
   ⟨0, 1, 0, fun _ => F.QUE.QEN_EN⟩,
   ⟨0, 1, 0, fun _ => F.QUE.PCP_MAP_MAP⟩,
   ⟨0, 1, 0, fun _ => F.QUE.PMAX_PMAX⟩,
   ⟨0, 1, 0, fun _ => F.QUE.RMAC_MAC⟩,
   ⟨0, 1, 0, fun _ => F.QUE.STATUS_FRAME_LIM⟩,
   ⟨0, 1, 0, fun _ => F.QUE.STATUS_PORT_OCC⟩,
   ⟨0, 1, 0, fun _ => F.QUE.POOL_SHARED_FREE⟩,
   ⟨0, 1, 0, fun _ => F.QUE.POOL_RSV_TOTAL⟩]

def F.QUE.rows1 : List FldRow :=
  [⟨0, 1, 0, fun _ => F.QUE.ERR_MAXF_STALE⟩,
   ⟨0, 1, 0, fun _ => F.QUE.ERR_AGE_DROP_SEEN⟩,
   ⟨0, 1, 0, fun _ => F.QUE.ERR_ADM_DROP_SEEN⟩,
   ⟨0, 16, 8, F.QUE.QS_QUANTUM⟩,
   ⟨0, 16, 8, F.QUE.QS_MIN⟩,
   ⟨0, 16, 8, F.QUE.QL_AGE⟩,
   ⟨0, 16, 8, F.QUE.QL_ALPHA⟩,
   ⟨0, 4, 8, F.QUE.OCC_OCC⟩]

/-- The map of QUE. -/
def F.QUE.rows : List FldRow := F.QUE.rows0 ++ F.QUE.rows1

/-! GATE (13_switch_core.md) -/

/-- GATE.CFG.LIST_LEN -/
def F.GATE.CFG_LIST_LEN : Fld := ⟨0x19, 0x0, 32, 0, 9, .rwS, false, fun _ _ _ => 0⟩

/-- GATE.CYCLE.CYCLE -/
def F.GATE.CYCLE_CYCLE : Fld := ⟨0x19, 0x4, 32, 0, 30, .rwS, false, fun _ _ _ => 0x98968⟩

/-- GATE.BASE.BASE -/
def F.GATE.BASE_BASE : Fld := ⟨0x19, 0x10, 128, 0, 128, .rwS, false, fun _ _ _ => 0⟩

/-- GATE.STATUS.OPEN -/
def F.GATE.STATUS_OPEN : Fld := ⟨0x19, 0x20, 32, 16, 16, .ro, false, fun _ _ _ => 0xffff⟩

/-- GATE.STATUS.ENTRY -/
def F.GATE.STATUS_ENTRY : Fld := ⟨0x19, 0x20, 32, 0, 9, .ro, false, fun _ _ _ => 0⟩

/-- GATE.ERR.REPLACED -/
def F.GATE.ERR_REPLACED : Fld := ⟨0x19, 0x24, 32, 0, 1, .w1c, false, fun _ _ _ => 0⟩

/-- GATE.CYC_START.TIME -/
def F.GATE.CYC_START_TIME : Fld := ⟨0x19, 0x30, 128, 0, 128, .ro, false, fun _ _ _ => 0⟩

/-- GATE.ENTRY_k.GATES -/
def F.GATE.ENTRY_GATES (k : Nat) : Fld := ⟨0x19, 0x800 + k * 8, 64, 32, 16, .rwS, false, fun _ _ _ => 0xffff⟩

/-- GATE.ENTRY_k.INTERVAL -/
def F.GATE.ENTRY_INTERVAL (k : Nat) : Fld := ⟨0x19, 0x800 + k * 8, 64, 0, 30, .rwS, false, fun _ _ _ => 0⟩

def F.GATE.rows0 : List FldRow :=
  [⟨0, 1, 0, fun _ => F.GATE.CFG_LIST_LEN⟩,
   ⟨0, 1, 0, fun _ => F.GATE.CYCLE_CYCLE⟩,
   ⟨0, 1, 0, fun _ => F.GATE.BASE_BASE⟩,
   ⟨0, 1, 0, fun _ => F.GATE.STATUS_OPEN⟩,
   ⟨0, 1, 0, fun _ => F.GATE.STATUS_ENTRY⟩,
   ⟨0, 1, 0, fun _ => F.GATE.ERR_REPLACED⟩,
   ⟨0, 1, 0, fun _ => F.GATE.CYC_START_TIME⟩,
   ⟨0, 256, 8, F.GATE.ENTRY_GATES⟩,
   ⟨0, 256, 8, F.GATE.ENTRY_INTERVAL⟩]

/-- The map of GATE. -/
def F.GATE.rows : List FldRow := F.GATE.rows0

/-! MIRR (13_switch_core.md) -/

/-- MIRR.CFG.DEST -/
def F.MIRR.CFG_DEST : Fld := ⟨0x1A, 0x0, 32, 31, 1, .rwS, false, fun _ _ _ => 0⟩

/-- MIRR.CFG.WRAP -/
def F.MIRR.CFG_WRAP : Fld := ⟨0x1A, 0x0, 32, 30, 1, .rwS, false, fun _ _ _ => 0⟩

/-- MIRR.CFG.RING -/
def F.MIRR.CFG_RING : Fld := ⟨0x1A, 0x0, 32, 20, 4, .rwS, false, fun _ _ _ => 0⟩

/-- MIRR.CFG.SAMPLE -/
def F.MIRR.CFG_SAMPLE : Fld := ⟨0x1A, 0x0, 32, 16, 4, .rwL, false, fun _ _ _ => 0⟩

/-- MIRR.CFG.SNAP -/
def F.MIRR.CFG_SNAP : Fld := ⟨0x1A, 0x0, 32, 0, 9, .rwS, false, fun _ _ _ => 0x40⟩

/-- MIRR.RX_EN.PORTS -/
def F.MIRR.RX_EN_PORTS : Fld := ⟨0x1A, 0x4, 32, 0, 24, .rwL, false, fun _ _ _ => 0⟩

/-- MIRR.TX_EN.PORTS -/
def F.MIRR.TX_EN_PORTS : Fld := ⟨0x1A, 0x8, 32, 0, 24, .rwL, false, fun _ _ _ => 0⟩

/-- MIRR.DROP_EN.PORTS -/
def F.MIRR.DROP_EN_PORTS : Fld := ⟨0x1A, 0xC, 32, 0, 24, .rwL, false, fun _ _ _ => 0⟩

/-- MIRR.STATUS.USED -/
def F.MIRR.STATUS_USED : Fld := ⟨0x1A, 0x10, 32, 0, 21, .ro, false, fun _ _ _ => 0⟩

/-- MIRR.ERR.MISSED_SEEN -/
def F.MIRR.ERR_MISSED_SEEN : Fld := ⟨0x1A, 0x14, 32, 1, 1, .w1c, false, fun _ _ _ => 0⟩

/-- MIRR.ERR.RING_FULL_SEEN -/
def F.MIRR.ERR_RING_FULL_SEEN : Fld := ⟨0x1A, 0x14, 32, 0, 1, .w1c, false, fun _ _ _ => 0⟩

/-- MIRR.LOST.COUNT -/
def F.MIRR.LOST_COUNT : Fld := ⟨0x1A, 0x18, 32, 0, 32, .rc, false, fun _ _ _ => 0⟩

/-- MIRR.MISSED.COUNT -/
def F.MIRR.MISSED_COUNT : Fld := ⟨0x1A, 0x1C, 32, 0, 32, .rc, false, fun _ _ _ => 0⟩

/-- MIRR.REC_HEAD.VALID -/
def F.MIRR.REC_HEAD_VALID : Fld := ⟨0x1A, 0x20, 64, 63, 1, .rc, false, fun _ _ _ => 0⟩

/-- MIRR.REC_HEAD.LEN -/
def F.MIRR.REC_HEAD_LEN : Fld := ⟨0x1A, 0x20, 64, 32, 9, .rc, false, fun _ _ _ => 0⟩

/-- MIRR.REC_HEAD.SEQ -/
def F.MIRR.REC_HEAD_SEQ : Fld := ⟨0x1A, 0x20, 64, 0, 32, .rc, false, fun _ _ _ => 0⟩

def F.MIRR.rows0 : List FldRow :=
  [⟨0, 1, 0, fun _ => F.MIRR.CFG_DEST⟩,
   ⟨0, 1, 0, fun _ => F.MIRR.CFG_WRAP⟩,
   ⟨0, 1, 0, fun _ => F.MIRR.CFG_RING⟩,
   ⟨0, 1, 0, fun _ => F.MIRR.CFG_SAMPLE⟩,
   ⟨0, 1, 0, fun _ => F.MIRR.CFG_SNAP⟩,
   ⟨0, 1, 0, fun _ => F.MIRR.RX_EN_PORTS⟩,
   ⟨0, 1, 0, fun _ => F.MIRR.TX_EN_PORTS⟩,
   ⟨0, 1, 0, fun _ => F.MIRR.DROP_EN_PORTS⟩,
   ⟨0, 1, 0, fun _ => F.MIRR.STATUS_USED⟩,
   ⟨0, 1, 0, fun _ => F.MIRR.ERR_MISSED_SEEN⟩,
   ⟨0, 1, 0, fun _ => F.MIRR.ERR_RING_FULL_SEEN⟩,
   ⟨0, 1, 0, fun _ => F.MIRR.LOST_COUNT⟩]

def F.MIRR.rows1 : List FldRow :=
  [⟨0, 1, 0, fun _ => F.MIRR.MISSED_COUNT⟩,
   ⟨0, 1, 0, fun _ => F.MIRR.REC_HEAD_VALID⟩,
   ⟨0, 1, 0, fun _ => F.MIRR.REC_HEAD_LEN⟩,
   ⟨0, 1, 0, fun _ => F.MIRR.REC_HEAD_SEQ⟩]

/-- The map of MIRR. -/
def F.MIRR.rows : List FldRow := F.MIRR.rows0 ++ F.MIRR.rows1

/-! MESH (13_switch_core.md) -/

/-- MESH.CFG.REPAIR_EN -/
def F.MESH.CFG_REPAIR_EN : Fld := ⟨0x1C, 0x0, 32, 0, 1, .rwS, false, fun _ _ _ => 1⟩

/-- MESH.STATUS.PEER -/
def F.MESH.STATUS_PEER : Fld := ⟨0x1C, 0x4, 32, 24, 3, .ro, false, fun _ _ i => i⟩

/-- MESH.STATUS.FWD_CLK_OK -/
def F.MESH.STATUS_FWD_CLK_OK : Fld := ⟨0x1C, 0x4, 32, 8, 1, .ro, false, fun _ _ _ => 0⟩

/-- MESH.STATUS.RX_SPARES -/
def F.MESH.STATUS_RX_SPARES : Fld := ⟨0x1C, 0x4, 32, 6, 2, .ro, false, fun _ _ _ => 0⟩

/-- MESH.STATUS.TX_SPARES -/
def F.MESH.STATUS_TX_SPARES : Fld := ⟨0x1C, 0x4, 32, 4, 2, .ro, false, fun _ _ _ => 0⟩

/-- MESH.STATUS.TX_UP -/
def F.MESH.STATUS_TX_UP : Fld := ⟨0x1C, 0x4, 32, 1, 1, .ro, false, fun _ _ _ => 0⟩

/-- MESH.STATUS.RX_UP -/
def F.MESH.STATUS_RX_UP : Fld := ⟨0x1C, 0x4, 32, 0, 1, .ro, false, fun _ _ _ => 0⟩

/-- MESH.TX_WIREMAP.SPARE1 -/
def F.MESH.TX_WIREMAP_SPARE1 : Fld := ⟨0x1C, 0x8, 32, 8, 8, .ro, false, fun _ _ _ => 0xff⟩

/-- MESH.RX_WIREMAP.SPARE1 -/
def F.MESH.RX_WIREMAP_SPARE1 : Fld := ⟨0x1C, 0xC, 32, 8, 8, .ro, false, fun _ _ _ => 0xff⟩

/-- MESH.TX_WIREMAP.SPARE0 -/
def F.MESH.TX_WIREMAP_SPARE0 : Fld := ⟨0x1C, 0x8, 32, 0, 8, .ro, false, fun _ _ _ => 0xff⟩

/-- MESH.RX_WIREMAP.SPARE0 -/
def F.MESH.RX_WIREMAP_SPARE0 : Fld := ⟨0x1C, 0xC, 32, 0, 8, .ro, false, fun _ _ _ => 0xff⟩

/-- MESH.ERR.EVT_LOST_SEEN -/
def F.MESH.ERR_EVT_LOST_SEEN : Fld := ⟨0x1C, 0x10, 32, 4, 1, .w1c, false, fun _ _ _ => 0⟩

/-- MESH.ERR.TX_DOWN_SEEN -/
def F.MESH.ERR_TX_DOWN_SEEN : Fld := ⟨0x1C, 0x10, 32, 3, 1, .w1c, false, fun _ _ _ => 0⟩

/-- MESH.ERR.RX_DOWN_SEEN -/
def F.MESH.ERR_RX_DOWN_SEEN : Fld := ⟨0x1C, 0x10, 32, 2, 1, .w1c, false, fun _ _ _ => 0⟩

/-- MESH.ERR.HDR_CRC_SEEN -/
def F.MESH.ERR_HDR_CRC_SEEN : Fld := ⟨0x1C, 0x10, 32, 1, 1, .w1c, false, fun _ _ _ => 0⟩

/-- MESH.ERR.CTL_RETRY_SEEN -/
def F.MESH.ERR_CTL_RETRY_SEEN : Fld := ⟨0x1C, 0x10, 32, 0, 1, .w1c, false, fun _ _ _ => 0⟩

/-- MESH.CELLS_TX.COUNT -/
def F.MESH.CELLS_TX_COUNT : Fld := ⟨0x1C, 0x18, 64, 0, 64, .ro, false, fun _ _ _ => 0⟩

/-- MESH.CELLS_RX.COUNT -/
def F.MESH.CELLS_RX_COUNT : Fld := ⟨0x1C, 0x20, 64, 0, 64, .ro, false, fun _ _ _ => 0⟩

/-- MESH.HDR_DROP.COUNT -/
def F.MESH.HDR_DROP_COUNT : Fld := ⟨0x1C, 0x28, 32, 0, 32, .rc, false, fun _ _ _ => 0⟩

/-- MESH.CTL_RETRY.COUNT -/
def F.MESH.CTL_RETRY_COUNT : Fld := ⟨0x1C, 0x2C, 32, 0, 32, .rc, false, fun _ _ _ => 0⟩

/-- MESH.STG_DROP.COUNT -/
def F.MESH.STG_DROP_COUNT : Fld := ⟨0x1C, 0x30, 32, 0, 32, .rc, false, fun _ _ _ => 0⟩

def F.MESH.rows0 : List FldRow :=
  [⟨0, 1, 0, fun _ => F.MESH.CFG_REPAIR_EN⟩,
   ⟨0, 1, 0, fun _ => F.MESH.STATUS_PEER⟩,
   ⟨0, 1, 0, fun _ => F.MESH.STATUS_FWD_CLK_OK⟩,
   ⟨0, 1, 0, fun _ => F.MESH.STATUS_RX_SPARES⟩,
   ⟨0, 1, 0, fun _ => F.MESH.STATUS_TX_SPARES⟩,
   ⟨0, 1, 0, fun _ => F.MESH.STATUS_TX_UP⟩,
   ⟨0, 1, 0, fun _ => F.MESH.STATUS_RX_UP⟩,
   ⟨0, 1, 0, fun _ => F.MESH.TX_WIREMAP_SPARE1⟩,
   ⟨0, 1, 0, fun _ => F.MESH.RX_WIREMAP_SPARE1⟩,
   ⟨0, 1, 0, fun _ => F.MESH.TX_WIREMAP_SPARE0⟩,
   ⟨0, 1, 0, fun _ => F.MESH.RX_WIREMAP_SPARE0⟩,
   ⟨0, 1, 0, fun _ => F.MESH.ERR_EVT_LOST_SEEN⟩]

def F.MESH.rows1 : List FldRow :=
  [⟨0, 1, 0, fun _ => F.MESH.ERR_TX_DOWN_SEEN⟩,
   ⟨0, 1, 0, fun _ => F.MESH.ERR_RX_DOWN_SEEN⟩,
   ⟨0, 1, 0, fun _ => F.MESH.ERR_HDR_CRC_SEEN⟩,
   ⟨0, 1, 0, fun _ => F.MESH.ERR_CTL_RETRY_SEEN⟩,
   ⟨0, 1, 0, fun _ => F.MESH.CELLS_TX_COUNT⟩,
   ⟨0, 1, 0, fun _ => F.MESH.CELLS_RX_COUNT⟩,
   ⟨0, 1, 0, fun _ => F.MESH.HDR_DROP_COUNT⟩,
   ⟨0, 1, 0, fun _ => F.MESH.CTL_RETRY_COUNT⟩,
   ⟨0, 1, 0, fun _ => F.MESH.STG_DROP_COUNT⟩]

/-- The map of MESH. -/
def F.MESH.rows : List FldRow := F.MESH.rows0 ++ F.MESH.rows1

/-! PRP (14_redundancy.md) -/

/-- PRP.CFG.MODE -/
def F.PRP.CFG_MODE : Fld := ⟨0x1B, 0x0, 32, 28, 2, .rwS, false, fun _ _ _ => 0⟩

/-- PRP.CFG.EXEMPT_LOCAL -/
def F.PRP.CFG_EXEMPT_LOCAL : Fld := ⟨0x1B, 0x0, 32, 27, 1, .rwS, false, fun _ _ _ => 1⟩

/-- PRP.CFG.EXEMPT_PTP -/
def F.PRP.CFG_EXEMPT_PTP : Fld := ⟨0x1B, 0x0, 32, 26, 1, .rwS, false, fun _ _ _ => 1⟩

/-- PRP.CFG.PORT_B -/
def F.PRP.CFG_PORT_B : Fld := ⟨0x1B, 0x0, 32, 16, 5, .rwS, false, fun _ _ i => 2 * i + 1⟩

/-- PRP.CFG.PORT_A -/
def F.PRP.CFG_PORT_A : Fld := ⟨0x1B, 0x0, 32, 8, 5, .rwS, false, fun _ _ i => 2 * i⟩

/-- PRP.CFG.WIN -/
def F.PRP.CFG_WIN : Fld := ⟨0x1B, 0x0, 32, 0, 2, .rwS, false, fun _ _ _ => 2⟩

/-- PRP.FORGET.FORGET -/
def F.PRP.FORGET_FORGET : Fld := ⟨0x1B, 0x4, 32, 0, 16, .rwL, false, fun _ _ _ => 0x190⟩

/-- PRP.SEQ_NEXT.SEQ -/
def F.PRP.SEQ_NEXT_SEQ : Fld := ⟨0x1B, 0x8, 32, 0, 16, .ro, false, fun _ _ _ => 0⟩

/-- PRP.STATUS.LAN_B_OK -/
def F.PRP.STATUS_LAN_B_OK : Fld := ⟨0x1B, 0xC, 32, 15, 1, .ro, false, fun _ _ _ => 0⟩

/-- PRP.STATUS.LAN_A_OK -/
def F.PRP.STATUS_LAN_A_OK : Fld := ⟨0x1B, 0xC, 32, 14, 1, .ro, false, fun _ _ _ => 0⟩

/-- PRP.STATUS.ENTRIES -/
def F.PRP.STATUS_ENTRIES : Fld := ⟨0x1B, 0xC, 32, 0, 14, .ro, false, fun _ _ _ => 0⟩

/-- PRP.POOL.FREE -/
def F.PRP.POOL_FREE : Fld := ⟨0x1B, 0x10, 32, 0, 14, .ro, false, fun _ _ _ => 0x2000⟩

/-- PRP.ERR.OUT_WIN_SEEN -/
def F.PRP.ERR_OUT_WIN_SEEN : Fld := ⟨0x1B, 0x14, 32, 2, 1, .w1c, false, fun _ _ _ => 0⟩

/-- PRP.ERR.WRONG_LAN_SEEN -/
def F.PRP.ERR_WRONG_LAN_SEEN : Fld := ⟨0x1B, 0x14, 32, 1, 1, .w1c, false, fun _ _ _ => 0⟩

/-- PRP.ERR.TBL_FULL_SEEN -/
def F.PRP.ERR_TBL_FULL_SEEN : Fld := ⟨0x1B, 0x14, 32, 0, 1, .w1c, false, fun _ _ _ => 0⟩

/-- PRP.DUP_DISC.COUNT -/
def F.PRP.DUP_DISC_COUNT : Fld := ⟨0x1B, 0x20, 32, 0, 32, .rc, false, fun _ _ _ => 0⟩

/-- PRP.OUT_WIN.COUNT -/
def F.PRP.OUT_WIN_COUNT : Fld := ⟨0x1B, 0x24, 32, 0, 32, .rc, false, fun _ _ _ => 0⟩

/-- PRP.WRONG_LAN.COUNT -/
def F.PRP.WRONG_LAN_COUNT : Fld := ⟨0x1B, 0x28, 32, 0, 32, .rc, false, fun _ _ _ => 0⟩

/-- PRP.UNTAG_A.COUNT -/
def F.PRP.UNTAG_A_COUNT : Fld := ⟨0x1B, 0x2C, 32, 0, 32, .rc, false, fun _ _ _ => 0⟩

/-- PRP.UNTAG_B.COUNT -/
def F.PRP.UNTAG_B_COUNT : Fld := ⟨0x1B, 0x30, 32, 0, 32, .rc, false, fun _ _ _ => 0⟩

/-- PRP.TBL_FULL.COUNT -/
def F.PRP.TBL_FULL_COUNT : Fld := ⟨0x1B, 0x34, 32, 0, 32, .rc, false, fun _ _ _ => 0⟩

/-- PRP.RING_REMOVED.COUNT -/
def F.PRP.RING_REMOVED_COUNT : Fld := ⟨0x1B, 0x38, 32, 0, 32, .rc, false, fun _ _ _ => 0⟩

/-- PRP.RING_DUP.COUNT -/
def F.PRP.RING_DUP_COUNT : Fld := ⟨0x1B, 0x3C, 32, 0, 32, .rc, false, fun _ _ _ => 0⟩

/-- PRP.FORGOTTEN.COUNT -/
def F.PRP.FORGOTTEN_COUNT : Fld := ⟨0x1B, 0x40, 32, 0, 32, .rc, false, fun _ _ _ => 0⟩

/-- PRP.TAGGED_A.COUNT -/
def F.PRP.TAGGED_A_COUNT : Fld := ⟨0x1B, 0x48, 64, 0, 64, .ro, false, fun _ _ _ => 0⟩

/-- PRP.TAGGED_B.COUNT -/
def F.PRP.TAGGED_B_COUNT : Fld := ⟨0x1B, 0x50, 64, 0, 64, .ro, false, fun _ _ _ => 0⟩

def F.PRP.rows0 : List FldRow :=
  [⟨0, 1, 0, fun _ => F.PRP.CFG_MODE⟩,
   ⟨0, 1, 0, fun _ => F.PRP.CFG_EXEMPT_LOCAL⟩,
   ⟨0, 1, 0, fun _ => F.PRP.CFG_EXEMPT_PTP⟩,
   ⟨0, 1, 0, fun _ => F.PRP.CFG_PORT_B⟩,
   ⟨0, 1, 0, fun _ => F.PRP.CFG_PORT_A⟩,
   ⟨0, 1, 0, fun _ => F.PRP.CFG_WIN⟩,
   ⟨0, 1, 0, fun _ => F.PRP.FORGET_FORGET⟩,
   ⟨0, 1, 0, fun _ => F.PRP.SEQ_NEXT_SEQ⟩,
   ⟨0, 1, 0, fun _ => F.PRP.STATUS_LAN_B_OK⟩,
   ⟨0, 1, 0, fun _ => F.PRP.STATUS_LAN_A_OK⟩,
   ⟨0, 1, 0, fun _ => F.PRP.STATUS_ENTRIES⟩,
   ⟨0, 1, 0, fun _ => F.PRP.POOL_FREE⟩]

def F.PRP.rows1 : List FldRow :=
  [⟨0, 1, 0, fun _ => F.PRP.ERR_OUT_WIN_SEEN⟩,
   ⟨0, 1, 0, fun _ => F.PRP.ERR_WRONG_LAN_SEEN⟩,
   ⟨0, 1, 0, fun _ => F.PRP.ERR_TBL_FULL_SEEN⟩,
   ⟨0, 1, 0, fun _ => F.PRP.DUP_DISC_COUNT⟩,
   ⟨0, 1, 0, fun _ => F.PRP.OUT_WIN_COUNT⟩,
   ⟨0, 1, 0, fun _ => F.PRP.WRONG_LAN_COUNT⟩,
   ⟨0, 1, 0, fun _ => F.PRP.UNTAG_A_COUNT⟩,
   ⟨0, 1, 0, fun _ => F.PRP.UNTAG_B_COUNT⟩,
   ⟨0, 1, 0, fun _ => F.PRP.TBL_FULL_COUNT⟩,
   ⟨0, 1, 0, fun _ => F.PRP.RING_REMOVED_COUNT⟩,
   ⟨0, 1, 0, fun _ => F.PRP.RING_DUP_COUNT⟩,
   ⟨0, 1, 0, fun _ => F.PRP.FORGOTTEN_COUNT⟩]

def F.PRP.rows2 : List FldRow :=
  [⟨0, 1, 0, fun _ => F.PRP.TAGGED_A_COUNT⟩,
   ⟨0, 1, 0, fun _ => F.PRP.TAGGED_B_COUNT⟩]

/-- The map of PRP. -/
def F.PRP.rows : List FldRow := F.PRP.rows0 ++ F.PRP.rows1 ++ F.PRP.rows2

/-! CAL (15_calibration_store.md) -/

/-- CAL.CFG.RATE_DIV -/
def F.CAL.CFG_RATE_DIV : Fld := ⟨0x22, 0x0, 32, 12, 4, .rwS, false, fun _ _ _ => 4⟩

/-- CAL.CFG.HITS -/
def F.CAL.CFG_HITS : Fld := ⟨0x22, 0x0, 32, 5, 3, .rwS, false, fun _ _ _ => 4⟩

/-- CAL.CFG.SCOPE -/
def F.CAL.CFG_SCOPE : Fld := ⟨0x22, 0x0, 32, 0, 5, .rwS, false, fun _ _ _ => 0x1f⟩

/-- CAL.RUN.BUSY -/
def F.CAL.RUN_BUSY : Fld := ⟨0x22, 0x4, 32, 31, 1, .ro, false, fun _ _ _ => 0⟩

/-- CAL.RUN.GO -/
def F.CAL.RUN_GO : Fld := ⟨0x22, 0x4, 32, 30, 1, .rwL, false, fun _ _ _ => 0⟩

/-- CAL.RUN.STATUS -/
def F.CAL.RUN_STATUS : Fld := ⟨0x22, 0x4, 32, 0, 3, .ro, false, fun _ _ _ => 0⟩

/-- CAL.STATUS.STORING -/
def F.CAL.STATUS_STORING : Fld := ⟨0x22, 0x8, 32, 7, 1, .ro, false, fun _ _ _ => 0⟩

/-- CAL.STATUS.COVERED -/
def F.CAL.STATUS_COVERED : Fld := ⟨0x22, 0x8, 32, 6, 1, .ro, false, fun _ _ _ => 0⟩

/-- CAL.STATUS.BANK -/
def F.CAL.STATUS_BANK : Fld := ⟨0x22, 0x8, 32, 4, 2, .ro, false, fun _ _ _ => 0⟩

/-- CAL.STATUS.NPTS -/
def F.CAL.STATUS_NPTS : Fld := ⟨0x22, 0x8, 32, 0, 4, .ro, false, fun _ _ _ => 0⟩

/-- CAL.ERR.RUN_BUSY -/
def F.CAL.ERR_RUN_BUSY : Fld := ⟨0x22, 0xC, 32, 6, 1, .w1c, false, fun _ _ _ => 0⟩

/-- CAL.ERR.PI_SKIPPED -/
def F.CAL.ERR_PI_SKIPPED : Fld := ⟨0x22, 0xC, 32, 5, 1, .w1c, false, fun _ _ _ => 0⟩

/-- CAL.ERR.NO_SET -/
def F.CAL.ERR_NO_SET : Fld := ⟨0x22, 0xC, 32, 4, 1, .w1c, false, fun _ _ _ => 0⟩

/-- CAL.ERR.BANK_BAD_B -/
def F.CAL.ERR_BANK_BAD_B : Fld := ⟨0x22, 0xC, 32, 3, 1, .w1c, false, fun _ _ _ => 0⟩

/-- CAL.ERR.BANK_BAD_A -/
def F.CAL.ERR_BANK_BAD_A : Fld := ⟨0x22, 0xC, 32, 2, 1, .w1c, false, fun _ _ _ => 0⟩

/-- CAL.ERR.STORE_FAIL -/
def F.CAL.ERR_STORE_FAIL : Fld := ⟨0x22, 0xC, 32, 1, 1, .w1c, false, fun _ _ _ => 0⟩

/-- CAL.ERR.RUN_UNSTABLE -/
def F.CAL.ERR_RUN_UNSTABLE : Fld := ⟨0x22, 0xC, 32, 0, 1, .w1c, false, fun _ _ _ => 0⟩

/-- CAL.SET_SEQ.SEQ -/
def F.CAL.SET_SEQ_SEQ : Fld := ⟨0x22, 0x10, 64, 0, 64, .ro, false, fun _ _ _ => 0⟩

/-- CAL.PT_k.TEMP -/
def F.CAL.PT_TEMP (k : Nat) : Fld := ⟨0x22, 0x20 + k * 4, 32, 0, 16, .ro, false, fun _ _ _ => 0x8000⟩

/-- CAL.LAST_RUN.TIME -/
def F.CAL.LAST_RUN_TIME : Fld := ⟨0x22, 0x40, 128, 0, 128, .ro, false, fun _ _ _ => 0⟩

def F.CAL.rows0 : List FldRow :=
  [⟨0, 1, 0, fun _ => F.CAL.CFG_RATE_DIV⟩,
   ⟨0, 1, 0, fun _ => F.CAL.CFG_HITS⟩,
   ⟨0, 1, 0, fun _ => F.CAL.CFG_SCOPE⟩,
   ⟨0, 1, 0, fun _ => F.CAL.RUN_BUSY⟩,
   ⟨0, 1, 0, fun _ => F.CAL.RUN_GO⟩,
   ⟨0, 1, 0, fun _ => F.CAL.RUN_STATUS⟩,
   ⟨0, 1, 0, fun _ => F.CAL.STATUS_STORING⟩,
   ⟨0, 1, 0, fun _ => F.CAL.STATUS_COVERED⟩,
   ⟨0, 1, 0, fun _ => F.CAL.STATUS_BANK⟩,
   ⟨0, 1, 0, fun _ => F.CAL.STATUS_NPTS⟩,
   ⟨0, 1, 0, fun _ => F.CAL.ERR_RUN_BUSY⟩,
   ⟨0, 1, 0, fun _ => F.CAL.ERR_PI_SKIPPED⟩]

def F.CAL.rows1 : List FldRow :=
  [⟨0, 1, 0, fun _ => F.CAL.ERR_NO_SET⟩,
   ⟨0, 1, 0, fun _ => F.CAL.ERR_BANK_BAD_B⟩,
   ⟨0, 1, 0, fun _ => F.CAL.ERR_BANK_BAD_A⟩,
   ⟨0, 1, 0, fun _ => F.CAL.ERR_STORE_FAIL⟩,
   ⟨0, 1, 0, fun _ => F.CAL.ERR_RUN_UNSTABLE⟩,
   ⟨0, 1, 0, fun _ => F.CAL.SET_SEQ_SEQ⟩,
   ⟨0, 8, 4, F.CAL.PT_TEMP⟩,
   ⟨0, 1, 0, fun _ => F.CAL.LAST_RUN_TIME⟩]

/-- The map of CAL. -/
def F.CAL.rows : List FldRow := F.CAL.rows0 ++ F.CAL.rows1

/-! TEMP (15_calibration_store.md) -/

/-- TEMP.CFG.ALARM -/
def F.TEMP.CFG_ALARM : Fld := ⟨0x23, 0x0, 32, 16, 8, .rwL, false, fun _ _ _ => 0x6e⟩

/-- TEMP.CFG.CAL_DT -/
def F.TEMP.CFG_CAL_DT : Fld := ⟨0x23, 0x0, 32, 0, 8, .rwL, false, fun _ _ _ => 0x10⟩

/-- TEMP.T_k.TEMP -/
def F.TEMP.T_TEMP (k : Nat) : Fld := ⟨0x23, 0x10 + k * 4, 32, 0, 16, .ro, false, fun _ _ _ => 0⟩

/-- TEMP.T_LAST.TEMP -/
def F.TEMP.T_LAST_TEMP : Fld := ⟨0x23, 0x20, 32, 0, 16, .ro, false, fun _ _ _ => 0x8000⟩

/-- TEMP.STATUS.ALARM -/
def F.TEMP.STATUS_ALARM : Fld := ⟨0x23, 0x24, 32, 1, 1, .ro, false, fun _ _ _ => 0⟩

/-- TEMP.STATUS.DT_EXCEEDED -/
def F.TEMP.STATUS_DT_EXCEEDED : Fld := ⟨0x23, 0x24, 32, 0, 1, .ro, false, fun _ _ _ => 0⟩

/-- TEMP.ERR.ALARM_SEEN -/
def F.TEMP.ERR_ALARM_SEEN : Fld := ⟨0x23, 0x28, 32, 0, 1, .w1c, false, fun _ _ _ => 0⟩

/-- TEMP.MAX.TEMP -/
def F.TEMP.MAX_TEMP : Fld := ⟨0x23, 0x2C, 32, 0, 16, .rc, false, fun _ _ _ => 0x8000⟩

def F.TEMP.rows0 : List FldRow :=
  [⟨0, 1, 0, fun _ => F.TEMP.CFG_ALARM⟩,
   ⟨0, 1, 0, fun _ => F.TEMP.CFG_CAL_DT⟩,
   ⟨0, 4, 4, F.TEMP.T_TEMP⟩,
   ⟨0, 1, 0, fun _ => F.TEMP.T_LAST_TEMP⟩,
   ⟨0, 1, 0, fun _ => F.TEMP.STATUS_ALARM⟩,
   ⟨0, 1, 0, fun _ => F.TEMP.STATUS_DT_EXCEEDED⟩,
   ⟨0, 1, 0, fun _ => F.TEMP.ERR_ALARM_SEEN⟩,
   ⟨0, 1, 0, fun _ => F.TEMP.MAX_TEMP⟩]

/-- The map of TEMP. -/
def F.TEMP.rows : List FldRow := F.TEMP.rows0

/-! NVS (15_calibration_store.md) -/

/-- NVS.STATUS.PEND -/
def F.NVS.STATUS_PEND : Fld := ⟨0x3, 0x80000, 32, 0, 5, .ro, false, fun _ _ _ => 0⟩

/-- NVS.ERR.STOPPED_WR -/
def F.NVS.ERR_STOPPED_WR : Fld := ⟨0x3, 0x80004, 32, 2, 1, .w1c, false, fun _ _ _ => 0⟩

/-- NVS.ERR.PROT -/
def F.NVS.ERR_PROT : Fld := ⟨0x3, 0x80004, 32, 1, 1, .w1c, false, fun _ _ _ => 0⟩

/-- NVS.ERR.UNCORR -/
def F.NVS.ERR_UNCORR : Fld := ⟨0x3, 0x80004, 32, 0, 1, .w1c, false, fun _ _ _ => 0⟩

/-- NVS.UNCORR_ADDR.OFFSET -/
def F.NVS.UNCORR_ADDR_OFFSET : Fld := ⟨0x3, 0x80008, 32, 0, 20, .ro, false, fun _ _ _ => 0⟩

/-- NVS.WRITES.COUNT -/
def F.NVS.WRITES_COUNT : Fld := ⟨0x3, 0x80010, 64, 0, 64, .ro, false, fun _ _ _ => 0⟩

def F.NVS.rows0 : List FldRow :=
  [⟨0, 1, 0, fun _ => F.NVS.STATUS_PEND⟩,
   ⟨0, 1, 0, fun _ => F.NVS.ERR_STOPPED_WR⟩,
   ⟨0, 1, 0, fun _ => F.NVS.ERR_PROT⟩,
   ⟨0, 1, 0, fun _ => F.NVS.ERR_UNCORR⟩,
   ⟨0, 1, 0, fun _ => F.NVS.UNCORR_ADDR_OFFSET⟩,
   ⟨0, 1, 0, fun _ => F.NVS.WRITES_COUNT⟩]

/-- The map of NVS. -/
def F.NVS.rows : List FldRow := F.NVS.rows0

/-! PERF (16_monitors_counters.md) -/

/-- PERF.CYCLE.COUNT -/
def F.PERF.CYCLE_COUNT : Fld := ⟨0x20, 0x0, 64, 0, 64, .ro, false, fun _ _ _ => 0⟩

/-- PERF.CNT_k.OVF -/
def F.PERF.CNT_OVF (k : Nat) : Fld := ⟨0x20, 0x8 + k * 8, 64, 63, 1, .w1c, false, fun _ _ _ => 0⟩

/-- PERF.CNT_k.COUNT -/
def F.PERF.CNT_COUNT (k : Nat) : Fld := ⟨0x20, 0x8 + k * 8, 64, 0, 48, .rwL, false, fun _ _ _ => 0⟩

/-- PERF.SEL_k.MODE -/
def F.PERF.SEL_MODE (k : Nat) : Fld := ⟨0x20, 0x80 + k * 8, 32, 29, 3, .rwS, false, fun _ _ _ => 0⟩

/-- PERF.SEL_k.SRC -/
def F.PERF.SEL_SRC (k : Nat) : Fld := ⟨0x20, 0x80 + k * 8, 32, 20, 8, .rwS, false, fun _ _ _ => 0⟩

/-- PERF.SEL_k.INDEX -/
def F.PERF.SEL_INDEX (k : Nat) : Fld := ⟨0x20, 0x80 + k * 8, 32, 11, 9, .rwS, false, fun _ _ _ => 0⟩

/-- PERF.THR_k.THR -/
def F.PERF.THR_THR (k : Nat) : Fld := ⟨0x20, 0x84 + k * 8, 32, 0, 32, .rwL, false, fun _ _ _ => 0⟩

/-- PERF.CMP_k.CMP -/
def F.PERF.CMP_CMP (k : Nat) : Fld := ⟨0x20, 0xC0 + k * 8, 64, 0, 48, .rwL, false, fun _ _ _ => 0xffffffffffff⟩

/-- PERF.STAT.CMP_HIT -/
def F.PERF.STAT_CMP_HIT : Fld := ⟨0x20, 0x100, 32, 0, 8, .w1c, false, fun _ _ _ => 0⟩

/-- PERF.BW_CFG.WINDOW -/
def F.PERF.BW_CFG_WINDOW : Fld := ⟨0x20, 0x104, 32, 0, 20, .rwS, false, fun _ _ _ => 0x3e8⟩

/-- PERF.TAG_CFG.FR_EN -/
def F.PERF.TAG_CFG_FR_EN : Fld := ⟨0x20, 0x108, 32, 31, 1, .rwS, false, fun _ _ _ => 0⟩

/-- PERF.TAG_CFG.IN_EN -/
def F.PERF.TAG_CFG_IN_EN : Fld := ⟨0x20, 0x108, 32, 30, 1, .rwS, false, fun _ _ _ => 0⟩

/-- PERF.TAG_CFG.FR_LOG2 -/
def F.PERF.TAG_CFG_FR_LOG2 : Fld := ⟨0x20, 0x108, 32, 24, 5, .rwS, false, fun _ _ _ => 0x10⟩

/-- PERF.TAG_CFG.IN_LOG2 -/
def F.PERF.TAG_CFG_IN_LOG2 : Fld := ⟨0x20, 0x108, 32, 16, 5, .rwS, false, fun _ _ _ => 0x10⟩

/-- PERF.TAG_CFG.ENG -/
def F.PERF.TAG_CFG_ENG : Fld := ⟨0x20, 0x108, 32, 12, 2, .rwS, false, fun _ _ _ => 0⟩

/-- PERF.TAG_SEED.SEED -/
def F.PERF.TAG_SEED_SEED : Fld := ⟨0x20, 0x10C, 32, 0, 32, .rwS, false, fun _ _ _ => 1⟩

/-- PERF.TAG_STAT.IN_BUSY -/
def F.PERF.TAG_STAT_IN_BUSY : Fld := ⟨0x20, 0x110, 32, 6, 1, .ro, false, fun _ _ _ => 0⟩

/-- PERF.TAG_STAT.FR_BUSY -/
def F.PERF.TAG_STAT_FR_BUSY : Fld := ⟨0x20, 0x110, 32, 5, 1, .ro, false, fun _ _ _ => 0⟩

/-- PERF.TAG_STAT.DEPTH -/
def F.PERF.TAG_STAT_DEPTH : Fld := ⟨0x20, 0x110, 32, 0, 5, .ro, false, fun _ _ _ => 0⟩

/-- PERF.TAG_LOST.COUNT -/
def F.PERF.TAG_LOST_COUNT : Fld := ⟨0x20, 0x114, 32, 0, 32, .rc, false, fun _ _ _ => 0⟩

/-- PERF.ERR.TAG_LOST_SEEN -/
def F.PERF.ERR_TAG_LOST_SEEN : Fld := ⟨0x20, 0x118, 32, 0, 1, .w1c, false, fun _ _ _ => 0⟩

/-- PERF.TAG_HEAD.VALID -/
def F.PERF.TAG_HEAD_VALID : Fld := ⟨0x20, 0x120, 64, 63, 1, .rc, false, fun _ _ _ => 0⟩

/-- PERF.TAG_HEAD.KIND -/
def F.PERF.TAG_HEAD_KIND : Fld := ⟨0x20, 0x120, 64, 32, 3, .rc, false, fun _ _ _ => 0⟩

/-- PERF.TAG_HEAD.SEQ -/
def F.PERF.TAG_HEAD_SEQ : Fld := ⟨0x20, 0x120, 64, 0, 16, .rc, false, fun _ _ _ => 0⟩

/-- PERF.BW_k.RX_BYTES -/
def F.PERF.BW_RX_BYTES (k : Nat) : Fld := ⟨0x20, 0x1000 + k * 16, 128, 88, 40, .ro, false, fun _ _ _ => 0⟩

/-- PERF.BW_k.TX_BYTES -/
def F.PERF.BW_TX_BYTES (k : Nat) : Fld := ⟨0x20, 0x1000 + k * 16, 128, 48, 40, .ro, false, fun _ _ _ => 0⟩

/-- PERF.BW_k.WIN -/
def F.PERF.BW_WIN (k : Nat) : Fld := ⟨0x20, 0x1000 + k * 16, 128, 32, 16, .ro, false, fun _ _ _ => 0⟩

def F.PERF.rows0 : List FldRow :=
  [⟨0, 1, 0, fun _ => F.PERF.CYCLE_COUNT⟩,
   ⟨0, 8, 8, F.PERF.CNT_OVF⟩,
   ⟨0, 8, 8, F.PERF.CNT_COUNT⟩,
   ⟨0, 8, 8, F.PERF.SEL_MODE⟩,
   ⟨0, 8, 8, F.PERF.SEL_SRC⟩,
   ⟨0, 8, 8, F.PERF.SEL_INDEX⟩,
   ⟨0, 8, 8, F.PERF.THR_THR⟩,
   ⟨0, 8, 8, F.PERF.CMP_CMP⟩,
   ⟨0, 1, 0, fun _ => F.PERF.STAT_CMP_HIT⟩,
   ⟨0, 1, 0, fun _ => F.PERF.BW_CFG_WINDOW⟩,
   ⟨0, 1, 0, fun _ => F.PERF.TAG_CFG_FR_EN⟩,
   ⟨0, 1, 0, fun _ => F.PERF.TAG_CFG_IN_EN⟩]

def F.PERF.rows1 : List FldRow :=
  [⟨0, 1, 0, fun _ => F.PERF.TAG_CFG_FR_LOG2⟩,
   ⟨0, 1, 0, fun _ => F.PERF.TAG_CFG_IN_LOG2⟩,
   ⟨0, 1, 0, fun _ => F.PERF.TAG_CFG_ENG⟩,
   ⟨0, 1, 0, fun _ => F.PERF.TAG_SEED_SEED⟩,
   ⟨0, 1, 0, fun _ => F.PERF.TAG_STAT_IN_BUSY⟩,
   ⟨0, 1, 0, fun _ => F.PERF.TAG_STAT_FR_BUSY⟩,
   ⟨0, 1, 0, fun _ => F.PERF.TAG_STAT_DEPTH⟩,
   ⟨0, 1, 0, fun _ => F.PERF.TAG_LOST_COUNT⟩,
   ⟨0, 1, 0, fun _ => F.PERF.ERR_TAG_LOST_SEEN⟩,
   ⟨0, 1, 0, fun _ => F.PERF.TAG_HEAD_VALID⟩,
   ⟨0, 1, 0, fun _ => F.PERF.TAG_HEAD_KIND⟩,
   ⟨0, 1, 0, fun _ => F.PERF.TAG_HEAD_SEQ⟩]

def F.PERF.rows2 : List FldRow :=
  [⟨0, 24, 16, F.PERF.BW_RX_BYTES⟩,
   ⟨0, 24, 16, F.PERF.BW_TX_BYTES⟩,
   ⟨0, 24, 16, F.PERF.BW_WIN⟩]

/-- The map of PERF. -/
def F.PERF.rows : List FldRow := F.PERF.rows0 ++ F.PERF.rows1 ++ F.PERF.rows2

/-! HIST (16_monitors_counters.md) -/

/-- HIST.CFG.SRC -/
def F.HIST.CFG_SRC : Fld := ⟨0x21, 0x0, 32, 24, 8, .rwS, false, fun _ _ _ => 0⟩

/-- HIST.CFG.INDEX -/
def F.HIST.CFG_INDEX : Fld := ⟨0x21, 0x0, 32, 15, 9, .rwS, false, fun _ _ _ => 0⟩

/-- HIST.CFG.SPER -/
def F.HIST.CFG_SPER : Fld := ⟨0x21, 0x0, 32, 10, 5, .rwS, false, fun _ _ _ => 0⟩

/-- HIST.CTRL.CLR -/
def F.HIST.CTRL_CLR : Fld := ⟨0x21, 0x4, 32, 1, 1, .rwL, false, fun _ _ _ => 0⟩

/-- HIST.CTRL.HOLD -/
def F.HIST.CTRL_HOLD : Fld := ⟨0x21, 0x4, 32, 0, 1, .rwL, false, fun _ _ _ => 0⟩

/-- HIST.ERR.MISSED_SEEN -/
def F.HIST.ERR_MISSED_SEEN : Fld := ⟨0x21, 0x8, 32, 1, 1, .w1c, false, fun _ _ _ => 0⟩

/-- HIST.ERR.BIN_OVF_SEEN -/
def F.HIST.ERR_BIN_OVF_SEEN : Fld := ⟨0x21, 0x8, 32, 0, 1, .w1c, false, fun _ _ _ => 0⟩

/-- HIST.SAMPLES.COUNT -/
def F.HIST.SAMPLES_COUNT : Fld := ⟨0x21, 0x10, 64, 0, 48, .ro, false, fun _ _ _ => 0⟩

/-- HIST.MISSED.COUNT -/
def F.HIST.MISSED_COUNT : Fld := ⟨0x21, 0x18, 32, 0, 32, .rc, false, fun _ _ _ => 0⟩

/-- HIST.EDGE_k.EDGE -/
def F.HIST.EDGE_EDGE (k : Nat) : Fld := ⟨0x21, 0x100 + k * 8, 64, 0, 48, .rwS, false, fun _ _ _ => (k + 1) * 0x10000⟩

/-- HIST.BIN_k.OVF -/
def F.HIST.BIN_OVF (k : Nat) : Fld := ⟨0x21, 0x200 + k * 8, 64, 63, 1, .ro, false, fun _ _ _ => 0⟩

/-- HIST.BIN_k.COUNT -/
def F.HIST.BIN_COUNT (k : Nat) : Fld := ⟨0x21, 0x200 + k * 8, 64, 0, 48, .ro, false, fun _ _ _ => 0⟩

/-- HIST.MIN.VALUE -/
def F.HIST.MIN_VALUE : Fld := ⟨0x21, 0x300, 64, 0, 64, .ro, false, fun _ _ _ => 0x00007FFFFFFFFFFF⟩

/-- HIST.MAX.VALUE -/
def F.HIST.MAX_VALUE : Fld := ⟨0x21, 0x308, 64, 0, 64, .ro, false, fun _ _ _ => 0xFFFF800000000000⟩

def F.HIST.rows0 : List FldRow :=
  [⟨0, 1, 0, fun _ => F.HIST.CFG_SRC⟩,
   ⟨0, 1, 0, fun _ => F.HIST.CFG_INDEX⟩,
   ⟨0, 1, 0, fun _ => F.HIST.CFG_SPER⟩,
   ⟨0, 1, 0, fun _ => F.HIST.CTRL_CLR⟩,
   ⟨0, 1, 0, fun _ => F.HIST.CTRL_HOLD⟩,
   ⟨0, 1, 0, fun _ => F.HIST.ERR_MISSED_SEEN⟩,
   ⟨0, 1, 0, fun _ => F.HIST.ERR_BIN_OVF_SEEN⟩,
   ⟨0, 1, 0, fun _ => F.HIST.SAMPLES_COUNT⟩,
   ⟨0, 1, 0, fun _ => F.HIST.MISSED_COUNT⟩,
   ⟨0, 31, 8, F.HIST.EDGE_EDGE⟩,
   ⟨0, 32, 8, F.HIST.BIN_OVF⟩,
   ⟨0, 32, 8, F.HIST.BIN_COUNT⟩]

def F.HIST.rows1 : List FldRow :=
  [⟨0, 1, 0, fun _ => F.HIST.MIN_VALUE⟩,
   ⟨0, 1, 0, fun _ => F.HIST.MAX_VALUE⟩]

/-- The map of HIST. -/
def F.HIST.rows : List FldRow := F.HIST.rows0 ++ F.HIST.rows1

/-! FIELD (17_field_io_energy.md) -/

/-- FIELD.STATUS.FVDD_OK -/
def F.FIELD.STATUS_FVDD_OK : Fld := ⟨0x12, 0x0, 32, 8, 1, .ro, false, fun _ _ _ => 0⟩

/-- FIELD.STATUS.ARMED -/
def F.FIELD.STATUS_ARMED : Fld := ⟨0x12, 0x0, 32, 4, 4, .ro, false, fun _ _ _ => 0⟩

/-- FIELD.STATUS.LEVEL -/
def F.FIELD.STATUS_LEVEL : Fld := ⟨0x12, 0x0, 32, 0, 4, .ro, false, fun _ _ _ => 0⟩

/-- FIELD.ERR.TRIG_LOST -/
def F.FIELD.ERR_TRIG_LOST : Fld := ⟨0x12, 0x4, 32, 3, 1, .w1c, false, fun _ _ _ => 0⟩

/-- FIELD.ERR.TRIG_LATE -/
def F.FIELD.ERR_TRIG_LATE : Fld := ⟨0x12, 0x4, 32, 2, 1, .w1c, false, fun _ _ _ => 0⟩

/-- FIELD.ERR.STEP_SKIP -/
def F.FIELD.ERR_STEP_SKIP : Fld := ⟨0x12, 0x4, 32, 1, 1, .w1c, false, fun _ _ _ => 0⟩

/-- FIELD.ERR.FVDD_LOST -/
def F.FIELD.ERR_FVDD_LOST : Fld := ⟨0x12, 0x4, 32, 0, 1, .w1c, false, fun _ _ _ => 0⟩

/-- FIELD.IN_CFG.TERM -/
def F.FIELD.IN_CFG_TERM : Fld := ⟨0x12, 0x8, 32, 0, 8, .rwS, false, fun _ _ _ => 0⟩

/-- FIELD.OUT_FIXED.FIXED -/
def F.FIELD.OUT_FIXED_FIXED : Fld := ⟨0x12, 0xC, 32, 0, 32, .ro, false, fun _ _ _ => 0x2580⟩

/-- FIELD.OUT_CFG_k.FUNC -/
def F.FIELD.OUT_CFG_FUNC (k : Nat) : Fld := ⟨0x12, 0x100 + k * 64, 32, 29, 3, .rwS, false, fun _ _ _ => 0⟩

/-- FIELD.OUT_CFG_k.POL -/
def F.FIELD.OUT_CFG_POL (k : Nat) : Fld := ⟨0x12, 0x100 + k * 64, 32, 28, 1, .rwS, false, fun _ _ _ => 0⟩

/-- FIELD.OUT_CFG_k.IRIG -/
def F.FIELD.OUT_CFG_IRIG (k : Nat) : Fld := ⟨0x12, 0x100 + k * 64, 32, 24, 3, .rwS, false, fun _ _ _ => 0⟩

/-- FIELD.OUT_CFG_k.WIDTH -/
def F.FIELD.OUT_CFG_WIDTH (k : Nat) : Fld := ⟨0x12, 0x100 + k * 64, 32, 0, 20, .rwS, false, fun _ _ _ => 0x186a0⟩

/-- FIELD.OUT_ADJ_k.OUT_ADJ -/
def F.FIELD.OUT_ADJ_OUT_ADJ (k : Nat) : Fld := ⟨0x12, 0x104 + k * 64, 32, 0, 32, .rwL, false, fun _ _ _ => 0⟩

/-- FIELD.OUT_IRIG_OFS_k.OFS -/
def F.FIELD.OUT_IRIG_OFS_OFS (k : Nat) : Fld := ⟨0x12, 0x108 + k * 64, 32, 0, 32, .rwL, false, fun _ _ _ => 0⟩

/-- FIELD.OUT_IRIG_CF_k.CF -/
def F.FIELD.OUT_IRIG_CF_CF (k : Nat) : Fld := ⟨0x12, 0x10C + k * 64, 32, 0, 27, .rwL, false, fun _ _ _ => 0⟩

/-- FIELD.OUT_TRIG_CTL_k.ARM -/
def F.FIELD.OUT_TRIG_CTL_ARM (k : Nat) : Fld := ⟨0x12, 0x110 + k * 64, 32, 0, 1, .rwL, false, fun _ _ _ => 0⟩

/-- FIELD.OUT_QERR_k.QERR -/
def F.FIELD.OUT_QERR_QERR (k : Nat) : Fld := ⟨0x12, 0x114 + k * 64, 32, 0, 32, .ro, false, fun _ _ _ => 0⟩

/-- FIELD.OUT_TRIG_TIME_k.TIME -/
def F.FIELD.OUT_TRIG_TIME_TIME (k : Nat) : Fld := ⟨0x12, 0x120 + k * 64, 128, 0, 128, .rwL, false, fun _ _ _ => 0⟩

/-- FIELD.OUT_LAST_EDGE_k.TIME -/
def F.FIELD.OUT_LAST_EDGE_TIME (k : Nat) : Fld := ⟨0x12, 0x130 + k * 64, 128, 0, 128, .ro, false, fun _ _ _ => 0⟩

def F.FIELD.rows0 : List FldRow :=
  [⟨0, 1, 0, fun _ => F.FIELD.STATUS_FVDD_OK⟩,
   ⟨0, 1, 0, fun _ => F.FIELD.STATUS_ARMED⟩,
   ⟨0, 1, 0, fun _ => F.FIELD.STATUS_LEVEL⟩,
   ⟨0, 1, 0, fun _ => F.FIELD.ERR_TRIG_LOST⟩,
   ⟨0, 1, 0, fun _ => F.FIELD.ERR_TRIG_LATE⟩,
   ⟨0, 1, 0, fun _ => F.FIELD.ERR_STEP_SKIP⟩,
   ⟨0, 1, 0, fun _ => F.FIELD.ERR_FVDD_LOST⟩,
   ⟨0, 1, 0, fun _ => F.FIELD.IN_CFG_TERM⟩,
   ⟨0, 1, 0, fun _ => F.FIELD.OUT_FIXED_FIXED⟩,
   ⟨0, 4, 64, F.FIELD.OUT_CFG_FUNC⟩,
   ⟨0, 4, 64, F.FIELD.OUT_CFG_POL⟩,
   ⟨0, 4, 64, F.FIELD.OUT_CFG_IRIG⟩]

def F.FIELD.rows1 : List FldRow :=
  [⟨0, 4, 64, F.FIELD.OUT_CFG_WIDTH⟩,
   ⟨0, 4, 64, F.FIELD.OUT_ADJ_OUT_ADJ⟩,
   ⟨0, 4, 64, F.FIELD.OUT_IRIG_OFS_OFS⟩,
   ⟨0, 4, 64, F.FIELD.OUT_IRIG_CF_CF⟩,
   ⟨0, 4, 64, F.FIELD.OUT_TRIG_CTL_ARM⟩,
   ⟨0, 4, 64, F.FIELD.OUT_QERR_QERR⟩,
   ⟨0, 4, 64, F.FIELD.OUT_TRIG_TIME_TIME⟩,
   ⟨0, 4, 64, F.FIELD.OUT_LAST_EDGE_TIME⟩]

/-- The map of FIELD. -/
def F.FIELD.rows : List FldRow := F.FIELD.rows0 ++ F.FIELD.rows1

/-- The register map of a block by its ID. -/
def F.rowsOf (b : Nat) : List FldRow :=
  match b with
  | 0x0 => F.SYS.rows
  | 0x1 => F.ENG.rows
  | 0xFE => F.HBAR.rows
  | 0x2 => F.HOST.rows
  | 0x4 => F.SEC.rows
  | 0x8 => F.LANE.rows
  | 0x9 => F.PCS.rows
  | 0xA => F.PLL.rows
  | 0xC => F.RIDGE.rows
  | 0xD => F.TSU.rows
  | 0xE => F.LINK.rows
  | 0xF => F.SUMMIT.rows
  | 0x10 => F.GNSS.rows
  | 0x11 => F.EVT.rows
  | 0x14 => F.L2T.rows
  | 0x15 => F.LPM.rows
  | 0x16 => F.MCG.rows
  | 0x18 => F.QUE.rows
  | 0x19 => F.GATE.rows
  | 0x1A => F.MIRR.rows
  | 0x1C => F.MESH.rows
  | 0x1B => F.PRP.rows
  | 0x22 => F.CAL.rows
  | 0x23 => F.TEMP.rows
  | 0x3 => F.NVS.rows
  | 0x20 => F.PERF.rows
  | 0x21 => F.HIST.rows
  | 0x12 => F.FIELD.rows
  | _ => []

/-! Block IDs (R65). -/

/-- The block ID of SYS. -/
abbrev B.SYS : Nat := 0x0
/-- The block ID of ENG. -/
abbrev B.ENG : Nat := 0x1
/-- The block ID of HOST. -/
abbrev B.HOST : Nat := 0x2
/-- The block ID of SEC. -/
abbrev B.SEC : Nat := 0x4
/-- The block ID of LANE. -/
abbrev B.LANE : Nat := 0x8
/-- The block ID of PCS. -/
abbrev B.PCS : Nat := 0x9
/-- The block ID of PLL. -/
abbrev B.PLL : Nat := 0xA
/-- The block ID of RIDGE. -/
abbrev B.RIDGE : Nat := 0xC
/-- The block ID of TSU. -/
abbrev B.TSU : Nat := 0xD
/-- The block ID of LINK. -/
abbrev B.LINK : Nat := 0xE
/-- The block ID of SUMMIT. -/
abbrev B.SUMMIT : Nat := 0xF
/-- The block ID of GNSS. -/
abbrev B.GNSS : Nat := 0x10
/-- The block ID of EVT. -/
abbrev B.EVT : Nat := 0x11
/-- The block ID of L2T. -/
abbrev B.L2T : Nat := 0x14
/-- The block ID of LPM. -/
abbrev B.LPM : Nat := 0x15
/-- The block ID of MCG. -/
abbrev B.MCG : Nat := 0x16
/-- The block ID of QUE. -/
abbrev B.QUE : Nat := 0x18
/-- The block ID of GATE. -/
abbrev B.GATE : Nat := 0x19
/-- The block ID of MIRR. -/
abbrev B.MIRR : Nat := 0x1A
/-- The block ID of MESH. -/
abbrev B.MESH : Nat := 0x1C
/-- The block ID of PRP. -/
abbrev B.PRP : Nat := 0x1B
/-- The block ID of CAL. -/
abbrev B.CAL : Nat := 0x22
/-- The block ID of TEMP. -/
abbrev B.TEMP : Nat := 0x23
/-- The block ID of NVS. -/
abbrev B.NVS : Nat := 0x3
/-- The block ID of PERF. -/
abbrev B.PERF : Nat := 0x20
/-- The block ID of HIST. -/
abbrev B.HIST : Nat := 0x21
/-- The block ID of FIELD. -/
abbrev B.FIELD : Nat := 0x12

end Sys2Proof.Machine
end

