-- ==== Sys2Proof/Machine/Store.lean ====
section
/-!
DEFINITION. Sparse plain data by number: a list of (key, value) pairs in one canonical form, keys strictly rising and
no entry equal to what an unlisted key reads as. Registers, memories and tables are all held so.
-/
namespace Sys2Proof.Machine

/-- A sparse map from numbers: what is not listed reads as a default named by the reader. -/
abbrev Store (α : Type) := List (Nat × α)

/-- The value at key `i`; an unlisted key reads as `d`. -/
def Store.get {α : Type} (d : α) : Store α → Nat → α
  | [], _ => d
  | (k, v) :: r, i => if k = i then v else Store.get d r i

/-- The list without key `i`. -/
def Store.erase {α : Type} : Store α → Nat → Store α
  | [], _ => []
  | (k, v) :: r, i => if k = i then Store.erase r i else (k, v) :: Store.erase r i

/-- A pair put before the first greater key. -/
def Store.insert {α : Type} : Store α → Nat → α → Store α
  | [], i, v => [(i, v)]
  | (k, w) :: r, i, v => if i < k then (i, v) :: (k, w) :: r else (k, w) :: Store.insert r i v

/-- `v` written at key `i`; writing the default removes the entry, so equal stores are equal lists. -/
def Store.put {α : Type} [DecidableEq α] (d : α) (m : Store α) (i : Nat) (v : α) : Store α :=
  if v = d then Store.erase m i else Store.insert (Store.erase m i) i v

/-- The canonical form: keys strictly rising from above `lo`, and no entry equal to the default. -/
def Store.wfFrom {α : Type} [DecidableEq α] (d : Nat → α) : Option Nat → Store α → Bool
  | _, [] => true
  | none, (k, v) :: r => decide (v ≠ d k) && Store.wfFrom d (some k) r
  | some lo, (k, v) :: r => decide (lo < k) && decide (v ≠ d k) && Store.wfFrom d (some k) r

/-- The canonical form of a whole store whose default may depend on the key. -/
def Store.wf {α : Type} [DecidableEq α] (d : Nat → α) (m : Store α) : Bool := Store.wfFrom d none m

/-- `n` values written at keys `i`, `i + 1`, … -/
def Store.putList {α : Type} [DecidableEq α] (d : α) (m : Store α) (i : Nat) : List α → Store α
  | [] => m
  | v :: vs => Store.putList d (Store.put d m i v) (i + 1) vs

/-- The `n` values at keys `i`, `i + 1`, … -/
def Store.getList {α : Type} (d : α) (m : Store α) (i n : Nat) : List α :=
  (List.range n).map (fun j => Store.get d m (i + j))

end Sys2Proof.Machine
end

