-- ==== Sys2Proof/Machine/EngineState.lean ====
section
/-!
DEFINITION. What a Cairn engine holds (R58), with the accesses, waits and traps it has outstanding (R100, R118, R130).
-/
namespace Sys2Proof.Machine

/-- The six flags (R58, R98). -/
structure Flags where
  z : Bool := false
  n : Bool := false
  c : Bool := false
  v : Bool := false
  tmo : Bool := false
  pv : Bool := false
  deriving DecidableEq, Repr

/-- The ECC state of a 64-bit memory word that carries an error (R59). -/
inductive EccMark where
  | good | single | double
  deriving DecidableEq, Repr

/-- A posted access (R100): the instruction's address, the 40-bit function address, the width in bits (0 for FN.STOP),
the data, and the cause the target answered once it has judged it (0 for none). -/
structure Posted where
  pc : BitVec 16
  addr : Nat
  width : Nat
  data : Nat
  result : Option Nat
  deriving DecidableEq, Repr

/-- What a blocking access does with its response (R104, R109, R112). -/
inductive BlockOp where
  | fld (width : Nat) (rd : Reg)
  | fldt (td : TReg)
  | fnStart (rd : Reg)
  | fnStat (rd : Reg)
  | srch (rd : Reg) (key : Word)
  | tnext (rd : Reg) (cursor : Word)
  | flush (rd : Reg) (arg : Word)
  | tcmd (rd : Reg) (dmem : Nat)
  deriving DecidableEq, Repr

/-- A target's answer to a blocking access: the trap cause (0 for none) and the value. -/
structure Resp where
  cause : Nat
  value : Nat
  deriving DecidableEq, Repr

/-- What holds an engine's issue: nothing, a blocking access, a FENCE or HALT waiting for acknowledgements (R127, R128),
or a WAIT in progress with its mask and deadline (R118). -/
inductive Hold where
  | none
  | access (op : BlockOp) (addr : Nat) (resp : Option Resp)
  | fence
  | halt
  | waitTick (rd : Reg) (mask : Word) (deadline : Option Nat)
  | waitTime (rd : Reg) (mask : Word) (deadline : Nat)
  /-- a SEND whose frame, at its DMEM address, waits for its turn of injection (R123, R151) -/
  | send (dest : Word) (addr : Nat)
  deriving DecidableEq, Repr

/-- An imprecise trap that has fallen due and is not yet taken (R130): its cause and the posted instruction's address. -/
structure HeldTrap where
  cause : Nat
  pc : BitVec 16
  deriving DecidableEq, Repr

/-- A frame in an engine's receive queue (R124): bytes in wire order with FCS. -/
structure RxFrame where
  time : Nat
  ingress : Nat
  tg : Bool
  fcsBad : Bool
  bytes : List Byte
  deriving DecidableEq, Repr

/-- An EVMAP entry (the ENG map). -/
structure EvEntry where
  en : Bool := false
  die : Nat := 0
  blk : Nat := 0
  inst : Nat := 0
  event : Nat := 0
  deriving DecidableEq, Repr

/-- One Cairn engine (R58). Memories list only what is not zero. -/
structure Engine where
  /-- v1 to v31; v0 has no storage -/
  v : Store Word := []
  /-- t0 to t7 -/
  t : Store XT := []
  pc : BitVec 16 := 0
  flags : Flags := {}
  /-- the event pending set -/
  pending : Word := 0
  imem : Store Byte := []
  dmem : Store Byte := []
  /-- ECC errors standing in 64-bit words of IMEM and DMEM, by word number -/
  imemEcc : Store EccMark := []
  dmemEcc : Store EccMark := []
  /-- the address of the last instruction completed -/
  lastDone : BitVec 16 := 0
  posted : List Posted := []
  hold : Hold := .none
  /-- MODEL'S OWN: the blocking accesses begun so far, by which the answers of tables and of the order point find theirs; and
  the command block that the answer to a TBL.CMD brings (R110) -/
  calls : Nat := 0
  block : List Byte := []
  held : List HeldTrap := []
  rxq : List RxFrame := []
  /-- frames dropped at a full receive queue (R124) -/
  rxDrops : Nat := 0
  evmap : Store EvEntry := []
  /-- the entries in force: EVMAP as it stood when the engine last issued a WAIT (R75) -/
  evLive : Store EvEntry := []
  deriving DecidableEq, Repr

/-- An engine at reset (R114); memories, whose contents the spec leaves undefined there, list nothing. -/
def Engine.reset : Engine := {}

end Sys2Proof.Machine
end

