-- ==== Sys2Proof/Machine/SwitchState.lean ====
section
/-!
DEFINITION. State of the data plane: frames and their cells on their way through the switch (R338, R372 to R401), the
port's queues, scheduler, gates and TX timestamp queue, the mirror ring, the redundancy source table (R409), and what
PERF and HIST hold (R442 to R457).
-/
namespace Sys2Proof.Machine

/-- Where a frame came from. -/
inductive FrameSrc where
  | port (p : Nat)
  | engine (e : Nat)
  | ring (h k : Nat)
  /-- D0's SUMMIT block (R280) -/
  | summit
  deriving DecidableEq, Repr

/-- A frame's metadata, fixed at its lookup (R339) or its injection. -/
structure FrameMeta where
  /-- MODEL'S OWN: the serial number by which its cells are told apart -/
  id : Nat
  src : FrameSrc
  /-- length with FCS, as received or injected -/
  len : Nat
  /-- ingress timestamp and its timing-grade flag (R250) -/
  time : Option XT := none
  tg : Bool := false
  /-- package tick of the ingress strobe or of the injection (R393) -/
  strobe : Nat := 0
  /-- ingress line rate, Mb/s; 0 for an injected frame -/
  rate : Nat := 0
  vlan : Nat := 0
  /-- priority (R385) -/
  prio : Nat := 0
  /-- the queue that a SEND or a KIND 0 descriptor names -/
  queue : Option Nat := none
  /-- TS_ID of a requested TX timestamp -/
  tsId : Option Nat := none
  /-- destination ports (global, as a mask), engines (mask) and device-to-host ring -/
  ports : Nat := 0
  engines : Nat := 0
  ring : Option (Nat × Nat) := none
  /-- NH_MAC and NH_VID of a routed frame -/
  route : Option (Nat × Nat) := none
  /-- E_L2, E_LPM and E_MCG -/
  epochs : Nat × Nat × Nat := (0, 0, 0)
  /-- the frame goes to a group, or to more than one destination -/
  multi : Bool := false
  /-- the frame is tagged by PERF of this die, and followed to this global port (R450) -/
  tag : Option (Nat × Nat) := none
  /-- exempt from redundancy handling (R406) -/
  exempt : Bool := false
  /-- a ring-forwarded HSR frame, with its tag kept, for this global port alone (R414) -/
  hsr : Option Nat := none
  deriving DecidableEq, Repr

/-- A cell on its way: up to 256 bytes of a frame; the last cell carries the verdict. -/
structure Cell where
  frame : FrameMeta
  first : Bool
  last : Bool
  bad : Bool
  data : List Byte
  deriving DecidableEq, Repr

/-- A cell in a staging FIFO with the destination dies that have still to take it (R372). -/
structure StgCell where
  cell : Cell
  left : List Nat
  deriving DecidableEq, Repr

/-- The provisional bits of a frame (R412): its pairing, source, number and port, and which windows hold its bit. -/
structure PrpProv where
  inst : Nat
  source : Nat
  seq : Nat
  onB : Bool
  deliver : Bool
  ring : Bool
  deriving DecidableEq, Repr

/-- A frame in reception or injection: what has yet to be cut into cells, and the dies it goes to. -/
structure RxFrameCur where
  frame : FrameMeta
  dies : List Nat
  /-- every byte, with FCS, as it goes into cells -/
  bytes : List Byte
  /-- bytes already cut into cells -/
  done : Nat
  /-- the bytes as received, for the FCS verdict and learning -/
  raw : List Byte
  /-- a block of it was marked as an error, or a later cell found no slot -/
  bad : Bool := false
  /-- later bytes are discarded (R375) -/
  cutOff : Bool := false
  prov : Option PrpProv := none
  /-- longer than MAX_FRAME (R185) -/
  ovr : Bool := false
  /-- learning is judged at the end: VLAN and source key's port (R345, R404) -/
  learn : Option (Nat × Nat) := none
  /-- a pause frame or a frame dropped at lookup has no cells -/
  dropped : Bool := false
  deriving DecidableEq, Repr

/-- What PRP adds to a copy (R407): pairing, sequence number, and whether the copy is PORT_B's. -/
structure PrpMark where
  inst : Nat
  seq : Nat
  onB : Bool
  deriving DecidableEq, Repr

/-- An admitted copy. -/
structure Copy where
  frame : FrameMeta
  /-- local port and queue -/
  port : Nat
  queue : Nat
  charge : Nat
  prp : Option PrpMark
  /-- chosen for cut-through (R394) -/
  cut : Bool := false
  /-- the bytes held so far, whether the frame has ended, and the verdict -/
  bytes : List Byte := []
  whole : Bool := false
  bad : Bool := false
  /-- admission of a cut-through copy that grew too long has ended it (R381) -/
  ended : Bool := false
  deriving DecidableEq, Repr

/-- A frame arriving at its output die: its bytes so far and the copies admitted for it; engines and a ring that will
receive it (R384, R394). -/
structure OutFrame where
  frame : FrameMeta
  bytes : List Byte
  copies : List Copy
  engines : List Nat
  ring : Option (Nat × Nat)
  deriving DecidableEq, Repr

/-- A copy in transmission: what was fixed at its start. -/
structure TxCur where
  copy : Copy
  /-- egress timestamp, where the TSU runs -/
  time : Option XT
  tg : Bool
  /-- the head of the frame after the changes of R396, the bytes of the stored frame that it stands for, and whether bytes
  were inserted or removed (R397) -/
  head : List Byte
  taken : Nat
  moved : Bool
  /-- the frame that leaves, with its FCS, where all of it was there at the start -/
  fin : Option (List Byte) := none
  deriving DecidableEq, Repr

/-- An entry of the TX timestamp queue (R251). -/
structure TsEntry where
  id : Nat
  tg : Bool
  dropped : Bool
  seq : Nat
  time : XT
  deriving DecidableEq, Repr

/-- The gate list's place (R390): the instant, in fifths of 2^-32 ns, at which the first cycle begins, and whether it has. -/
structure GatePlace where
  first : Nat
  begun : Bool
  deriving DecidableEq, Repr

/-- One port's data plane. -/
structure PortState where
  rx : Option RxFrameCur := none
  /-- the same frame as the HSR ring goes on with it, tag kept (R414) -/
  fwd : Option RxFrameCur := none
  stg : List StgCell := []
  /-- queued copies by queue, oldest first -/
  queues : Store (List Copy) := []
  /-- the deficit round robin of R388 -/
  deficit : Store Nat := []
  ptr : Nat := 0
  fresh : Bool := true
  /-- the queue whose cut-through copy begins at the present opportunity -/
  next : Option Nat := none
  tx : Option TxCur := none
  /-- the frame last sent on the medium, with its FCS -/
  sent : List Byte := []
  /-- that frame was ended with an error block (R84) -/
  errEnd : Bool := false
  tsq : List TsEntry := []
  tsSeq : Nat := 0
  gate : Option GatePlace := none
  /-- the port record (R152) by its place, 0 to 11; queue q's counters at 16 + 2q and 17 + 2q -/
  counts : Store Nat := []
  deriving DecidableEq, Repr

/-- A received frame that waits for its device-to-host ring. -/
structure RingFrame where
  host : Nat
  ring : Nat
  frame : RxFrame
  deriving DecidableEq, Repr

/-- A source-table entry (R409, R410, R414): the delivery window, the ring windows towards PORT_A and PORT_B, whether the
source is a proxy, and the tick of its last frame. A window is HIGH and a bitmap whose bit b stands for HIGH − b. -/
structure PrpEntry where
  inst : Nat
  source : Nat
  proxy : Bool
  window : Option (Nat × Nat)
  ringA : Option (Nat × Nat)
  ringB : Option (Nat × Nat)
  last : Nat
  deriving DecidableEq, Repr

/-- The mirror ring of a die (R398 to R400). -/
structure MirrState where
  ring : List (List Byte) := []
  seq : Nat := 0
  /-- qualifying events by kind × 32 + port -/
  seen : Store Nat := []
  /-- one more than the tick of the last record taken -/
  last : Nat := 0
  record : List Byte := []
  deriving DecidableEq, Repr

/-- A tagged item in flight (R450): its record's fields and its stages as package ticks after T0. -/
structure TagItem where
  kind : Nat
  /-- MODEL'S OWN: the serial number of the frame, and the die of the port along which it is followed -/
  id : Nat := 0
  dest : Nat := 0xFF
  flags : Nat := 0
  inPort : Nat := 0
  outPort : Nat := 0xFF
  queue : Nat := 0
  /-- PC of a tagged instruction, and its word -/
  pc : Nat := 0
  word : Nat := 0
  t0 : Nat := 0
  stages : Store Nat := []
  deriving DecidableEq, Repr

/-- PERF's hidden state on one die. -/
structure PerfState where
  lfsrF : Nat := 1
  lfsrI : Nat := 1
  frame : Option TagItem := none
  instr : Option TagItem := none
  fifo : List (List Byte) := []
  seq : Nat := 0
  record : List Byte := []
  /-- the tick at which the window in progress began, and its bytes by port: RX at 2p, TX at 2p + 1 -/
  window : Nat := 0
  bytes : Store Nat := []
  /-- fifths of a pipeline cycle left over by the last tick -/
  fifths : Nat := 0
  /-- twenty-fifths of an engine cycle left over by the last tick, and the instructions that each local engine has issued in
  cycles not yet passed (R444, source 0x21) -/
  engParts : Nat := 0
  issued : Store Nat := []
  /-- HIST units by the samples that they have taken in the cycles of the tick in progress (R455) -/
  sampled : List Nat := []
  /-- level counters by the cycles that a command has added before the tick that holds them (R443) -/
  ahead : List Nat := []
  deriving DecidableEq, Repr

/-- One die's data plane. -/
structure DieState where
  /-- the injection FIFO, the frame being injected and the pointer of R151 -/
  injFifo : List StgCell := []
  inj : Option RxFrameCur := none
  /-- the tick at which that frame's injection began -/
  injAt : Nat := 0
  injPtr : Nat := 0
  /-- round-robin pointers of the local path and the links, by destination die (R373) -/
  turn : Store Nat := []
  frames : List OutFrame := []
  rings : List RingFrame := []
  /-- dropped copies of host-ring frames, which have no ingress port: denied by the policy at 7, for absent ports at 8 (R46,
  R56) -/
  lost : Store Nat := []
  prp : List PrpEntry := []
  /-- one more than the tick of the last tagged frame of each pairing's PORT_A (at 2 · instance) and PORT_B -/
  prpLan : Store Nat := []
  mirr : MirrState := {}
  perf : PerfState := {}
  deriving DecidableEq, Repr

end Sys2Proof.Machine
end

