-- ==== Sys2Proof/Machine/FieldState.lean ====
section
/-!
DEFINITION. State of the lanes, of time distribution, of the satellite receiver, of the event channels and of the field
outputs (R182 to R337, R459 to R470).
-/
namespace Sys2Proof.Machine

/-- The hidden state of one lane and its port's PCS. -/
structure LaneState where
  /-- the first report after lock has been formed (R188) -/
  reported : Bool := false
  /-- consecutive ordered sets counted towards the freeze (R199) -/
  sets : Nat := 0
  /-- a snapshot of the peaking is held (R200) -/
  snap : Bool := false
  /-- a wake of the transmitter is under way (R206) -/
  waking : Bool := false
  /-- the tick at which the port's queues became empty (R204) -/
  idleFrom : Nat := 0
  /-- 128 blocks have been received without a fault ordered set (R195) -/
  clean : Bool := false
  /-- one more than the tick of PT_GEN's latest increment (R191) -/
  genAt : Nat := 0
  /-- the tick and the phase at which the 1 ms window in progress began (R190) -/
  winAt : Option (Nat × Int) := none
  /-- the candidate bit position of the hunt for block lock (R193) -/
  slip : Nat := 0
  /-- qualifying report intervals since the last adaptation step (R198) -/
  qual : Nat := 0
  /-- every report interval that has qualified (R198): a run of the calibration counts its own from its GO (R426) -/
  quals : Nat := 0
  /-- one more than the tick of the last step, the peaking before it, and whether it set ADAPT_LIMIT; one more than the tick of
  the last entry to sleep (R200) -/
  stepAt : Nat := 0
  stepFrom : Nat := 0
  stepLim : Bool := false
  sleepAt : Nat := 0
  /-- the report intervals still to come that lie in a block with an invalid header or in an uncorrectable codeword (R198) -/
  unfit : Nat := 0
  /-- the pattern errors counted lately: the tick of each count and its number (R203) -/
  errs : List (Nat × Nat) := []
  deriving DecidableEq, Repr

/-- A window mean that LINK holds (R265): WIN, PT_GEN and E_IN_raw in 2^-16 ns. -/
structure LinkMean where
  win : Nat
  gen : Nat
  raw : Int
  deriving DecidableEq, Repr

/-- The hidden state of one LINK instance. -/
structure LinkState where
  /-- the window in progress: its number, sums of E_IN_raw and TX_REF, reports counted, and a break of PT_GEN -/
  win : Nat := 0
  sum : Int := 0
  txSum : Int := 0
  count : Nat := 0
  broken : Bool := false
  /-- GRID at the last report, never folded back (R264), and what changes of the time scale have added since; units of 2^-32 ns -/
  grid : Option Int := none
  jump : Int := 0
  means : List LinkMean := []
  /-- the peer's TX_REF and GEN of the latest commit -/
  peerTx : Int := 0
  peerGen : Option Nat := none
  /-- commits counted towards RESOLVING and towards TS_ONLY in COARSE (R269) -/
  good : Nat := 0
  noPhase : Nat := 0
  /-- the collection of R266: C_IN − E_IN_raw in 2^-16 ns -/
  collect : List Int := []
  /-- the instant of the latest PT_GEN change, 2^-32 ns units -/
  genAt : Nat := 0
  /-- the window in which the last commit was processed, and its FLAGS -/
  commitWin : Option Nat := none
  flags : Nat := 0
  /-- the latest timing-grade timestamps of frames that asked for one, and of frames taken aside, newest first, 2^-32 ns units
  (R269) -/
  txTg : List Nat := []
  rxTg : List Nat := []
  /-- how often results have been written (R267, R268) -/
  results : Nat := 0
  deriving DecidableEq, Repr

/-- The hidden state of SUMMIT. -/
structure SummitState where
  /-- beacons sent on each path -/
  seqA : Nat := 0
  seqB : Nat := 0
  /-- the time of the next beacon, 2^-32 ns units -/
  nextBeacon : Nat := 0
  /-- the time of the last valid beacon of each path -/
  lastA : Option Nat := none
  lastB : Option Nat := none
  deriving DecidableEq, Repr

/-- A PPS edge that has been scheduled (R308): the second, the package tick, QERR, and its time. -/
structure PpsPlan where
  second : Nat
  tick : Nat
  qerr : Int
  deriving DecidableEq, Repr

/-- The hidden state of the GNSS block. Times are counts of 2^-32 ns units on D0's scale. -/
structure GnssState where
  /-- the epoch of the newest solution -/
  epoch : Nat := 0
  /-- the solutions of the DRIFT span, newest first: epoch and FIX on the scale now in force -/
  hist : List (Int × Int) := []
  /-- epochs since the newest solution -/
  missed : Nat := 0
  /-- E0 of R306, ps -/
  e0 : Nat := 0
  /-- MODEL takes FIX at the next scheduling, with STEPPED (R304) -/
  take : Bool := false
  /-- the value from which MODEL goes on, in thousandths of 2^-16 ns, and its instant -/
  base : Int := 0
  baseAt : Int := 0
  /-- LOCKED since this instant without interruption -/
  lockedAt : Option Int := none
  plan : Option PpsPlan := none
  lastSecond : Nat := 0
  msgSeq : Nat := 0
  /-- the survey: its start, the sums of the three coordinates, the solutions counted, and whether it is complete -/
  surveyAt : Option Int := none
  surveySum : Int × Int × Int := (0, 0, 0)
  surveyCount : Nat := 0
  surveyDone : Bool := false
  /-- PRNs whose ephemeris is held and healthy; an almanac is held; the broadcast ionosphere model (R298, R300) -/
  ephemeris : List Nat := []
  almanac : Bool := false
  iono : Option (List Int) := none
  /-- the search: the PRN and which of its three dwells comes next (R297); by channel, the carrier at which it was found, Hz -/
  search : Nat × Nat := (1, 0)
  carrier : Store Int := []
  /-- the sample at the last timestamped edge (R294, R295) -/
  sample : Int × Int := (0, 0)
  /-- the chip rate at which the correlators run against GNSS_CLK, 2^-16 Hz (R296) -/
  codeRate : Int := 1023000 * 65536
  /-- a position has been solved or is known -/
  located : Bool := false
  /-- the sample clock is lost -/
  clkLost : Bool := false
  /-- the sample clock is beyond ±200 ppm (R296) -/
  range : Bool := false
  /-- the tick of the last PPS edge, the tick at which the latest burst of sparse tracking began, and whether it has given its
  solution (R302) -/
  edgeAt : Option Nat := none
  burst : Option Nat := none
  solved : Bool := false
  /-- MODEL has taken FIX and no message has said so yet (R304) -/
  stepped : Bool := false
  /-- one more than the tick of the latest change of GSTATE, and GSTATE at that cycle's start (R305) -/
  gAt : Nat × Nat := (0, 0)
  msg : List Byte := []
  deriving DecidableEq, Repr

/-- An edge in an event record: coarse cycle (package tick), delay-line and path terms in femtoseconds, slope, and what
held at its coarse cycle (R317 to R319). -/
structure EvEdge where
  /-- the local channel whose crossing it is, or 8 + the output that FIELD drove -/
  src : Nat
  tick : Nat
  /-- d_TDC, and IN_CAL plus IN_ADJ; an output edge has none -/
  tdc : Int
  path : Int
  rising : Bool
  tg : Bool
  nocal : Bool
  settling : Bool
  /-- the edge's time on the scale in force at its coarse cycle, 2^-32 ns units -/
  time : Int
  /-- RATE in force, and the low 32 bits of the calibration set's number -/
  rate : Nat
  calSeq : Nat
  deriving DecidableEq, Repr

/-- An open window or measurement (R327 to R329): its edges, oldest first, and what it has counted. -/
structure EvOpen where
  edges : List EvEdge
  /-- opened by a stop (PAIRED) -/
  byStop : Bool := false
  closes : Option Nat
  dead : Nat := 0
  extra : Nat := 0
  late : Bool := false
  /-- apply ticks of changes of the time scale since it opened (R318) -/
  applies : List Nat := []
  /-- a GATED measurement disarmed at this tick (R330) -/
  ending : Option Nat := none
  /-- a start of the expiry tick of a GATED measurement, which opens the next one (R330) -/
  next : Option EvEdge := none
  deriving DecidableEq, Repr

/-- The hidden state of one event channel. -/
structure EvtState where
  fifo : List (List Byte) := []
  record : List Byte := []
  seq : Nat := 0
  ovf : Bool := false
  cur : Option EvOpen := none
  /-- the last tick of a TRAIN window: no edge at or before it opens the next record -/
  closedAt : Option Nat := none
  /-- the last accepted crossing: tick and d_TDC, femtoseconds (R316) -/
  lastCross : Option (Nat × Int) := none
  /-- channels whose last accepted crossing stands in a stored record, with that record's SEQ -/
  held : List (Nat × Nat) := []
  /-- GATED: the last stop that found no measurement open, and the apply ticks since (R318, R330) -/
  lastStop : Option EvEdge := none
  strayAt : List Nat := []
  settleAt : Option Nat := none
  deriving DecidableEq, Repr

/-- A scheduled edge of a timing output (R464): its target in 2^-32 ns units, its local tick, the OUT_ADJ taken, the
level it drives, and whether it is a trigger's or GNSS's. -/
structure OutPlan where
  target : Int
  tick : Nat
  adj : Int
  /-- the pulse's length in ticks -/
  width : Nat
  deriving DecidableEq, Repr

/-- One timing output. -/
structure OutState where
  high : Bool := false
  plan : Option OutPlan := none
  /-- the tick at which the pulse ends -/
  endsAt : Option Nat := none
  /-- the last second driven (R466), and the first it may drive -/
  lastSec : Option Nat := none
  firstSec : Nat := 0
  /-- the IRIG frame in progress: its 100 slots' pulse lengths in ms, the slot, and its second -/
  frame : List Nat := []
  slot : Nat := 0
  second : Nat := 0
  /-- the trigger's target, where armed -/
  trig : Option Nat := none
  /-- the instant from which targets have edges: one past the last change of the scale, or past an edge not driven (R464, R466) -/
  floor : Nat := 0
  deriving DecidableEq, Repr

/-- The four sensors and the dies' thermal state are registers; a die's sensor marks are kept here. -/
structure ThermState where
  hot : List (Nat × Nat) := []
  deriving DecidableEq, Repr

end Sys2Proof.Machine
end

