-- ==== Sys2Proof/Machine/RomState.lean ====
section
/-!
DEFINITION. What the ROM-resident programs keep (R85): the port timing handlers (R260 to R263, R290), the calibration
sequencers (R424), the time servo (R274 to R279) and the summit lease program (R280).
-/
namespace Sys2Proof.Machine

/-- What a port's peer said of itself in its latest link exchange frame (R261): FLAGS, HOPS, ERR_EST, and whether the frame names
this node as its sender's upstream (R276). -/
structure PeerNode where
  flags : Nat
  hops : Nat
  err : Nat
  loop : Bool
  deriving DecidableEq, Repr

/-- The exchanges of one port: the window and SEQ of its latest request, the instants of that exchange so far, the SEQ of the
responses whose transmit timestamp is awaited, the peer, and the window at whose end the handler last worked for the port. -/
structure Exchange where
  asked : Option Nat := none
  seq : Nat := 0
  t1 : Option Nat := none
  t2 : Option Nat := none
  t4 : Option Nat := none
  owed : List Nat := []
  peer : Option PeerNode := none
  win : Option Nat := none
  /-- the PTP peer-delay exchange (R268): the window and sequenceId of the latest Pdelay_Req, its t1, t2 and t4 so far, and the
  requests answered whose response's transmit timestamp is awaited: sequenceId, port identity and correctionField -/
  pdAsked : Option Nat := none
  pdSeq : Nat := 0
  pd1 : Option Nat := none
  pd2 : Option Nat := none
  pd4 : Option Nat := none
  pdOwed : List (Nat × List Byte × Nat) := []
  /-- meanLinkDelay and the master offset that the boundary clock uses, signed, 2^-16 ns (R291) -/
  delay : Int := 0
  offset : Int := 0
  deriving DecidableEq, Repr

/-- A die's port timing handler: the standard's data sets (R290) and its statistics. -/
structure HandlerState where
  ptp : List Byte := []
  filtered : Nat := 0
  linkDrops : Nat := 0
  unlisted : Nat := 0
  deriving DecidableEq, Repr

/-- A die's calibration sequencer: TEMP event 0 has arrived, and the tick at which a run is to start (R424). -/
structure CalSeq where
  asked : Bool := false
  due : Option Nat := none
  deriving DecidableEq, Repr

/-- Where the servo's stop-change-restart path stands (R236, R275). -/
inductive Restart where
  | none | stopping | starting
  deriving DecidableEq, Repr

/-- The parameters of R277, as the servo last took them up. -/
structure ServoParams where
  seq : Nat := 0
  gain : Nat := 8
  restart : Nat := 0
  margin : Nat := 100
  f0 : Nat := 100
  age : Nat := 20
  hopPh : Nat := 15
  hopTs : Nat := 2000
  deriving DecidableEq, Repr

/-- The time servo (R258, R274 to R279). -/
structure ServoState where
  started : Bool := false
  par : ServoParams := {}
  /-- 0 UNSET, 1 LOCKING, 2 LOCKED, 3 HOLDOVER, 4 RESTART_PENDING -/
  state : Nat := 0
  /-- SOURCE of R277: bits 7:0 its kind, bits 15:8 the port -/
  source : Nat := 0
  theta : Int := 0
  err : Nat := 0
  hops : Nat := 0xFFFF
  /-- the tick of entry to HOLDOVER and the estimate there -/
  holdAt : Nat := 0
  e0 : Nat := 0
  /-- the first result of the source is still to be judged (R275); the restart path; a pending restart has been reported -/
  fresh : Bool := false
  restart : Restart := .none
  told : Bool := false
  /-- by port, the results of its LINK last seen; the last SOL_SEQ; the last second of line 59; the eligible sources -/
  results : Store Nat := []
  sol : Nat := 0
  second : Nat := 0
  able : List Nat := []
  /-- the node held the summit role at the last tick; a selection has to wait, and the sources are ranked again -/
  summit : Bool := false
  again : Bool := false
  /-- the start of the measurement of the XO's rate: D0's tick, THETA then, and the steps written since, 2^-16 ns -/
  measure : Option (Nat × Int × Int) := none
  /-- the newest valid count found at start, and the checkpoints written since reset (R439, R440) -/
  base : Nat := 0
  count : Nat := 0
  deriving DecidableEq, Repr

/-- The summit lease program: ELIGIBLE as last seen, and the instant, in 2^-32 ns, before which no RENEW is considered. -/
structure LeaseState where
  seen : Bool := false
  after : Nat := 0
  deriving DecidableEq, Repr

/-- A source that may be followed: SOURCE as R277 shows it, the port's LSTATE, HOPS, the estimate, and a peer that names this
node as its upstream. -/
structure Candidate where
  source : Nat
  lstate : Nat
  hops : Nat
  est : Nat
  loop : Bool
  deriving DecidableEq, Repr

/-- What a program does once a hook that it has called returns (R88): the frame it took, the port whose ASYM is asked, a run, a
ranking of these candidates within a tick that saw these ports' results, a GNSS solution and a second of line 59, a TAKE or a
RENEW. -/
inductive HookWait where
  | frame (f : RxFrame)
  | asym (p : Nat)
  | run
  | rank (l : List Candidate) (news : List Nat) (sol second : Bool)
  | lease (renew : Bool)
  deriving DecidableEq, Repr

/-- A hook that runs: the address at which it returns, and what waits for it. -/
structure HookCall where
  ret : BitVec 16
  wait : HookWait
  deriving DecidableEq, Repr

/-- The ROM-resident programs: the engines that hold theirs, the hooks that run on them, and what each keeps. -/
structure RomState where
  progs : List Nat := []
  calls : Store (Option HookCall) := []
  exch : Store Exchange := []
  handlers : Store HandlerState := []
  cals : Store CalSeq := []
  servo : ServoState := {}
  lease : LeaseState := {}
  deriving DecidableEq, Repr

end Sys2Proof.Machine
end

