-- ==== Sys2Proof/Machine/PackageState.lean ====
section
/-!
DEFINITION. State of the package as a whole: pins and internal reset (R159 to R163), the one-time-programmable store
(R173 to R176), ownership and policy (R55, R68 to R72), SEC (R165 to R181), the host endpoints (R133 to R155), the
non-volatile store and calibration (R422 to R438).
-/
namespace Sys2Proof.Machine

/-! ## Pins and reset -/

/-- The pins whose levels the chapters act on. -/
structure Pins where
  pwrgood : Bool := true
  resetN : Bool := true
  /-- BOOT_SEL[1:0] as it stands on the pins -/
  bootSel : BitVec 2 := 0
  trstN : Bool := true
  /-- VDD_CLKO is below 3.0 V (R476) -/
  clkoLow : Bool := false
  /-- THERM_N driven low (R480) -/
  thermLow : Bool := false
  deriving DecidableEq, Repr

/-- The internal reset and the timers around it (R160). -/
structure ResetState where
  /-- the internal reset of every die is asserted -/
  asserted : Bool := false
  /-- RESET_N is low and its glitch filter runs -/
  filtering : Bool := false
  /-- the 100 µs release delay runs -/
  releasing : Bool := false
  deriving DecidableEq, Repr

/-! ## One-time-programmable store -/

/-- A key slot (R175): empty, enrolled or revoked, with the 96 bytes X‖Y. -/
inductive KeySlot where
  | empty
  | enrolled (pub : List Byte)
  | revoked (pub : List Byte)
  deriving DecidableEq, Repr

/-- Lifecycle, keys, debug secret and rollback fuses (R164, R173 to R176). -/
structure Otp where
  /-- 1 DEVELOPMENT, 2 PRODUCTION, 3 RETIRED -/
  lifecycle : Nat := 1
  keys : Store KeySlot := []
  secret : Option (List Byte) := none
  rollback : Nat := 0
  deriving DecidableEq, Repr

/-- The SEC area of D0's NVS (R180, R434). -/
structure SecNvs where
  /-- the area passes its CRC -/
  ok : Bool := true
  /-- salt and digest of the owner password -/
  password : Option (List Byte × BitVec 256) := none
  allowPwd : Bool := true
  allowChal : Bool := true
  fails : Nat := 0
  lockout : Bool := false
  deriving DecidableEq, Repr

/-! ## SEC -/

/-- Where the boot sequence of R167 stands. -/
inductive BootPhase where
  /-- step 2 runs -/
  | selfTest
  /-- step 3 waits for D0's ridge PLL -/
  | waitD0
  /-- step 3 waits for the other dies' ridge PLLs -/
  | waitFollowers (left : List Nat)
  /-- step 5 waits for a host load of H_0 to finish -/
  | waitLoader
  /-- step 5 loads a slot: 0 A, 1 B, and whether it is the second tried -/
  | loading (slot : Nat) (second : Bool)
  /-- step 5 waits for a host load (BOOT_SEL 0b01) or for nothing: the sequence has ended -/
  | done
  deriving DecidableEq, Repr

/-- What the debug port's TAP holds (R163, R178). -/
structure TapState where
  /-- instruction register -/
  ir : Nat := 0x01
  /-- the value the selected data register shifts out -/
  shiftOut : Nat := 0
  /-- the boundary register -/
  boundary : List Bool := []
  /-- pins driven from the boundary register (EXTEST, CLAMP) -/
  driving : Bool := false
  /-- pins at high impedance (HIGHZ) -/
  highz : Bool := false
  deriving DecidableEq, Repr

/-- A key command that SEC is carrying out: its OP, slot, the status it will report and its effect's data. -/
structure KeyJob where
  op : Nat
  slot : Nat
  status : Nat
  data : List Byte
  deriving DecidableEq, Repr

/-- The hidden state of SEC. -/
structure SecState where
  phase : BootPhase := .selfTest
  tap : TapState := {}
  /-- the debug nonce with D0's tick at its capture (R179) -/
  nonce : Option (BitVec 128 × Nat) := none
  /-- HOLD after a failed attempt, with D0's tick then (R180) -/
  hold : Option Nat := none
  /-- engines halted by DBG_ENG, and the one that a single step lets issue -/
  dbgHalted : List Nat := []
  dbgStep : Option Nat := none
  staging : Store Byte := []
  spiWin : Store Byte := []
  /-- a GO of SPI_CMD waits for a load's flash read to end (R171) -/
  spiWaiting : Bool := false
  spiActive : Bool := false
  key : Option KeyJob := none
  rollTo : Option Nat := none
  /-- endpoints whose staged images wait for a signature check, in order of arrival (R142) -/
  sigQueue : List Nat := []
  deriving DecidableEq, Repr

/-! ## Ownership -/

/-- Where a SYS.OWN_CMD SET stands (R71). -/
inductive OwnPhase where
  | idle
  /-- sent to the target die -/
  | sent (die blk inst part : Nat)
  /-- entries sent; the dies whose copies are awaited, and whether some die could not be reached -/
  | entries (left : List Nat) (missed : Bool)
  deriving DecidableEq, Repr

/-- A hold that a target die keeps on an instance or a port group (`blk` 0xFF) during a change (R71). -/
structure OwnHold where
  die : Nat
  blk : Nat
  inst : Nat
  deriving DecidableEq, Repr

/-- A write of an engine that covers SYS.POLICY, whose result waits for the dies' copies (R72). -/
structure PolicyWrite where
  eng : Nat
  addr : Nat
  width : Nat
  data : Nat
  deriving DecidableEq, Repr

/-- Ownership and policy of the package. -/
structure OwnState where
  /-- D0's ownership map, by instance -/
  map : Store Nat := []
  /-- each die's copy of the entries -/
  copies : Store (Store Nat) := []
  holds : List OwnHold := []
  phase : OwnPhase := .idle
  /-- each die's copy of SYS.POLICY -/
  policy : Store Nat := []
  /-- writes of ALLOW not yet acknowledged, oldest first: the access, the dies whose copies are awaited -/
  policyWait : List (Option PolicyWrite × List Nat) := []
  /-- dies that D0's next control message brings up to date (R71) -/
  resync : List Nat := []
  deriving DecidableEq, Repr

/-! ## Host endpoints -/

/-- A mailbox message: slot, length and, outbound, whether it is a service reply with its value (R143, R145). -/
structure MboxMsg where
  slot : Nat
  len : Nat
  svc : Bool
  src : Nat
  deriving DecidableEq, Repr

/-- A host-to-device descriptor (R148). -/
structure TxDesc where
  addr : Nat
  length : Nat
  kind : Nat
  queue : Nat
  dest : Nat
  flags : Nat
  tsId : Nat
  /-- INJ_VID and INJ_PCP in force at the fetch (R148) -/
  injVid : Nat
  injPcp : Nat
  deriving DecidableEq, Repr

/-- One ring pair's hidden state (R146 to R151). -/
structure RingState where
  txLog2 : Nat := 6
  rxLog2 : Nat := 6
  txBase : Nat := 0
  rxBase : Nat := 0
  /-- the descriptor whose frame is being read -/
  txJob : Option TxDesc := none
  /-- the descriptor in progress is one of an earlier enable: it moves no index (R146) -/
  txOld : Bool := false
  /-- a frame read and waiting for its turn of injection, with its descriptor -/
  txReady : Option (TxDesc × List Byte) := none
  /-- STATUS of the last completed descriptor of each direction, as written to host memory -/
  txStatus : Nat := 0
  rxStatus : Nat := 0
  /-- the bytes last written into a host buffer: the receive header and the frame (R149) -/
  rxOut : List Byte := []
  /-- the ring's MSI-X vector is in its 2 µs hold-off, and a completion waits for it (R150) -/
  holdoff : Bool := false
  waiting : Bool := false
  deriving DecidableEq, Repr

/-- Where a load stands (R139 to R142). -/
inductive LoadPhase where
  | staging | signature | writing
  deriving DecidableEq, Repr

/-- A load in progress at an endpoint: its source, address, phase, staged bytes with the ECC state of their 64-bit words
(R139), and from the engine writes on the engines held (R141), with START_PC as it stood where one was in RUN (R93). -/
structure Load where
  spi : Bool
  addr : Nat
  phase : LoadPhase
  image : List Byte
  targets : List (Nat × Option Nat)
  ecc : Store EccMark := []
  deriving DecidableEq, Repr

/-- The hidden state of one host endpoint. -/
structure HostEp where
  load : Option Load := none
  /-- bytes of the inbound and outbound slots, at 256·slot + offset -/
  mbi : Store Byte := []
  mbo : Store Byte := []
  /-- bytes of the service slots (H_0) -/
  svc : Store Byte := []
  mbiQ : List MboxMsg := []
  /-- inbound slots taken by a program and not yet freed -/
  mbiTaken : List Nat := []
  mboQ : List MboxMsg := []
  /-- outbound slots held: queued or taken -/
  mboUsed : List Nat := []
  svcQ : List MboxMsg := []
  /-- service slots held -/
  svcUsed : List Nat := []
  rings : Store RingState := []
  /-- MSI-X messages raised, by vector (R138, R150) -/
  vectors : Store Nat := []
  /-- what the host's last read that removes something returned -/
  rdata : Nat := 0
  /-- bytes of the MSI-X table that are not as at reset, and the pending-bit array (R136) -/
  msix : Store Byte := []
  pba : Nat := 0
  /-- the grants of the endpoint's partition as its die holds them: HOST.GRANT_p as last taken over from D0 (R153, R154) -/
  grants : Nat := 0
  /-- the level of PE_h_PERST_N (R489) -/
  perstN : Bool := true
  deriving DecidableEq, Repr

/-! ## Non-volatile store and calibration -/

/-- A word write waiting in NVS (R433): the byte offset, the width in bits and the data as written, and the engine whose
write it acknowledges. -/
structure NvsWrite where
  off : Nat
  width : Nat
  data : Nat
  writer : Option Nat
  deriving DecidableEq, Repr

/-- The ferroelectric store of one die: bytes that are not zero, ECC errors by word, engines' writes waiting, whether
CAL's store is served next, and whose word the array holds: CAL's or an engine's (R432, R433). -/
structure NvsState where
  mem : Store Byte := []
  ecc : Store EccMark := []
  queue : List NvsWrite := []
  calTurn : Bool := false
  word : Option Bool := none
  deriving DecidableEq, Repr

/-- A calibration point (R430): its temperature, 1/16 °C, and its coefficient bytes 2 to 3,583. -/
structure CalPoint where
  temp : Int
  body : List Byte
  deriving DecidableEq, Repr

/-- The hidden state of CAL. -/
structure CalState where
  /-- the working set's points, by ascending temperature -/
  points : List CalPoint := []
  /-- T_REF and the tick at the GO of the run in progress, and the lanes whose count has not completed (R426) -/
  goTemp : Int := 0
  goTick : Nat := 0
  skipped : List Nat := []
  /-- each lane's count of qualifying report intervals at that GO (R426) -/
  piFrom : List Nat := []
  /-- words of the store still to write, as (word, data), in the order of R436 -/
  store : List (Nat × Nat) := []
  /-- the bank being written: 1 A, 2 B; the store is cut short after the word in progress (R438) -/
  target : Nat := 0
  cut : Bool := false
  /-- coefficients applied last, by item number, once any have been -/
  applied : Bool := false
  coeffs : Store Int := []
  /-- ticks of the last sensor reading (R422) and of the last interpolation (R428) -/
  tempAt : Option Nat := none
  interpAt : Option Nat := none
  deriving DecidableEq, Repr

end Sys2Proof.Machine
end

