-- ==== Sys2Proof/Machine/TimeState.lean ====
section
/-!
DEFINITION. State of the time plane: the ridge islands and their time scale (R229 to R244), the ridge PLLs (R212 to
R228).
-/
namespace Sys2Proof.Machine

/-- The alignment state a leader sends (R240): OFFSET as a count of 2^-32 ns units, BASE, RATE, JUMP_LIMIT, VALID, the steps
that STEP_SUM counts (R234), and whether the leader's RIDGE is in RUN (R237). -/
structure AlignState where
  offset : Nat
  base : Nat
  rate : Nat
  jump : Nat
  valid : Bool
  steps : List (Nat × Nat)
  running : Bool
  deriving DecidableEq, Repr

/-- A start of the leader's RIDGE that waits for its apply tick (R236): the tick and the engines that wait for it. -/
structure PendStart where
  at_ : Nat
  by_ : List Nat
  deriving DecidableEq, Repr

/-- The ridge island of one die. -/
structure RidgeState where
  /-- free-running 64-bit tick counter (R229) -/
  tick : Nat := 0
  /-- the time scale in force (R231): U(OFFSET), BASE, RATE -/
  offset : Nat := 0
  base : Nat := 0
  rate : Nat := 0x1999999999A
  /-- a RATE written while a start waits, held for the next one (R233) -/
  held : Option Nat := none
  /-- changes that wait for their apply tick on this die as leader: rates with their writers, steps in order of
  arrival, a start -/
  rates : List (Nat × Option Nat × Nat) := []
  pendSteps : List (Nat × Int) := []
  pendStart : Option PendStart := none
  /-- steps applied: package tick and magnitude, 2^-16 ns, newest first (R234 check 4) -/
  steps : List (Nat × Nat) := []
  /-- OFFSET or BASE written since the RIDGE last left RUN, or since reset (R236) -/
  written : Bool := false
  /-- the latest alignment state received from a running leader (R237, R240) -/
  align : Option AlignState := none
  /-- apply ticks of changes announced to this die and not yet applied (R241) -/
  armed : List Nat := []
  /-- the first start since reset has been made (R230) -/
  started : Bool := false
  /-- a DELTA measurement has fallen due, and it has begun at this package tick -/
  deltaDue : Bool := false
  deltaFrom : Option Nat := none
  /-- SKEW has been updated within the last 10 µs, and the tick of its last update (R243) -/
  skewFresh : Bool := false
  skewAt : Nat := 0
  /-- the tick of the last replica comparison (R244) -/
  repAt : Nat := 0
  /-- the last second and millisecond marked on lines 59 and 58 (R238) -/
  lastSec : Nat := 0
  lastMs : Nat := 0
  deriving DecidableEq, Repr

/-- A selection in progress (R215, R216): source, port, the new leader, and the tick of its boundary. -/
structure PllSelect where
  src : Nat
  port : Nat
  lead : Nat
  boundary : Nat
  deriving DecidableEq, Repr

/-- A ramp profile accepted (R226): its first tick, the segment that runs with its first tick, and the frequency there. -/
structure PllRamp where
  start : Nat
  seg : Option Nat
  from_ : Nat
  base : Int
  deriving DecidableEq, Repr

/-- A die's measurement of DELTA as a loss of lock found it (R223): DELTA_OK, whether one is due, and where it began. -/
structure DeltaMark where
  die : Nat
  ok : Bool
  due : Bool
  from_ : Option Nat
  deriving DecidableEq, Repr

/-- What an entry to BYPASS by a loss of lock changed, while a loss of source in the same cycle may still decide (R223): whether it
set BYPASS_SEEN, and the measurements that it made due. -/
structure LockLoss where
  seen : Bool
  deltas : List DeltaMark
  deriving DecidableEq, Repr

/-- The hidden state of one die's PLL. -/
structure PllState where
  /-- FROZEN keeps the timing grade (R220), and keeps the bypass path -/
  frozenGrade : Bool := false
  frozenBypass : Bool := false
  /-- the tick since which the selected source has been valid in HOLDOVER or BYPASS (R219) -/
  validFrom : Option Nat := none
  /-- the tick of the latest entry to ACQUIRE and to LOCKED -/
  acquireFrom : Nat := 0
  lockedFrom : Nat := 0
  /-- what is measured of REFIN_A (1) and REFIN_B (2), where edges arrive at least every 1 µs: the offset from nominal over the
  last 10 ms, ppb (R214) -/
  refSeen : Store (Option Int) := []
  select : Option PllSelect := none
  /-- the frequency in 2^-16 ppb / 625,000,000, and the tick of its latest change -/
  freq : Int := 0
  freqAt : Nat := 0
  /-- the values before it, newest first, each with the tick at which it began, as far back as HOLD_AVG (R219) -/
  freqLog : List (Nat × Int) := []
  /-- one more than the tick of the latest entry to HOLDOVER or BYPASS, and, where that was a loss of lock, what it
  changed (R223) -/
  modeAt : Nat := 0
  lol : Option LockLoss := none
  /-- the tick of the latest step toward STEER (R225) -/
  stepAt : Nat := 0
  ramp : Option PllRamp := none
  /-- the boundary at which the dividers are copied (R228) -/
  updAt : Option Nat := none
  deriving DecidableEq, Repr

end Sys2Proof.Machine
end

