-- ==== Sys2Proof/Machine/TableState.lean ====
section
/-!
DEFINITION. State of the forwarding tables: the L2 replicas and their order point (R338 to R360), the LPM and
multicast-group replicas with their two banks and the order point of each (R361 to R370).
-/
namespace Sys2Proof.Machine

/-- One bank of an L2 replica: key and entry word by slot; a word of zero is an empty slot (R342). -/
abbrev L2Bank := Store (Nat × Nat)

/-- A change that the order point numbers (R350). -/
inductive L2Change where
  | learn (key port : Nat)
  | updWrite (key word : Nat)
  | updDelete (key : Nat)
  | flush (port : Nat) (all : Bool)
  | age
  | rehash (seed0 seed1 : Nat)
  | switch (at_ : Nat)
  deriving DecidableEq, Repr

/-- A request held by the order point while it numbers nothing (R352): its source die, the engine that waits for a
TBL.FLUSH with the number of its access, and the change. -/
structure L2Held where
  src : Nat
  eng : Option (Nat × Nat)
  chg : L2Change
  deriving DecidableEq, Repr

/-- D0's L2 replica as it stood when every change up to C had been applied to it (R354): banks, the seeds of a rebuilt shadow
bank and of the bank out of use, epoch, seeds in force, entries. -/
structure L2Snap where
  bank0 : L2Bank
  bank1 : L2Bank
  nextSeeds : Option (Nat × Nat)
  oldSeeds : Option (Nat × Nat)
  epoch : Nat
  seeds : Nat × Nat
  count : Nat
  deriving DecidableEq, Repr

/-- The L2 replica of one die. -/
structure L2State where
  bank0 : L2Bank := []
  bank1 : L2Bank := []
  /-- keys whose learn requests are outstanding (R346) -/
  cache : List Nat := []
  /-- numbered changes that wait to be applied (R352) -/
  queue : List (Nat × L2Change) := []
  /-- the scanning change in progress: its number, the change, and the first slot not yet scanned (R349) -/
  scan : Option (Nat × L2Change × Nat) := none
  /-- a numbered change has been missed (R354) -/
  missed : Bool := false
  /-- a copy is in progress: C, the number last assigned when it began -/
  copying : Option Nat := none
  /-- D0's replica at C, once D0 has come to it, and whether the copy of it is whole and buffered changes remain (R354) -/
  snap : Option L2Snap := none
  copied : Bool := false
  /-- the buffer was discarded during the copy (R352) -/
  overrun : Bool := false
  /-- the seeds that a rebuilt shadow bank uses, and those of the bank that the last switch took out of use (R340) -/
  nextSeeds : Option (Nat × Nat) := none
  oldSeeds : Option (Nat × Nat) := none
  /-- the tick of a switch since which the old bank may not yet be written (R360) -/
  draining : Option Nat := none
  deriving DecidableEq, Repr

/-- A rehash in progress on the order point (R359): the dies whose report is awaited, and whether any failed. -/
structure RehashJob where
  left : List Nat
  failed : Bool
  deriving DecidableEq, Repr

/-- The order point of the L2 table, on D0 (R350 to R353). -/
structure L2Order where
  held : List L2Held := []
  ageHeld : Bool := false
  /-- D0's tick at which the count of AGE.PERIOD began (R349) -/
  ageFrom : Nat := 0
  rehash : Option RehashJob := none
  /-- D0's L2T has started with numbered changes not yet applied there, which it applies before it numbers again (R354) -/
  backlog : Bool := false
  deriving DecidableEq, Repr

/-- A prefix of the LPM table (R361, R370): family 0 IPv4 or 1 IPv6, length, address masked to it, RESULT and NH_VID, and where
it stands. -/
structure LpmEntry where
  family : Nat
  len : Nat
  pfx : Nat
  result : Nat
  vid : Nat
  /-- the bucket whose units the entry takes -/
  bucket : Nat := 0
  deriving DecidableEq, Repr

/-- One bank of an LPM or MCG replica: prefixes, the set bits of the filters by 65,536·length + bit, the seeds; groups
as port mask and engine mask (R361 to R364). -/
structure TblBank where
  lpm : List LpmEntry := []
  filters : Store Nat := []
  bucketSeed : Nat := 0
  filterSeed : Nat := 0
  groups : Store (Nat × Nat) := []
  deriving DecidableEq, Repr

/-- A table command (R370): OP, family, length, prefix or group, result, NH_VID, ports, engines, seeds. -/
structure TblOp where
  op : Nat := 0
  family : Nat := 0
  len : Nat := 0
  pfx : Nat := 0
  result : Nat := 0
  vid : Nat := 0
  group : Nat := 0
  ports : Nat := 0
  engines : Nat := 0
  seed1 : Nat := 0
  seed2 : Nat := 0
  deriving DecidableEq, Repr

/-- The steps of a numbered table command (R366, R367). -/
inductive TblStep where
  /-- the replicas write their shadow banks -/
  | shadow
  /-- the replicas switch at a package tick -/
  | switch (at_ : Nat)
  /-- after the drain, the replicas write their new shadow banks -/
  | second
  /-- the replicas copy the active bank into the shadow bank -/
  | sync
  deriving DecidableEq, Repr

/-- The command that a table's order point carries out: its origin, its number, that of its step in progress, the step, the
dies whose acknowledgement is awaited, and whether some die missed it (R366, R369). -/
structure TblJob where
  die : Nat
  seq : Nat
  cmd : TblOp
  num : Nat
  step : TblStep
  left : List Nat
  missed : Bool
  deriving DecidableEq, Repr

/-- The order point of LPM or MCG, on D0 (R365). -/
structure TblOrder where
  seq : Nat := 0
  /-- dies whose commands wait their turn -/
  queue : List Nat := []
  job : Option TblJob := none
  deriving DecidableEq, Repr

/-- The LPM or MCG instance of one die. -/
structure TblState where
  bank0 : TblBank := {}
  bank1 : TblBank := {}
  /-- CMD_BLK, 64 bytes -/
  blk : Store Byte := []
  /-- the command issued by the last GO, as CMD_BLK stood then (R365) -/
  issued : TblOp := {}
  /-- the engine whose TBL.CMD issued it, with the number of its access -/
  eng : Option (Nat × Nat) := none
  /-- a command or SWITCH has been missed (R369) -/
  missed : Bool := false
  copying : Bool := false
  /-- the tick of a switch since which the old bank may not yet be written (R360) -/
  draining : Option Nat := none
  /-- the command whose second shadow write follows the drain (R366 step 3), with its number -/
  again : Option (Nat × TblOp) := none
  deriving DecidableEq, Repr

end Sys2Proof.Machine
end

