-- ==== Sys2Proof/Machine/State.lean ====
section
/-!
DEFINITION. The machine's state, its stops, and the state right after reset.
-/
namespace Sys2Proof.Machine

/-- The faults: a command that names a part of the hardware which the modelled part lacks (R5, R16, R65). Raised by the
command that names it; safe, the hardware has no such command. -/
inductive Fault where
  /-- no such die (R5); safe -/
  | absentDie
  /-- no such port or lane (R44); safe -/
  | absentPort
  /-- no such block instance (R65); safe -/
  | absentInstance
  /-- no such host endpoint (R4); safe -/
  | absentEndpoint
  deriving DecidableEq, Repr

/-- The refusals. -/
inductive Refusal where
  /-- raised by `exec` alone for a command that has no meaning yet; safe -/
  | notModelled (mnemonic : String)
  deriving DecidableEq, Repr

/-- What a control-channel message between dies carries (R37). -/
inductive CtlBody where
  /-- an event occurrence for an engine's line (R500) -/
  | event (e line : Nat)
  /-- SYS.OWN_CMD to its target (R71) -/
  | ownHold (blk inst part : Nat)
  | ownReply (ok : Bool)
  | ownEntries (die blk inst part : Nat)
  | policy (value : Nat)
  /-- a change of the time scale with its apply tick and the leader's scale from then on (R232, R240) -/
  | align (at_ : Nat) (a : AlignState)
  /-- a request to the L2 order point (R350), and a numbered change (R49) -/
  | l2Req (r : L2Held)
  | l2Change (seq : Nat) (c : L2Change)
  /-- a numbered table command's step for the table `blk`, its acknowledgement, and a SWITCH (R365 to R367) -/
  | tblStep (blk seq : Nat) (cmd : TblOp) (step : TblStep)
  | tblAck (blk seq die : Nat)
  /-- a stage of a tagged frame, with its package tick (R450) -/
  | tagStage (stage tick : Nat) (item : TagItem) (done dropped : Bool)
  /-- a copy of a beacon frame for SUMMIT (R282) -/
  | beacon (bytes : List Byte)
  deriving DecidableEq, Repr

/-- A control-channel message in flight from die `src` to die `dst`. -/
structure CtlMsg where
  src : Nat
  dst : Nat
  body : CtlBody
  deriving DecidableEq, Repr

/-- The whole machine. -/
structure State where
  part : Part
  pins : Pins
  resets : ResetState
  otp : Otp
  secNvs : SecNvs
  sec : SecState
  engs : Store Engine
  /-- every field of every register map, by Fld.key; an unlisted field reads as its reset value -/
  regs : Store Nat
  /-- the RW-S values in force, by the same keys (R79) -/
  inForce : Store Nat
  /-- by instance: one more than its die's tick at its entry to STOPPING (R84) -/
  stopAt : Store Nat
  own : OwnState
  hosts : Store HostEp
  nvs : Store NvsState
  cals : Store CalState
  ridges : Store RidgeState
  plls : Store PllState
  ports : Store PortState
  dies : Store DieState
  /-- cells on their way, by 8 · source die + destination die, oldest first -/
  cells : Store (List Cell)
  /-- MODEL'S OWN: the serial number of the next frame -/
  nextFrame : Nat
  l2 : Store L2State
  l2Order : L2Order
  /-- the LPM (0x15) and MCG (0x16) instances, by 256 · die + block, and their order points -/
  tbls : Store TblState
  tblOrders : Store TblOrder
  lanes : Store LaneState
  links : Store LinkState
  /-- what keeps a saddle-link direction from training, by 8 · source die + destination die (R401): its source (bit 0) or
  destination (bit 1) end has to restart -/
  saddles : Store Nat
  summit : SummitState
  gnss : GnssState
  evts : Store EvtState
  outs : Store OutState
  therm : ThermState
  /-- the ROM-resident programs (R85) -/
  rom : RomState
  /-- control-channel messages in flight, oldest first -/
  msgs : List CtlMsg
  /-- by instance: one more than the engine that last issued FN.STOP or FN.START to it (R77) -/
  lastFn : Store Nat
  /-- MODEL'S OWN: how many free values have been drawn -/
  free : Nat
  /-- MODEL'S OWN: the commands waiting, first in first out -/
  pending : List Instr
  deriving DecidableEq, Repr

/-- The machine right after release of the internal reset (R164). -/
def State.reset : State where
  part := .xu9192
  pins := {}
  resets := {}
  otp := {}
  secNvs := {}
  sec := {}
  engs := []
  regs := []
  inForce := []
  stopAt := []
  own := {}
  hosts := []
  nvs := []
  cals := []
  ridges := []
  plls := []
  ports := []
  dies := []
  cells := []
  nextFrame := 0
  l2 := []
  l2Order := {}
  tbls := []
  tblOrders := []
  lanes := []
  links := []
  saddles := []
  summit := {}
  gnss := {}
  evts := []
  outs := []
  therm := {}
  rom := {}
  msgs := []
  lastFn := []
  free := 0
  pending := []

end Sys2Proof.Machine
end

