-- ==== Sys2Proof/Machine/Ops.lean ====
section
/-!
DEFINITION. The named operations every meaning is built from: registers, ownership, links, events, engine state, local
memory with its ECC, and entry to a trap (R129 to R131, R502).
-/
namespace Sys2Proof.Machine

/-- What a step answers. -/
abbrev Out := Host.Outcome State Fault Refusal

/-! ## Registers -/

/-- A field of a register, on one die's one instance. -/
def State.rf (s : State) (f : Fld) (die inst : Nat) : Nat :=
  Store.get (f.rst s.part die inst) s.regs (f.key die inst)

/-- A field written: the value is cut to the field's width. -/
def State.wf (s : State) (f : Fld) (die inst v : Nat) : State :=
  { s with regs := Store.put (f.rst s.part die inst) s.regs (f.key die inst) (v % 2 ^ f.w) }

/-- The value in force of an RW-S field (R79). -/
def State.rfF (s : State) (f : Fld) (die inst : Nat) : Nat :=
  Store.get (f.rst s.part die inst) s.inForce (f.key die inst)

/-- The value in force of an RW-S field, set by hardware. -/
def State.wfF (s : State) (f : Fld) (die inst v : Nat) : State :=
  { s with inForce := Store.put (f.rst s.part die inst) s.inForce (f.key die inst) (v % 2 ^ f.w) }

/-- A field read as a signed number. -/
def State.rfS (s : State) (f : Fld) (die inst : Nat) : Int := toSigned f.w (s.rf f die inst)

/-- A field read as a flag. -/
def State.flag (s : State) (f : Fld) (die inst : Nat) : Bool := s.rf f die inst == 1

/-- A flag set (R499: the setting itself is the occurrence). -/
def State.setFlag (s : State) (f : Fld) (die inst : Nat) : State := s.wf f die inst 1

/-- A flag written with a truth value. -/
def State.putFlag (s : State) (f : Fld) (die inst : Nat) (b : Bool) : State := s.wf f die inst (ofBool b)

/-- A counter that stops at its greatest value, advanced by `n`. -/
def State.addSat (s : State) (f : Fld) (die inst n : Nat) : State :=
  s.wf f die inst (min (s.rf f die inst + n) (2 ^ f.w - 1))

/-- A counter that wraps, advanced by `n`. -/
def State.addWrap (s : State) (f : Fld) (die inst n : Nat) : State :=
  s.wf f die inst (s.rf f die inst + n)

/-- The keys of one instance's fields lie in one range. -/
def instLo (die blk inst : Nat) : Nat := die * 2 ^ 44 + blk * 2 ^ 36 + inst % 2 ^ 9 * 2 ^ 27

/-- A key belongs to the instance. -/
def inInst (die blk inst key : Nat) : Bool :=
  decide (instLo die blk inst ≤ key) && decide (key < instLo die blk inst + 2 ^ 27)

/-- The list merged into another, pair by pair, at the pairs' places. -/
def Store.addAll {α : Type} (m : Store α) : List (Nat × α) → Store α
  | [] => m
  | (k, v) :: r => Store.addAll (Store.insert (Store.erase m k) k v) r

/-- Every RW-S value of the instance takes effect together (R79). -/
def State.takeEffect (s : State) (die blk inst : Nat) : State :=
  let kept := s.inForce.filter (fun p => !inInst die blk inst p.1)
  { s with inForce := Store.addAll kept (s.regs.filter (fun p => inInst die blk inst p.1)) }

/-! ## Presence, ownership, links -/

/-- The number of an instance among all of the package. -/
def instKey (die blk inst : Nat) : Nat := die * 2 ^ 17 + blk * 2 ^ 9 + inst

/-- The die is present on the part (R5). -/
def State.hasDie (s : State) (d : Nat) : Bool := decide (d < Config.nDies s.part)

/-- Instances of a block on a die of the part (R65). -/
def instPresent (p : Part) (die blk inst : Nat) : Bool :=
  match blk with
  | 0x00 | 0x03 | 0x0A | 0x0C | 0x12 | 0x14 | 0x15 | 0x16 | 0x1A | 0x20 | 0x22 | 0x23 => inst == 0
  | 0x01 => decide (inst < 4)
  | 0x02 => inst == 0 && (Config.dieHost p die).isSome
  | 0x04 | 0x0F | 0x10 => inst == 0 && die == 0
  | 0x08 | 0x09 | 0x0D | 0x0E | 0x18 | 0x19 => decide (inst < 24)
  | 0x11 => decide (inst < 8)
  | 0x1B => decide (inst < 12)
  | 0x1C => decide (inst < Config.nDies p) && inst != die
  | 0x21 => decide (inst < 32)
  | _ => false

/-- The instance exists: its die and, on it, its block and number (R63 rows 1 and 2). -/
def State.has (s : State) (die blk inst : Nat) : Bool := s.hasDie die && instPresent s.part die blk inst

/-- The owner of an instance by die `d`'s copy of the ownership entries (R55: partition 0 at reset). -/
def State.ownerAt (s : State) (d die blk inst : Nat) : Nat :=
  Store.get 0 (Store.get [] s.own.copies d) (instKey die blk inst)

/-- The owner of an instance by its own die's copy. -/
def State.owner (s : State) (die blk inst : Nat) : Nat := s.ownerAt die die blk inst

/-- The partition of an engine (R67). -/
def State.engPart (s : State) (e : Nat) : Nat := s.owner (e / 4) B.ENG (e % 4)

/-- Both directions of the saddle link between two dies are up, by die `a`'s MESH instance; a die reaches itself. -/
def State.linkUp (s : State) (a b : Nat) : Bool :=
  a == b || (s.flag F.MESH.STATUS_TX_UP a b && s.flag F.MESH.STATUS_RX_UP a b)

/-- The run state of an instance: 0 STOPPED, 1 RUN, 2 STOPPING, 3 FAULT. -/
def State.run (s : State) (die blk inst : Nat) : Nat := s.rf (F.BLOCK.FSTATE_STATE blk) die inst

/-- The instance is in RUN. -/
def State.inRun (s : State) (die blk inst : Nat) : Bool := s.run die blk inst == 1

/-! ## Engines -/

/-- Engine `e`, by global number. -/
def State.eng (s : State) (e : Nat) : Engine := Store.get Engine.reset s.engs e

/-- Engine `e` replaced. -/
def State.setEng (s : State) (e : Nat) (g : Engine) : State :=
  { s with engs := Store.put Engine.reset s.engs e g }

/-- General register `r`: v0 reads as zero (R58). -/
def Engine.rv (g : Engine) (r : Reg) : Word := if r = 0 then 0 else Store.get 0 g.v r.toNat

/-- General register `r` written; a write to v0 is discarded (R58). -/
def Engine.wv (g : Engine) (r : Reg) (x : Word) : Engine :=
  if r = 0 then g else { g with v := Store.put 0 g.v r.toNat x }

/-- Time register `r`. -/
def Engine.rt (g : Engine) (r : TReg) : XT := Store.get 0 g.t r.toNat

/-- Time register `r` written. -/
def Engine.wt (g : Engine) (r : TReg) (x : XT) : Engine := { g with t := Store.put 0 g.t r.toNat x }

/-- The event line made pending (R73); an occurrence of a line already pending is merged. -/
def Engine.setLine (g : Engine) (line : Nat) : Engine := { g with pending := g.pending ||| (1#64 <<< line) }

/-- The address lies in the trap region (R130). -/
def inTrapRegion (pc : BitVec 16) : Bool := decide (4 ≤ pc.toNat) && decide (pc.toNat ≤ 0xFF)

/-! ## Events -/

/-- The engine lines that event `ev` of an instance drives: EVMAP's entries in force (R75), and line 61 for a change of run
state (R77). -/
def State.drives (s : State) (die blk inst ev : Nat) : List (Nat × Nat) :=
  (s.engs.flatMap fun p => (p.2.evLive.filter fun q =>
      q.2.en && q.2.die == die && q.2.blk == blk && q.2.inst == inst && q.2.event == ev).map fun q => (p.1, q.1)) ++
    (if ev = 63 then
      match Store.get 0 s.lastFn (instKey die blk inst) with
      | 0 => []
      | e + 1 => [(e, 61)]
     else [])

/-- One line of one engine made pending. -/
def State.setLine (s : State) (e line : Nat) : State := s.setEng e ((s.eng e).setLine line)

/-- A message put on its way. -/
def State.post (s : State) (src dst : Nat) (b : CtlBody) : State := { s with msgs := s.msgs ++ [⟨src, dst, b⟩] }

/-- An occurrence on die `die` for an engine's line: at once on the same die, by message where the link is up (R500). -/
def State.driveQuiet (s : State) (die : Nat) (t : Nat × Nat) : State :=
  if t.1 / 4 = die then s.setLine t.1 t.2
  else if s.linkUp die (t.1 / 4) then s.post die (t.1 / 4) (.event t.1 t.2)
  else s

/-- The dies that lines of die `a`'s events are lost to, each once, but for those in `seen`. -/
def State.lostTo (s : State) (a : Nat) (seen : List Nat) (ts : List (Nat × Nat)) : List Nat :=
  (((ts.map fun t => t.1 / 4).filter fun b => b != a && !s.linkUp a b).eraseDups).filter fun b => !seen.contains b

/-- Event messages from die `a` towards the dies of a list are lost: each MESH instance marks it and raises its event 3, whose
own messages may be lost in turn (R499, R500). Event 3 of one instance raised again within the same occurrence would set
what is set already, so each is raised once. -/
def State.loseFrom (a : Nat) : Nat → List Nat → List Nat → State → State
  | 0, _, _, s => s
  | _ + 1, [], _, s => s
  | n + 1, b :: r, seen, s =>
    let s1 := s.setFlag F.MESH.ERR_EVT_LOST_SEEN a b
    let ts := s1.drives a B.MESH b 3
    State.loseFrom a n (r ++ s1.lostTo a (b :: (r ++ seen)) ts) (b :: seen) (ts.foldl (fun s t => s.driveQuiet a t) s1)

/-- An event message from die `a` towards die `b` is lost (R500). -/
def State.eventLost (s : State) (a b : Nat) : State := State.loseFrom a 8 [b] [] s

/-- An occurrence on die `die` for an engine's line (R73, R500). -/
def State.drive (s : State) (die : Nat) (t : Nat × Nat) : State :=
  if t.1 / 4 = die then s.setLine t.1 t.2
  else if s.linkUp die (t.1 / 4) then s.post die (t.1 / 4) (.event t.1 t.2)
  else s.eventLost die (t.1 / 4)

/-- Event `ev` of an instance occurs. -/
def State.raise (s : State) (die blk inst ev : Nat) : State :=
  (s.drives die blk inst ev).foldl (fun s t => s.drive die t) s

/-- A value that is about to change, with the event its change raises. -/
def State.wfRaise (s : State) (f : Fld) (die inst v ev : Nat) : State :=
  if s.rf f die inst = v then s else (s.wf f die inst v).raise die f.blk inst ev

/-! ## Ports, dies and ticks -/

/-- The data plane of port `p`, by global number. -/
def State.port (s : State) (p : Nat) : PortState := Store.get {} s.ports p
def State.setPort (s : State) (p : Nat) (x : PortState) : State := { s with ports := Store.put {} s.ports p x }

/-- The data plane of die `d`. -/
def State.die (s : State) (d : Nat) : DieState := Store.get {} s.dies d
def State.setDie (s : State) (d : Nat) (x : DieState) : State := { s with dies := Store.put {} s.dies d x }

/-- The ridge island of a die. -/
def State.ridge (s : State) (d : Nat) : RidgeState := Store.get {} s.ridges d
def State.setRidge (s : State) (d : Nat) (r : RidgeState) : State := { s with ridges := Store.put {} s.ridges d r }

/-- The local tick count (R229). -/
def State.tick (s : State) (d : Nat) : Nat := (s.ridge d).tick

/-- The package tick: the local count plus DELTA (R230). -/
def State.pkgTick (s : State) (d : Nat) : Nat :=
  ((Int.ofNat (s.tick d) + s.rfS F.RIDGE.ALIGN_DELTA d 0) % 2 ^ 64).toNat

/-! ## PERF: counters and tags (R443 to R452) -/

/-- PERF of a die. -/
def State.perf (s : State) (d : Nat) : PerfState := (s.die d).perf
def State.setPerf (s : State) (d : Nat) (p : PerfState) : State := s.setDie d { s.die d with perf := p }

/-- An addition to counter `c` (R445). -/
def State.perfAdd (s : State) (d c amount : Nat) : State :=
  let old := s.rf (F.PERF.CNT_COUNT c) d 0
  let sum := old + amount
  let cmp := s.rf (F.PERF.CMP_CMP c) d 0
  let hit := (decide (old < cmp) && decide (cmp ≤ sum)) || (decide (2 ^ 48 ≤ sum) && decide (cmp ≤ sum - 2 ^ 48))
  let s1 := s.wf (F.PERF.CNT_COUNT c) d 0 sum
  let s2 := if hit then
      (s1.wf F.PERF.STAT_CMP_HIT d 0 (s1.rf F.PERF.STAT_CMP_HIT d 0 ||| 2 ^ c)).raise d B.PERF 0 c
    else s1
  if 2 ^ 48 ≤ sum then (s2.setFlag (F.PERF.CNT_OVF c) d 0).raise d B.PERF 0 (8 + c) else s2

/-- Counter `c` counts event source `src` at `idx` (R443, MODE 1). -/
def State.perfCounts (s : State) (d src idx c : Nat) : Bool :=
  s.rfF (F.PERF.SEL_MODE c) d 0 == 1 && s.rfF (F.PERF.SEL_SRC c) d 0 == src && s.rfF (F.PERF.SEL_INDEX c) d 0 == idx

/-- An occurrence of an event source with its weight: every counter in RUN that names it adds it. -/
def State.perfEvent (s : State) (d src idx weight : Nat) : State :=
  if s.inRun d B.PERF 0 then
    (List.range 8).foldl (fun s c => if s.perfCounts d src idx c then s.perfAdd d c weight else s) s
  else s

/-- One advance of a tag LFSR: multiplication by x modulo x^32 + x^22 + x^2 + x + 1 (R449). -/
def lfsrNext (x : Nat) : Nat := if 2 ^ 31 ≤ x then (2 * x % 2 ^ 32) ^^^ 0x00400007 else 2 * x

/-- The `n` bytes of a number, lowest first. -/
def bytesLE : Nat → Nat → List Byte
  | 0, _ => []
  | n + 1, x => BitVec.ofNat 8 x :: bytesLE n (x / 256)

/-- A record of R451 in its 64 bytes; `cycles` stands in the last word of an instruction's record. -/
def TagItem.bytes (t : TagItem) (seq cycles : Nat) : List Byte :=
  let stage (i : Nat) := Store.get 0xFFFFFFFF t.stages i
  let slots := if t.kind = 1 then (List.range 11).map stage
    else (List.range 7).map stage ++ [0, 0, 0, t.word]
  bytesLE 2 seq ++ [BitVec.ofNat 8 t.kind, BitVec.ofNat 8 t.flags, BitVec.ofNat 8 t.inPort,
    BitVec.ofNat 8 (if t.kind = 1 then t.outPort else 0)] ++
    bytesLE 2 (if t.kind = 1 then t.queue else t.pc) ++ bytesLE 8 t.t0 ++
    (slots.flatMap (bytesLE 4)) ++ bytesLE 4 (if t.kind = 1 then stage 11 else cycles)

/-- A completed record enters the FIFO, or is lost (R452). -/
def State.tagStore (s : State) (d : Nat) (t : TagItem) (cycles : Nat) : State :=
  let p := s.perf d
  let q := { p with seq := (p.seq + 1) % 2 ^ 16 }
  if p.fifo.length < 16 then
    ((s.setPerf d { q with fifo := p.fifo ++ [t.bytes p.seq cycles] }).wf F.PERF.TAG_STAT_DEPTH d 0
      (p.fifo.length + 1)).raise d B.PERF 0 17
  else
    (((s.setPerf d q).addSat F.PERF.TAG_LOST_COUNT d 0 1).setFlag F.PERF.ERR_TAG_LOST_SEEN d 0).raise d B.PERF 0 18

/-- A stage of an item reached at package tick `T`. -/
def TagItem.at_ (t : TagItem) (stage T : Nat) : TagItem :=
  { t with stages := Store.put 0xFFFFFFFF t.stages stage ((T - t.t0) % 2 ^ 32) }

/-- The engine's die has PERF tagging that engine's instructions. -/
def State.tagsEngine (s : State) (e : Nat) : Bool :=
  s.inRun (e / 4) B.PERF 0 && s.rfF F.PERF.TAG_CFG_IN_EN (e / 4) 0 == 1 && s.rfF F.PERF.TAG_CFG_ENG (e / 4) 0 == e % 4

/-- An engine issues: one of its cycles is not a cycle without issue (R444, source 0x21; DESIGN CHOICE, log entry 67). -/
def State.issues (s : State) (e : Nat) : State :=
  let p := s.perf (e / 4)
  if s.inRun (e / 4) B.PERF 0 then
    s.setPerf (e / 4) { p with issued := Store.put 0 p.issued (e % 4) (Store.get 0 p.issued (e % 4) + 1) }
  else s

/-- An instruction issued fills its cycle and is a candidate (R449): the LFSR advances, and the instruction may be tagged. -/
def State.tagIssue (s0 : State) (e pc word : Nat) : State :=
  let s := s0.issues e
  let d := e / 4
  if !s.tagsEngine e then s
  else
    let p := s.perf d
    let x := lfsrNext p.lfsrI
    let T := s.pkgTick d
    let item : TagItem := { kind := 2, inPort := e, pc := pc, word := word, t0 := T, stages := [(0, 0), (1, 0)] }
    if x % 2 ^ s.rfF F.PERF.TAG_CFG_IN_LOG2 d 0 = 0 ∧ p.instr = none then
      (s.setPerf d { p with lfsrI := x, instr := some item }).setFlag F.PERF.TAG_STAT_IN_BUSY d 0
    else s.setPerf d { p with lfsrI := x }

/-- A stage of the tagged instruction of engine `e`, with `remote` for an access to another die. -/
def State.tagAccess (s : State) (e stage : Nat) (remote : Bool) : State :=
  let p := s.perf (e / 4)
  match p.instr with
  | some t =>
    if t.inPort = e then
      let u := t.at_ stage (s.pkgTick (e / 4))
      s.setPerf (e / 4) { p with instr := some (if remote then { u with flags := u.flags ||| 4 } else u) }
    else s
  | none => s

/-- The request of the tagged instruction of engine `e` is at its target on die `d` (stage 3, taken once), and with `answered`
its response leaves (stage 4): ticks of that die (R451). -/
def State.tagTarget (s : State) (e d : Nat) (answered : Bool) : State :=
  let p := s.perf (e / 4)
  match p.instr with
  | some t =>
    if t.inPort = e then
      let t3 := if Store.get 0xFFFFFFFF t.stages 3 = 0xFFFFFFFF then t.at_ 3 (s.pkgTick d) else t
      s.setPerf (e / 4) { p with instr := some (if answered then t3.at_ 4 (s.pkgTick d) else t3) }
    else s
  | none => s

/-- Engine cycles, 32 in 25 ticks (R27), between two package ticks. -/
def engCycles (t0 t1 : Nat) : Nat := (32 * t1 / 25 - 32 * t0 / 25) % 2 ^ 32

/-- The tagged instruction of engine `e` retires, or traps (DROPPED), with the engine cycles since its issue. -/
def State.tagRetire (s : State) (e : Nat) (dropped : Bool) : State :=
  let d := e / 4
  let p := s.perf d
  match p.instr with
  | some t =>
    if t.inPort = e then
      let u := if dropped then { t with flags := t.flags ||| 1 } else t.at_ 6 (s.pkgTick d)
      (((s.setPerf d { p with instr := none }).putFlag F.PERF.TAG_STAT_IN_BUSY d 0
        false).tagStore d u (engCycles t.t0 (s.pkgTick d)))
    else s
  | none => s

/-! ## Host interrupts -/

/-- Endpoint `h`. -/
def State.host (s : State) (h : Nat) : HostEp := Store.get {} s.hosts h

/-- Endpoint `h` replaced. -/
def State.setHost (s : State) (h : Nat) (x : HostEp) : State := { s with hosts := Store.put {} s.hosts h x }

/-- What a byte of the MSI-X table holds at reset: every vector masked, the rest zero (PCI Express; log entry 77). -/
def msixReset (o : Nat) : Byte := if o % 16 = 12 then 1 else 0

/-- The mask bit of a vector in the MSI-X table. -/
def HostEp.masked (x : HostEp) (v : Nat) : Bool := bitSet ((Store.get 0 x.msix (16 * v + 12) ^^^ msixReset 12).toNat) 0

/-- A vector of endpoint `h` is raised; a masked one is pending in the array too. -/
def State.vector (s : State) (h v : Nat) : State :=
  let x := s.host h
  let pba := if x.masked v then x.pba ||| 2 ^ v else x.pba
  s.setHost h { x with vectors := Store.put 0 x.vectors v (Store.get 0 x.vectors v + 1), pba := pba }

/-- A bit of HBAR.IRQ set: it raises vector 0 (R138). -/
def State.irq (s : State) (h : Nat) (f : Fld) : State := (s.wf f h 0 1).vector h 0

/-! ## Run state -/

/-- The run state changes: event 63 (R81), and for a HOST instance HBAR.STATE and its interrupt; an entry to STOPPING notes
its tick for the drain limit. -/
def State.setRun (s : State) (die blk inst st : Nat) : State :=
  if s.run die blk inst = st then s
  else
    let s0 := { s with stopAt := Store.put 0 s.stopAt (instKey die blk inst) (if st = 2 then s.tick die + 1 else 0) }
    let s1 := (s0.wf (F.BLOCK.FSTATE_STATE blk) die inst st).raise die blk inst 63
    if blk = B.HOST then
      match Config.dieHost s.part die with
      | some h => (s1.wf F.HBAR.STATE_STATE h 0 st).irq h F.HBAR.IRQ_STATE_CHG
      | none => s1
    else s1

/-- What every entry to FAULT records (R81). -/
def State.recordFault (s : State) (die blk inst code : Nat) : State :=
  ((s.wf (F.BLOCK.FSTATE_FAULT_CODE blk) die inst code).setFlag (F.BLOCK.CFLAGS_FAULT_SEEN blk) die inst).setRun
    die blk inst 3

/-! ## Traps and faults of an engine -/

/-- LAST_PC and TRAP_CAUSE of an engine. -/
def State.lastPc (s : State) (e : Nat) (pc : BitVec 16) : State :=
  s.wf F.ENG.STATUS_LAST_PC (e / 4) (e % 4) pc.toNat
def State.trapCause (s : State) (e cause : Nat) : State := s.wf F.ENG.STATUS_TRAP_CAUSE (e / 4) (e % 4) cause

/-- Traps held when the engine leaves RUN are recorded in TRAP_CAUSE alone (R502). -/
def State.dropHeld (s : State) (e : Nat) : State :=
  let g := s.eng e
  match g.held.getLast? with
  | none => s
  | some h => (s.setEng e { g with held := [] }).trapCause e h.cause

/-- An engine enters FAULT: its programs cease at once (R81, R84). -/
def State.engFault (s : State) (e code : Nat) : State :=
  let s1 := (s.dropHeld e).tagRetire e true
  let g := s1.eng e
  ((s1.setEng e { g with hold := .none }).lastPc e g.lastDone).recordFault (e / 4) B.ENG (e % 4) code

/-- The trap word of R129. -/
def trapWord (resume : BitVec 16) (imprecise : Bool) (cause : Nat) (pc : BitVec 16) : Word :=
  BitVec.ofNat 64 (resume.toNat * 2 ^ 32 + ofBool imprecise * 2 ^ 24 + (cause % 256) * 2 ^ 16 + pc.toNat)

/-- A precise trap on the instruction at the PC (R129); in the trap region it is FAULT 0x10 (R130), and an engine that
has left RUN records the cause alone (R502). -/
def State.trapAt (s : State) (e cause : Nat) : State :=
  let g := s.eng e
  if !s.inRun (e / 4) B.ENG (e % 4) then (s.setEng e { g with hold := .none }).trapCause e cause
  else if inTrapRegion g.pc then s.engFault e 0x10
  else
    ((((s.setEng e { (g.wv 30 (trapWord g.pc false cause g.pc)) with pc := 4, hold := .none }).trapCause e cause).lastPc
      e g.pc).tagRetire e true)

/-- A privilege violation: PV is set and the PV trap taken (R63 row 4, R122). -/
def State.setPv (s : State) (e : Nat) : State :=
  let g := s.eng e
  s.setEng e { g with flags := { g.flags with pv := true } }

/-- The precise trap of a failed check, with the PV flag where the cause is PV; an engine that has left RUN records the cause
alone (R502). -/
def State.failAt (s : State) (e cause : Nat) : State :=
  if cause = 0x0A ∧ s.inRun (e / 4) B.ENG (e % 4) = true then (s.setPv e).trapAt e cause else s.trapAt e cause

/-- An imprecise trap taken at an instruction boundary (R129, R131): RESUME is the PC as it stands. -/
def State.takeHeld (s : State) (e : Nat) (h : HeldTrap) : State :=
  let g := s.eng e
  (((s.setEng e { (g.wv 30 (trapWord g.pc true h.cause h.pc)) with pc := 4, hold := .none }).trapCause e h.cause).lastPc
    e g.lastDone)

/-- At a boundary outside the trap region the first held trap is taken (R130). -/
def State.boundary (s : State) (e : Nat) (wasInRegion : Bool) : State :=
  if wasInRegion || !s.inRun (e / 4) B.ENG (e % 4) then s
  else
    let g := s.eng e
    match g.held with
    | [] => s
    | h :: r => (s.setEng e { g with held := r }).takeHeld e h

/-- The instruction at the PC completes and execution goes on at `next`. -/
def State.completeTo (s : State) (e : Nat) (next : BitVec 16) : State :=
  let g := s.eng e
  let s1 := s.setEng e { g with lastDone := g.pc, pc := next, hold := .none }
  ((s1.perfEvent (e / 4) 0x20 (e % 4) 1).tagRetire e false).boundary e (inTrapRegion g.pc)

/-- The instruction at the PC completes and execution goes on with the next word. -/
def State.complete (s : State) (e : Nat) : State := s.completeTo e ((s.eng e).pc + 4)

/-- Engine `e` with its new contents, its instruction complete. -/
def State.doneWith (s : State) (e : Nat) (g : Engine) : State := (s.setEng e g).complete e

/-! ## Local memory (R59, R103) -/

/-- The ECC state of the IMEM word at an address. -/
def Engine.imemMark (g : Engine) (a : Nat) : EccMark := Store.get .good g.imemEcc (a / 8)

/-- The DMEM words that `n` bytes at `a` touch. -/
def wordsOf (a n : Nat) : List Nat := if n = 0 then [] else (List.range ((a + n - 1) / 8 - a / 8 + 1)).map (a / 8 + ·)

/-- A DMEM word in the range carries a double-bit error. -/
def Engine.dmemDouble (g : Engine) (a n : Nat) : Bool :=
  (wordsOf a n).any fun w => Store.get .good g.dmemEcc w == .double

/-- A DMEM word in the range carries a single-bit error. -/
def Engine.dmemSingle (g : Engine) (a n : Nat) : Bool :=
  (wordsOf a n).any fun w => Store.get .good g.dmemEcc w == .single

/-- Single-bit errors in the range corrected in place. -/
def Engine.dmemFix (g : Engine) (a n : Nat) : Engine :=
  let fix (m : Store EccMark) (w : Nat) := if Store.get .good m w = .single then Store.put .good m w .good else m
  { g with dmemEcc := (wordsOf a n).foldl fix g.dmemEcc }

/-- The number that bytes spell, lowest first. -/
def leNat : List Byte → Nat
  | [] => 0
  | b :: r => b.toNat + 256 * leNat r

/-- `n` bytes of DMEM, little-endian (R13), as a number. -/
def Engine.dmemRead (g : Engine) (a n : Nat) : Nat :=
  leNat (Store.getList 0 g.dmem a n)

/-- `n` bytes of DMEM in order. -/
def Engine.dmemBytes (g : Engine) (a n : Nat) : List Byte := Store.getList 0 g.dmem a n

/-- The number that bytes spell, highest first (network order, R13). -/
def beNat (l : List Byte) : Nat := l.foldl (fun n b => 256 * n + b.toNat) 0

/-- The `n` bytes of a number, highest first. -/
def bytesBE (n x : Nat) : List Byte := (bytesLE n x).reverse

/-- Bytes written to DMEM; a word written whole has valid ECC again. -/
def Engine.dmemWrite (g : Engine) (a : Nat) (l : List Byte) : Engine :=
  let fix (m : Store EccMark) (w : Nat) :=
    if a ≤ 8 * w ∧ 8 * w + 8 ≤ a + l.length then Store.put .good m w .good else m
  { g with dmem := Store.putList 0 g.dmem a l, dmemEcc := (wordsOf a l.length).foldl fix g.dmemEcc }

/-- A DMEM read of `n` bytes corrects single-bit errors and flags them (R59). -/
def State.dmemTouch (s : State) (e a n : Nat) : State :=
  let g := s.eng e
  if g.dmemSingle a n then (s.setEng e (g.dmemFix a n)).setFlag F.ENG.ERR_DMEM_ECC_CORR (e / 4) (e % 4) else s

/-- A DMEM write of `n` aligned bytes: one that fills less than a word reads the rest of it, and so finds its error (R59). -/
def State.dmemPart (s : State) (e a n : Nat) : State := if n < 8 then s.dmemTouch e a n else s

/-! ## Order of accesses (R28, R54) -/

/-- Two function addresses name one instance (R54). -/
def sameInstance (a b : Nat) : Bool := a / 2 ^ 20 == b / 2 ^ 20

/-- The oldest posted access of the engine to the instance that its target has not yet judged. -/
def State.nextPosted (s : State) (e a : Nat) : Option Posted :=
  (s.eng e).posted.find? fun p => p.result.isNone && sameInstance p.addr a

/-- An earlier posted access of the engine to the instance is still on its way (R54). -/
def State.behind (s : State) (e a : Nat) : Bool := (s.nextPosted e a).isSome

/-- A write of the engine that an earlier posted access of it to the same instance has to precede (R28, R54). -/
def State.early (s : State) (e addr width data : Nat) : Bool :=
  match s.nextPosted e addr with
  | some p => !(p.addr == addr && p.width == width && p.data == data)
  | none => false

/-! ## Issue -/

/-- The engine can issue an instruction: present, in RUN, nothing held, not halted by the debug port but for a single
step (R178). -/
def State.canIssue (s : State) (e : Nat) : Bool :=
  s.inRun (e / 4) B.ENG (e % 4) && (s.eng e).hold == .none && (!s.sec.dbgHalted.contains e || s.sec.dbgStep == some e)

/-- The instruction word at the engine's PC. -/
def Engine.word (g : Engine) : Nat :=
  (Store.get 0 g.imem g.pc.toNat).toNat + 2 ^ 8 * (Store.get 0 g.imem (g.pc.toNat + 1)).toNat +
    2 ^ 16 * (Store.get 0 g.imem (g.pc.toNat + 2)).toNat + 2 ^ 24 * (Store.get 0 g.imem (g.pc.toNat + 3)).toNat

/-- A single step of a halted engine is used up by the instruction it issues (R178). -/
def State.stepUsed (s : State) (e : Nat) : State :=
  if s.sec.dbgStep = some e then { s with sec := { s.sec with dbgStep := none } } else s

/-- An engine instruction that is no candidate for tagging (R449): an absent engine issues nothing; one that cannot issue stays where
it is; the fetch is checked (R59). -/
def issueQuiet (e : Nat) (s : State) (f : State → Out) : Out :=
  if Config.nEngines s.part ≤ e then .next s
  else if !s.canIssue e then .next s
  else
    let s0 := s.stepUsed e
    let g := s0.eng e
    match g.imemMark g.pc.toNat with
    | .good => f s0
    | .single =>
      f ((s0.setEng e { g with imemEcc := Store.put .good g.imemEcc (g.pc.toNat / 8) .good }).setFlag
        F.ENG.ERR_IMEM_ECC_CORR (e / 4) (e % 4))
    | .double => .next (s0.engFault e 0x01)

/-- An engine instruction, a candidate for tagging. -/
def issue (e : Nat) (s : State) (f : State → Out) : Out :=
  issueQuiet e s (fun s => f (s.tagIssue e (s.eng e).pc.toNat (s.eng e).word))

/-- The engine is ready to execute the command's instruction: the hypothesis of the completion statements. -/
def State.ready (s : State) (e : Nat) : Bool :=
  decide (e < Config.nEngines s.part) && s.canIssue e && s.sec.dbgStep != some e && (s.eng e).imemMark (s.eng e).pc.toNat == .good

/-- A free value: the next draw (MODEL'S OWN counter). -/
def State.draw (s : State) : Word × State := (Config.freeValue s.free, { s with free := s.free + 1 })

/-- A quotient that the spec leaves unrounded: exact where it is whole, else one of its two neighbours, free. -/
def State.quot (s : State) (num den : Int) : Int × State :=
  if num % den = 0 then (num / den, s)
  else (num / den + Int.ofNat (s.draw.1.toNat % 2), s.draw.2)

/-- A signed value that the spec writes to a field of `w` bits; what the field holds where it does not fit is free. -/
def State.fit (s : State) (w : Nat) (x : Int) : Nat × State :=
  if -(2 ^ (w - 1)) ≤ x ∧ x < 2 ^ (w - 1) then (ofSigned w x, s) else (s.draw.1.toNat % 2 ^ w, s.draw.2)

end Sys2Proof.Machine
end

