-- ==== Sys2Proof/Machine/Flags.lean ====
section
/-!
DEFINITION. Every flag computation of the instruction set (R98, R101, R102, R106, R107, R109, R117) and the condition
codes (R116).
-/
namespace Sys2Proof.Machine

/-- Z and N of a result; C and V as given; TO and PV stay. -/
def Flags.znWith (f : Flags) (r : Word) (c v : Bool) : Flags := { f with z := r == 0, n := r.msb, c := c, v := v }

/-- Addition: carry out of bit 63 and signed overflow. -/
def Flags.ofAdd (f : Flags) (a b : Word) : Flags :=
  f.znWith (a + b) (decide (2 ^ 64 ≤ a.toNat + b.toNat)) (decide (a.toInt + b.toInt ≠ (a + b).toInt))

/-- Subtraction and comparison: C set when `a ≥ b` unsigned; signed overflow. -/
def Flags.ofSub (f : Flags) (a b : Word) : Flags :=
  f.znWith (a - b) (decide (b.toNat ≤ a.toNat)) (decide (a.toInt - b.toInt ≠ (a - b).toInt))

/-- Logic and shifts: C and V cleared. -/
def Flags.ofLogic (f : Flags) (r : Word) : Flags := f.znWith r false false

/-- MUL: V set when the signed product does not fit in 64 bits. -/
def Flags.ofMul (f : Flags) (a b : Word) : Flags :=
  f.znWith (a * b) false (decide (a.toInt * b.toInt ≠ (a * b).toInt))

/-- DIVU and REMU: V set only for a zero divisor. -/
def Flags.ofDiv (f : Flags) (r b : Word) : Flags := f.znWith r false (b == 0)

/-- CLZ and POPC: N, C and V cleared. -/
def Flags.ofCount (f : Flags) (r : Word) : Flags := { f with z := r == 0, n := false, c := false, v := false }

/-- TSUB: C cleared, V for saturation. -/
def Flags.ofTsub (f : Flags) (r : Word) (sat : Bool) : Flags := f.znWith r false sat

/-- TCMP on the counts of two instants. -/
def Flags.ofTcmp (f : Flags) (u1 u2 : Nat) : Flags :=
  { f with z := u1 == u2, n := decide (u1 < u2), c := decide (u2 ≤ u1), v := false }

/-- Z alone. -/
def Flags.setZ (f : Flags) (b : Bool) : Flags := { f with z := b }
/-- V alone. -/
def Flags.setV (f : Flags) (b : Bool) : Flags := { f with v := b }
/-- TO alone. -/
def Flags.setTmo (f : Flags) (b : Bool) : Flags := { f with tmo := b }

/-- The flag word (R117). -/
def Flags.word (f : Flags) : Nat :=
  ofBool f.z + 2 * ofBool f.n + 4 * ofBool f.c + 8 * ofBool f.v + 16 * ofBool f.tmo + 32 * ofBool f.pv

/-- All six flags from bits 5:0 (R117). -/
def Flags.ofWord (w : Word) : Flags where
  z := w.getLsbD 0
  n := w.getLsbD 1
  c := w.getLsbD 2
  v := w.getLsbD 3
  tmo := w.getLsbD 4
  pv := w.getLsbD 5

/-- Each flag whose mask bit is set cleared (R117). -/
def Flags.clear (f : Flags) (m : BitVec 6) : Flags where
  z := f.z && !m.getLsbD 0
  n := f.n && !m.getLsbD 1
  c := f.c && !m.getLsbD 2
  v := f.v && !m.getLsbD 3
  tmo := f.tmo && !m.getLsbD 4
  pv := f.pv && !m.getLsbD 5

/-- The condition holds (R116). -/
def Flags.holds (f : Flags) : Cond → Bool
  | .al => true
  | .eq => f.z
  | .ne => !f.z
  | .lt => f.n != f.v
  | .ge => f.n == f.v
  | .gt => !f.z && f.n == f.v
  | .le => f.z || f.n != f.v
  | .lo => !f.c
  | .hs => f.c
  | .hi => f.c && !f.z
  | .ls => !f.c || f.z
  | .mi => f.n
  | .pl => !f.n
  | .vs => f.v
  | .vc => !f.v
  | .tmo => f.tmo
  | .nto => !f.tmo
  | .pv => f.pv
  | .npv => !f.pv

end Sys2Proof.Machine
end

