-- ==== Sys2Proof/Machine/Operands.lean ====
section
/-!
DEFINITION. The operand forms: immediates, effective addresses of local memory (R103), function addresses and their
checks (R60, R61, R63, R104), instants and their counts (R23, R107).
-/
namespace Sys2Proof.Machine

/-- sext(imm16). -/
def sext (i : Imm16) : Word := i.signExtend 64
/-- zext(imm16). -/
def zext (i : Imm16) : Word := i.zeroExtend 64

/-! ## Local memory -/

/-- EA = rs1 + sext(imm16) (R103), as the 64-bit sum. -/
def effAddr (g : Engine) (rs1 : Reg) (imm : Imm16) : Nat := (g.rv rs1 + sext imm).toNat

/-- The checks of R103 for `n` bytes at `a`: 0x02 DMEM_RANGE, 0x03 DMEM_ALIGN, 0 for none. -/
def dmemCheck (a n : Nat) : Nat :=
  if 0x10000 - n < a then 0x02 else if a % n ≠ 0 then 0x03 else 0

/-! ## Function addresses (R60) -/

/-- The 40-bit function address of an instruction (R104). -/
def funAddr (g : Engine) (rs1 : Reg) (imm : Imm16) : Nat := (g.rv rs1 + sext imm).toNat % 2 ^ 40

def faDie (a : Nat) : Nat := a / 2 ^ 37 % 8
def faBlk (a : Nat) : Nat := a / 2 ^ 29 % 256
def faInst (a : Nat) : Nat := a / 2 ^ 20 % 512
def faOff (a : Nat) : Nat := a % 2 ^ 20

/-- The address of an instance's offset. -/
def mkFa (die blk inst off : Nat) : Nat := die * 2 ^ 37 + blk * 2 ^ 29 + inst * 2 ^ 20 + off

/-- Rows 1 and 2 of R63: 0x08 FN_ABSENT, 0 for none. -/
def State.absentCause (s : State) (a : Nat) : Nat :=
  if s.has (faDie a) (faBlk a) (faInst a) then 0 else 0x08

/-! ## Instants -/

def XT.secs (x : XT) : Nat := x.toNat / 2 ^ 64
def XT.nanos (x : XT) : Nat := x.toNat / 2 ^ 32 % 2 ^ 32
def XT.frac (x : XT) : Nat := x.toNat % 2 ^ 32

/-- The XT128 value of its three fields. -/
def xtOf (secs nanos frac : Nat) : XT := BitVec.ofNat 128 (secs * 2 ^ 64 + nanos * 2 ^ 32 + frac)

/-- 2^-32 ns units in a second. -/
def unitsPerSec : Nat := 10 ^ 9 * 2 ^ 32

/-- U of R107: the count of 2^-32 ns units since the epoch, for every bit pattern. -/
def XT.units (x : XT) : Nat := (XT.secs x * 10 ^ 9 + XT.nanos x) * 2 ^ 32 + XT.frac x

/-- UMAX of R107. -/
def unitsMax : Nat := ((2 ^ 64 - 1) * 10 ^ 9 + 999999999) * 2 ^ 32 + 0xFFFFFFFF

/-- The instant of a count (the division steps of TADD in R107). -/
def xtOfUnits (u : Nat) : XT := xtOf (u / unitsPerSec) (u % unitsPerSec / 2 ^ 32) (u % 2 ^ 32)

end Sys2Proof.Machine
end

