-- ==== Sys2Proof/Machine/Alu.lean ====
section
/-!
DEFINITION. The integer ALU and immediate forms (R96, R101, R102). No instruction here traps: division by zero is
reported through V.
-/
namespace Sys2Proof.Machine

/-- A register-register operation: rd and the flags from the two sources. -/
def alu (e : Nat) (rd rs1 rs2 : Reg) (op : Word → Word → Word) (fl : Flags → Word → Word → Flags) (s : State) : Out :=
  issue e s fun s =>
    let g := s.eng e
    let a := g.rv rs1
    let b := g.rv rs2
    .next (s.doneWith e { g.wv rd (op a b) with flags := fl g.flags a b })

/-- The same with an immediate as the second source. -/
def aluImm (e : Nat) (rd rs1 : Reg) (b : Word) (op : Word → Word → Word) (fl : Flags → Word → Word → Flags)
    (s : State) : Out :=
  issue e s fun s =>
    let g := s.eng e
    let a := g.rv rs1
    .next (s.doneWith e { g.wv rd (op a b) with flags := fl g.flags a b })

/-- A result written with no flag. -/
def aluMove (e : Nat) (rd : Reg) (val : Word → Word) (s : State) : Out :=
  issue e s fun s =>
    let g := s.eng e
    .next (s.doneWith e (g.wv rd (val (g.rv rd))))

/-- Logic flags of an operation's result. -/
def logicOf (op : Word → Word → Word) (f : Flags) (a b : Word) : Flags := f.ofLogic (op a b)

/-- The shift count rs2[5:0]. -/
def shiftCount (b : Word) : Nat := b.toNat % 64

def opSll (a b : Word) : Word := a <<< shiftCount b
def opSrl (a b : Word) : Word := a >>> shiftCount b
def opSra (a b : Word) : Word := a.sshiftRight (shiftCount b)
/-- bits 127:64 of the unsigned product -/
def opMulhu (a b : Word) : Word := BitVec.ofNat 64 (a.toNat * b.toNat / 2 ^ 64)
/-- bits 127:64 of the signed product -/
def opMulhs (a b : Word) : Word := BitVec.ofInt 64 (a.toInt * b.toInt / 2 ^ 64)
def opDivu (a b : Word) : Word := if b = 0 then BitVec.allOnes 64 else a / b
def opRemu (a b : Word) : Word := if b = 0 then a else a % b

/-- The position of the highest one bit among the low `n` bits, counted as leading zeros of those. -/
def clzGo (a : Word) : Nat → Nat
  | 0 => 0
  | n + 1 => if a.getLsbD n then 0 else clzGo a n + 1

/-- Leading zeros, 64 for zero. -/
def opClz (a : Word) : Word := BitVec.ofNat 64 (clzGo a 64)

/-- One bits among the low `n` bits. -/
def popGo (a : Word) : Nat → Nat
  | 0 => 0
  | n + 1 => popGo a n + ofBool (a.getLsbD n)

def opPopc (a : Word) : Word := BitVec.ofNat 64 (popGo a 64)

/-- The operation SHI selects. -/
def opShift : ShiftOp → Word → Word → Word
  | .sll => opSll
  | .srl => opSrl
  | .sra => opSra

/-- zext(imm16) << 16k. -/
def movzVal (imm : Imm16) (k : BitVec 2) : Word := zext imm <<< (16 * k.toNat)

/-- Bits 16k+15:16k replaced. -/
def movkVal (imm : Imm16) (k : BitVec 2) (old : Word) : Word :=
  (old &&& ~~~(0xFFFF#64 <<< (16 * k.toNat))) ||| (zext imm <<< (16 * k.toNat))

/-- NOP changes no register, flag or memory (R96). -/
def execNop (e : Nat) (s : State) : Out := issue e s fun s => .next (s.complete e)

/-- ADD (R101). -/
def execAdd (e : Nat) (rd rs1 rs2 : Reg) (s : State) : Out := alu e rd rs1 rs2 (· + ·) Flags.ofAdd s

/-- SUB (R101). -/
def execSub (e : Nat) (rd rs1 rs2 : Reg) (s : State) : Out := alu e rd rs1 rs2 (· - ·) Flags.ofSub s

/-- AND (R101). -/
def execAnd (e : Nat) (rd rs1 rs2 : Reg) (s : State) : Out := alu e rd rs1 rs2 (· &&& ·) (logicOf (· &&& ·)) s

/-- OR (R101). -/
def execOr (e : Nat) (rd rs1 rs2 : Reg) (s : State) : Out := alu e rd rs1 rs2 (· ||| ·) (logicOf (· ||| ·)) s

/-- XOR (R101). -/
def execXor (e : Nat) (rd rs1 rs2 : Reg) (s : State) : Out := alu e rd rs1 rs2 (· ^^^ ·) (logicOf (· ^^^ ·)) s

/-- SLL (R101). -/
def execSll (e : Nat) (rd rs1 rs2 : Reg) (s : State) : Out := alu e rd rs1 rs2 opSll (logicOf opSll) s

/-- SRL (R101). -/
def execSrl (e : Nat) (rd rs1 rs2 : Reg) (s : State) : Out := alu e rd rs1 rs2 opSrl (logicOf opSrl) s

/-- SRA (R101). -/
def execSra (e : Nat) (rd rs1 rs2 : Reg) (s : State) : Out := alu e rd rs1 rs2 opSra (logicOf opSra) s

/-- MUL (R101). -/
def execMul (e : Nat) (rd rs1 rs2 : Reg) (s : State) : Out := alu e rd rs1 rs2 (· * ·) Flags.ofMul s

/-- MULHU (R101). -/
def execMulhu (e : Nat) (rd rs1 rs2 : Reg) (s : State) : Out := alu e rd rs1 rs2 opMulhu (logicOf opMulhu) s

/-- MULHS (R101). -/
def execMulhs (e : Nat) (rd rs1 rs2 : Reg) (s : State) : Out := alu e rd rs1 rs2 opMulhs (logicOf opMulhs) s

/-- DIVU (R101). -/
def execDivu (e : Nat) (rd rs1 rs2 : Reg) (s : State) : Out := alu e rd rs1 rs2 opDivu (fun f a b => f.ofDiv (opDivu a b) b) s

/-- REMU (R101). -/
def execRemu (e : Nat) (rd rs1 rs2 : Reg) (s : State) : Out := alu e rd rs1 rs2 opRemu (fun f a b => f.ofDiv (opRemu a b) b) s

/-- CLZ (R101). -/
def execClz (e : Nat) (rd rs1 : Reg) (s : State) : Out :=
  alu e rd rs1 0 (fun a _ => opClz a) (fun f a _ => f.ofCount (opClz a)) s

/-- POPC (R101). -/
def execPopc (e : Nat) (rd rs1 : Reg) (s : State) : Out :=
  alu e rd rs1 0 (fun a _ => opPopc a) (fun f a _ => f.ofCount (opPopc a)) s

/-- ADDI (R102). -/
def execAddi (e : Nat) (rd rs1 : Reg) (imm : Imm16) (s : State) : Out := aluImm e rd rs1 (sext imm) (· + ·) Flags.ofAdd s

/-- ANDI (R102). -/
def execAndi (e : Nat) (rd rs1 : Reg) (imm : Imm16) (s : State) : Out := aluImm e rd rs1 (zext imm) (· &&& ·) (logicOf (· &&& ·)) s

/-- ORI (R102). -/
def execOri (e : Nat) (rd rs1 : Reg) (imm : Imm16) (s : State) : Out := aluImm e rd rs1 (zext imm) (· ||| ·) (logicOf (· ||| ·)) s

/-- XORI (R102). -/
def execXori (e : Nat) (rd rs1 : Reg) (imm : Imm16) (s : State) : Out := aluImm e rd rs1 (zext imm) (· ^^^ ·) (logicOf (· ^^^ ·)) s

/-- SHI (R102). -/
def execShi (e : Nat) (rd rs1 : Reg) (op : ShiftOp) (sh : BitVec 6) (s : State) : Out :=
  aluImm e rd rs1 (sh.zeroExtend 64) (opShift op) (logicOf (opShift op)) s

/-- CMPI: the flags of rs1 − sext(imm16) only (R102). -/
def execCmpi (e : Nat) (rs1 : Reg) (imm : Imm16) (s : State) : Out :=
  aluImm e 0 rs1 (sext imm) (· - ·) Flags.ofSub s

/-- MOVZ (R102). -/
def execMovz (e : Nat) (rd : Reg) (imm : Imm16) (k : BitVec 2) (s : State) : Out :=
  aluMove e rd (fun _ => movzVal imm k) s

/-- MOVK (R102). -/
def execMovk (e : Nat) (rd : Reg) (imm : Imm16) (k : BitVec 2) (s : State) : Out :=
  aluMove e rd (movkVal imm k) s

end Sys2Proof.Machine
end

