-- ==== Sys2Proof/Machine/Crc.lean ====
section
/-!
DEFINITION. The two cyclic redundancy checks of the spec: CRC-32 of the Ethernet FCS (R397) and CRC-32C of the hash
functions (R341, R362), both bit-reflected.
-/
namespace Sys2Proof.Machine

/-- One bit of a reflected CRC. -/
def crcBit (poly c : BitVec 32) : BitVec 32 := if c.getLsbD 0 then (c >>> 1) ^^^ poly else c >>> 1

/-- Eight bits. -/
def crcByte (poly c : BitVec 32) (b : Byte) : BitVec 32 :=
  let x := c ^^^ b.zeroExtend 32
  crcBit poly (crcBit poly (crcBit poly (crcBit poly (crcBit poly (crcBit poly (crcBit poly (crcBit poly x)))))))

/-- The register after a run of bytes. -/
def crcRun (poly : BitVec 32) (c : BitVec 32) (l : List Byte) : BitVec 32 := l.foldl (crcByte poly) c

/-- The generator of CRC-32, reflected. -/
def polyEth : BitVec 32 := 0xEDB88320
/-- The generator of CRC-32C, reflected. -/
def polyC : BitVec 32 := 0x82F63B78

/-- The CRC-32 of a run of bytes, as the FCS holds it. -/
def crc32 (l : List Byte) : BitVec 32 := ~~~(crcRun polyEth 0xFFFFFFFF l)

/-- The four bytes of an FCS in wire order. -/
def fcsBytes (c : BitVec 32) : List Byte :=
  [c.truncate 8, (c >>> 8).truncate 8, (c >>> 16).truncate 8, (c >>> 24).truncate 8]

/-- A frame with the FCS of its bytes. -/
def withFcs (l : List Byte) : List Byte := l ++ fcsBytes (crc32 l)

/-- CRC-32C over bytes with an initial value and no final inversion (R341). -/
def crc32c (init : BitVec 32) (l : List Byte) : BitVec 32 := crcRun polyC init l

end Sys2Proof.Machine
end

