-- ==== Sys2Proof/Machine/Scale.lean ====
section
/-!
DEFINITION. Reading time: the tick counters, the common scale and each die's time (R229 to R231, R239).
-/
namespace Sys2Proof.Machine

/-- U(T) of R231 under a scale: OFFSET as a count, BASE, RATE; never before the epoch. -/
def scaleUnits (offset base rate T : Nat) : Nat :=
  (Int.ofNat offset + (Int.ofNat T - Int.ofNat base) * Int.ofNat rate / 2 ^ 8).toNat

/-- The scale's time at a package tick, by a die's values in force. -/
def State.unitsAt (s : State) (d T : Nat) : Nat :=
  let r := s.ridge d
  scaleUnits r.offset r.base r.rate T

/-- Quarter picoseconds as 2^-32 ns units, floored. -/
def quarterPs (x : Int) : Int := x * 2 ^ 32 / 4000

/-- The die's time at its most recent ridge tick (R239), as a count of 2^-32 ns units. -/
def State.now (s : State) (d : Nat) : Nat :=
  (Int.ofNat (s.unitsAt d (s.pkgTick d)) + quarterPs (s.rfS F.RIDGE.SKEW_SKEW d 0)).toNat

/-- The die's time is timing-grade (R243). -/
def State.tg (s : State) (d : Nat) : Bool := s.flag F.RIDGE.STATUS_TG d 0

/-- The ridge leader, as D0's PLL shows it (R32). -/
def State.leader (s : State) : Nat := s.rf F.PLL.STATUS_LEAD_DIE 0 0

end Sys2Proof.Machine
end

