-- ==== Sys2Proof/Machine/Arrive.lean ====
section
/-!
DEFINITION. Accesses at their target: which registers an access touches (R60 to R62), the checks of R63 made there, and
the answer to the engine that waits (R104, R105).
-/
namespace Sys2Proof.Machine

/-- The fields of a line whose register lies within `n` bytes at offset `o`. -/
def FldRow.touch (r : FldRow) (o n : Nat) : List Fld :=
  let off0 := (r.fld r.first).off
  let k0 := if r.stride = 0 then r.first else r.first + (o - off0) / r.stride
  let ks := if r.stride = 0 then [k0] else [k0, k0 + 1, k0 + 2, k0 + 3]
  ((ks.filter fun k => decide (k < r.count)).map r.fld).filter fun f =>
    decide (f.off < o + n) && decide (o < f.off + f.regw / 8)

/-- Registers that exist on some parts or instances alone: those of D0, of H_0, of the XU9192, of channels 6 and 7. -/
def fieldPresent (p : Part) (die inst : Nat) (f : Fld) : Bool :=
  (!f.d0 || die == 0) &&
  (match f.blk with
   | 0x0A => !(decide (0x100 ≤ f.off) && decide (f.off < 0xFFF00)) || decide (p = .xu9192)
   | 0x11 => f.off != 0x0C || decide (6 ≤ inst)
   | 0x02 => die == 0 || !(f.off == 0x20 || f.off == 0x28 || (decide (0x104 ≤ f.off) && decide (f.off < 0x110)))
   | 0x1C => true
   | _ => true)

/-- Every field that an access touches on one instance. -/
def fieldsAt (p : Part) (die blk inst o n : Nat) : List Fld :=
  ((F.rowsOf blk ++ F.BLOCK.rows blk).flatMap fun r => r.touch o n).filter (fieldPresent p die inst)

/-- The windows onto memories, and EVMAP, which 32- and 64-bit accesses reach. -/
def inWindow (die blk o : Nat) : Bool :=
  match blk with
  | 0x01 => (decide (0x100 ≤ o) && decide (o < 0x1E0)) || (decide (0x10000 ≤ o) && decide (o < 0x30000))
  | 0x02 => (decide (0x10000 ≤ o) && decide (o < 0x11000)) ||
      (die == 0 && decide (0x11000 ≤ o) && decide (o < 0x11600)) || (decide (0x80000 ≤ o) && decide (o < 0xFFF00))
  | 0x03 => decide (o < (if die = 0 then 0x40000 else 0x10000))
  | 0x04 => (decide (0x100 ≤ o) && decide (o < 0x160)) || (decide (0x200 ≤ o) && decide (o < 0x300))
  | 0x10 => decide (0xC0 ≤ o) && decide (o < 0x100)
  | 0x11 => decide (0x100 ≤ o) && decide (o < 0x160)
  | 0x15 | 0x16 => decide (0x40 ≤ o) && decide (o < 0x80)
  | 0x1A => decide (0x100 ≤ o) && decide (o < 0x220)
  | 0x20 => decide (0x140 ≤ o) && decide (o < 0x180)
  | _ => false

/-- The access width is not allowed for what it touches (R61): 128 bits reach a 128-bit register, and nothing else does;
T0 of EVT.REC alone is read so too. -/
def widthBad (p : Part) (addr width : Nat) : Bool :=
  let o := faOff addr
  if inWindow (faDie addr) (faBlk addr) o then width == 128 && !(faBlk addr == 0x11 && o == 0x110)
  else (fieldsAt p (faDie addr) (faBlk addr) (faInst addr) o (width / 8)).any fun f => (f.regw == 128) != (width == 128)

/-- Rows 3 to 6 of R63 for an access from die `d` on behalf of partition `p`: the trap cause, 0 for none. `ro` marks a read
that partition 0 may make of any instance (R69). -/
def State.causeFrom (s : State) (d p addr width : Nat) (ro : Bool) : Nat :=
  let t := faDie addr
  if !s.linkUp d t then 0x09
  else if s.owner t (faBlk addr) (faInst addr) ≠ p && !(ro && p == 0) then 0x0A
  else if faOff addr % (width / 8) ≠ 0 then 0x0B
  else if widthBad s.part addr width then 0x0C
  else 0

/-- The same for an access of engine `e`. -/
def State.accessCause (s : State) (e addr width : Nat) (ro : Bool) : Nat := s.causeFrom (e / 4) (s.engPart e) addr width ro

/-- The first posted entry that the predicate selects takes the target's result. -/
def judgeFirst (q : Posted → Bool) (cause : Nat) : List Posted → List Posted
  | [] => []
  | p :: r => if q p && p.result.isNone then { p with result := some cause } :: r else p :: judgeFirst q cause r

/-- The target has judged a posted access of engine `e`. -/
def State.judged (s : State) (e addr width data cause : Nat) : State :=
  let g := s.eng e
  let q (p : Posted) := p.addr == addr && p.width == width && p.data == data
  s.setEng e { g with posted := judgeFirst q cause g.posted }

/-- A write of engine `e` arrives at its register: an absent engine sends none, an absent instance faults; one that an earlier posted access to
the instance has to precede has not arrived yet (R54); a failed check has no effect; what the write does is `f`, with its
result recorded (R63, R105). -/
def arriveWrite (e addr width data : Nat) (s : State) (f : State → State) : Out :=
  if Config.nEngines s.part ≤ e then .next s
  else if !(decide (addr < 2 ^ 40) && s.has (faDie addr) (faBlk addr) (faInst addr)) then .fault .absentInstance
  else if s.resets.asserted || s.early e addr width data then .next s
  else
    let c := s.accessCause e addr width false
    if c = 0 then .next ((f s).judged e addr width data 0) else .next (s.judged e addr width data c)

/-- The answer to the blocking access of engine `e` at an address. -/
def State.answer (s : State) (e addr cause value : Nat) : State :=
  let g := s.eng e
  match g.hold with
  | .access op a none =>
    if a = addr then (s.setEng e { g with hold := .access op a (some ⟨cause, value⟩) }).tagTarget e (faDie addr) true else s
  | _ => s

/-- A read with a side effect arrives, behind the engine's posted accesses to the instance (R54, R100): `f` gives the new
state and the value. -/
def arriveRead (e addr width : Nat) (s : State) (f : State → State × Nat) : Out :=
  if Config.nEngines s.part ≤ e then .next s
  else if !(decide (addr < 2 ^ 40) && s.has (faDie addr) (faBlk addr) (faInst addr)) then .fault .absentInstance
  else if s.resets.asserted || s.behind e addr then .next s
  else
    let c := s.accessCause e addr width false
    if c = 0 then
      let r := f s
      .next (r.1.answer e addr 0 r.2)
    else .next (s.answer e addr c 0)

/-- What a command does outside the internal reset, which holds everything (R161). -/
def State.held (s : State) (f : State → State) : State := if s.resets.asserted then s else f s

/-- The registers of one block instance, for the rows that name an instance: an absent one faults. -/
def onInst (die blk inst : Nat) (s : State) (f : State → State) : Out :=
  if s.has die blk inst then .next (s.held f) else .fault .absentInstance

/-- A local port, lane or channel of a die. -/
def onPort (p : Nat) (s : State) (f : State → State) : Out :=
  if p < Config.nPorts s.part then .next (s.held f) else .fault .absentPort

/-- A die. -/
def onDie (d : Nat) (s : State) (f : State → State) : Out :=
  if s.hasDie d then .next (s.held f) else .fault .absentDie

end Sys2Proof.Machine
end

