-- ==== Sys2Proof/Machine/Monitor.lean ====
section
/-!
DEFINITION. The monitors: histograms (R453 to R456), bandwidth windows (R447, R448), the read side of the tag FIFO
(R452), and PERF's own additions (R445).
-/
namespace Sys2Proof.Machine

/-! ## Histograms -/

/-- A sample limited to ±(2^47 − 1) (R453). -/
def histClip (x : Int) : Int := max (-(2 ^ 47 - 1)) (min (2 ^ 47 - 1) x)

/-- The bin of a sample: the number of edges at or below it (R454). -/
def State.histBin (s : State) (d i : Nat) (x : Int) : Nat :=
  ((List.range 31).filter fun e => decide (toSigned 48 (s.rfF (F.HIST.EDGE_EDGE e) d i) ≤ x)).length

/-- A sample that finds the unit ready is taken (R454). -/
def State.histTake (s : State) (d i : Nat) (x0 : Int) : State :=
  let x := histClip x0
  let b := s.histBin d i x
  let n := s.rf (F.HIST.BIN_COUNT b) d i + 1
  let s1 := (s.addWrap F.HIST.SAMPLES_COUNT d i 1).wf (F.HIST.BIN_COUNT b) d i n
  let s2 := if n = 2 ^ 48 then
      ((s1.setFlag (F.HIST.BIN_OVF b) d i).setFlag F.HIST.ERR_BIN_OVF_SEEN d i).raise d B.HIST i 0
    else s1
  let lower := decide (x < s2.rfS F.HIST.MIN_VALUE d i)
  let upper := decide (s2.rfS F.HIST.MAX_VALUE d i < x)
  let s3 := if lower then s2.wf F.HIST.MIN_VALUE d i (x % 2 ^ 64).toNat else s2
  let s4 := if upper then s3.wf F.HIST.MAX_VALUE d i (x % 2 ^ 64).toNat else s3
  if lower || upper then s4.raise d B.HIST i 1 else s4

/-- The pipeline cycles of the tick in progress: one or two (R27). -/
def PerfState.cycles (p : PerfState) : Nat := (p.fifths + 8) / 5

/-- A sample reaches unit `i`: one a pipeline cycle is taken, further ones are counted as missed (R455), held ones go (R456). Which of
a tick's cycles a sample falls in the model does not say: the tick's first samples take one each (DESIGN CHOICE, log entry 103). -/
def State.histSample (s : State) (d i : Nat) (x : Int) : State :=
  if s.flag F.HIST.CTRL_HOLD d i then s
  else
    let p := s.perf d
    if p.cycles ≤ p.sampled.count i then (s.addSat F.HIST.MISSED_COUNT d i 1).setFlag F.HIST.ERR_MISSED_SEEN d i
    else (s.setPerf d { p with sampled := i :: p.sampled }).histTake d i x

/-- The instance whose owner decides on a source (R455, R457): a port's QUE or a channel. -/
def histOwner (s : State) (d src idx : Nat) : Nat :=
  if src = 6 then s.owner d B.EVT idx else if src = 2 then s.owner d B.QUE (idx / 16) else s.owner d B.QUE idx

/-- Unit `i` takes samples of the source (R453, R455, R457). -/
def State.histWants (s : State) (d src idx i : Nat) : Bool :=
  s.inRun d B.HIST i && s.rfF F.HIST.CFG_SRC d i == src &&
  (s.rfF F.HIST.CFG_INDEX d i == idx || (src == 1 && s.rfF F.HIST.CFG_INDEX d i == 0x1FF)) &&
  (s.owner d B.HIST i == 0 || s.owner d B.HIST i == histOwner s d src idx)

/-- A sample of a source goes to every unit that takes it. -/
def State.histFeed (s : State) (d src idx : Nat) (x : Int) : State :=
  (List.range 32).foldl (fun s i => if s.histWants d src idx i then s.histSample d i x else s) s

/-- CLR clears every bin, SAMPLES, MIN and MAX (R456). -/
def State.histClear (s : State) (d i : Nat) : State :=
  let s1 := (List.range 32).foldl (fun s b => (s.wf (F.HIST.BIN_COUNT b) d i 0).wf (F.HIST.BIN_OVF b) d i 0) s
  ((s1.wf F.HIST.SAMPLES_COUNT d i 0).wf F.HIST.MIN_VALUE d i 0x00007FFFFFFFFFFF).wf F.HIST.MAX_VALUE d i
    0xFFFF800000000000

/-- A write of HIST.CTRL (R456). -/
def State.wrHistCtrl (s : State) (d i data : Nat) : State :=
  let s1 := s.putFlag F.HIST.CTRL_HOLD d i (bitSet data 0)
  if bitSet data 1 then s1.histClear d i else s1

/-! ## Levels (R444) -/

/-- The mark by which a frame that found no slot for its next cell ends as bad: it holds no bytes and takes no slot (R375). -/
def Cell.ends (c : Cell) : Bool := !c.first && c.bad && c.data == []

/-- The slots of a staging FIFO in use. -/
def slotsUsed (l : List StgCell) : Nat := (l.filter fun c => !c.cell.ends).length

/-- Cells of queue `q` of a local port. -/
def State.queueOcc (s : State) (d lp q : Nat) : Nat := bitsOf (s.rf (F.QUE.OCC_OCC (q / 4)) d lp) (16 * (q % 4)) 16

/-- The level of a level source; `none` for a code that is none. -/
def State.level (s : State) (d src idx : Nat) : Option Nat :=
  match src with
  | 0x30 => some (s.queueOcc d (idx / 16) (idx % 16))
  | 0x31 => some (s.rf F.QUE.STATUS_PORT_OCC d idx)
  | 0x32 => some (s.rf F.QUE.POOL_SHARED_FREE d 0)
  | 0x33 => some (slotsUsed (if idx = 24 then (s.die d).injFifo else (s.port (24 * d + idx)).stg))
  | 0x34 => some (s.eng (4 * d + idx)).rxq.length
  | _ => none

/-- The amount that a level counter adds in one cycle (R443). -/
def State.levelAmount (s : State) (d c : Nat) : Nat :=
  match s.level d (s.rfF (F.PERF.SEL_SRC c) d 0) (s.rfF (F.PERF.SEL_INDEX c) d 0) with
  | none => 0
  | some x =>
    let thr := s.rf (F.PERF.THR_THR c) d 0
    match s.rfF (F.PERF.SEL_MODE c) d 0 with
    | 2 => if thr < x then 1 else 0
    | 3 => if x ≤ thr then 1 else 0
    | 4 => x
    | _ => 0

/-- `n` pipeline cycles pass: CYCLE and the level counters advance (R442, R443), but for a cycle that a command has added already,
and the units are ready again (R455). -/
def State.perfCycles (s : State) (d n : Nat) : State :=
  let p := s.perf d
  let s0 := if p.sampled = [] ∧ p.ahead = [] then s else s.setPerf d { p with sampled := [], ahead := [] }
  let add (s : State) (c : Nat) : State :=
    let a := s.levelAmount d c * (n - p.ahead.count c)
    if a = 0 then s else s.perfAdd d c a
  if s0.inRun d B.PERF 0 then (List.range 8).foldl add (s0.addWrap F.PERF.CYCLE_COUNT d 0 n) else s0

/-! ## Bandwidth (R447, R448) -/

/-- The end of a window: every port's counts are latched on one tick. -/
def State.bwLatch (s : State) (d : Nat) : State :=
  let p := s.perf d
  let one (s : State) (k : Nat) : State :=
    ((s.wf (F.PERF.BW_RX_BYTES k) d 0 (Store.get 0 p.bytes (2 * k))).wf (F.PERF.BW_TX_BYTES k) d 0
      (Store.get 0 p.bytes (2 * k + 1))).addWrap (F.PERF.BW_WIN k) d 0 1
  let s1 := (List.range 24).foldl one s
  (s1.setPerf d { p with bytes := [], window := p.window + s.rfF F.PERF.BW_CFG_WINDOW d 0 * 625 }).raise d B.PERF 0 16

/-- The windows of the die that have ended by the present tick, and are not latched yet. -/
def State.bwDue (s : State) (d : Nat) : Nat := (s.tick d - (s.perf d).window) / (s.rfF F.PERF.BW_CFG_WINDOW d 0 * 625)

/-- A frame of `len` bytes adds to the window that holds its start-of-frame strobe: the windows that have ended are latched
first, so that a strobe on the boundary belongs to the new one (R447). -/
def State.bwAdd (s : State) (d lp : Nat) (tx : Bool) (len : Nat) : State :=
  if s.inRun d B.PERF 0 then
    let s1 := (List.range (s.bwDue d)).foldl (fun s _ => s.bwLatch d) s
    let p := s1.perf d
    let k := 2 * lp + ofBool tx
    s1.setPerf d { p with bytes := Store.put 0 p.bytes k (Store.get 0 p.bytes k + len + 20) }
  else s

/-! ## The commands -/

/-- Counter `c` adds its level for one pipeline cycle of the tick in progress, which the tick then leaves out (R443): `amount` is what
its MODE gives, and `reach` says that the old count meets what is asked of the addition. An event counter's occurrences are added
as they arrive, with their compare and their wrap, so that nothing is counted twice (R441). -/
def State.levelAdd (s : State) (d c amount : Nat) (reach : Bool) : State :=
  let p := s.perf d
  if s.inRun d B.PERF 0 && amount != 0 && amount == s.levelAmount d c && !p.ahead.contains c && reach then
    (s.setPerf d { p with ahead := c :: p.ahead }).perfAdd d c amount
  else s

/-- PERF_COMPARE_REACHED: the addition of one cycle meets the compare (R445). -/
def execPerfCompareReached (d c amount : Nat) (s : State) : Out :=
  if !s.hasDie d then .fault .absentDie
  else if 8 ≤ c then .fault .absentInstance
  else
    let old := s.rf (F.PERF.CNT_COUNT c) d 0
    let cmp := s.rf (F.PERF.CMP_CMP c) d 0
    .next (s.levelAdd d c amount ((decide (old < cmp) && decide (cmp ≤ old + amount)) ||
      (decide (2 ^ 48 ≤ old + amount) && decide (cmp ≤ old + amount - 2 ^ 48))))

/-- PERF_COUNTER_WRAP: the addition of one cycle reaches 2^48 (R445). -/
def execPerfCounterWrap (d c amount : Nat) (s : State) : Out :=
  if !s.hasDie d then .fault .absentDie
  else if 8 ≤ c then .fault .absentInstance
  else .next (s.levelAdd d c amount (decide (2 ^ 48 ≤ s.rf (F.PERF.CNT_COUNT c) d 0 + amount)))

/-- A bandwidth window ends (R448), once its last tick has passed. -/
def execBwWindowEnd (d : Nat) (s : State) : Out :=
  onDie d s fun s =>
    if s.inRun d B.PERF 0 && decide ((s.perf d).window + s.rfF F.PERF.BW_CFG_WINDOW d 0 * 625 ≤ s.tick d) then
      s.bwLatch d
    else s

/-- The address of PERF.TAG_HEAD of a die. -/
def perfHeadAddr (d : Nat) : Nat := mkFa d B.PERF 0 0x120

/-- The head of the tag FIFO as TAG_HEAD returns it (R452). -/
def tagHeadWord (r : List Byte) : Nat :=
  2 ^ 63 + (r.getD 2 0).toNat % 8 * 2 ^ 32 + (r.getD 0 0).toNat + 256 * (r.getD 1 0).toNat

/-- A 64-bit read of TAG_HEAD removes and latches the oldest record (R452). -/
def State.tagHead (s : State) (d : Nat) : State × Nat :=
  let p := s.perf d
  match p.fifo with
  | [] => (s, 0)
  | r :: q => ((s.setPerf d { p with fifo := q, record := r }).wf F.PERF.TAG_STAT_DEPTH d 0 q.length, tagHeadWord r)

/-- TAG_HEAD_READ by an engine. -/
def execTagHeadRead (e d : Nat) (s : State) : Out := arriveRead e (perfHeadAddr d) 64 s fun s => s.tagHead d

/-- The sampling tick of a histogram's level source comes round: one sample a tick (R453). -/
def execHistLevelSample (d i : Nat) (s : State) : Out :=
  onInst d B.HIST i s fun s =>
    let src := s.rfF F.HIST.CFG_SRC d i
    let idx := s.rfF F.HIST.CFG_INDEX d i
    let lvl := if src = 2 then s.level d 0x30 idx else if src = 3 then s.level d 0x31 idx else none
    match lvl with
    | some x =>
      if s.histWants d src idx i && s.tick d % 2 ^ s.rfF F.HIST.CFG_SPER d i == 0 && !(s.perf d).sampled.contains i then s.histSample d i (Int.ofNat x) else s
    | none => s

/-- HIST_CLEAR: a write of HIST.CTRL with CLR set, and HOLD as given. -/
def execHistClear (e d i : Nat) (hold : Bool) (s : State) : Out :=
  if 32 ≤ i then .fault .absentInstance
  else arriveWrite e (mkFa d B.HIST i 4) 32 (2 + ofBool hold) s fun s => s.wrHistCtrl d i (2 + ofBool hold)

/-- HIST_HOLD: a write of HIST.CTRL with CLR clear. -/
def execHistHold (e d i : Nat) (hold : Bool) (s : State) : Out :=
  if 32 ≤ i then .fault .absentInstance
  else arriveWrite e (mkFa d B.HIST i 4) 32 (ofBool hold) s fun s => s.wrHistCtrl d i (ofBool hold)

/-! ## Stages of a tagged frame -/

/-- A stage report reaches the input die's PERF (R450): the record of that frame takes the stage, where it names one of the
twelve, and is complete at stage 11 or when the copy is discarded. -/
def State.tagReport (s : State) (d stage T : Nat) (u : TagItem) (done dropped : Bool) : State :=
  let p := s.perf d
  match p.frame with
  | some t =>
    let t1 := { (if stage < 12 then t.at_ stage T else t) with
                outPort := u.outPort, queue := u.queue, flags := t.flags ||| u.flags }
    let t2 := if dropped then { t1 with flags := t1.flags ||| 1 } else t1
    if t.id ≠ u.id then s
    else if done || dropped then
      ((s.setPerf d { p with frame := none }).putFlag F.PERF.TAG_STAT_FR_BUSY d 0 false).tagStore
        d t2 0
    else s.setPerf d { p with frame := some t2 }
  | none => s

/-- The die of the port along which a tagged frame is followed. -/
def State.tagDest (s : State) (d id dest : Nat) : State :=
  let p := s.perf d
  match p.frame with
  | some t => if t.id = id then s.setPerf d { p with frame := some { t with dest := dest } } else s
  | none => s

/-- No report from die `b` reaches die `a` any more: the record of a frame followed to a port of `b` completes with DROPPED
(DESIGN CHOICE, log entry 103). -/
def State.tagCut (s : State) (a b : Nat) : State :=
  match (s.perf a).frame with
  | some t => if t.dest = b then s.tagReport a 12 0 { t with flags := 0 } false true else s
  | none => s

/-- The first message for die `d` that the predicate selects, and the messages without it. -/
def takeMsg (q : CtlMsg → Bool) : List CtlMsg → Option (CtlMsg × List CtlMsg)
  | [] => none
  | m :: r => if q m then some (m, r) else (takeMsg q r).map fun x => (x.1, m :: x.2)

/-- The message carries a stage of a tagged frame. -/
def CtlBody.isTag : CtlBody → Bool
  | .tagStage _ _ _ _ _ => true
  | _ => false

/-- TAG_STAGE_REPORT: the oldest report for the die's PERF arrives. -/
def execTagStageReport (d : Nat) (s : State) : Out :=
  onDie d s fun s =>
    match takeMsg (fun m => m.dst == d && m.body.isTag) s.msgs with
    | some (⟨_, _, .tagStage stage T u done dropped⟩, r) => { s with msgs := r }.tagReport d stage T u done dropped
    | _ => s

end Sys2Proof.Machine
end

