-- ==== Sys2Proof/Machine/Timing.lean ====
section
/-!
DEFINITION. What the time plane shares: ports and their line modes (R182, R45), timing grade of dies, lanes and ports
(R192, R243, R249, R270), calibrated delay lines (R245, R317, R430), and instants in femtosecond arithmetic.
-/
namespace Sys2Proof.Machine

/-! ## Ports -/

/-- The line mode in force of a port: 1 1000BASE-X, 2 10GBASE-R, 3 25GBASE-R, 4 100 Gb/s (R182). -/
def State.mode (s : State) (p : Nat) : Nat := s.rfF F.PCS.CFG_MODE (p / 24) (p % 24)

/-- RUN or STOPPING. -/
def State.active (s : State) (die blk inst : Nat) : Bool :=
  s.inRun die blk inst || s.run die blk inst == 2

/-- The lane's group runs at 100 Gb/s (R209). -/
def State.grouped (s : State) (p : Nat) : Bool :=
  let lead := p - p % 4
  s.active (lead / 24) B.PCS (lead % 24) && s.mode lead == 4

/-- The port exists: present on the part, and no higher port of a running group (R44, R45). -/
def State.portExists (s : State) (p : Nat) : Bool :=
  decide (p < Config.nPorts s.part) && (p % 4 == 0 || !s.grouped p)

/-- The port that a lane serves: its group's lowest, or its own (R44, R45). -/
def State.portOf (s : State) (lane : Nat) : Nat := if s.grouped lane then lane - lane % 4 else lane

/-- The port's lanes. -/
def State.lanesOf (s : State) (p : Nat) : List Nat := if s.mode p = 4 then [p, p + 1, p + 2, p + 3] else [p]

/-- Line rate in Mb/s. -/
def State.lineRate (s : State) (p : Nat) : Nat :=
  match s.mode p with
  | 1 => 1000
  | 2 => 10000
  | 3 => 25000
  | 4 => 100000
  | _ => 0

/-- The unit interval of a mode, in femtoseconds times 825 (R182). -/
def uiFs825 (mode : Nat) : Nat :=
  match mode with
  | 1 => 660000000
  | 2 => 80000000
  | _ => 32000000

/-- The owner of a port (R68). -/
def State.portOwner (s : State) (p : Nat) : Nat := s.owner (p / 24) B.PCS (p % 24)

/-- The link of a port is up (R195). -/
def State.portUp (s : State) (p : Nat) : Bool := s.flag F.PCS.STATUS_LINK_UP (p / 24) (p % 24)

/-! ## Timing grade -/

/-- The die's PLL keeps the timing grade (R220, R222). -/
def State.pllGrade (s : State) (d : Nat) : Bool :=
  match s.rf F.PLL.STATUS_MODE d 0 with
  | 0 => s.flag F.PLL.STATUS_HANDOVER d 0
  | 1 => true
  | 2 => true
  | 4 => (Store.get {} s.plls d).frozenGrade && d == s.leader
  | _ => false

/-- The die's ridge clock runs on the bypass path (R220). -/
def State.onBypass (s : State) (d : Nat) : Bool :=
  let m := s.rf F.PLL.STATUS_MODE d 0
  m == 3 || (m == 4 && (Store.get {} s.plls d).frozenBypass)

/-- A commit was processed within the last four windows (R270). -/
def LinkState.fresh (l : LinkState) : Bool :=
  match l.commitWin with
  | some w => decide ((l.win + 2 ^ 32 - w) % 2 ^ 32 ≤ 4)
  | none => false

/-- LINK of a port. -/
def State.link (s : State) (p : Nat) : LinkState := Store.get {} s.links p
def State.setLink (s : State) (p : Nat) (l : LinkState) : State := { s with links := Store.put {} s.links p l }

/-- A change moves the time of die `d` by `by_` units of 2^-32 ns: GRID of every link that has one moves with it (R264). -/
def State.linkShift (s : State) (d : Nat) (by_ : Int) : State :=
  (List.range 24).foldl (fun s i =>
    let l := s.link (24 * d + i)
    if l.grid.isSome then s.setLink (24 * d + i) { l with jump := l.jump + by_ } else s) s

/-- How many timing-grade timestamps LINK keeps of each direction (log entry 50). -/
def tgKept : Nat := 64

/-- A timing-grade timestamp of a request or of a frame taken aside (R269). -/
def State.linkGraded (s : State) (p : Nat) (tx : Bool) (t : XT) : State :=
  let l := s.link p
  s.setLink p (if tx then { l with txTg := (t.toNat :: l.txTg).take tgKept } else { l with rxTg := (t.toNat :: l.rxTg).take tgKept })

/-- PORT_TG holds (R270). -/
def State.portTg (s : State) (p : Nat) : Bool :=
  let d := p / 24
  let i := p % 24
  let l := s.link p
  s.rf F.LINK.STATUS_LSTATE d i == 3 && s.flag F.LANE.STATUS_TG_CAP d i && s.tg d &&
    (bitSet l.flags 1 || bitSet l.flags 3) && l.fresh

/-- TSU.STATUS.TG and LINK.STATUS.PORT_TG follow their conditions (R249, R270). -/
def State.refreshPort (s : State) (p : Nat) : State :=
  let d := p / 24
  let i := p % 24
  let s1 := s.wfRaise F.TSU.STATUS_TG d i (ofBool (s.tg d && s.flag F.LANE.STATUS_TG_CAP d i)) 2
  s1.wfRaise F.LINK.STATUS_PORT_TG d i (ofBool (s1.portTg p)) 1

/-- Every condition of R243 for the die's time. -/
def State.tgHolds (s : State) (d : Nat) : Bool :=
  s.inRun d B.RIDGE 0 && s.flag F.RIDGE.STATUS_VALID d 0 && s.pllGrade d && s.flag F.RIDGE.STATUS_DELTA_OK d 0 &&
    (d == s.leader || s.flag F.RIDGE.STATUS_ALIGN_OK d 0) && s.flag F.RIDGE.STATUS_REP_OK d 0

/-- RIDGE.STATUS.TG follows its conditions, and with it the die's channels and ports (R243, R249). -/
def State.refreshTg (s : State) (d : Nat) : State :=
  let v := ofBool (s.tgHolds d)
  if s.rf F.RIDGE.STATUS_TG d 0 = v then s
  else
    let s1 := s.wfRaise F.RIDGE.STATUS_TG d 0 v 2
    let s2 := (List.range 8).foldl (fun s k => s.wf F.EVT.STATUS_TG d k v) s1
    (List.range 24).foldl (fun s i => s.refreshPort (24 * d + i)) s2

/-- ALIGN_OK of a follower holds while SKEW is fresh and the link from the leader is up with its clock (R243). -/
def State.refreshAlign (s : State) (d : Nat) : State :=
  let l := s.leader
  let ok := d == l || ((s.ridge d).skewFresh && s.flag F.MESH.STATUS_RX_UP d l && s.flag F.MESH.STATUS_FWD_CLK_OK d l)
  (s.putFlag F.RIDGE.STATUS_ALIGN_OK d 0 ok).refreshTg d

/-- Every condition of R192 for a lane. -/
def State.tgCapHolds (s : State) (lane : Nat) : Bool :=
  let d := lane / 24
  let i := lane % 24
  s.inRun d B.LANE i && s.inRun d B.PCS (s.portOf lane % 24) && s.flag F.LANE.STATUS_PT_LOCK d i &&
    s.flag F.LANE.STATUS_MESO d i && !s.flag F.LANE.SLEEP_TX_ASLEEP d i && !s.flag F.LANE.SLEEP_RX_ASLEEP d i &&
    s.rfF F.LANE.CFG_SSC_TOL d i == 0 && !s.flag F.LANE.STATUS_BYPASS d i

/-- TG_CAP follows its conditions (R192), and with it the port (R249, R270). -/
def State.refreshLane (s : State) (lane : Nat) : State :=
  let d := lane / 24
  let i := lane % 24
  let v := ofBool (s.tgCapHolds lane)
  if s.rf F.LANE.STATUS_TG_CAP d i = v then s
  else (s.wfRaise F.LANE.STATUS_TG_CAP d i v 2).refreshPort lane

/-- The four lanes of a lane's group, or the lane alone, follow their conditions. -/
def State.refreshLanes (s : State) (p : Nat) : State :=
  let lead := p - p % 4
  [lead, lead + 1, lead + 2, lead + 3].foldl (fun s l => s.refreshLane l) s

/-! ## Calibrated delays -/

/-- The coefficient of an item of R430 in force: items are numbered in the order of the table. -/
def State.coeff (s : State) (d item : Nat) : Option Int :=
  let v := Store.get 0 (Store.get {} s.cals d).coeffs item
  if (Store.get {} s.cals d).applied then some v else none

/-- The calibrated delay of a delay line for the taps passed, in femtoseconds: linear between every 20th tap, in units of
0.125 ps (R425, R430); 3.2 ps a tap while no set is in force (R245). -/
def State.lineDelay (s : State) (d line taps : Nat) : Int :=
  let k := taps / 20
  let at_ (j : Nat) : Option Int := if j = 0 then some 0 else s.coeff d (32 * line + (j - 1))
  match at_ k, at_ (min (k + 1) 32), s.coeff d 0 with
  | some a, some b, some _ => a * 125 + (b - a) * 125 * Int.ofNat (taps % 20) / 20
  | _, _, _ => 3200 * Int.ofNat taps

/-- The die's calibration covers its present temperature (R319, R429). -/
def State.covered (s : State) (d : Nat) : Bool := s.flag F.CAL.STATUS_COVERED d 0

/-! ## Instants -/

/-- A count of 2^-32 ns units moved by femtoseconds, floored. -/
def fsShift (units : Int) (fs : Int) : Int := (units * 10 ^ 6 + fs * 2 ^ 32) / 10 ^ 6

/-- An instant of a count that is never before the epoch. -/
def xtOfInt (u : Int) : XT := xtOfUnits u.toNat

/-- The time of the ridge edge at a package tick on a die, SKEW included, moved by femtoseconds (R239, R245, R317). -/
def State.edgeUnits (s : State) (d T : Nat) (fs : Int) : Int :=
  fsShift (Int.ofNat (s.unitsAt d T)) (250 * s.rfS F.RIDGE.SKEW_SKEW d 0 + fs)

/-- 2^-32 ns units as 2^-16 ns, floored. -/
def units16 (u : Int) : Int := u / 2 ^ 16

/-- 2^-16 ns as 2^-32 ns units. -/
def from16 (x : Int) : Int := x * 2 ^ 16

/-- Whole nanoseconds and milliseconds as 2^-32 ns units. -/
def nsUnits (n : Nat) : Nat := n * 2 ^ 32
def msUnits (n : Nat) : Nat := n * 10 ^ 6 * 2 ^ 32

end Sys2Proof.Machine
end

