-- ==== Sys2Proof/Machine/Evt.lean ====
section
/-!
DEFINITION. The event channels (R313 to R337): crossings, records, windows, the record FIFO and event frames. A channel is
named by its die and local number, or by its global number 8 · die + channel (R16).
-/
namespace Sys2Proof.Machine

/-- Channel `ch`, by global number. -/
def State.evt (s : State) (ch : Nat) : EvtState := Store.get {} s.evts ch
def State.setEvt (s : State) (ch : Nat) (x : EvtState) : State := { s with evts := Store.put {} s.evts ch x }

/-- STATUS.OPEN follows the channel's record in progress. -/
def State.setOpen (s : State) (ch : Nat) (o : Option EvOpen) : State :=
  (s.setEvt ch { s.evt ch with cur := o }).putFlag F.EVT.STATUS_OPEN (ch / 8) (ch % 8) o.isSome

/-! ## Receive queues (R124) -/

/-- A frame reaches an engine's receive queue: at a full queue it is dropped and counted; line 60 signals it (R77). -/
def State.rxDeliver (s : State) (e : Nat) (f : RxFrame) : State :=
  let g := s.eng e
  if 32 ≤ g.rxq.length then (s.setEng e { g with rxDrops := (g.rxDrops + 1) % 2 ^ 64 }).perfEvent (e / 4) 0x22 (e % 4) 1
  else (s.setEng e { g with rxq := g.rxq ++ [f] }).setLine e 60

/-! ## Edges -/

/-- An accepted crossing of a channel's own input, captured on the ridge grid (R317, R319). -/
def State.evEdge (s : State) (ch : Nat) (rising : Bool) (taps : Nat) : EvEdge :=
  let d := ch / 8
  let k := ch % 8
  let T := s.pkgTick d
  let tdc := s.lineDelay d (24 + k) taps
  let cal := if rising then s.rfS F.EVT.CAL_IN_CAL_R d k else s.rfS F.EVT.CAL_IN_CAL_F d k
  let path := 250 * (cal + s.rfS F.EVT.ADJ_IN_ADJ d k)
  { src := k, tick := T, tdc := tdc, path := path, rising := rising, tg := s.tg d, nocal := !s.covered d,
    settling := s.flag F.EVT.STATUS_SETTLING d k, time := s.edgeUnits d T (-tdc - path), rate := (s.ridge d).rate,
    calSeq := s.rf F.CAL.SET_SEQ_SEQ d 0 % 2 ^ 32 }

/-- The edge that FIELD drives on output `k`, as a start: its time is the ball's (R326, R463). -/
def State.outEdge (s : State) (d k : Nat) (rising : Bool) : EvEdge :=
  let T := s.pkgTick d
  let fixed := 250 * Int.ofNat (s.rf F.FIELD.OUT_FIXED_FIXED d 0)
  { src := 8 + k, tick := T, tdc := 0, path := -fixed, rising := rising, tg := s.tg d, nocal := !s.covered d, settling := false,
    time := s.edgeUnits d T fixed, rate := (s.ridge d).rate, calSeq := s.rf F.CAL.SET_SEQ_SEQ d 0 % 2 ^ 32 }

/-- The duration from edge `a` to edge `b` of R318 in 2^-40 femtoseconds, exact. -/
def evDurExact (a b : EvEdge) : Int :=
  let ticks : Int := Int.ofNat b.tick - Int.ofNat a.tick
  ticks * Int.ofNat a.rate * 10 ^ 6 - ((b.tdc - a.tdc) + b.path - a.path) * 2 ^ 40

/-- The duration in units of 2^-n ns, rounded to the unit as the chapter's worked examples do (DEDUCED, log entry 93). -/
def evDur (n : Nat) (a b : EvEdge) : Int := (evDurExact a b * 2 ^ (n + 1) + 2 ^ 40 * 10 ^ 6) / (2 ^ 41 * 10 ^ 6)

/-! ## Records (R331, R332) -/

/-- What a record says beside its edges. -/
structure EvRecord where
  kind : Nat
  edges : List EvEdge
  diff : Int := 0
  trunc : Bool := false
  coincident : Bool := false
  order : Bool := false
  late : Bool := false
  timeout : Bool := false
  gateEnd : Bool := false
  unpaired : Bool := false
  byStop : Bool := false
  dead : Nat := 0
  extra : Nat := 0
  applies : List Nat := []
  deriving DecidableEq, Repr

/-- A change of the time scale lies between the record's first and last edge (R318). -/
def EvRecord.stepped (r : EvRecord) : Bool :=
  match r.edges.head?, r.edges.getLast? with
  | some a, some b =>
    let lo := min a.tick b.tick
    let hi := max a.tick b.tick
    r.applies.any fun A => decide (lo < A) && decide (A ≤ hi)
  | _, _ => false

/-- FLAGS of R331. -/
def EvRecord.flags (r : EvRecord) (ovf : Bool) : Nat :=
  ofBool (r.edges.all (·.tg)) + 2 * ofBool (r.edges.any (·.nocal)) + 4 * ofBool r.trunc +
    8 * ofBool (decide (0 < r.extra)) + 16 * ofBool r.coincident + 32 * ofBool r.order + 64 * ofBool r.late +
    128 * ofBool r.timeout + 256 * ofBool r.gateEnd + 512 * ofBool r.unpaired + 1024 * ofBool ovf +
    2048 * ofBool r.stepped + 4096 * ofBool (r.edges.any (·.settling))

/-- SLOPES of R331: bit i is the slope of edge i. -/
def EvRecord.slopes (r : EvRecord) : Nat :=
  if r.kind = 2 ∨ r.kind = 3 then
    match r.edges with
    | [a] => if r.byStop then 2 * ofBool a.rising else ofBool a.rising
    | a :: b :: _ => ofBool a.rising + 2 * ofBool b.rising
    | [] => 0
  else (r.edges.zipIdx.map fun p => 2 ^ p.2 * ofBool p.1.rising).foldl (· + ·) 0

/-- The offsets of a TRAIN record, or an interval's DIFF, in bytes 32 to 91. -/
def EvRecord.body (r : EvRecord) : List Byte :=
  if r.kind = 1 then
    match r.edges with
    | [] => List.replicate 60 0
    | a :: rest =>
      let offs := rest.map fun b => ofSigned 32 (evDur 12 a b)
      (List.range 15).flatMap fun i => bytesLE 4 (offs.getD i 0)
  else if r.kind = 0 then List.replicate 60 0
  else bytesLE 8 (ofSigned 64 r.diff) ++ List.replicate 52 0

/-- The 96 bytes of a record, little-endian (R331). An interval holds its start before its stop. -/
def EvRecord.bytes (r : EvRecord) (seq ch : Nat) (ovf : Bool) : List Byte :=
  let first := r.edges.head?
  let t0 := (first.map fun a => xtOfInt a.time).getD 0
  bytesLE 2 seq ++ [BitVec.ofNat 8 r.kind, BitVec.ofNat 8 r.edges.length] ++ bytesLE 2 (r.flags ovf) ++
    bytesLE 2 r.slopes ++ [BitVec.ofNat 8 (min r.dead 255), BitVec.ofNat 8 (min r.extra 255), BitVec.ofNat 8 ch,
      BitVec.ofNat 8 (ofBool r.byStop)] ++
    bytesLE 4 ((first.map (·.calSeq)).getD 0) ++ bytesLE 16 t0.toNat ++ r.body ++ List.replicate 4 0

/-- The histogram sample that a record gives (R453, source 0x06). -/
def EvRecord.sample (r : EvRecord) : Option Int :=
  match r.edges with
  | a :: b :: _ =>
    if r.kind = 1 then some (evDur 12 a b * 16) else if r.kind = 2 ∨ r.kind = 3 then some r.diff else none
  | _ => none

/-- The edge is the last crossing that its channel accepted (R316). -/
def State.isLast (s : State) (d : Nat) (a : EvEdge) : Bool :=
  decide (a.src < 8) && (s.evt (8 * d + a.src)).lastCross == some (a.tick, a.tdc)

/-- A record is formed: it enters the FIFO, where ONESHOT clears ARM (R324) unless the record was cut off by a stop (R336), or
it is lost at 256 (R332). -/
def State.evStore (s : State) (ch : Nat) (r : EvRecord) : State :=
  let d := ch / 8
  let k := ch % 8
  let x := s.evt ch
  let seq := (x.seq + 1) % 2 ^ 16
  let s1 := if r.edges.any (·.nocal) then s.setFlag F.EVT.ERR_NOCAL_SEEN d k else s
  let s2 := match r.sample with
    | some v => s1.histFeed d 6 k v
    | none => s1
  let fifo := x.fifo ++ [r.bytes x.seq ch x.ovf]
  if x.fifo.length < 256 then
    let held := ((r.edges.filter (s.isLast d)).map fun a => (a.src, x.seq)) ++ x.held
    let s3 := ((s2.setEvt ch { x with fifo := fifo, seq := seq, ovf := false, held := held }).wf F.EVT.STATUS_DEPTH d k
      fifo.length).raise d B.EVT k 0
    if s3.rfF F.EVT.CFG_ONESHOT d k == 1 && !r.trunc then
      (s3.wf F.EVT.ARM_ARM d k 0).wfRaise F.EVT.STATUS_ARMED d k 0 3
    else s3
  else
    (((s2.setEvt ch { x with seq := seq, ovf := true }).addSat F.EVT.LOST_COUNT d k 1).setFlag
      F.EVT.ERR_FIFO_OVF d k).raise d B.EVT k 1

/-- The channel's record in progress is closed and stored. -/
def State.evClose (s : State) (ch : Nat) (o : EvOpen) (r : EvRecord) : State :=
  (s.setOpen ch none).evStore ch { r with dead := o.dead, extra := o.extra, applies := o.applies }

/-! ## Modes (R325 to R330) -/

/-- The calibrated mean bin width of a channel, in femtoseconds (R330). -/
def State.evBin (s : State) (ch : Nat) : Int := Int.ofNat (s.rf F.EVT.CAL_BIN (ch / 8) (ch % 8))

/-- Two edges lie closer than BIN (R330). -/
def State.evClosest (s : State) (ch : Nat) (a b : EvEdge) : Bool :=
  decide ((evDurExact a b).natAbs < (s.evBin ch * 2 ^ 40).natAbs)

/-- A record of one edge that its window or measurement did not complete. -/
def evAlone (kind : Nat) (o : EvOpen) : EvRecord :=
  { kind := kind, edges := o.edges.take 1, byStop := o.byStop, late := o.late }

/-- The completed interval of a start and a stop (R330). -/
def State.evPair (s : State) (ch kind : Nat) (start stop : EvEdge) (byStop late : Bool) : EvRecord :=
  let co := s.evClosest ch start stop
  { kind := kind, edges := [start, stop], diff := if co then 0 else evDur 16 start stop, coincident := co,
    order := kind == 2 && !co && decide (evDurExact start stop < 0), late := late, byStop := byStop }

/-- EDGE: one record for each crossing while armed. -/
def State.evModeEdge (s : State) (ch : Nat) (a : EvEdge) : State :=
  if s.flag F.EVT.STATUS_ARMED (ch / 8) (ch % 8) then s.evStore ch { kind := 0, edges := [a] } else s

/-- TRAIN: a window that has closed is stored first (R327). -/
def State.evModeTrain (s : State) (ch : Nat) (a : EvEdge) : State :=
  let d := ch / 8
  let k := ch % 8
  let start (s : State) : State :=
    let may := match (s.evt ch).closedAt with
      | some c => decide (c < a.tick)
      | none => true
    if s.flag F.EVT.STATUS_ARMED d k && may then
      s.setOpen ch (some { edges := [a], closes := some (a.tick + s.rfF F.EVT.WIN_TICKS d k) })
    else s
  match (s.evt ch).cur with
  | none => start s
  | some o =>
    let c := o.closes.getD 0
    if a.tick ≤ c then
      let late := o.late || a.tick == c
      if o.edges.length < 16 then s.setOpen ch (some { o with edges := o.edges ++ [a], late := late })
      else s.setOpen ch (some { o with extra := o.extra + 1, late := late })
    else
      let s1 := s.evClose ch o { kind := 1, edges := o.edges, late := o.late }
      start (s1.setEvt ch { s1.evt ch with closedAt := some c })

/-- PAIRED (R328). -/
def State.evModePaired (s : State) (ch : Nat) (a : EvEdge) (isStart : Bool) : State :=
  let d := ch / 8
  let k := ch % 8
  let start (s : State) : State :=
    if s.flag F.EVT.STATUS_ARMED d k then
      s.setOpen ch (some { edges := [a], byStop := !isStart, closes := some (a.tick + s.rfF F.EVT.WIN_TICKS d k) })
    else s
  match (s.evt ch).cur with
  | none => start s
  | some o =>
    let c := o.closes.getD 0
    if c < a.tick then start (s.evClose ch o { evAlone 2 o with unpaired := true })
    else if o.byStop == !isStart then s.addSat F.EVT.IGNORED_COUNT d k 1
    else
      match o.edges with
      | b :: _ =>
        if isStart then s.evClose ch o (s.evPair ch 2 a b true (a.tick == c))
        else s.evClose ch o (s.evPair ch 2 b a false (a.tick == c))
      | [] => s

/-- A start opens a GATED measurement (R329). -/
def State.evOpenGated (s : State) (ch : Nat) (a : EvEdge) : State :=
  let tmo := s.rfF F.EVT.TMO_TICKS (ch / 8) (ch % 8)
  s.setOpen ch (some { edges := [a], closes := if 6 ≤ ch % 8 ∧ tmo ≠ 0 then some (a.tick + tmo) else none })

/-- A GATED measurement ends with a record; a start of its expiry tick then opens the next one, unless the record was the one of
ONESHOT (R324, R330). -/
def State.evGatedEnd (s : State) (ch : Nat) (o : EvOpen) (r : EvRecord) : State :=
  let s1 := s.evClose ch o r
  let oneshot := s.flag F.EVT.STATUS_ARMED (ch / 8) (ch % 8) && !s1.flag F.EVT.STATUS_ARMED (ch / 8) (ch % 8)
  match o.next with
  | some a => if oneshot then s1 else s1.evOpenGated ch a
  | none => s1

/-- A GATED measurement expires (R330): event 2 with the record stored. -/
def State.evExpire (s : State) (ch : Nat) (o : EvOpen) : State :=
  let s1 := s.evGatedEnd ch o { evAlone 3 o with timeout := true }
  if (s.evt ch).fifo.length < 256 then s1.raise (ch / 8) B.EVT (ch % 8) 2 else s1

/-- A GATED measurement whose expiry tick has passed by `tick` expires; the one that a start of that tick opened may have too. -/
def State.evOverdue (s : State) (ch tick : Nat) : State :=
  match (s.evt ch).cur with
  | some o =>
    match o.closes with
    | some c => if c < tick then s.evExpire ch o else s
    | none => s
  | none => s

/-- A start of a GATED channel (R329, R330): a stop that came just before it completes it; in the expiry tick of the open measurement,
which a stop of that tick may still complete, it waits. -/
def State.evGatedStart (s0 : State) (ch : Nat) (a : EvEdge) : State :=
  let s := (s0.evOverdue ch a.tick).evOverdue ch a.tick
  let d := ch / 8
  let k := ch % 8
  let armed := s.flag F.EVT.STATUS_ARMED d k
  let x := s.evt ch
  match x.cur with
  | none =>
    if !armed then s
    else
      match x.lastStop with
      | some b =>
        if s.evClosest ch a b then
          ((s.setEvt ch { x with lastStop := none }).wf F.EVT.NOSTART_COUNT d k
            (s.rf F.EVT.NOSTART_COUNT d k - 1)).evStore ch { s.evPair ch 3 a b false false with applies := x.strayAt }
        else s.evOpenGated ch a
      | none => s.evOpenGated ch a
  | some o =>
    if armed && o.closes == some a.tick && o.next.isNone then s.setOpen ch (some { o with next := some a })
    else s.addSat F.EVT.IGNORED_COUNT d k 1

/-- A stop of a GATED channel (R329, R330). -/
def State.evGatedStop (s0 : State) (ch : Nat) (a : EvEdge) : State :=
  let s := (s0.evOverdue ch a.tick).evOverdue ch a.tick
  let d := ch / 8
  let k := ch % 8
  match (s.evt ch).cur with
  | none => (s.setEvt ch { s.evt ch with lastStop := some a, strayAt := [] }).addSat F.EVT.NOSTART_COUNT d k 1
  | some o =>
    match o.edges with
    | b :: _ =>
      if evDurExact b a ≤ -(s.evBin ch * 2 ^ 40) then s.addSat F.EVT.NOSTART_COUNT d k 1
      else s.evGatedEnd ch o (s.evPair ch 3 b a false (o.closes == some a.tick))
    | [] => s

/-- An edge for a channel by its mode: a start, or the channel's own crossing. -/
def State.evEdgeFor (s : State) (ch : Nat) (a : EvEdge) (isStart : Bool) : State :=
  match s.rfF F.EVT.CFG_MODE (ch / 8) (ch % 8) with
  | 0 => if isStart then s else s.evModeEdge ch a
  | 1 => if isStart then s else s.evModeTrain ch a
  | 2 => s.evModePaired ch a isStart
  | 3 => if isStart then s.evGatedStart ch a else s.evGatedStop ch a
  | _ => s

/-- A start reaches every channel of the die that names its source (R326). -/
def State.evStart (s : State) (d src : Nat) (a : EvEdge) : State :=
  (List.range 8).foldl (fun s k =>
    if s.inRun d B.EVT k && s.rfF F.EVT.CFG_START_SRC d k == src && (src != k) then s.evEdgeFor (8 * d + k) a true else s) s

/-- The crossing comes within 4 ns of the last one accepted (R316). -/
def State.evDead (s : State) (ch : Nat) (a : EvEdge) : Bool :=
  match (s.evt ch).lastCross with
  | some (T, tdc) =>
    let fs : Int := (Int.ofNat a.tick - Int.ofNat T) * Int.ofNat a.rate * 10 ^ 6 / 2 ^ 40 - (a.tdc - tdc)
    decide (fs < 4000000)
  | none => false

/-- The DEAD byte of a record counts one more, saturating. -/
def bumpDead (r : List Byte) : List Byte := r.set 8 (BitVec.ofNat 8 (min 255 ((r.getD 8 0).toNat + 1)))

/-- SEQ of a record. -/
def recordSeq (r : List Byte) : Nat := (r.getD 0 0).toNat + 256 * (r.getD 1 0).toNat

/-- The record of channel `ch`, open or in its FIFO, that holds the last accepted crossing of local channel `c` counts an
ignored one (R316). -/
def State.evDeadIn (s : State) (ch c : Nat) : State :=
  let x := s.evt ch
  let cur := x.cur.map fun o =>
    if o.edges.any fun a => a.src == c && s.isLast (ch / 8) a then { o with dead := o.dead + 1 } else o
  s.setEvt ch { x with cur := cur, fifo := x.fifo.map fun r => if x.held.contains (c, recordSeq r) then bumpDead r else r }

/-- A crossing ignored for dead time is counted, also in each record of the die that holds the accepted one: the channel's own,
and one whose start it is (R316, R326). -/
def State.evIgnoreDead (s : State) (ch : Nat) : State :=
  let d := ch / 8
  (List.range 8).foldl (fun s k => s.evDeadIn (8 * d + k) (ch % 8)) (s.addSat F.EVT.DEAD_COUNT d (ch % 8) 1)

/-- A crossing of a channel is accepted: no stored record holds the one before it as the last. -/
def State.evAccept (s : State) (ch : Nat) (a : EvEdge) : State :=
  let forget (s : State) (k : Nat) : State :=
    let x := s.evt (8 * (ch / 8) + k)
    s.setEvt (8 * (ch / 8) + k) { x with held := x.held.filter fun p => p.1 != ch % 8 }
  let s1 := (List.range 8).foldl forget s
  s1.setEvt ch { s1.evt ch with lastCross := some (a.tick, a.tdc) }

/-- The channel's slope selection takes the crossing (R314). -/
def State.evSlope (s : State) (ch : Nat) (rising : Bool) : Bool :=
  bitSet (s.rfF F.EVT.CFG_SLOPE (ch / 8) (ch % 8)) (if rising then 0 else 1)

/-- EVENT_CROSSING: the comparator of a channel passes its threshold, `taps` delay-line taps before the present ridge
edge (R313 to R330). -/
def execEventCrossing (ch : Nat) (rising : Bool) (taps : Nat) (s : State) : Out :=
  if Config.nChannels s.part ≤ ch then .fault .absentInstance
  else
    let d := ch / 8
    let k := ch % 8
    let s1 := s.putFlag F.EVT.STATUS_COMP d k rising
    if !(s.inRun d B.EVT k && s.inRun d B.FIELD 0 && s.flag F.FIELD.STATUS_FVDD_OK d 0 && s.evSlope ch rising) then .next s1
    else
      let a := s1.evEdge ch rising taps
      if s1.evDead ch a then .next (s1.evIgnoreDead ch)
      else
        .next (((s1.evAccept ch a).evEdgeFor ch a false).evStart d k a)

/-! ## Arming (R322 to R324) -/

/-- The gate of a channel, as the comparator of the named channel stands (R322, R337). -/
def State.gateActive (s : State) (ch : Nat) : Bool :=
  let d := ch / 8
  let g := s.rfF F.EVT.CFG_GATE_SRC d (ch % 8)
  decide (g < 8) && s.inRun d B.EVT g && s.rfF F.EVT.CFG_MODE d g == 4 &&
    (s.flag F.EVT.STATUS_COMP d g != (s.rfF F.EVT.CFG_GATE_POL d (ch % 8) == 1))

/-- The gate is sampled, into STATUS.GATE: on every ridge edge, whatever the run state (R322). -/
def State.gateSample (s : State) (ch : Nat) : State := s.putFlag F.EVT.STATUS_GATE (ch / 8) (ch % 8) (s.gateActive ch)

/-- The channel is armed (R313, R322), on the gate sample that STATUS.GATE shows. -/
def State.armedHolds (s : State) (ch : Nat) : Bool :=
  let d := ch / 8
  let k := ch % 8
  s.inRun d B.EVT k && s.inRun d B.FIELD 0 && s.flag F.EVT.ARM_ARM d k &&
    (decide (6 ≤ k) || s.rfF F.EVT.CFG_GATE_SRC d k == 0xF || s.flag F.EVT.STATUS_GATE d k)

/-- A GATED measurement that was disarmed at tick `t` ends: by its timeout where that had passed by then (R330). -/
def State.evDisarmed (s : State) (ch t : Nat) (o : EvOpen) : State :=
  let ends (s : State) (o : EvOpen) : State := s.evClose ch o { evAlone 3 o with gateEnd := true }
  match o.closes with
  | some c =>
    if c ≤ t then
      let s1 := s.evExpire ch o
      match (s1.evt ch).cur with
      | some q => ends s1 q
      | none => s1
    else ends s o
  | none => ends s o

/-- A ridge edge: the gate is sampled, ARMED follows, and a GATED measurement that was disarmed before ends (R322, R330). -/
def State.evTick (s : State) (ch : Nat) : State :=
  let d := ch / 8
  let k := ch % 8
  if !s.inRun d B.EVT k then s.gateSample ch
  else
    let s1 := match (s.evt ch).cur with
      | some o =>
        match o.ending with
        | some t => s.evDisarmed ch t o
        | none => s
      | none => s
    let s2 := s1.gateSample ch
    let was := s2.flag F.EVT.STATUS_ARMED d k
    let s3 := s2.wfRaise F.EVT.STATUS_ARMED d k (ofBool (s2.armedHolds ch)) 3
    match (s3.evt ch).cur with
    | some o =>
      if was && !s3.flag F.EVT.STATUS_ARMED d k && s3.rfF F.EVT.CFG_MODE d k == 3 then
        s3.setEvt ch { s3.evt ch with cur := some { o with ending := some (s3.pkgTick d) } }
      else s3
    | none => s3

/-- A channel enters RUN: its gate by the configuration now in force, and ARMED (R322, R336). -/
def State.evStarted (s : State) (ch : Nat) : State :=
  let s1 := s.gateSample ch
  s1.wfRaise F.EVT.STATUS_ARMED (ch / 8) (ch % 8) (ofBool (s1.armedHolds ch)) 3

/-- A change of the time scale applied at `A` is noted by every open record of the die, and with every stop that may still
complete one (R318, R330). -/
def State.evApplied (s : State) (d A : Nat) : State :=
  (List.range 8).foldl (fun s k =>
    let x := s.evt (8 * d + k)
    s.setEvt (8 * d + k) { x with cur := x.cur.map fun o => { o with applies := A :: o.applies },
                                  strayAt := if x.lastStop.isSome then A :: x.strayAt else x.strayAt }) s

/-- ARM_WRITE: it takes effect from the next ridge edge (R324). -/
def execArmWrite (e ch : Nat) (arm : Bool) (s : State) : Out :=
  arriveWrite e (mkFa (ch / 8) B.EVT (ch % 8) 0x10) 32 (ofBool arm) s fun s =>
    s.putFlag F.EVT.ARM_ARM (ch / 8) (ch % 8) arm

/-! ## Windows and timeouts -/

/-- What is open in mode `mode` and whose last tick has passed is stored: an edge of that tick still belongs to it (R327, R328,
R330). -/
def State.evOver (s : State) (ch mode : Nat) : State :=
  match (s.evt ch).cur with
  | some o =>
    match o.closes with
    | some c =>
      if s.rfF F.EVT.CFG_MODE (ch / 8) (ch % 8) = mode ∧ c < s.pkgTick (ch / 8) then
        match mode with
        | 1 =>
          let s1 := s.evClose ch o { kind := 1, edges := o.edges, late := o.late }
          s1.setEvt ch { s1.evt ch with closedAt := some c }
        | 2 => s.evClose ch o { evAlone 2 o with unpaired := true }
        | _ => s.evExpire ch o
      else s
    | none => s
  | none => s

/-- TRAIN_WINDOW_CLOSE (R327). -/
def execTrainWindowClose (ch : Nat) (s : State) : Out :=
  if Config.nChannels s.part ≤ ch then .fault .absentInstance else .next (s.evOver ch 1)

/-- PAIRED_WINDOW_CLOSE (R328). -/
def execPairedWindowClose (ch : Nat) (s : State) : Out :=
  if Config.nChannels s.part ≤ ch then .fault .absentInstance else .next (s.evOver ch 2)

/-- GATED_TIMEOUT (R329, R330). -/
def execGatedTimeout (ch : Nat) (s : State) : Out :=
  if Config.nChannels s.part ≤ ch then .fault .absentInstance else .next (s.evOver ch 3)

/-! ## Threshold (R315) -/

/-- Ticks in 2 µs. -/
def settleTicks : Nat := 1250

/-- A new threshold reaches the DAC. -/
def State.wrThresh (s : State) (ch code : Nat) : State :=
  let d := ch / 8
  let k := ch % 8
  ((s.wf F.EVT.THRESH_CODE d k code).setFlag F.EVT.STATUS_SETTLING d k).setEvt ch
    { s.evt ch with settleAt := some (s.tick d + settleTicks) }

/-- THRESH_WRITE. -/
def execThreshWrite (e ch : Nat) (code : BitVec 12) (s : State) : Out :=
  arriveWrite e (mkFa (ch / 8) B.EVT (ch % 8) 4) 32 code.toNat s fun s => s.wrThresh ch code.toNat

/-- THRESH_SETTLED: two microseconds after the last threshold write. -/
def execThreshSettled (ch : Nat) (s : State) : Out :=
  if Config.nChannels s.part ≤ ch then .fault .absentInstance
  else match (s.evt ch).settleAt with
    | some t =>
      if t ≤ s.tick (ch / 8) then
        .next ((s.wf F.EVT.STATUS_SETTLING (ch / 8) (ch % 8) 0).setEvt ch { s.evt ch with settleAt := none })
      else .next s
    | none => .next s

/-! ## The record FIFO (R333 to R335) -/

/-- The address of EVT.REC_HEAD. -/
def evtHeadAddr (ch : Nat) : Nat := mkFa (ch / 8) B.EVT (ch % 8) 0x40

/-- REC_HEAD as it shows a record. -/
def recHeadWord (r : List Byte) : Nat :=
  2 ^ 63 + (r.getD 2 0).toNat % 8 * 2 ^ 32 + (r.getD 0 0).toNat + 256 * (r.getD 1 0).toNat

/-- A 64-bit read of REC_HEAD; while event frames carry the records it only flags (R334). -/
def State.evtHead (s : State) (ch : Nat) : State × Nat :=
  let d := ch / 8
  let k := ch % 8
  let x := s.evt ch
  match x.fifo with
  | [] => (s, 0)
  | r :: q =>
    if s.rfF F.EVT.FR_CFG_EN d k == 1 && s.inRun d B.EVT k then (s.setFlag F.EVT.ERR_READ_IGN d k, 0)
    else
      ((s.setEvt ch { x with fifo := q, record := r }).wf F.EVT.STATUS_DEPTH d k
        q.length, recHeadWord r)

/-- EVT_REC_HEAD_READ. -/
def execEvtRecHeadRead (e ch : Nat) (s : State) : Out := arriveRead e (evtHeadAddr ch) 64 s fun s => s.evtHead ch

/-- The widths of a record's fields in bytes: a TRAIN's fifteen offsets, or DIFF and zeros. -/
def recordWidths (kind : Nat) : List Nat :=
  [2, 1, 1, 2, 2, 1, 1, 1, 1, 4, 16] ++ (if kind = 1 then List.replicate 15 4 else [8, 52]) ++ [4]

/-- Each field of a record turned to network order (R331). -/
def flipFields : List Nat → List Byte → List Byte
  | [], r => r
  | n :: ws, r => (r.take n).reverse ++ flipFields ws (r.drop n)

/-- The event frame of a record, with its FCS (R335). -/
def eventFrame (r : List Byte) : List Byte :=
  withFcs (List.replicate 12 0 ++ [0x88, 0xB5, 0x30, 0x01] ++ bytesBE 8 Config.deviceId.toNat ++
    flipFields (recordWidths (r.getD 2 0).toNat) r)

/-- A frame that the device itself delivers to an engine (R308, R335). -/
def State.ownFrame (s : State) (d : Nat) (bytes : List Byte) : RxFrame :=
  { time := (xtOfUnits (s.now d)).toNat, ingress := 0xFFFF, tg := s.tg d, fcsBad := false, bytes := bytes }

/-- EVENT_FRAME_DELIVER: the head record leaves as an event frame once the engine's queue has room (R334). -/
def execEventFrameDeliver (ch : Nat) (s : State) : Out :=
  if Config.nChannels s.part ≤ ch then .fault .absentInstance
  else
    let d := ch / 8
    let k := ch % 8
    let e := s.rfF F.EVT.FR_CFG_ENG d k
    let x := s.evt ch
    match x.fifo with
    | r :: q =>
      if s.rfF F.EVT.FR_CFG_EN d k == 1 && s.inRun d B.EVT k && decide ((s.eng e).rxq.length < 32) then
        .next (((s.setEvt ch { x with fifo := q }).wf F.EVT.STATUS_DEPTH d k
          q.length).rxDeliver e (s.ownFrame d (eventFrame r)))
      else .next s
    | [] => .next s

/-! ## Run states (R336, R337) -/

/-- At entry to STOPPING what is open closes with TRUNC, unless its last tick had passed; outside RUN the channel is
disarmed. -/
def State.evtLeaveRun (s0 : State) (ch : Nat) : State :=
  let d := ch / 8
  let k := ch % 8
  let kind := s0.rfF F.EVT.CFG_MODE d k
  let s2 := s0.evOver ch kind
  let s := match (s2.evt ch).cur with
    | some o => if o.next.isSome then s2.evExpire ch o else s2
    | none => s2
  let s1 := match (s.evt ch).cur with
    | some o => s.evClose ch o
        (if kind = 1 then { kind := 1, edges := o.edges, late := o.late, trunc := true }
         else { evAlone kind o with trunc := true, unpaired := kind == 2 })
    | none => s
  s1.wfRaise F.EVT.STATUS_ARMED d k 0 3

/-- The start checks of R337: the lowest code that fails, 0 for none. -/
def State.evtStartErr (s : State) (d k : Nat) : Nat :=
  let mode := s.rf F.EVT.CFG_MODE d k
  let src := s.rf F.EVT.CFG_START_SRC d k
  let gate := s.rf F.EVT.CFG_GATE_SRC d k
  let win := s.rf F.EVT.WIN_TICKS d k
  let eng := s.rf F.EVT.FR_CFG_ENG d k
  let own := s.owner d B.EVT k
  let interval := mode == 2 || mode == 3
  if 5 ≤ mode ∨ s.rf F.EVT.CFG_SLOPE d k = 0 then 0x10
  else if interval ∧ ((12 ≤ src ∧ src ≤ 15) ∨ src = k) then 0x11
  else if gate ≠ 0xF ∧ (gate = k ∨ 6 ≤ k) then 0x12
  else if (src < 8 ∧ s.owner d B.EVT src ≠ own) ∨ (gate < 8 ∧ s.owner d B.EVT gate ≠ own) ∨
      (8 ≤ src ∧ src ≤ 11 ∧ own ≠ 0) then 0x13
  else if (mode = 1 ∨ mode = 2) ∧ (win = 0 ∨ 625000 < win) then 0x14
  else if s.rf F.EVT.FR_CFG_EN d k = 1 ∧
      (Config.nEngines s.part ≤ eng ∨ eng / 4 ≠ d ∨ s.engPart eng ≠ own) then 0x15
  else 0

end Sys2Proof.Machine
end

