-- ==== Sys2Proof/Machine/Field.lean ====
section
/-!
DEFINITION. The field bank's timing outputs (R459 to R470): targets, edges and pulses, IRIG-B, the trigger, the supply. An
output is named by its die and number 0 to 3.
-/
namespace Sys2Proof.Machine

/-- Output `k` of die `d`. -/
def State.out (s : State) (d k : Nat) : OutState := Store.get {} s.outs (4 * d + k)
def State.setOut (s : State) (d k : Nat) (x : OutState) : State := { s with outs := Store.put {} s.outs (4 * d + k) x }

/-- Bit `k` of a field set or cleared. -/
def State.putBit (s : State) (f : Fld) (d i k : Nat) (b : Bool) : State :=
  let v := s.rf f d i
  s.wf f d i (if b then v ||| 2 ^ k else v - (v &&& 2 ^ k))

/-- The bank's outputs are driven: FIELD in RUN and FVDD_d present (R460, R84). -/
def State.fieldLive (s : State) (d : Nat) : Bool := s.inRun d B.FIELD 0 && s.flag F.FIELD.STATUS_FVDD_OK d 0

/-- The function in force of an output (R465). -/
def State.outFunc (s : State) (d k : Nat) : Nat := s.rfF (F.FIELD.OUT_CFG_FUNC k) d 0

/-- STATUS.LEVEL of an output: the pulse, inverted by POL; low while R460 or R84 holds the output. -/
def State.outLevel (s : State) (d k : Nat) : State :=
  let pol := s.rfF (F.FIELD.OUT_CFG_POL k) d 0 == 1
  s.putBit F.FIELD.STATUS_LEVEL d 0 k (s.fieldLive d && ((s.out d k).high != pol))

/-- The delay from a ridge edge to the connector in femtoseconds, SKEW included (R463, R464). -/
def State.outLead (s : State) (d : Nat) (adj : Int) : Int :=
  250 * (s.rfS F.RIDGE.SKEW_SKEW d 0 + Int.ofNat (s.rf F.FIELD.OUT_FIXED_FIXED d 0) + adj)

/-- The first package tick whose edge, `fs` later, is at or after a target minus 0.8 ns, by the scale in force (R464). -/
def State.firstTick (s : State) (d : Nat) (target fs : Int) : Nat :=
  let r := s.ridge d
  let need : Int := -((-(target * 10 ^ 6 - (800000 + fs) * 2 ^ 32)) / 10 ^ 6)
  let n : Int := (need - Int.ofNat r.offset) * 2 ^ 8
  let q : Int := if r.rate = 0 then 0 else -((-n) / Int.ofNat r.rate)
  (Int.ofNat r.base + q).toNat

/-- Instants in 2^-32 ns units. -/
def secUnits (n : Nat) : Nat := n * unitsPerSec
/-- The second at or after an instant. -/
def secCeil (u : Nat) : Nat := (u + unitsPerSec - 1) / unitsPerSec

/-- The tick of a target on an output: not before the next ridge edge. -/
def State.planTick (s : State) (d : Nat) (target adj : Int) : Nat :=
  max (s.pkgTick d + 1) (s.firstTick d target (s.outLead d adj))

/-! ## IRIG-B (R467, R468; the frame of IRIG Standard 200, PRESUMED) -/

/-- The year, the day of the year from 1, and the second of the day of a count of seconds from 1 January 1970. -/
def civil (secs : Nat) : Nat × Nat × Nat :=
  let days := secs / 86400
  let z := days + 719468
  let doe := z % 146097
  let yoe := (doe - doe / 1460 + doe / 36524 - doe / 146096) / 365
  let doy := doe - (365 * yoe + yoe / 4 - yoe / 100)
  let mp := (5 * doy + 2) / 153
  let y := yoe + z / 146097 * 400 + (if mp < 10 then 0 else 1)
  let start := 365 * (y - 1970) + (y - 1969) / 4 - (y - 1901) / 100 + (y - 1601) / 400
  (y, days - start + 1, secs % 86400)

/-- Bits of a number as pulses: one is 5 ms, zero 2 ms. -/
def irigBits (n v : Nat) : List Nat := (List.range n).map fun i => if v.testBit i then 5 else 2

/-- Code x of B00x carries a year, control functions, straight binary seconds. -/
def irigYear (x : Nat) : Bool := decide (4 ≤ x)
def irigCf (x : Nat) : Bool := x == 0 || x == 1 || x == 4 || x == 5
def irigSbs (x : Nat) : Bool := x == 0 || x == 3 || x == 4 || x == 7

/-- The hundred pulse lengths of a frame in ms. -/
def irigFrame (x cf secs : Nat) : List Nat :=
  let t := civil secs
  let y := t.1 % 100
  let doy := t.2.1
  let sod := t.2.2
  let s := sod % 60
  let m := sod / 60 % 60
  let h := sod / 3600
  let c := if irigCf x then cf else 0
  let later := if irigYear x then 0 else 9
  let slot5 := if irigYear x then irigBits 4 (y % 10) ++ [2] ++ irigBits 4 (y / 10) else irigBits 9 c
  let sb := if irigSbs x then sod else 0
  [8] ++ irigBits 4 (s % 10) ++ [2] ++ irigBits 3 (s / 10) ++ [8] ++
    irigBits 4 (m % 10) ++ [2] ++ irigBits 3 (m / 10) ++ [2, 8] ++
    irigBits 4 (h % 10) ++ [2] ++ irigBits 2 (h / 10) ++ [2, 2, 8] ++
    irigBits 4 (doy % 10) ++ [2] ++ irigBits 4 (doy / 10 % 10) ++ [8] ++
    irigBits 2 (doy / 100) ++ List.replicate 7 2 ++ [8] ++
    slot5 ++ [8] ++ irigBits 9 (c / 2 ^ later) ++ [8] ++ irigBits 9 (c / 2 ^ (later + 9)) ++ [8] ++
    irigBits 9 sb ++ [8] ++ irigBits 8 (sb / 2 ^ 9) ++ [2, 8]

/-! ## Scheduling and driving -/

/-- The first second that an output may mark at an instant (R466). -/
def State.nextSecondAt (s : State) (d k now : Nat) : Nat :=
  let x := s.out d k
  let after := match x.lastSec with
    | some l => l + 1
    | none => 0
  max (max after x.firstSec) (secCeil (max now x.floor))

/-- The first second that an output may mark now (R466). -/
def State.nextSecond (s : State) (d k : Nat) : Nat := s.nextSecondAt d k (s.now d)

/-- The bit slot of a frame that comes next at an instant: a slot that the time has passed has no edge. -/
def OutState.slotAt (x : OutState) (now : Nat) : Nat := max x.slot ((max now x.floor - secUnits x.second + (msUnits 10 - 1)) / msUnits 10)

/-- An output's next target at an instant with its pulse in ticks, and the output with what is taken one millisecond before
it. -/
def State.nextTargetAt (s : State) (d k now : Nat) : Option (Int × Nat × OutState) :=
  let x := s.out d k
  let width := s.rfF (F.FIELD.OUT_CFG_WIDTH k) d 0 * 625
  match s.outFunc d k with
  | 1 =>
    let S := s.nextSecondAt d k now
    some (Int.ofNat (secUnits S), width, { x with second := S })
  | 3 =>
    let j := x.slotAt now
    if x.frame ≠ [] ∧ j < 100 then
      some (Int.ofNat (secUnits x.second + msUnits (10 * j)), x.frame.getD j 2 * 625000, { x with slot := j })
    else
      let S := s.nextSecondAt d k now
      let f := irigFrame (s.rfF (F.FIELD.OUT_CFG_IRIG k) d 0) (s.rf (F.FIELD.OUT_IRIG_CF_CF k) d 0)
        (Int.ofNat S + s.rfS (F.FIELD.OUT_IRIG_OFS_OFS k) d 0).toNat
      some (Int.ofNat (secUnits S), f.getD 0 8 * 625000, { x with frame := f, slot := 0, second := S })
  | 4 => x.trig.map fun t => (Int.ofNat t, width, x)
  | _ => none

/-- An output's next target. -/
def State.nextTarget (s : State) (d k : Nat) : Option (Int × Nat × OutState) := s.nextTargetAt d k (s.now d)

/-- OUTPUT_EDGE_SCHEDULE: one millisecond before its target the output fixes the tick (R464). -/
def execOutputEdgeSchedule (d k : Nat) (s : State) : Out :=
  if !s.hasDie d then .fault .absentDie
  else if 4 ≤ k then .fault .absentInstance
  else if !s.inRun d B.FIELD 0 || (s.out d k).plan.isSome then .next s
  else
    match s.nextTarget d k with
    | some (target, width, x) =>
      if target ≤ Int.ofNat (s.now d + msUnits 1) then
        let adj := s.rfS (F.FIELD.OUT_ADJ_OUT_ADJ k) d 0
        .next (s.setOut d k { x with plan := some ⟨target, s.planTick d target adj, adj, width⟩ })
      else .next s
    | none => .next s

/-- The output's pulse begins on the present tick: its level, and a start for the channels that name it (R326). -/
def State.pulse (s : State) (d k width : Nat) : State :=
  let x := s.out d k
  let s1 := (s.setOut d k { x with high := true, plan := none, endsAt := some (s.tick d + width) }).outLevel d k
  s1.evStart d (8 + k) (s1.outEdge d k (s.rfF (F.FIELD.OUT_CFG_POL k) d 0 == 0))

/-- LAST_EDGE and QERR of an edge driven now (R464). -/
def State.edgeMark (s : State) (d k : Nat) (adj : Int) (qerr : Int → Int) : State :=
  let conn := s.edgeUnits d (s.pkgTick d)
    (250 * (Int.ofNat (s.rf F.FIELD.OUT_FIXED_FIXED d 0) + adj))
  (s.wf (F.FIELD.OUT_LAST_EDGE_TIME k) d 0 (xtOfInt conn).toNat).wf (F.FIELD.OUT_QERR_QERR k) d 0
    (ofSigned 32 (qerr conn))

/-- The trigger of an output is over: ARM and STATUS.ARMED clear. -/
def State.disarm (s : State) (d k : Nat) : State :=
  ((s.setOut d k { s.out d k with trig := none, plan := none }).wf (F.FIELD.OUT_TRIG_CTL_ARM k) d 0 0).putBit
    F.FIELD.STATUS_ARMED d 0 k false

/-- A planned edge falls due: what it marks by its function; nothing leaves the ball without FVDD_d (R460, R469),
and its second then counts as not driven (R466). -/
def State.driveEdge (s : State) (d k : Nat) (p : OutPlan) : State :=
  let f := s.outFunc d k
  let x := s.out d k
  if !s.fieldLive d then
    if f = 4 then (s.disarm d k).setFlag F.FIELD.ERR_TRIG_LOST d 0
    else s.setOut d k { x with plan := none, floor := p.target.toNat + 1, slot := x.slot + 1 }
  else
    let s1 := (s.pulse d k p.width).edgeMark d k p.adj fun conn => units16 (conn - p.target)
    match f with
    | 4 => (s1.disarm d k).raise d B.FIELD 0 1
    | 3 =>
      let s2 := s1.setOut d k { s1.out d k with lastSec := some x.second, slot := x.slot + 1 }
      if x.slot = 0 then s2.raise d B.FIELD 0 0 else s2
    | _ => (s1.setOut d k { s1.out d k with lastSec := some x.second }).raise d B.FIELD 0 0

/-- OUTPUT_EDGE: the planned edge's tick has come (R463, R464). -/
def execOutputEdge (d k : Nat) (s : State) : Out :=
  if !s.hasDie d then .fault .absentDie
  else if 4 ≤ k then .fault .absentInstance
  else
    match (s.out d k).plan with
    | some p => if s.inRun d B.FIELD 0 && decide (p.tick ≤ s.pkgTick d) then .next (s.driveEdge d k p) else .next s
    | none => .next s

/-- OUTPUT_PULSE_END: the pulse's length is over (R465); the falling edge is driven too (R326). -/
def execOutputPulseEnd (d k : Nat) (s : State) : Out :=
  if !s.hasDie d then .fault .absentDie
  else if 4 ≤ k then .fault .absentInstance
  else
    let x := s.out d k
    match x.endsAt with
    | some t =>
      if t ≤ s.tick d then
        let s1 := (s.setOut d k { x with high := false, endsAt := none }).outLevel d k
        if s.fieldLive d && x.high then
          .next (s1.evStart d (8 + k) (s1.outEdge d k (s.rfF (F.FIELD.OUT_CFG_POL k) d 0 == 1)))
        else .next s1
      else .next s
    | none => .next s

/-- The connector time of an output's next ridge edge less a target and its 0.8 ns, in 10^-6 of 2^-32 ns (R464, R469). -/
def State.trigMargin (s : State) (d : Nat) (target adj : Int) : Int :=
  Int.ofNat (s.unitsAt d (s.pkgTick d + 1)) * 10 ^ 6 + s.outLead d adj * 2 ^ 32 - (target * 10 ^ 6 - 800000 * 2 ^ 32)

/-- An edge whose tick has come is driven before a write of ARM in its cycle takes effect (R21, R469). -/
def State.trigFires (s : State) (d k : Nat) : State :=
  match (s.out d k).plan with
  | some p => if s.inRun d B.FIELD 0 && s.outFunc d k == 4 && decide (p.tick ≤ s.pkgTick d) then s.driveEdge d k p else s
  | none => s

/-- A trigger is judged, at its arming or at the start of its bank: a target that the next ridge edge serves goes on it, late where
that edge's connector time lies beyond the target less 0.8 ns (R469). -/
def State.trigJudge (s : State) (d k : Nat) : State :=
  let x := s.out d k
  match x.trig with
  | some target =>
    let adj := s.rfS (F.FIELD.OUT_ADJ_OUT_ADJ k) d 0
    let m := s.trigMargin d (Int.ofNat target) adj
    if s.inRun d B.FIELD 0 && s.outFunc d k == 4 && decide (0 ≤ m) then
      let width := s.rfF (F.FIELD.OUT_CFG_WIDTH k) d 0 * 625
      let s1 := s.setOut d k { x with plan := some ⟨Int.ofNat target, s.pkgTick d + 1, adj, width⟩ }
      if 0 < m then s1.setFlag F.FIELD.ERR_TRIG_LATE d 0 else s1
    else s
  | none => s

/-- Writing one to ARM latches TRIG_TIME and arms the output (R469). -/
def State.wrTrigArm (s0 : State) (d k : Nat) (arm : Bool) : State :=
  let s := s0.trigFires d k
  if !arm then s.disarm d k
  else
    let target := XT.units (BitVec.ofNat 128 (s.rf (F.FIELD.OUT_TRIG_TIME_TIME k) d 0))
    let s1 := s.setOut d k { s.out d k with trig := some target, plan := none }
    ((s1.wf (F.FIELD.OUT_TRIG_CTL_ARM k) d 0 1).putBit F.FIELD.STATUS_ARMED d 0 k true).trigJudge d k

/-- TRIGGER_ARM. -/
def execTriggerArm (e d k : Nat) (s : State) : Out :=
  if 4 ≤ k then .fault .absentInstance
  else arriveWrite e (mkFa d B.FIELD 0 (0x110 + 64 * k)) 32 1 s fun s => s.wrTrigArm d k true

/-! ## Supply and run states -/

/-- The bank follows its supply: every output's level. -/
def State.outLevels (s : State) (d : Nat) : State := (List.range 4).foldl (fun s k => s.outLevel d k) s

/-- FVDD_LOSS (R460): pulses end, nothing is driven; the bank's supply is seen in reset too (R158). -/
def execFvddLoss (d : Nat) (s : State) : Out :=
  if s.resets.asserted && s.hasDie d then .next (s.wf F.FIELD.STATUS_FVDD_OK d 0 0)
  else onDie d s fun s =>
    if !s.flag F.FIELD.STATUS_FVDD_OK d 0 then s
    else
      let low (s : State) (k : Nat) : State := s.setOut d k { s.out d k with high := false, endsAt := none }
      (((((List.range 4).foldl low s).setFlag F.FIELD.ERR_FVDD_LOST d 0).wf F.FIELD.STATUS_FVDD_OK d 0 0).raise d
        B.FIELD 0 2).outLevels d

/-- FVDD_RESTORE (R460). -/
def execFvddRestore (d : Nat) (s : State) : Out :=
  if s.resets.asserted && s.hasDie d then .next (s.wf F.FIELD.STATUS_FVDD_OK d 0 1)
  else onDie d s fun s =>
    if s.flag F.FIELD.STATUS_FVDD_OK d 0 then s
    else ((s.setFlag F.FIELD.STATUS_FVDD_OK d 0).raise d B.FIELD 0 2).outLevels d

/-- The start checks of R470. -/
def State.fieldStartErr (s : State) (d : Nat) : Nat :=
  let f (k : Nat) := s.rf (F.FIELD.OUT_CFG_FUNC k) d 0
  let w (k : Nat) := s.rf (F.FIELD.OUT_CFG_WIDTH k) d 0
  let ks := List.range 4
  if ks.any fun k => decide (5 ≤ f k) then 0x10
  else if d ≠ 0 ∧ ks.any (fun k => f k == 2) then 0x11
  else if ks.any fun k => (f k == 1 || f k == 2 || f k == 4) && (w k == 0 || decide (1000000 ≤ w k)) then 0x12
  else 0

/-- FIELD enters RUN: each output begins with the first second at least 1 ms away (R466), and a trigger armed before is judged
(R469). -/
def State.fieldStarted (s : State) (d : Nat) : State :=
  let first := secCeil (s.now d + msUnits 1)
  let one (s : State) (k : Nat) : State :=
    let x := s.out d k
    s.setOut d k { x with plan := none, high := false, endsAt := none, firstSec := first, frame := [], slot := 0 }
  (List.range 4).foldl (fun s k => s.trigJudge d k) (((List.range 4).foldl one s).outLevels d)

/-- FIELD leaves RUN: its outputs are driven low (R84). -/
def State.fieldStopped (s : State) (d : Nat) : State :=
  let one (s : State) (k : Nat) : State :=
    s.setOut d k { s.out d k with plan := none, high := false, endsAt := none, frame := [], slot := 0 }
  ((List.range 4).foldl one s).outLevels d

/-- An edge is skipped by a change of the time scale (R464). DESIGN CHOICE (log entry 99): a trigger that is skipped keeps ARM
and drives nothing before it is armed again. -/
def State.edgeSkip (s : State) (d k : Nat) : State :=
  let x := s.out d k
  let y := { x with plan := none, slot := if x.plan.isSome then x.slot + 1 else x.slot,
                    trig := if s.outFunc d k = 4 then none else x.trig }
  ((s.setOut d k y).setFlag F.FIELD.ERR_STEP_SKIP d 0).raise d B.FIELD 0 3

/-- A change of the time scale at the present tick, before which the time was `old`: an output's next edge is placed again, or
skipped where its target now lies at or before the present time (R464). -/
def State.edgeReplace (s : State) (d old k : Nat) : State :=
  let x := s.out d k
  match x.plan with
  | some p =>
    if p.tick ≤ s.pkgTick d then s
    else if p.target ≤ Int.ofNat (s.now d) then s.edgeSkip d k
    else s.setOut d k { x with plan := some { p with tick := s.planTick d p.target p.adj } }
  | none =>
    match s.nextTargetAt d k old with
    | some (t, _, _) =>
      if s.inRun d B.FIELD 0 && decide (Int.ofNat old < t) && decide (t ≤ Int.ofNat (s.now d)) then s.edgeSkip d k else s
    | none => s

/-- A change of the time scale reaches every output of the bank: no edge is driven for a target at or before it (R464). -/
def State.fieldReplace (s : State) (d old : Nat) : State :=
  (List.range 4).foldl (fun s k =>
    let s1 := s.edgeReplace d old k
    s1.setOut d k { s1.out d k with floor := s1.now d + 1 }) s

end Sys2Proof.Machine
end

