-- ==== Sys2Proof/Machine/Gnss.lean ====
section
/-!
DEFINITION. The satellite reference (R294 to R312): channels, solutions, MODEL and its states, the PPS edge and its
message. What the antenna delivers are operands.
-/
namespace Sys2Proof.Machine

def State.setGnss (s : State) (g : GnssState) : State := { s with gnss := g }

/-- GSTATE: 0 NOFIX, 1 LOCKED, 2 HOLDOVER, 3 SLEWING, 4 WAIT_ACK (R303). -/
def State.gstate (s : State) : Nat := s.rf F.GNSS.STATUS_GSTATE 0 0

/-! ## MODEL -/

/-- The newest FIX, 2^-16 ns, on the scale in force. -/
def State.newestFix (s : State) : Int := (s.gnss.hist.head?.map (·.2)).getD 0

/-- MODEL in thousandths of 2^-16 ns at an instant on D0's scale (R303). -/
def State.modelAt (s : State) (u : Int) : Int :=
  let g := s.gnss
  if s.gstate = 3 then
    let gap := s.newestFix * 1000 - g.base
    let step := (u - g.baseAt) / Int.ofNat (msUnits 1) * Int.ofNat (s.rfF F.GNSS.SLEW_MAX 0 0 * 65536)
    if gap < 0 then g.base - min (-gap) step else g.base + min gap step
  else g.base + s.rfS F.GNSS.DRIFT_DRIFT 0 0 * 1000 * (u - g.baseAt) / Int.ofNat unitsPerSec

/-- MODEL at an instant that is no later than now: in SLEWING it moves at its updates alone. -/
def State.modelThen (s : State) (u : Int) : Int := if s.gstate = 3 then s.gnss.base else s.modelAt u

/-- MODEL as it stands. -/
def State.model (s : State) : Int := s.modelThen (Int.ofNat (s.now 0))

/-- R306 at an instant, to the nearest picosecond. -/
def State.errGrown (s : State) (u : Int) : Nat :=
  let g := s.gnss
  let dt := max 0 (u - Int.ofNat g.epoch)
  let U : Int := Int.ofNat unitsPerSec
  let den : Int := 172800 * U * U
  let num : Int := Int.ofNat g.e0 * den + Int.ofNat (s.rfF F.GNSS.HOLD_F0 0 0) * dt * 172800 * U +
    Int.ofNat (s.rfF F.GNSS.HOLD_AGE 0 0) * dt * dt
  min ((num + den / 2) / den).toNat 0xFFFFFFFF

/-- 2^-16 ns thousandths as picoseconds. -/
def milliPs (x : Int) : Nat := ((x.natAbs : Int) / 65536).toNat

/-- ERR_EST carried with MODEL at an instant (R303); in SLEWING it is that of the newest solution, as in the chapter's worked
example (DEDUCED, log entry 92). -/
def State.errEstAt (s : State) (u : Int) : Nat :=
  match s.gstate with
  | 0 => 0
  | 1 => if s.gnss.missed = 0 then s.gnss.e0 else s.errGrown u
  | 3 => min s.gnss.e0 0xFFFFFFFF
  | _ => s.errGrown u

/-- ERR_EST carried with MODEL now. -/
def State.errEst (s : State) : Nat := s.errEstAt (Int.ofNat (s.now 0))

/-- GNSS.MODEL as a read finds it: MODEL floored to 2^-16 ns, with ERR_EST. -/
def State.modelWord (s : State) : Nat :=
  if s.flag F.GNSS.STATUS_MODEL_VALID 0 0 then ofSigned 64 (s.model / 1000) * 2 ^ 64 + s.errEst * 2 ^ 32 else 0

/-- MODEL goes on from where it stands. -/
def State.rebase (s : State) : State :=
  s.setGnss { s.gnss with base := s.model, baseAt := Int.ofNat (s.now 0) }

/-- MODEL takes the newest FIX. -/
def State.takeFix (s : State) : State :=
  s.setGnss { s.gnss with base := s.newestFix * 1000, baseAt := Int.ofNat s.gnss.epoch, take := false }

/-- STATUS.SPARSE_ON and the burst of R302 end. -/
def State.endSparse (s : State) : State :=
  (s.setGnss { s.gnss with burst := none, solved := false }).putFlag F.GNSS.STATUS_SPARSE_ON 0 0 false

/-- GSTATE at the start of D0's present cycle (R305). -/
def State.gstateBefore (s : State) : Nat := if s.gnss.gAt.1 = s.tick 0 + 1 then s.gnss.gAt.2 else s.gstate

/-- GSTATE changes (R304): event 3; any state but LOCKED ends sparse tracking (R302). -/
def State.setG (s : State) (st : Nat) : State :=
  if s.gstate = st then s
  else
    let s1 := (s.wf F.GNSS.STATUS_GSTATE 0 0 st).raise 0 B.GNSS 0 3
    let at_ : Option Int := if st = 1 then some (Int.ofNat (s.now 0)) else none
    let s2 := s1.setGnss { s1.gnss with lockedAt := at_, gAt := (s.tick 0 + 1, s.gstateBefore) }
    if st = 1 then s2 else s2.endSparse

/-- GSTATE becomes HOLDOVER, MODEL going on from where it stands; `seen` sets HOLD_SEEN. -/
def State.gnssHold (s : State) (seen : Bool) : State :=
  let s1 := s.rebase
  let s2 := (s1.setGnss { s1.gnss with take := false }).setG 2
  if seen then s2.setFlag F.GNSS.ERR_HOLD_SEEN 0 0 else s2

/-! ## Samples (R294 to R296) -/

/-- GNSS_FE_EN, driven high while the block is in RUN (R294). -/
def State.gnssFeEn (s : State) : Bool := s.inRun 0 B.GNSS 0

/-- A component of a sample from its pins (R294): CFG.BITS gives two bits or four; a sign of one is negative (DESIGN CHOICE, log
entry 91). -/
def gnssSample (four : Bool) (pin : BitVec 4) : Int :=
  let m : Int := if four then 2 * Int.ofNat (pin.toNat % 8) + 1 else if pin.getLsbD 0 then 3 else 1
  if pin.getLsbD (if four then 3 else 1) then -m else m

/-- The time by which a number of ridge ticks, less femtoseconds, lies back, in 2^-32 ns. -/
def State.ticksBack (s : State) (n : Nat) (fs : Int) : Int := fsShift (Int.ofNat (n * (s.ridge 0).rate / 256)) fs

/-- The delay that the sample interface's line, number 32, gives for its taps, in femtoseconds, by the coefficients in force (R428);
both edges of a report take those of its tick (DESIGN CHOICE, log entry 105). -/
def State.sampleTaps (s : State) (taps : Nat) : Int := s.lineDelay 0 32 taps

/-- The time between the two timestamped edges of a report, 2^-32 ns. -/
def State.sampleSpan (s : State) (m : SampleSpan) : Int :=
  s.ticksBack m.ticks (s.sampleTaps m.taps0 - s.sampleTaps m.taps1)

/-- The instant of a sample that a report names, on D0's scale: from the timestamped edges, not from a count alone (R295). -/
def State.sampleTime (s : State) (m : SampleSpan) : Int :=
  Int.ofNat (s.now 0) - s.ticksBack m.ago (s.sampleTaps m.taps1) - Int.ofNat m.back * s.sampleSpan m / Int.ofNat (m.blocks * 16384)

/-- Channel `k` becomes idle. -/
def State.idleChannel (s : State) (k : Nat) : State :=
  let s1 := s.setGnss { s.gnss with carrier := Store.put 0 s.gnss.carrier k 0 }
  (((s1.wf (F.GNSS.CH_CSTATE k) 0 0 0).wf (F.GNSS.CH_PRN k) 0 0 0).wf (F.GNSS.CH_CN0 k) 0 0 0).wf (F.GNSS.CH_ELEV k) 0 0 0

/-! ## Channels (R297, R298) -/

/-- A position is known or taken as known. -/
def State.fixedMode (s : State) : Bool := s.rfF F.GNSS.CFG_POS_MODE 0 0 == 1 || s.gnss.surveyDone

/-- The satellite of channel `k` meets R298. -/
def State.chUsable (s : State) (k : Nat) : Bool :=
  decide (2 ≤ s.rf (F.GNSS.CH_CSTATE k) 0 0) && s.gnss.ephemeris.contains (s.rf (F.GNSS.CH_PRN k) 0 0) &&
  decide (s.rfF F.GNSS.CFG_CN0_MASK 0 0 ≤ s.rf (F.GNSS.CH_CN0 k) 0 0) &&
  (!s.gnss.located || decide (Int.ofNat (s.rfF F.GNSS.CFG_ELEV_MASK 0 0) ≤ s.rfS (F.GNSS.CH_ELEV k) 0 0))

/-- USED, NSV_TRACKED and NSV_USED follow the channels. -/
def State.refreshChannels (s : State) : State :=
  let ks := List.range 16
  let s1 := ks.foldl (fun s k => s.putFlag (F.GNSS.CH_USED k) 0 0 (s.chUsable k)) s
  let tracked := (ks.filter fun k => decide (2 ≤ s1.rf (F.GNSS.CH_CSTATE k) 0 0)).length
  let used := (ks.filter fun k => s1.flag (F.GNSS.CH_USED k) 0 0).length
  (s1.wf F.GNSS.STATUS_NSV_TRACKED 0 0 tracked).wf F.GNSS.STATUS_NSV_USED 0 0 used

/-- Every channel becomes idle. -/
def State.idleChannels (s : State) : State :=
  ((List.range 16).foldl (fun s k => s.idleChannel k) s).refreshChannels

/-- The receiver can hear: in RUN, with samples whose clock is in range (R296). -/
def State.hears (s : State) : Bool := s.inRun 0 B.GNSS 0 && !s.gnss.clkLost && !s.gnss.range

/-- The channels run: always in continuous tracking, for 20 ms of each burst in sparse tracking (R302). -/
def State.chRun (s : State) : Bool :=
  !s.flag F.GNSS.STATUS_SPARSE_ON 0 0 || (match s.gnss.burst with
    | some t => decide (s.tick 0 < t + 12500000)
    | none => false)

/-- The chip rate of the C/A code, 1,023,000 Hz, offset by SAMP in 2^-16 ppb: in 2^-16 Hz of GNSS_CLK (R296). -/
def codeRate (samp : Int) : Int := 1023000 * 65536 - samp * 1023000 / 1000000000

/-- GNSS_CLK measured against the ridge (R295): SAMP.OFFSET, which offsets the code rate too; beyond ±200 ppm the signal counts as
absent (R296). -/
def State.measureClk (s : State) (m : SampleSpan) : State :=
  let den := Int.ofNat (s.rfF F.GNSS.IF_RATE_RATE 0 0) * s.sampleSpan m
  if den ≤ 0 then s
  else
    let q := s.quot ((Int.ofNat (m.blocks * 16384 * unitsPerSec) - den) * 65536000000000) den
    let f := q.2.fit 64 q.1
    let s1 := f.2.wf F.GNSS.SAMP_OFFSET 0 0 f.1
    let four := s1.rfF F.GNSS.CFG_BITS 0 0 == 1
    let out := decide (200000 * 65536 < q.1.natAbs)
    let s2 := s1.setGnss { s1.gnss with range := out, codeRate := codeRate q.1, sample := (gnssSample four m.i, gnssSample four m.q) }
    if out then s2.idleChannels.setFlag F.GNSS.ERR_IF_RANGE 0 0 else s2

/-- The least idle channel. -/
def State.idleCh (s : State) : Option Nat := (List.range 16).find? fun k => s.rf (F.GNSS.CH_CSTATE k) 0 0 == 0

/-- The PRN is searched: no channel holds it, and where an almanac and a position are held it is visible (R297). -/
def State.searches (s : State) (visible : BitVec 32) (prn : Nat) : Bool :=
  !((List.range 16).any fun k => s.rf (F.GNSS.CH_PRN k) 0 0 == prn) &&
    (!(s.gnss.almanac && s.gnss.located) || visible.getLsbD (prn - 1))

/-- The PRN and the dwell that the search tests now, of three dwells for each PRN in ascending order (R297). -/
def State.searchNow (s : State) (visible : BitVec 32) : Option (Nat × Nat) :=
  let at_ := s.gnss.search
  match ((List.range 32).map fun j => (at_.1 - 1 + j) % 32 + 1).find? (s.searches visible) with
  | some prn => some (prn, if prn = at_.1 then at_.2 else 0)
  | none => none

/-- The centre of the Doppler search at the samples, Hz: IF_FREQ less the front end's error by the measured offset (R296;
DESIGN CHOICE, log entry 91). -/
def State.searchCentre (s : State) : Int :=
  s.rfS F.GNSS.IF_FREQ_FREQ 0 0 - s.rfS F.GNSS.SAMP_OFFSET 0 0 * 1575420000 / 65536000000000

/-- A dwell of the search ends: where its PRN was detected in a Doppler bin an idle channel pulls it in (R297). -/
def State.searchStep (s : State) (visible : BitVec 32) (bin : Option Nat) : State :=
  match s.searchNow visible with
  | none => s
  | some (prn, third) =>
    let next := if bin.isSome || third == 2 then (prn % 32 + 1, 0) else (prn, third + 1)
    let s1 := s.setGnss { s.gnss with search := next }
    match bin, s1.idleCh with
    | some b, some k =>
      let f := s1.searchCentre - 6000 + 4000 * Int.ofNat third + 500 * Int.ofNat b + 250
      let s2 := s1.setGnss { s1.gnss with carrier := Store.put 0 s1.gnss.carrier k f }
      (s2.wf (F.GNSS.CH_PRN k) 0 0 prn).wf (F.GNSS.CH_CSTATE k) 0 0 1
    | _, _ => s1

/-- GNSS_ACQUISITION_DWELL: a dwell ends: what the sample interface measured, the satellites that the almanac shows above the
horizon, and the Doppler bin of a detection (R295 to R297). Outside the bursts of sparse tracking nothing is pulled in (R302). -/
def execGnssAcquisitionDwell (m : SampleSpan) (visible : BitVec 32) (bin : Option Nat) (s : State) : Out :=
  if !s.inRun 0 B.GNSS 0 || s.gnss.clkLost then .next s
  else
    let s1 := s.measureClk m
    .next (if s1.gnss.range || !s1.chRun then s1 else s1.searchStep visible bin)

/-- CHANNEL_PULL_IN_END (R298). -/
def execChannelPullInEnd (k cn0 : Nat) (elev : Int) (s : State) : Out :=
  if 16 ≤ k then .fault .absentInstance
  else if s.hears && s.chRun && s.rf (F.GNSS.CH_CSTATE k) 0 0 == 1 then
    let s1 := (s.wf (F.GNSS.CH_CSTATE k) 0 0 2).wf (F.GNSS.CH_CN0 k) 0 0 cn0
    .next (s1.wf (F.GNSS.CH_ELEV k) 0 0 (ofSigned 8 elev)).refreshChannels
  else .next s

/-- CHANNEL_SIGNAL_LOST (R298). -/
def execChannelSignalLost (k : Nat) (s : State) : Out :=
  if 16 ≤ k then .fault .absentInstance
  else if s.inRun 0 B.GNSS 0 && s.chRun && s.rf (F.GNSS.CH_CSTATE k) 0 0 != 0 then .next (s.idleChannel k).refreshChannels
  else .next s

/-- EPHEMERIS_DECODED: the navigation message of a tracked channel (R297, R298, R300, R301). -/
def execEphemerisDecoded (k : Nat) (nav : NavMessage) (utc : Option (BitVec 8)) (s : State) : Out :=
  if 16 ≤ k then .fault .absentInstance
  else if s.hears && s.chRun && decide (2 ≤ s.rf (F.GNSS.CH_CSTATE k) 0 0) then
    let g := s.gnss
    let prn := s.rf (F.GNSS.CH_PRN k) 0 0
    let others := g.ephemeris.filter (· != prn)
    let s1 := (s.setGnss { g with ephemeris := if nav.healthy then others ++ [prn] else others,
                                  almanac := g.almanac || nav.almanac, iono := nav.iono.orElse fun _ => g.iono }).wf
      (F.GNSS.CH_CSTATE k) 0 0 3
    let s2 := match utc with
      | some x => (s1.wf F.GNSS.UTC_TAI_UTC 0 0 x.toNat).setFlag F.GNSS.STATUS_UTC_VALID 0 0
      | none => s1
    .next s2.refreshChannels
  else .next s

/-- GNSS_CLK_LOST: no edge of GNSS_CLK for 1 µs (R296). -/
def execGnssClkLost (s : State) : Out :=
  let s1 := s.setGnss { s.gnss with clkLost := true }
  if s.inRun 0 B.GNSS 0 then .next (s1.idleChannels.setFlag F.GNSS.ERR_IF_LOST 0 0) else .next s1

/-- GNSS_CLK_RESTORED: edges arrive again; the next dwell measures them (R295, R296). -/
def execGnssClkRestored (s : State) : Out := .next (s.setGnss { s.gnss with clkLost := false })

/-! ## PPS (R307 to R311) -/

/-- The target of second `S` (R307): the instant `u` = S less MODEL as it will stand at `u`, 2^-32 ns units. While MODEL goes on
by DRIFT the equation is linear; in SLEWING, where MODEL moves by at most 1,000 ns/s, putting each instant found back in
settles it (DEDUCED, log entry 92). -/
def State.ppsTarget (s : State) (S : Nat) : Int :=
  let g := s.gnss
  let U := Int.ofNat unitsPerSec
  let d := s.rfS F.GNSS.DRIFT_DRIFT 0 0 * 2 ^ 16
  let at_ (u : Int) : Int := Int.ofNat (secUnits S) - s.modelAt u * 2 ^ 16 / 1000
  if s.gstate = 3 then at_ (at_ (at_ (at_ (at_ (at_ (Int.ofNat (secUnits S)))))))
  else if U + d ≤ 0 then at_ (Int.ofNat (secUnits S))
  else (1000 * Int.ofNat (secUnits S) * U - g.base * 2 ^ 16 * U + 1000 * d * g.baseAt) / (1000 * (U + d))

/-- FLAGS of the PPS message (R310). -/
def State.ppsFlags (s : State) (stepped : Bool) : Nat :=
  let g := s.gstate
  ofBool (g == 2 || g == 4) + 2 * ofBool (g == 3) + 4 * ofBool (g == 3 || g == 4) +
    8 * s.rf F.GNSS.STATUS_SPARSE_ON 0 0 + 16 * ofBool stepped + 32 * ofBool s.fixedMode

/-- The 64 bytes of the PPS message (R310). -/
def State.ppsMessage (s : State) (S : Nat) (edge : Int) (qerr : Int) (stepped : Bool) : List Byte :=
  List.replicate 12 0 ++ [0x88, 0xB5, 0x20, 0x01] ++ bytesBE 2 s.gnss.msgSeq ++
    [BitVec.ofNat 8 s.gstate, BitVec.ofNat 8 (s.ppsFlags stepped),
     BitVec.ofNat 8 (s.rf F.GNSS.STATUS_NSV_USED 0 0), 0, 0, 0] ++
    bytesBE 16 (xtOfInt edge).toNat ++ bytesBE 16 (xtOf S 0 0).toNat ++ bytesBE 4 (ofSigned 32 qerr) ++
    bytesBE 4 s.errEst

/-- The second to schedule next: after the last, and not yet past. -/
def State.ppsSecond (s : State) : Nat :=
  max (s.gnss.lastSecond + 1) ((Int.ofNat (s.now 0) + s.model * 2 ^ 16 / 1000) / Int.ofNat unitsPerSec + 1).toNat

/-- The first tick whose edge serves a target (R307). -/
def State.ppsTick (s : State) (target : Int) : Nat := s.firstTick 0 target (250 * s.rfS F.RIDGE.SKEW_SKEW 0 0)

/-- The edge and the message of second `S` (R307, R308). -/
def State.ppsForm (s : State) (S : Nat) : State :=
  let target := s.ppsTarget S
  let tick := s.ppsTick target
  let edge := s.edgeUnits 0 tick 0
  let qerr := units16 (edge - target)
  let g := s.gnss
  let m := s.ppsMessage S edge qerr g.stepped
  let plan : PpsPlan := { second := S, tick := tick, qerr := qerr }
  let s2 := s.setGnss { g with plan := some plan, lastSecond := S, msgSeq := (g.msgSeq + 1) % 2 ^ 16, msg := m, stepped := false }
  let s3 := s2.raise 0 B.GNSS 0 1
  if s3.rfF F.GNSS.MSG_CFG_EN 0 0 = 1 then s3.rxDeliver (s3.rfF F.GNSS.MSG_CFG_ENG 0 0) (s.ownFrame 0 (withFcs m)) else s3

/-- The scheduling of the next second is due: LEAD ms before its target (R308). -/
def State.ppsIsDue (s : State) : Bool :=
  s.gstate != 0 && s.gnss.plan.isNone &&
    decide (s.ppsTarget s.ppsSecond ≤ Int.ofNat (s.now 0 + msUnits (s.rfF F.GNSS.MSG_CFG_LEAD 0 0)))

/-- A scheduling that is due is made. A MODEL that takes FIX does so first; a second whose edge would then have to lie in the
past has none (R304, R307; DEDUCED, log entry 92). -/
def State.ppsDue (s : State) : State :=
  if s.ppsIsDue then
    let s1 := if s.gnss.take then s.takeFix.setGnss { s.takeFix.gnss with stepped := true } else s
    if s1.ppsIsDue && decide (s1.pkgTick 0 < s1.ppsTick (s1.ppsTarget s1.ppsSecond)) then s1.ppsForm s1.ppsSecond else s1
  else s

/-- PPS_SCHEDULE (R308); it goes on outside RUN (R311). -/
def execPpsSchedule (s : State) : Out := .next s.ppsDue

/-! ## Solutions (R299 to R304) -/

/-- TAI at 0 h on 6 January 1980, the start of GPS week 0, in seconds since the PTP epoch (R300). -/
def gpsStart : Nat := 315964800 + 19

/-- The full week of a broadcast 10-bit number (R300). -/
def gpsWeek (base week : Nat) : Nat := base + (week % 1024 + 1024 - base % 1024) % 1024

/-- Seconds of the DRIFT span (R303). -/
def driftSpan (avg : Nat) : Nat := match avg with | 0 => 10 | 1 => 100 | _ => 1000

/-- The least-squares slope of FIX over time as a fraction, in 2^-16 ns per unit of 2^-32 ns; `none` where the solutions
give none. -/
def slope (l : List (Int × Int)) : Option (Int × Int) :=
  let n := Int.ofNat l.length
  let t0 := (l.head?.map (·.1)).getD 0
  let sum (f : Int × Int → Int) : Int := (l.map fun p => f (p.1 - t0, p.2)).foldl (· + ·) 0
  let num := n * sum (fun p => p.1 * p.2) - sum (·.1) * sum (·.2)
  let den := n * sum (fun p => p.1 * p.1) - sum (·.1) * sum (·.1)
  if den = 0 then none else some (num, den)

/-- DRIFT follows the solutions of its span. -/
def State.setDrift (s : State) : State :=
  match slope s.gnss.hist with
  | none => s
  | some (num, den) =>
    let q := s.quot (num * Int.ofNat unitsPerSec) den
    let f := q.2.fit 64 q.1
    f.2.wf F.GNSS.DRIFT_DRIFT 0 0 f.1

/-- The ionosphere's delay of a solution by the broadcast model, ps; with no model held none is taken off (R300; DESIGN CHOICE,
log entry 91). -/
def State.ionoTerm (s : State) (tow : Nat) (pos : Int × Int × Int) : Int :=
  match s.gnss.iono with
  | some m => Config.ionoDelay m tow pos
  | none => 0

/-- FIX of a solution (R300): TAI at the epoch, the cable's and the ionosphere's delays added, less the ridge time `u` there; a
free value where 64 bits do not hold it. -/
def State.fixValue (s : State) (u : Int) (week tow : Nat) (pos : Int × Int × Int) : Nat × State :=
  let secs := gpsStart + gpsWeek (s.rfF F.GNSS.WN_BASE_WEEK 0 0) week * 604800
  let tai : Int := Int.ofNat (secs * 10 ^ 9 * 2 ^ 16 + tow)
  let dly := s.rfS F.GNSS.CABLE_DLY_DLY 0 0 + s.ionoTerm tow pos
  let q := s.quot ((tai * 2 ^ 16 - u) * 1000 + dly * 2 ^ 32) (1000 * 2 ^ 16)
  q.2.fit 64 q.1

/-- A solution of epoch `u` enters the history: FIX, its estimate, its count, and DRIFT. -/
def State.newFix (s : State) (u : Int) (fix est : Nat) : State :=
  let span := Int.ofNat (driftSpan (s.rfF F.GNSS.HOLD_AVG 0 0) * unitsPerSec)
  let kept := s.gnss.hist.filter fun p => decide (u - p.1 < span)
  let s1 := s.setGnss { s.gnss with epoch := u.toNat, hist := (u, toSigned 64 fix) :: kept, missed := 0 }
  let s2 := ((s1.wf F.GNSS.FIX_FIX 0 0 fix).wf F.GNSS.FIX_ERR_EST 0 0 est).addWrap F.GNSS.FIX_SOL_SEQ 0 0 1
  s2.setDrift.raise 0 B.GNSS 0 0

/-- E0 of R306 from now on. -/
def State.setE0 (s : State) (e0 : Nat) : State := s.setGnss { s.gnss with e0 := e0 }

/-- |FIX − MODEL| at most `ns` nanoseconds. -/
def State.near (s : State) (model : Int) (ns : Nat) : Bool :=
  decide ((s.newestFix * 1000 - model).natAbs ≤ ns * 65536 * 1000)

/-- SLEWING ends within 1 ns (R304). -/
def State.slewCheck (s : State) : State :=
  if s.gstate = 3 ∧ s.near s.gnss.base 1 then
    let s1 := s.setG 1
    (s1.takeFix).setE0 (s1.rf F.GNSS.FIX_ERR_EST 0 0)
  else s

/-- A solution of epoch `u` is judged by GSTATE (R303, R304): `model` is MODEL and `grown` ERR_EST there, `est` its estimate. -/
def State.judgeFix (s : State) (u model : Int) (grown est : Nat) : State :=
  let here := s.setGnss { s.gnss with base := model, baseAt := u }
  match s.gstate with
  | 0 => (((s.setE0 est).takeFix).setFlag F.GNSS.STATUS_MODEL_VALID 0 0).setG 1
  | 1 => if s.gnss.take then here.setE0 est else (s.setE0 est).takeFix
  | 2 =>
    if s.near model (s.rfF F.GNSS.JUMP_LIMIT 0 0) then
      let s1 := (here.setE0 est).setG 1
      s1.setGnss { s1.gnss with take := true }
    else
      let s1 := if s.rfF F.GNSS.CFG_RETURN 0 0 = 0 then
          (here.setE0 (milliPs (s.newestFix * 1000 - model) + est)).setG 3
        else (here.setE0 grown).setG 4
      (s1.setFlag F.GNSS.ERR_JUMP_REFUSED 0 0).raise 0 B.GNSS 0 4
  | 3 => (s.setE0 (milliPs (s.newestFix * 1000 - model) + est)).slewCheck
  | _ => here.setE0 grown

/-- The conditions of R302 begin sparse tracking. -/
def State.sparseCheck (s : State) : State :=
  let long := match s.gnss.lockedAt with
    | some a => decide (a + Int.ofNat (60 * unitsPerSec) ≤ Int.ofNat (s.now 0))
    | none => false
  if s.rfF F.GNSS.CFG_SPARSE 0 0 == 1 && s.fixedMode && long && decide (4 ≤ s.rf F.GNSS.STATUS_NSV_USED 0 0) then
    s.setFlag F.GNSS.STATUS_SPARSE_ON 0 0
  else s

/-- The survey's sums (R299). -/
def State.surveyAdd (s : State) (pos : Int × Int × Int) : State :=
  let g := s.gnss
  if s.rfF F.GNSS.CFG_POS_MODE 0 0 = 2 ∧ !g.surveyDone then
    let sum := (g.surveySum.1 + pos.1, g.surveySum.2.1 + pos.2.1, g.surveySum.2.2 + pos.2.2)
    s.setGnss { g with surveySum := sum, surveyCount := g.surveyCount + 1 }
  else s

/-- The position taken as known, ECEF in mm (R299). -/
def State.knownPos (s : State) : Int × Int × Int :=
  let x (k : Nat) : Int := toSigned 64 (s.rfF (F.GNSS.POS_POS k) 0 0)
  (x 0, x 1, x 2)

/-- GNSS_SOLUTION: the receiver forms a solution: the epoch, with the samples' measurement and the broadcast week; the time of the
week in 2^-16 ns at the epoch as received; the 95 % estimate in ps; the solved position, where none is known (NAV); the
channels' C/N0 and elevation (R295 to R304). A scheduling due in this cycle comes first (R309). -/
def execGnssSolution (at_ : SolvedEpoch) (tow est : Nat) (pos : Int × Int × Int) (chans : List (Nat × Nat × Int))
    (s : State) : Out :=
  if !s.hears || (s.flag F.GNSS.STATUS_SPARSE_ON 0 0 && (s.gnss.burst.isNone || s.gnss.solved)) then .next s
  else
    let s0 := s.ppsDue.measureClk at_.span
    if s0.gnss.range then .next s0
    else
      let put (s : State) (c : Nat × Nat × Int) : State :=
        if c.1 < 16 ∧ 2 ≤ s.rf (F.GNSS.CH_CSTATE c.1) 0 0 then
          (s.wf (F.GNSS.CH_CN0 c.1) 0 0 c.2.1).wf (F.GNSS.CH_ELEV c.1) 0 0 (ofSigned 8 c.2.2)
        else s
      let s1 := (chans.foldl put s0).refreshChannels
      if s1.rf F.GNSS.STATUS_NSV_USED 0 0 < (if s1.fixedMode then 1 else 4) then .next s1
      else
        let u := s1.sampleTime at_.span
        let model := s1.modelThen u
        let grown := s1.errEstAt u
        let f := s1.fixValue u at_.week tow (if s1.fixedMode then s1.knownPos else pos)
        let s2 := f.2.newFix u f.1 (est % 2 ^ 32)
        let s3 := (s2.setGnss { s2.gnss with solved := true, located := true }).surveyAdd pos
        .next (s3.judgeFix u model grown (est % 2 ^ 32)).sparseCheck

/-- GNSS_EPOCH_MISSED: an epoch has passed without a solution (R302, R304). -/
def execGnssEpochMissed (s : State) : Out :=
  if !s.inRun 0 B.GNSS 0 || s.gstate == 0 then .next s
  else
    let s0 := s.ppsDue
    let n := s0.gnss.missed + 1
    let s1 := (s0.setGnss { s0.gnss with missed := n }).endSparse
    if n = 3 ∧ s0.gstate ≠ 2 then .next (s1.gnssHold true) else .next s1

/-- GNSS_SLEW_UPDATE: a millisecond has passed in SLEWING (R303). -/
def execGnssSlewUpdate (s : State) : Out :=
  let due := s.gnss.baseAt + Int.ofNat (msUnits 1)
  if s.gstate = 3 ∧ due ≤ Int.ofNat (s.now 0) then
    let s1 := s.ppsDue
    .next (s1.setGnss { s1.gnss with base := s1.modelAt due, baseAt := due }).slewCheck
  else .next s

/-- SURVEY_DONE: the mean of the solved positions becomes the position (R299). -/
def execSurveyDone (s : State) : Out :=
  let g := s.gnss
  match g.surveyAt with
  | some a =>
    if s.inRun 0 B.GNSS 0 && s.rfF F.GNSS.CFG_POS_MODE 0 0 == 2 && !g.surveyDone && decide (0 < g.surveyCount) &&
        decide (a + Int.ofNat (s.rfF F.GNSS.SURVEY_MINUTES 0 0 * 60 * unitsPerSec) ≤ Int.ofNat (s.now 0)) then
      let n := Int.ofNat g.surveyCount
      let put (s : State) (k : Nat) (sum : Int) : State :=
        let q := s.quot sum n
        (q.2.wf (F.GNSS.POS_POS k) 0 0 (ofSigned 64 q.1)).wfF (F.GNSS.POS_POS k) 0 0 (ofSigned 64 q.1)
      let s1 := put (put (put s 0 g.surveySum.1) 1 g.surveySum.2.1) 2 g.surveySum.2.2
      .next ((s1.setGnss { s1.gnss with surveyDone := true }).setFlag F.GNSS.STATUS_POS_OK 0 0)
    else .next s
  | none => .next s

/-- SPARSE_BURST: 100 ms after a PPS edge a burst begins (R302). -/
def execSparseBurst (s : State) : Out :=
  match s.gnss.edgeAt with
  | some t =>
    if s.inRun 0 B.GNSS 0 && s.flag F.GNSS.STATUS_SPARSE_ON 0 0 && (s.gnss.burst.isNone || s.gnss.solved) && decide (t + 62500000 ≤ s.tick 0) then
      .next (s.setGnss { s.gnss with burst := some (s.tick 0), solved := false, edgeAt := none })
    else .next s
  | none => .next s

/-- A write of GNSS.CTRL, judged by GSTATE at the cycle's start (R304, R305); where another change of the same cycle has left
WAIT_ACK that change stands (DESIGN CHOICE, log entry 91). E_s of the newest solution goes with MODEL from then on (R303). -/
def State.wrGnssCtrl (s : State) (data : Nat) : State :=
  if !bitSet data 0 then s
  else if s.gstateBefore ≠ 4 then s.setFlag F.GNSS.ERR_ACK_IGN 0 0
  else if s.gstate = 4 then
    let s1 := s.ppsDue.setG 1
    (s1.setGnss { s1.gnss with take := true }).setE0 (s1.rf F.GNSS.FIX_ERR_EST 0 0)
  else s

/-- GNSS_ACK: an engine writes one to CTRL.ACK. -/
def execGnssAck (e : Nat) (s : State) : Out :=
  arriveWrite e (mkFa 0 B.GNSS 0 0x20) 32 1 s fun s => s.wrGnssCtrl 1

/-! ## The edge (R307) -/

/-- The outputs that carry the PPS, on D0 (R465): driven on GNSS's tick, QERR its own with the output's delays. -/
def State.ppsOut (s : State) (qerr : Int) (k : Nat) : State :=
  if s.outFunc 0 k = 2 ∧ s.fieldLive 0 then
    let adj := s.rfS (F.FIELD.OUT_ADJ_OUT_ADJ k) 0 0
    let late := from16 qerr + quarterPs (Int.ofNat (s.rf F.FIELD.OUT_FIXED_FIXED 0 0) + adj)
    let s1 := s.pulse 0 k (s.rfF (F.FIELD.OUT_CFG_WIDTH k) 0 0 * 625)
    (s1.edgeMark 0 k adj fun _ => units16 late).raise 0 B.FIELD 0 0
  else s

/-- PPS_EDGE: the scheduled tick has come (R307). -/
def execPpsEdge (s : State) : Out :=
  match s.gnss.plan with
  | some p =>
    if p.tick ≤ s.pkgTick 0 then
      let s1 := (s.setGnss { s.gnss with plan := none, edgeAt := some (s.tick 0) }).raise 0 B.GNSS 0 2
      .next ((List.range 4).foldl (fun s k => s.ppsOut p.qerr k) s1)
    else .next s
  | none => .next s

/-! ## Changes of scale and run states -/

/-- D0's time has changed by `delta` units at this tick: MODEL's physical instant does not move (R309). -/
def State.gnssApplied (s : State) (delta : Int) : State :=
  let g := s.gnss
  let q := s.quot (-delta * 1000) (2 ^ 16)
  let f := s.quot (-delta) (2 ^ 16)
  let hist := g.hist.map fun p => (p.1 + delta, p.2 + f.1)
  let locked := g.lockedAt.map (· + delta)
  let survey := g.surveyAt.map (· + delta)
  let epoch := (Int.ofNat g.epoch + delta).toNat
  q.2.setGnss { g with
    base := g.base + q.1, baseAt := g.baseAt + delta, hist := hist, lockedAt := locked, surveyAt := survey, epoch := epoch }

/-- The start checks of R312. -/
def State.gnssStartErr (s : State) : Nat :=
  let rate := s.rf F.GNSS.IF_RATE_RATE 0 0
  let freq := (s.rfS F.GNSS.IF_FREQ_FREQ 0 0).natAbs
  let lim := s.rf F.GNSS.JUMP_LIMIT 0 0
  let slew := s.rf F.GNSS.SLEW_MAX 0 0
  let mode := s.rf F.GNSS.CFG_POS_MODE 0 0
  let e := s.rf F.GNSS.MSG_CFG_ENG 0 0
  let lead := s.rf F.GNSS.MSG_CFG_LEAD 0 0
  if rate < 2046000 ∨ 40960000 < rate then 0x10
  else if rate < 2 * freq then 0x11
  else if 1 < s.rf F.GNSS.CFG_RETURN 0 0 ∨ mode = 3 ∨ s.rf F.GNSS.HOLD_AVG 0 0 = 3 then 0x12
  else if lim < 1 ∨ 1000000000 < lim ∨ slew < 1 ∨ 1000 < slew then 0x13
  else if s.flag F.GNSS.CFG_SPARSE 0 0 ∧ mode = 0 then 0x14
  else if s.flag F.GNSS.MSG_CFG_EN 0 0 ∧ (Config.nEngines s.part ≤ e ∨ s.engPart e ≠ 0) then 0x15
  else if lead < 2 ∨ 500 < lead then 0x15
  else 0

/-- GNSS enters RUN: a survey begins (R299). -/
def State.gnssStarted (s : State) : State :=
  let mode := s.rfF F.GNSS.CFG_POS_MODE 0 0
  let g := s.gnss
  let at_ : Option Int := if mode = 2 then some (Int.ofNat (s.now 0)) else none
  let s1 := s.setGnss { g with
    surveyAt := at_, surveySum := (0, 0, 0), surveyCount := 0, surveyDone := false, missed := 0, range := false,
    located := g.located || mode == 1 }
  s1.putFlag F.GNSS.STATUS_POS_OK 0 0 (mode == 1)

/-- GNSS leaves RUN (R304, R311): a pending edge stays. -/
def State.gnssStopped (s : State) : State :=
  let s1 := s.ppsDue.idleChannels.endSparse
  match s1.gstate with
  | 0 => s1
  | 2 => s1
  | 4 => s1.gnssHold false
  | _ => s1.gnssHold true

end Sys2Proof.Machine
end

