-- ==== Sys2Proof/Machine/Link.lean ====
section
/-!
DEFINITION. The link exchange (R260 to R272): the inbound phase, its windows, commits, the resolution of whole unit
intervals, and LSTATE.
-/
namespace Sys2Proof.Machine

/-- LSTATE: 0 DOWN, 1 COARSE, 2 RESOLVING, 3 PHASE, 4 TS_ONLY, 5 FROZEN. -/
def State.lstate (s : State) (p : Nat) : Nat := s.rf F.LINK.STATUS_LSTATE (p / 24) (p % 24)

/-- Windows of the time scale in a second are 2^XCH (R260); the index of the present one on the port's die. -/
def State.linkWin (s : State) (p : Nat) : Nat :=
  s.now (p / 24) * 2 ^ s.rfF F.LINK.CFG_XCH (p / 24) (p % 24) / unitsPerSec % 2 ^ 32

/-- The unit interval of the port in 2^-16 ns as a fraction: its numerator over `uiDen`. -/
def State.uiNum (s : State) (p : Nat) : Int := Int.ofNat (uiFs825 (s.mode p) * 2 ^ 16)
def uiDen : Int := 825 * 10 ^ 6

/-- Whole unit intervals in 2^-16 ns, floored. -/
def State.uiCount (s : State) (p : Nat) (m : Int) : Int := m * s.uiNum p / uiDen

/-- 2^-32 ns units modulo the unit interval, floored. -/
def State.modUi (s : State) (p : Nat) (x : Int) : Int := x * uiDen % (s.uiNum p * 2 ^ 16) / uiDen

/-- 2^-32 ns units to the nearest of the values that are the same modulo the unit interval. -/
def State.nearUi (s : State) (p : Nat) (x : Int) : Int :=
  let m := s.modUi p x
  let ui := s.uiNum p * 2 ^ 16 / uiDen
  if 2 * m < ui then m else m - ui

/-- LSTATE changes (R269): event 0 at each; COARSE begins its counts anew, and is left at once where TS_ONLY is forced
(DEDUCED, log entry 50). -/
def State.setL (s : State) (p st0 : Nat) : State :=
  let d := p / 24
  let i := p % 24
  let forced := s.rfF F.LINK.CFG_TS_ONLY d i == 1
  let l := s.link p
  let s1 := if st0 = 1 then s.setLink p { l with good := 0, noPhase := 0, collect := [] }
    else if st0 = 2 then (s.setLink p { l with collect := [] }).wf F.LINK.STATUS_TRIES d i 0 else s
  let s2 := s1.wfRaise F.LINK.STATUS_LSTATE d i st0 0
  (if st0 = 1 ∧ forced then s2.wfRaise F.LINK.STATUS_LSTATE d i 4 0 else s2).refreshPort p

/-- PT_GEN of the port's timing lane changes (R269, R264): the window is broken. -/
def State.linkGen (s : State) (p : Nat) : State :=
  let s1 := s.setLink p { s.link p with genAt := s.now (p / 24), broken := true }
  match s1.lstate p with
  | 1 | 2 | 3 => s1.setL p 1
  | 4 => if s1.rfF F.LINK.CFG_TS_ONLY (p / 24) (p % 24) = 1 then s1 else s1.setL p 1
  | _ => s1

/-- The port's LINK_UP rises or falls (R269). -/
def State.linkUpChange (s : State) (p : Nat) (up : Bool) : State :=
  match s.lstate p with
  | 5 => s
  | 0 => if up then s.setL p 1 else s
  | _ => if up then s else s.setL p 0

/-- The instance's own TX_REF at the end of a window: the mean over its reports; with none, where the grid stands now (R264). -/
def State.linkTxRef (s : State) (p : Nat) : Int × State :=
  let d := p / 24
  let i := p % 24
  let l := s.link p
  let txa := quarterPs (s.rfS F.TSU.DLY_TX_CAL d i + s.rfS F.TSU.ADJ_TX_ADJ d i)
  if l.count = 0 then
    match l.grid with
    | some g => (s.modUi p (g + l.jump + txa) / 2 ^ 16, s)
    | none => (s.rfS F.LINK.TX_REF_TX_REF d i, s)
  else s.quot l.txSum (Int.ofNat l.count * 2 ^ 16)

/-- The window in progress ends: TX_REF is latched, and unless PT_GEN changed within it its mean of E_IN (R264); the window of
now begins. A window without a report has no mean. -/
def State.linkClose (s : State) (p : Nat) : State :=
  let d := p / 24
  let i := p % 24
  let l := s.link p
  let tx := s.linkTxRef p
  let s0 := tx.2.wf F.LINK.TX_REF_TX_REF d i (ofSigned 64 tx.1)
  let next := { l with win := s.linkWin p, sum := 0, txSum := 0, count := 0, broken := false }
  if l.count = 0 ∨ l.broken then s0.setLink p next
  else
    let raw := s0.quot l.sum (Int.ofNat l.count * 2 ^ 16)
    let gen := s.rf F.LANE.STATUS_PT_GEN d i
    let resolved := s.lstate p == 3
    let ein := if resolved then raw.1 + s.uiCount p (s.rfS F.LINK.M_IN_M_IN d i) else raw.1
    let mean : LinkMean := { win := l.win, gen := gen, raw := raw.1 }
    let s1 := raw.2.setLink p { next with means := (mean :: l.means).take 4 }
    let s2 := (s1.wf F.LINK.EIN_W_E_IN d i (ofSigned 64 ein)).wf F.LINK.EIN_W_WIN d i l.win
    (s2.wf F.LINK.EIN_W_GEN d i gen).putFlag F.LINK.EIN_W_RESOLVED d i resolved

/-- Staleness (R270). -/
def State.linkStale (s : State) (p : Nat) : State :=
  let s1 := if (s.link p).fresh then s else s.setFlag F.LINK.ERR_STALE (p / 24) (p % 24)
  s1.refreshPort p

/-- A window whose end has passed is closed. -/
def State.linkRoll (s : State) (p : Nat) : State :=
  if s.linkWin p = (s.link p).win then s else (s.linkClose p).linkStale p

/-- LINK_WINDOW_END (R264, R270). -/
def execLinkWindowEnd (p : Nat) (s : State) : Out :=
  onPort p s fun s => if s.inRun (p / 24) B.LINK (p % 24) then s.linkRoll p else s

/-- A report of the port's timing lane: its PHASE in 0.25 ps, and how long after the present ridge edge, in 2^-32 ns, the
lane's unit-interval boundary lies; GRID follows every change of the time scale and is never folded back (R264). -/
def State.linkReport (s0 : State) (p : Nat) (phase : Int) (sub : Nat) : State :=
  let d := p / 24
  let i := p % 24
  if !s0.inRun d B.LINK i then s0
  else
    let s := s0.linkRoll p
    let l := s.link p
    let pos := Int.ofNat (s.now d + sub)
    let grid := match l.grid with
      | none => s.modUi p pos
      | some g => g + l.jump + s.nearUi p (pos - g - l.jump)
    let rxa := quarterPs (s.rfS F.TSU.DLY_RX_CAL d i + s.rfS F.TSU.ADJ_RX_ADJ d i)
    let txa := quarterPs (s.rfS F.TSU.DLY_TX_CAL d i + s.rfS F.TSU.ADJ_TX_ADJ d i)
    let raw := quarterPs phase + grid - rxa - from16 l.peerTx
    s.setLink p { l with grid := some grid, jump := 0, sum := l.sum + raw, txSum := l.txSum + s.modUi p (grid + txa),
                         count := l.count + 1 }

/-! ## Commits (R265 to R268) -/

/-- The instant in an X register, 2^-32 ns units. -/
def State.xTime (s : State) (f : Fld) (p : Nat) : Int :=
  Int.ofNat (XT.units (BitVec.ofNat 128 (s.rf f (p / 24) (p % 24))))

/-- C_IN and C_OUT, 2^-16 ns. -/
def State.cIn (s : State) (p : Nat) : Int := units16 (s.xTime F.LINK.X_T4_TIME p - s.xTime F.LINK.X_T3_TIME p)
def State.cOut (s : State) (p : Nat) : Int := units16 (s.xTime F.LINK.X_T2_TIME p - s.xTime F.LINK.X_T1_TIME p)

/-- LINK's own mean of the window X_INFO names, where it is one of the last four. -/
def State.ownMean (s : State) (p : Nat) : Option LinkMean :=
  let l := s.link p
  let w := s.rf F.LINK.X_INFO_WIN (p / 24) (p % 24)
  let age := (l.win + 2 ^ 32 - w) % 2 ^ 32
  if 1 ≤ age ∧ age ≤ 4 then l.means.find? fun m => m.win == w else none

/-- R265: the commit is discarded. -/
def State.commitBad (s : State) (p : Nat) : Bool :=
  let valid := bitSet (s.rf F.LINK.X_INFO_FLAGS (p / 24) (p % 24)) 4
  decide (s.xTime F.LINK.X_T1_TIME p < Int.ofNat (s.link p).genAt) ||
    (valid && (s.ownMean p).isNone) || ((s.lstate p == 2 || s.lstate p == 3) && !valid)

/-- The results of R267 from the inbound and outbound values, written together with their window; event 2. The histogram
units that watch the port take D_IN and THETA (R453). -/
def State.linkResults (s : State) (p : Nat) (ein eout : Int) : State :=
  let d := p / 24
  let i := p % 24
  let w := s.rf F.LINK.X_INFO_WIN d i
  let rt := ein + eout
  let asym := rt * s.rfS F.LINK.ASYM_ASYM d i / 2 ^ 32
  let th := s.quot (eout - ein) 2
  let dh := th.2.quot rt 2
  let theta := dh.2.fit 64 (th.1 + asym)
  let din := theta.2.fit 64 (dh.1 + asym)
  let drt := din.2.fit 64 rt
  let fed := (drt.2.histFeed d 4 i (toSigned 64 din.1)).histFeed d 5 i (toSigned 64 theta.1)
  let s1 := (fed.wf F.LINK.THETA_W_THETA d i theta.1).wf F.LINK.THETA_W_WIN d i w
  let s2 := (s1.wf F.LINK.DELAY_W_D_IN d i din.1).wf F.LINK.DELAY_W_WIN d i w
  let s3 := ((s2.wf F.LINK.RTT_W_D_RT d i drt.1).wf F.LINK.RTT_W_WIN d i w).raise d B.LINK i 2
  s3.setLink p { s3.link p with results := (s3.link p).results + 1 }

/-- One attempt of R266 over the collected differences: the nearest whole number, where both bounds hold. -/
def resolveM (l : List Int) (num den : Int) : Option Int :=
  let n := Int.ofNat l.length
  let sum := l.foldl (· + ·) 0
  let m := (2 * sum * den + n * num) / (2 * n * num)
  let spread := l.all fun x => decide (20 * (n * x - sum).natAbs * den.natAbs ≤ 7 * (n * num).natAbs)
  let centred := decide (4 * (sum * den - n * m * num).natAbs ≤ (n * num).natAbs)
  if spread && centred then some m else none

/-- A commit in RESOLVING adds its difference; 2^RES_N of them make an attempt (R266). -/
def State.linkResolve (s : State) (p : Nat) (raw : Int) : State :=
  let d := p / 24
  let i := p % 24
  let l := s.link p
  let c := l.collect ++ [s.cIn p - raw]
  if c.length < 2 ^ s.rfF F.LINK.CFG_RES_N d i then s.setLink p { l with collect := c }
  else
    let s1 := s.setLink p { l with collect := [] }
    match resolveM c (s.uiNum p) uiDen with
    | some m => ((s1.wf F.LINK.M_IN_M_IN d i (ofSigned 64 m)).setFlag F.LINK.EIN_W_RESOLVED d i).setL p 3
    | none =>
      let tries := s1.rf F.LINK.STATUS_TRIES d i + 1
      let s2 := (s1.setFlag F.LINK.ERR_AMBIG d i).wf F.LINK.STATUS_TRIES d i tries
      if tries < 8 then s2 else (s2.setFlag F.LINK.ERR_RESOLVE_FAIL d i).setL p 4

/-- Both timestamps that this port took of the exchange, t1 and t4, are timing-grade (R269). -/
def State.commitTg (s : State) (p : Nat) : Bool :=
  let l := s.link p
  l.txTg.contains (s.rf F.LINK.X_T1_TIME (p / 24) (p % 24)) && l.rxTg.contains (s.rf F.LINK.X_T4_TIME (p / 24) (p % 24))

/-- A commit in COARSE counts towards the states that follow it (R269). -/
def State.linkCoarse (s : State) (p : Nat) : State :=
  let l := s.link p
  let cap := bitSet l.flags 0
  let good := l.good + ofBool (cap && bitSet l.flags 4 && s.commitTg p)
  let none_ := if cap then 0 else l.noPhase + 1
  let s1 := s.setLink p { l with good := good, noPhase := none_ }
  if 3 ≤ none_ then s1.setL p 4 else if 4 ≤ good then s1.setL p 2 else s1

/-- A commit in PHASE: results, and the check against half a unit interval (R267). -/
def State.linkPhase (s : State) (p : Nat) (raw : Int) : State :=
  let d := p / 24
  let i := p % 24
  let ein := raw + s.uiCount p (s.rfS F.LINK.M_IN_M_IN d i)
  let s1 := s.linkResults p ein (s.rfS F.LINK.X_PEER_E_OUT d i)
  if (s.uiNum p).natAbs < 2 * ((s.cIn p - ein) * uiDen).natAbs then
    (s1.setFlag F.LINK.ERR_SLIP d i).setL p 2
  else s1

/-- What a commit carries of the peer is taken: TX_REF, GEN, FLAGS; a new GEN leads to COARSE (R269). -/
def State.linkPeer (s : State) (p : Nat) : State :=
  let d := p / 24
  let i := p % 24
  let l := s.link p
  let gen := s.rf F.LINK.X_INFO_GEN d i
  let flags := s.rf F.LINK.X_INFO_FLAGS d i
  let changed := l.peerGen.isSome && l.peerGen != some gen
  let s1 := s.setLink p { l with peerTx := s.rfS F.LINK.X_TXREF_TX_REF d i, peerGen := some gen, flags := flags, commitWin := some l.win }
  let s2 := (s1.putFlag F.LINK.STATUS_PEER_TG d i (bitSet flags 1)).putFlag F.LINK.STATUS_PEER_PHASE d i (bitSet flags 0)
  let st := s2.lstate p
  if changed && (st == 1 || st == 2 || st == 3) then s2.setL p 1 else s2

/-- A commit (R265 to R271): the window's end and a GEN change stand before it. -/
def State.linkCommit (s0 : State) (p : Nat) : State :=
  let d := p / 24
  let i := p % 24
  if !s0.inRun d B.LINK i then s0
  else
    let s := s0.linkRoll p
    if s.commitBad p then (s.setFlag F.LINK.ERR_DISCARD d i).raise d B.LINK i 3
    else
      let s1 := s.linkPeer p
      let s2 := match s1.lstate p, s1.ownMean p with
        | 1, _ => (s1.linkResults p (s1.cIn p) (s1.cOut p)).linkCoarse p
        | 4, _ => s1.linkResults p (s1.cIn p) (s1.cOut p)
        | 2, some m => s1.linkResolve p m.raw
        | 3, some m => s1.linkPhase p m.raw
        | _, _ => s1
      (s2.raise d B.LINK i 3).refreshPort p

/-- A write of X_COMMIT. -/
def State.wrCommit (s : State) (p data : Nat) : State := if bitSet data 31 then s.linkCommit p else s

/-- LINK_COMMIT: an engine writes GO. -/
def execLinkCommit (e p : Nat) (s : State) : Out :=
  if Config.nPorts s.part ≤ p then .fault .absentPort
  else arriveWrite e (mkFa (p / 24) B.LINK (p % 24) 0x68) 32 (2 ^ 31) s fun s => s.wrCommit p (2 ^ 31)

/-- A write of ASYM is clipped to ±2^28 (R272). -/
def State.wrAsym (s : State) (p data : Nat) : State :=
  let d := p / 24
  let i := p % 24
  let x := toSigned 32 data
  if 2 ^ 28 < x.natAbs then
    (s.wf F.LINK.ASYM_ASYM d i (ofSigned 32 (if x < 0 then -(2 ^ 28) else 2 ^ 28))).setFlag F.LINK.ERR_ASYM_CLIP d i
  else s.wf F.LINK.ASYM_ASYM d i data

/-! ## Path status at a holder (R289) -/

/-- PATH_A_OK (0) or PATH_B_OK (1) becomes `ok`: event 3; a clearing sets PATH_LOST. -/
def State.setPath (s : State) (k : Nat) (ok : Bool) : State :=
  let f := if k = 0 then F.SUMMIT.STATUS_PATH_A_OK else F.SUMMIT.STATUS_PATH_B_OK
  if s.flag f 0 0 = ok then s
  else
    let s1 := (s.putFlag f 0 0 ok).raise 0 B.SUMMIT 0 3
    if ok then s1 else s1.setFlag F.SUMMIT.ERR_PATH_LOST 0 0

/-- At a holder a path is sound while it is enabled and its port's LINK_UP is set (R289). -/
def State.holderPaths (s : State) : State :=
  if s.inRun 0 B.SUMMIT 0 && s.rf F.SUMMIT.STATUS_ROLE 0 0 == 2 then
    let ok (k : Nat) := s.rfF (F.SUMMIT.PATH_EN k) 0 0 == 1 && s.portUp (s.rfF (F.SUMMIT.PATH_PORT k) 0 0)
    (s.setPath 0 (ok 0)).setPath 1 (ok 1)
  else s

/-! ## Run states -/

/-- The start checks of the LINK map. -/
def State.linkStartErr (s : State) (d i : Nat) : Nat :=
  let h := s.rf F.LINK.CFG_HANDLER d i
  let r := s.rf F.LINK.CFG_RES_N d i
  if 7 < s.rf F.LINK.CFG_XCH d i then 0x10
  else if r = 0 ∨ 6 < r then 0x11
  else if Config.nEngines s.part ≤ h ∨ s.engPart h ≠ s.portOwner (24 * d + i) then 0x12
  else 0

/-- LINK enters RUN (R269). -/
def State.linkStarted (s : State) (p : Nat) : State :=
  let l := s.link p
  let s1 := s.setLink p { win := s.linkWin p, peerTx := l.peerTx, genAt := l.genAt, results := l.results }
  if s1.portUp p then s1.setL p 1 else s1.setL p 0

/-- LINK leaves RUN: FROZEN, results kept (R269, R84). -/
def State.linkStopped (s : State) (p : Nat) : State := s.setL p 5

end Sys2Proof.Machine
end

