-- ==== Sys2Proof/Machine/Pll.lean ====
section
/-!
DEFINITION. The ridge PLLs (R212 to R228): validity of references, modes, selection and leadership, steering and ramps,
the clock outputs' dividers.
-/
namespace Sys2Proof.Machine

/-- The hidden state of a die's PLL. -/
def State.pll (s : State) (d : Nat) : PllState := Store.get {} s.plls d
def State.setPll (s : State) (d : Nat) (x : PllState) : State := { s with plls := Store.put {} s.plls d x }

/-- MODE: 0 ACQUIRE, 1 LOCKED, 2 HOLDOVER, 3 BYPASS, 4 FROZEN. -/
def State.pllMode (s : State) (d : Nat) : Nat := s.rf F.PLL.STATUS_MODE d 0

/-- Ridge ticks in a millisecond. -/
def ticksMs : Nat := 625000

/-! ## References (R214) -/

/-- An upstream port is a valid reference. -/
def State.portRef (s : State) (p : Nat) : Bool :=
  let d := p / 24
  let i := p % 24
  s.inRun d B.LANE i && s.flag F.LANE.STATUS_PT_LOCK d i && !s.flag F.LANE.SLEEP_RX_ASLEEP d i &&
    s.rfF F.LANE.CFG_SSC_TOL d i == 0

/-- REFIN_A (1) or REFIN_B (2) has edges, and its measured frequency lies within ±QUAL.REF_TOL ppm of nominal. -/
def State.refIn (s : State) (ref : Nat) : Bool :=
  match Store.get none (s.pll 0).refSeen ref with
  | some ppb => decide (ppb.natAbs ≤ 1000 * s.rfF F.PLL.QUAL_REF_TOL 0 0)
  | none => false

/-- A reference is valid: 0 XO, 1 REFIN_A, 2 REFIN_B, 3 a port. -/
def State.refValid (s : State) (src port : Nat) : Bool :=
  match src with
  | 0 => true
  | 1 => s.rfF F.PLL.CFG_REFA_FREQ 0 0 != 0 && s.refIn 1
  | 2 => s.rfF F.PLL.CFG_REFB_FREQ 0 0 != 0 && s.refIn 2
  | 3 => s.portRef port
  | _ => false

/-- The source that STATUS.SRC of a die names is valid. -/
def State.sourceValid (s : State) (d : Nat) : Bool :=
  let src := s.rf F.PLL.STATUS_SRC d 0
  let l := s.leader
  if src = 4 then s.flag F.MESH.STATUS_RX_UP d l && s.flag F.MESH.STATUS_FWD_CLK_OK d l
  else s.refValid src (s.rf F.PLL.STATUS_SRC_PORT d 0)

/-! ## Frequency -/

/-- HOLD_AVG in ticks. -/
def State.holdTicks (s : State) (d : Nat) : Nat := 625000000 * 10 ^ s.rfF F.PLL.CFG_HOLD_AVG d 0

/-- The entries of a history that still say something about the ticks from `lo` on, newest first. -/
def freqKeep (lo : Nat) : List (Nat × Int) → List (Nat × Int)
  | [] => []
  | (t, v) :: r => if t ≤ lo then [(t, v)] else (t, v) :: freqKeep lo r

/-- The frequency set, in 2^-16 ppb / 625,000,000; the value before it goes into the history. -/
def State.setFreq (s : State) (d : Nat) (x : Int) : State :=
  let y := s.pll d
  let past := freqKeep (s.tick d - s.holdTicks d) ((y.freqAt, y.freq) :: y.freqLog)
  (s.setPll d { y with freq := x, freqAt := s.tick d, freqLog := past }).wf F.PLL.FREQ_OFFSET d 0 (ofSigned 64 (x / 625000000))

/-- The sum of a history over the ticks from `lo` to `hi`; before its beginning the frequency was 0. -/
def freqSum (lo hi : Nat) : List (Nat × Int) → Int
  | [] => 0
  | (t, v) :: r => v * Int.ofNat (hi - max t lo) + (if t ≤ lo then 0 else freqSum lo t r)

/-- The control word goes to its mean over the last HOLD_AVG (R219). -/
def State.holdMean (s : State) (d : Nat) : State :=
  let x := s.pll d
  let now := s.tick d
  let lo := now - s.holdTicks d
  let r := s.quot (freqSum lo now ((x.freqAt, x.freq) :: x.freqLog)) (Int.ofNat (s.holdTicks d))
  r.2.setFreq d r.1

/-- A value moved toward another by at most a step. -/
def toward (x y step : Int) : Int := if x < y then min y (x + step) else max y (x - step)

/-- The frequency of a die's source against the XO, in 2^-16 ppb / 625,000,000: the XO's is nominal, an input's as measured, a
follower's the leader's; that of a port's clock is free. -/
def State.sourceFreq (s : State) (d : Nat) : Int :=
  match s.rf F.PLL.STATUS_SRC d 0 with
  | 0 => 0
  | 3 => 625000000 * Config.portFreq (s.rf F.PLL.STATUS_SRC_PORT d 0) (s.tick d)
  | 4 => (s.pll s.leader).freq
  | r => 625000000 * 65536 * (Store.get none (s.pll 0).refSeen r).getD 0

/-- The control word moves for one tick toward the source's frequency, at no more than FSLEW.RATE (R217). -/
def State.slewTick (s : State) (d : Nat) : State :=
  let x := (s.pll d).freq
  let y := toward x (s.sourceFreq d) (Int.ofNat (s.rfF F.PLL.FSLEW_RATE d 0) * 65536)
  if y = x then s else s.setFreq d y

/-! ## Modes (R219 to R222) -/

/-- A DELTA measurement falls due (R230). -/
def State.deltaDue (s : State) (d : Nat) : State :=
  if d = 0 then s
  else
    ((s.setRidge d { s.ridge d with deltaDue := true, deltaFrom := none }).wf F.RIDGE.STATUS_DELTA_OK d 0 0).refreshTg d

/-- The dies whose measurement of DELTA rests on a die's PLL (R230). -/
def State.deltaDies (s : State) (d : Nat) : List Nat := if d = 0 then List.range (Config.nDies s.part) else [d]

/-- The measurements of DELTA as they stand, and put back as they stood (R223). -/
def State.deltaMarks (s : State) (d : Nat) : List DeltaMark := (s.deltaDies d).map fun k =>
  { die := k, ok := s.flag F.RIDGE.STATUS_DELTA_OK k 0, due := (s.ridge k).deltaDue, from_ := (s.ridge k).deltaFrom }
def State.deltaBack (s : State) (l : List DeltaMark) : State :=
  l.foldl (fun s m => ((s.setRidge m.die { s.ridge m.die with deltaDue := m.due, deltaFrom := m.from_ }).putFlag
    F.RIDGE.STATUS_DELTA_OK m.die 0 m.ok).refreshTg m.die) s

/-- LANE.STATUS.BYPASS of the die's lanes follows the PLL (R220). -/
def State.laneBypass (s : State) (d : Nat) : State :=
  let b := s.onBypass d
  if s.flag F.LANE.STATUS_BYPASS d 0 = b then s
  else (List.range 24).foldl (fun s i => (s.putFlag F.LANE.STATUS_BYPASS d i b).refreshLane (24 * d + i)) s

/-- The conditions of R224: D0 leads from the XO, LOCKED. -/
def State.steers (s : State) : Bool :=
  s.leader == 0 && s.rf F.PLL.STATUS_SRC 0 0 == 0 && s.pllMode 0 == 1

/-- A profile ends at once (R226). -/
def State.rampAbort (s : State) : State :=
  if (s.pll 0).ramp.isNone then s
  else
    (((s.setPll 0 { s.pll 0 with ramp := none }).wf F.PLL.RAMP_CTL_BUSY 0 0 0).setFlag F.PLL.ERR_RAMP_ABORT 0 0).raise 0
      B.PLL 0 4

/-- REF_OK follows the source (R214): event 0. -/
def State.refreshRef (s : State) (d : Nat) : State :=
  s.wfRaise F.PLL.STATUS_REF_OK d 0 (ofBool (s.sourceValid d)) 0

/-- The loop enters a mode (R219): the phase error re-zeroed at an entry to ACQUIRE (R217), HANDOVER and HIST_OK, the lanes'
bypass flag, DELTA, the timing grade, the ramp; event 1 at a change. -/
def State.enterMode (s : State) (d m : Nat) (handover : Bool) : State :=
  let old := s.pllMode d
  let t := s.tick d
  let x := s.pll d
  let valid : Option Nat := if s.sourceValid d then some t else none
  let y : PllState := match m with
    | 0 => { x with acquireFrom := t }
    | 1 => { x with lockedFrom := t }
    | 4 => { x with frozenGrade := s.pllGrade d, frozenBypass := s.onBypass d }
    | _ => { x with validFrom := valid, modeAt := t + 1, lol := none }
  let s0 := if m = 0 then s.wf F.PLL.PHASE_ERR_ERR d 0 0 else s
  let s1 := ((s0.setPll d y).wf F.PLL.STATUS_MODE d 0 m).putFlag F.PLL.STATUS_HANDOVER d 0 (m == 0 && handover)
  let s2 := if m = 0 ∧ !handover then s1.wf F.PLL.STATUS_HIST_OK d 0 0 else s1
  let s3 := if old = m then s2 else s2.raise d B.PLL 0 1
  let s4 := if m = 3 ∧ old ≠ 3 then
      (s.deltaDies d).foldl (fun s k => s.deltaDue k) ((s3.setFlag F.PLL.ERR_BYPASS_SEEN d 0).setFreq d 0)
    else s3
  let s5 := (s4.laneBypass d).refreshTg d
  if d = 0 ∧ !s5.steers then s5.rampAbort else s5

/-- The source is lost in ACQUIRE or LOCKED (R219). -/
def State.sourceLost (s : State) (d : Nat) : State :=
  let s1 := s.setFlag F.PLL.ERR_LOS_SEEN d 0
  if d = s.leader ∧ s.rfF F.PLL.CFG_HOLD_EN d 0 = 1 ∧ s.flag F.PLL.STATUS_HIST_OK d 0 then
    ((s1.holdMean d).enterMode d 2 false).setFlag F.PLL.ERR_HOLD_SEEN d 0
  else s1.enterMode d 3 false

/-- A selection is in progress that this die leads (R223): a loss waits until it is done. -/
def State.selecting (s : State) (d : Nat) : Bool :=
  match (s.pll 0).select with
  | some x => x.lead == d
  | none => false

/-- A loss of source in the cycle in which a loss of lock led to BYPASS decides the mode (R223): where that is HOLDOVER, nothing of
the BYPASS remains. -/
def State.lossDecides (s : State) (d : Nat) (x : LockLoss) : State :=
  let s1 := s.sourceLost d
  if s1.pllMode d = 2 then
    let s2 := s1.deltaBack x.deltas
    if x.seen then s2.wf F.PLL.ERR_BYPASS_SEEN d 0 0 else s2
  else s1

/-- The source's validity acts on the mode: ACQUIRE and LOCKED leave for an invalid source, qualification counts, from the next
cycle where the source returns in that of the entry (R223). The cycle of the entry to ACQUIRE is passed over (R219). -/
def State.sourceAct (s : State) (d : Nat) : State :=
  let ok := s.sourceValid d
  let x := s.pll d
  match s.pllMode d with
  | 0 => if ok || s.selecting d || x.acquireFrom == s.tick d then s else s.sourceLost d
  | 1 => if ok || s.selecting d then s else s.sourceLost d
  | 4 => s
  | m =>
    let entry := x.modeAt == s.tick d + 1
    if !ok then
      match x.lol with
      | some l => if entry && m == 3 then s.lossDecides d l else s.setPll d { x with validFrom := none }
      | none => s.setPll d { x with validFrom := none }
    else if x.validFrom.isNone then s.setPll d { x with validFrom := some (if entry then s.tick d + 1 else s.tick d) } else s

/-- Every die follows its source (R214, R219). -/
def State.followRefs (s : State) : State :=
  (List.range (Config.nDies s.part)).foldl (fun s d => (s.refreshRef d).sourceAct d) s

/-- REF_VALIDITY_CHANGE: REFIN_A (1) or REFIN_B (2) has no edge for 1 µs, or its frequency has been measured over 10 ms against
the XO, in ppb off nominal; every die follows its source (R214). -/
def execRefValidityChange (ref : Nat) (ppb : Option Int) (s : State) : Out :=
  let x := s.pll 0
  if s.resets.asserted then .next s
  else if ref = 1 ∨ ref = 2 then .next (s.setPll 0 { x with refSeen := Store.put none x.refSeen ref ppb }).followRefs
  else .next s.followRefs

/-- The bandwidth's place in the table of BW: a follower's is 100 kHz. -/
def State.bwCode (s : State) (d : Nat) : Nat := if d = s.leader then s.rfF F.PLL.CFG_BW d 0 else 6

/-- Ticks of 16/(2π × BW), rounded up: 16/(2π) s is 1,591,549,430.918953… ticks. -/
def State.lockTicks (s : State) (d : Nat) : Nat := 1591549430918953 / 10 ^ (5 + s.bwCode d) + 1

/-- Ticks of 4 × 16/(2π × BW), rounded down: what is longer is more than these (R222). -/
def State.handTicks (s : State) (d : Nat) : Nat := 6366197723675813 / 10 ^ (5 + s.bwCode d)

/-- LOCK_WIN in 0.25 ps. -/
def State.lockWin (s : State) (d : Nat) : Nat := (s.rfF F.PLL.CFG_LOCK_WIN d 0 + 1) * 100

/-- PLL_LOCK_ACHIEVED: the phase error, 0.25 ps, has stayed within the window for the qualifying time, at the
frequency in 2^-16 ppb that the control word has reached (R217, R219). -/
def execPllLockAchieved (d : Nat) (err freq : Int) (s : State) : Out :=
  onDie d s fun s =>
    let long := decide ((s.pll d).acquireFrom + max ticksMs (s.lockTicks d) ≤ s.tick d)
    let near := (s.pll d).freq / 625000000 == freq
    if s.pllMode d == 0 && s.sourceValid d && long && near && decide (err.natAbs ≤ s.lockWin d) then
      (s.wf F.PLL.PHASE_ERR_ERR d 0 (ofSigned 32 err)).enterMode d 1 false
    else s

/-- PLL_LOCK_LOSS: the phase error passes four windows; a loss of source in the same cycle decides (R219, R223). -/
def execPllLockLoss (d : Nat) (err : Int) (s : State) : Out :=
  onDie d s fun s =>
    if s.pllMode d ≠ 1 ∨ err.natAbs ≤ 4 * s.lockWin d then s
    else
      let s1 := (s.wf F.PLL.PHASE_ERR_ERR d 0 (ofSigned 32 err)).setFlag F.PLL.ERR_LOL_SEEN d 0
      if s1.sourceValid d || s1.selecting d then
        let s2 := s1.enterMode d 3 false
        s2.setPll d { s2.pll d with lol := some ⟨!s1.flag F.PLL.ERR_BYPASS_SEEN d 0, s1.deltaMarks d⟩ }
      else s1.sourceLost d

/-- PLL_REF_QUALIFIED (R219). -/
def execPllRefQualified (d : Nat) (s : State) : Out :=
  onDie d s fun s =>
    let m := s.pllMode d
    match (s.pll d).validFrom with
    | some t =>
      if (m == 2 || m == 3) && s.sourceValid d && decide (t + s.rfF F.PLL.QUAL_REF_QUAL d 0 * ticksMs ≤ s.tick d) then
        s.enterMode d 0 false
      else s
    | none => s

/-- HIST_OK_SET (R221). -/
def execHistOkSet (d : Nat) (s : State) : Out :=
  onDie d s fun s =>
    if s.pllMode d == 1 && decide ((s.pll d).lockedFrom + s.holdTicks d ≤ s.tick d) then
      s.setFlag F.PLL.STATUS_HIST_OK d 0
    else s

/-- HANDOVER_TIMEOUT (R222). -/
def execHandoverTimeout (d : Nat) (s : State) : Out :=
  onDie d s fun s =>
    if s.pllMode d == 0 && s.flag F.PLL.STATUS_HANDOVER d 0 &&
        decide ((s.pll d).acquireFrom + max (10 * ticksMs) (s.handTicks d) < s.tick d) then
      (((s.wf F.PLL.STATUS_HANDOVER d 0 0).setFlag F.PLL.ERR_HANDOVER_LONG d 0).raise d B.PLL 0 1).refreshTg d
    else s

/-! ## Selection (R215 to R218) -/

/-- The die that owns a reference (R33). -/
def refDie (src port : Nat) : Nat := if src = 3 then port / 24 else 0

/-- A die switches to a source: ACQUIRE without qualification, HANDOVER as R219 marks it. -/
def State.switchTo (s : State) (d src port : Nat) : State :=
  let m := s.pllMode d
  let hand := m == 1 || m == 2 || (m == 0 && s.flag F.PLL.STATUS_HANDOVER d 0)
  let same := s.rf F.PLL.STATUS_SRC d 0 == src && (src == 4 || s.rf F.PLL.STATUS_SRC_PORT d 0 == port)
  if same && src != 4 then s
  else
    let s1 := (s.wf F.PLL.STATUS_SRC d 0 src).wf F.PLL.STATUS_SRC_PORT d 0 (if src = 3 then port else 0)
    if m = 4 then s1.refreshRef d else (s1.enterMode d 0 hand).refreshRef d

/-- The refusals of R215, 0 for none; SRC codes above 3 name no reference. -/
def State.selectErr (s : State) (src port : Nat) : Nat :=
  if src = 3 ∧ !s.portExists port then 2
  else if src = 3 ∧ s.rfF F.LANE.CFG_SSC_TOL (port / 24) (port % 24) = 1 then 3
  else if !s.refValid src port then 1
  else if !s.inRun (refDie src port) B.PLL 0 then 4
  else 0

/-- The selection is done: BUSY clears, STATUS 0, event 2 (R216). -/
def State.selectDone (s : State) : State :=
  ((((s.setPll 0 { s.pll 0 with select := none }).wf F.PLL.SEL_BUSY 0 0 0).wf F.PLL.SEL_STATUS 0 0 0).raise 0 B.PLL 0
    2).followRefs

/-- A write of PLL.SEL (R215, R216): one with GO has no effect while BUSY is set. -/
def State.wrSel (s : State) (data : Nat) : State :=
  if s.flag F.PLL.SEL_BUSY 0 0 && bitSet data 30 then s
  else
    let src := bitsOf data 24 3
    let port := bitsOf data 16 8
    let s1 := (s.wf F.PLL.SEL_SRC 0 0 src).wf F.PLL.SEL_PORT 0 0 port
    if !bitSet data 30 then s1
    else
      match s1.selectErr src port with
      | 0 =>
        let lead := refDie src port
        let t := s1.tick lead
        let sel : PllSelect := { src := src, port := port, lead := lead, boundary := (t / 625 + 1) * 625 }
        let s2 := (s1.setPll 0 { s1.pll 0 with select := some sel }).setFlag F.PLL.SEL_BUSY 0 0
        let s3 := s2.switchTo lead src port
        if lead = s.leader then s3.selectDone else s3
      | c => s1.wf F.PLL.SEL_STATUS 0 0 c

/-- PLL_SELECT: an engine writes GO with a source and a port. -/
def execPllSelect (e : Nat) (src : BitVec 3) (port : BitVec 8) (s : State) : Out :=
  let data := 2 ^ 30 + src.toNat * 2 ^ 24 + port.toNat * 2 ^ 16
  arriveWrite e (mkFa 0 B.PLL 0 0x10) 32 data s fun s => s.wrSel data

/-- Leadership moves (R216, R242): LEAD_DIE and LEADER everywhere, and what rests on them. -/
def State.setLeader (s : State) (lead : Nat) : State :=
  let one (s : State) (d : Nat) : State :=
    (s.wf F.PLL.STATUS_LEAD_DIE d 0 lead).putFlag F.RIDGE.STATUS_LEADER d 0 (d == lead)
  let ds := List.range (Config.nDies s.part)
  let s1 := (ds.foldl one s).wf F.RIDGE.SKEW_SKEW lead 0 0
  ds.foldl (fun s d => s.refreshAlign d) s1

/-- PLL_SELECT_BOUNDARY: every other die in RUN switches to the saddle link from the new leader (R216, R218). -/
def execPllSelectBoundary (s : State) : Out :=
  match (s.pll 0).select with
  | some x =>
    if x.boundary ≤ s.tick x.lead then
      let s1 := s.setLeader x.lead
      let one (s : State) (d : Nat) : State := if d = x.lead ∨ !s.inRun d B.PLL 0 then s else s.switchTo d 4 0
      .next (((List.range (Config.nDies s.part)).foldl one s1).selectDone)
    else .next s
  | none => .next s

/-! ## Steering (R224 to R226) -/

/-- STEER's limit, ±10 ppm in 2^-16 ppb. -/
def steerLim : Int := 10000 * 65536

/-- A write of STEER: clipped, and it ends a profile. -/
def State.wrSteer (s : State) (data : Nat) : State :=
  let x := toSigned 64 data
  let y := max (-steerLim) (min steerLim x)
  let s1 := s.rampAbort.wf F.PLL.STEER_OFFSET 0 0 (ofSigned 64 y)
  if x = y then s1 else s1.setFlag F.PLL.ERR_STEER_CLIP 0 0

/-- STEER_WRITE. -/
def execSteerWrite (e : Nat) (data : Word) (s : State) : Out :=
  arriveWrite e (mkFa 0 B.PLL 0 0x18) 64 data.toNat s fun s => s.wrSteer data.toNat

/-- STEER_STEP: on the XU9048 and XU9096, every 100 ms at most 1 ppb toward STEER (R225). -/
def execSteerStep (s : State) : Out :=
  if s.part ≠ .xu9192 ∧ s.steers ∧ (s.pll 0).stepAt + 62500000 ≤ s.tick 0 then
    let goal := 625000000 * s.rfS F.PLL.STEER_OFFSET 0 0
    let s1 := s.setPll 0 { s.pll 0 with stepAt := s.tick 0 }
    .next (s1.setFreq 0 (toward (s.pll 0).freq goal (65536 * 625000000)))
  else .next s

/-- The ramp generator moves the frequency toward STEER for one tick, at FSLEW.RATE (R225). -/
def State.steerToward (s : State) : State :=
  let x := s.pll 0
  let goal := 625000000 * s.rfS F.PLL.STEER_OFFSET 0 0
  if x.freq = goal then s else s.setFreq 0 (toward x.freq goal (Int.ofNat (s.rfF F.PLL.FSLEW_RATE 0 0) * 65536))

/-- One ridge tick of D0's ramp generator (R225, R226): along the segment that runs, else toward STEER. -/
def State.steerTick (s : State) : State :=
  if s.part = .xu9192 ∧ s.steers then
    let x := s.pll 0
    match x.ramp with
    | some r =>
      match r.seg with
      | some k => s.setFreq 0 (x.freq + s.rfS (F.PLL.RAMP_SEG_RATE k) 0 0 * 64)
      | none => s.steerToward
    | none => s.steerToward
  else s

/-- A write of RAMP_CTL; while a profile runs GO is ignored. -/
def State.wrRamp (s : State) (data : Nat) : State :=
  let n := bitsOf data 0 3
  if s.part ≠ .xu9192 then s
  else if s.flag F.PLL.RAMP_CTL_BUSY 0 0 then s.wf F.PLL.RAMP_CTL_NSEG 0 0 n
  else
    let s1 := s.wf F.PLL.RAMP_CTL_NSEG 0 0 n
    let lim := s.rfF F.PLL.FSLEW_RATE 0 0 * 1024
    let steep := (List.range (n + 1)).any fun k => decide (lim < (s.rfS (F.PLL.RAMP_SEG_RATE k) 0 0).natAbs)
    if !bitSet data 30 then s1
    else if !s.steers then s1.wf F.PLL.RAMP_CTL_STATUS 0 0 1
    else if steep then s1.wf F.PLL.RAMP_CTL_STATUS 0 0 2
    else
      let r : PllRamp := { start := (s.tick 0 / 625 + 1) * 625, seg := none, from_ := 0, base := 0 }
      ((s1.setPll 0 { s.pll 0 with ramp := some r }).wf F.PLL.RAMP_CTL_STATUS 0 0 0).setFlag F.PLL.RAMP_CTL_BUSY 0 0

/-- RAMP_GO: an engine writes GO with NSEG. -/
def execRampGo (e : Nat) (nseg : BitVec 3) (s : State) : Out :=
  let data := 2 ^ 30 + nseg.toNat
  arriveWrite e (mkFa 0 B.PLL 0 0x100) 32 data s fun s => s.wrRamp data

/-- RAMP_START: the profile's 1 µs boundary. -/
def execRampStart (s : State) : Out :=
  match (s.pll 0).ramp with
  | some r =>
    if r.seg.isNone && decide (r.start ≤ s.tick 0) then
      let t := s.tick 0
      .next (s.setPll 0 { s.pll 0 with ramp := some { r with seg := some 0, from_ := t, base := (s.pll 0).freq } })
    else .next s
  | none => .next s

/-- The profile is over: STEER reads the offset reached; event 4. R224 clips what is written to STEER and R226 writes what was reached:
that the hardware's own write is not clipped is the model's choice (log 105). -/
def State.rampEnd (s : State) : State :=
  let s1 := (s.setPll 0 { s.pll 0 with ramp := none }).wf F.PLL.RAMP_CTL_BUSY 0 0 0
  (s1.wf F.PLL.STEER_OFFSET 0 0 (s1.rf F.PLL.FREQ_OFFSET 0 0)).raise 0 B.PLL 0 4

/-- RAMP_SEGMENT_END (R226): the frequency stands at the segment's end. DESIGN CHOICE (log entry 88): a profile that runs takes
NSEG, RATE and DURATION as they stand. -/
def execRampSegmentEnd (s : State) : Out :=
  match (s.pll 0).ramp with
  | some r =>
    match r.seg with
    | some k =>
      let len := s.rf (F.PLL.RAMP_SEG_DURATION k) 0 0 * ticksMs
      if r.from_ + len ≤ s.tick 0 then
        let f := r.base + s.rfS (F.PLL.RAMP_SEG_RATE k) 0 0 * 64 * Int.ofNat len
        let s1 := s.setFreq 0 f
        if k < s.rf F.PLL.RAMP_CTL_NSEG 0 0 then
          let q : PllRamp := { r with seg := some (k + 1), from_ := r.from_ + len, base := f }
          .next (s1.setPll 0 { s1.pll 0 with ramp := some q })
        else .next s1.rampEnd
      else .next s
    | none => .next s
  | none => .next s

/-! ## Clock outputs (R227, R228) -/

/-- Every DIV_NEXT becomes active; below 4 it acts as 4. Event 3. -/
def State.applyDiv (s : State) : State :=
  let one (s : State) (k : Nat) : State :=
    let n := s.rf (F.PLL.CLKOUT_DIV_NEXT k) 0 0
    let s1 := s.wf (F.PLL.CLKOUT_DIV k) 0 0 (max 4 n)
    if n < 4 then s1.setFlag F.PLL.ERR_DIV_CLIP 0 0 else s1
  let s1 := (s.setPll 0 { s.pll 0 with updAt := none }).wf F.PLL.OUT_UPD_PENDING 0 0 0
  ((List.range 8).foldl one s1).raise 0 B.PLL 0 3

/-- A write of OUT_UPD. -/
def State.wrOutUpd (s : State) (data : Nat) : State :=
  if !bitSet data 30 then s
  else
    let s1 := s.setFlag F.PLL.OUT_UPD_PENDING 0 0
    if s.inRun 0 B.PLL 0 && (s.pll 0).updAt.isNone then
      s1.setPll 0 { s.pll 0 with updAt := some ((s.tick 0 / 625 + 1) * 625) }
    else s1

/-- OUT_UPD_GO. -/
def execOutUpdGo (e : Nat) (s : State) : Out :=
  arriveWrite e (mkFa 0 B.PLL 0 0x40) 32 (2 ^ 30) s fun s => s.wrOutUpd (2 ^ 30)

/-- OUT_UPD_APPLY: the boundary of a pending update. -/
def execOutUpdApply (s : State) : Out :=
  match (s.pll 0).updAt with
  | some t => if s.inRun 0 B.PLL 0 && decide (t ≤ s.tick 0) then .next s.applyDiv else .next s
  | none => .next s

/-! ## Run states -/

/-- The upper limit of a format in MHz (R227). -/
def fmtMHz (f : Nat) : Nat :=
  match f with
  | 1 => 1250
  | 2 => 250
  | 3 => 200
  | 4 => 125
  | _ => 2500

/-- The start checks of the PLL map. DESIGN CHOICE (log entry 89): FMT codes 6 and 7, which the table does not list, pass. -/
def State.pllStartErr (s : State) (d : Nat) : Nat :=
  let fast (k : Nat) : Bool :=
    let f := s.rf (F.PLL.CLKOUT_FMT k) 0 0
    decide (1 ≤ f) && decide (f ≤ 5) && decide (fmtMHz f * s.rf (F.PLL.CLKOUT_DIV k) 0 0 < 10000)
  let rate := s.rf F.PLL.FSLEW_RATE d 0
  if 4 < s.rf F.PLL.CFG_BW d 0 then 0x10
  else if 5 < s.rf F.PLL.CFG_REFA_FREQ d 0 ∨ 5 < s.rf F.PLL.CFG_REFB_FREQ d 0 then 0x11
  else if d = 0 ∧ (List.range 8).any fast then 0x12
  else if rate = 0 ∨ 1000 < rate then 0x13
  else if s.rf F.PLL.QUAL_REF_QUAL d 0 < 10 then 0x14
  else 0

/-- The PLL enters RUN: a held divider update is applied, a follower takes the link from the leader, ACQUIRE (R218, R219,
R228); the die that a selection in progress makes leader keeps its reference (R213, R216). -/
def State.pllStarted (s : State) (d : Nat) : State :=
  let s1 := if d = 0 ∧ s.flag F.PLL.OUT_UPD_PENDING 0 0 then s.applyDiv else s
  let s2 := if d = s.leader ∨ s.selecting d = true then s1 else (s1.wf F.PLL.STATUS_SRC d 0 4).wf F.PLL.STATUS_SRC_PORT d 0 0
  (s2.enterMode d 0 false).refreshRef d

/-- The PLL leaves RUN: FROZEN (R219, R220); a pending divider update waits (R228). -/
def State.pllStopped (s : State) (d : Nat) : State :=
  (s.setPll d { s.pll d with updAt := none }).enterMode d 4 false

/-- One ridge tick of the PLLs: an invalid source leaves ACQUIRE in the cycle after its entry; the control word of a loop in
ACQUIRE, and of one in LOCKED that nothing steers, moves with the source (R217); steering. -/
def State.pllTick (s : State) : State :=
  let leave (s : State) (d : Nat) : State := if s.pllMode d = 0 then s.sourceAct d else s
  let follow (s : State) (d : Nat) : State :=
    if s.pllMode d = 0 ∨ (s.pllMode d = 1 ∧ s.rf F.PLL.STATUS_SRC d 0 ≠ 0) then s.slewTick d else s
  let ds := List.range (Config.nDies s.part)
  (ds.foldl follow (ds.foldl leave s)).steerTick

end Sys2Proof.Machine
end

