-- ==== Sys2Proof/Machine/Lane.lean ====
section
/-!
DEFINITION. The serial lanes and the PCS of each port (R182 to R211): the phase tracker, locks and LINK_UP, adaptation,
pattern checks, sleep. Lanes and ports are named by their global numbers.
-/
namespace Sys2Proof.Machine

/-- The hidden state of a lane. -/
def State.lane (s : State) (l : Nat) : LaneState := Store.get {} s.lanes l
def State.setLane (s : State) (l : Nat) (x : LaneState) : State := { s with lanes := Store.put {} s.lanes l x }

def State.laneRun (s : State) (l : Nat) : Bool := s.inRun (l / 24) B.LANE (l % 24)
def State.pcsRun (s : State) (p : Nat) : Bool := s.inRun (p / 24) B.PCS (p % 24)

/-- RS-FEC is in force on a port. -/
def State.fec (s : State) (p : Nat) : Bool := s.rfF F.PCS.CFG_FEC (p / 24) (p % 24) == 1

/-! ## Locks and LINK_UP (R193 to R195) -/

/-- The bit of BLOCK_LOCK that a lane of a port owns. -/
def lockBit (l p : Nat) : Nat := l - p

/-- Every lane of the port has lock. -/
def State.blocksLocked (s : State) (p : Nat) : Bool :=
  let v := s.rf F.PCS.STATUS_BLOCK_LOCK (p / 24) (p % 24)
  if s.mode p = 4 then v == 15 else bitSet v 0

/-- Every condition of R195. -/
def State.linkHolds (s : State) (p : Nat) : Bool :=
  let d := p / 24
  let i := p % 24
  s.pcsRun p && s.blocksLocked p && (s.mode p != 4 || s.flag F.PCS.STATUS_ALIGN_LOCK d i) &&
    (!s.fec p || s.flag F.PCS.STATUS_FEC_LOCK d i) && !s.flag F.PCS.STATUS_HI_BER d i &&
    (s.mode p == 1 || (s.lane p).clean)

/-- LINK_UP follows its conditions (R195): event 0, a fall sets LINK_DOWN_SEEN and ends the frame in reception bad; LINK and
a holder's path status follow. -/
def State.refreshLink (s : State) (p : Nat) : State :=
  let d := p / 24
  let i := p % 24
  let up := s.linkHolds p
  if s.portUp p = up then s
  else
    let s1 := (s.putFlag F.PCS.STATUS_LINK_UP d i up).raise d B.PCS i 0
    let s2 := if up then s1
      else
        let x := s1.port p
        (s1.setPort p { x with rx := x.rx.map fun r => { r with bad := true } }).setFlag F.PCS.ERR_LINK_DOWN_SEEN d i
    (s2.linkUpChange p up).holderPaths

/-- What a port's transmitter sends while no frame is on it (R195, R202, the text after R210): 0 nothing, 1 idle, 2 Remote
Fault, 3 Local Fault, 4 a test pattern, 5 LPI, 6 /I2/. -/
def State.sends (s : State) (p : Nat) : Nat :=
  let d := p / 24
  let i := p % 24
  if !s.laneRun p then 0
  else if s.rfF F.LANE.TEST_TX_PAT d i ≠ 0 then 4
  else if !s.pcsRun p then (if s.mode p = 1 then 6 else 3)
  else if s.flag F.LANE.SLEEP_TX_ASLEEP d i then 5
  else if s.mode p = 1 then (if s.portUp p then 1 else 6)
  else if s.portUp p then 1
  else if !s.blocksLocked p || (s.mode p == 4 && !s.flag F.PCS.STATUS_ALIGN_LOCK d i) ||
      (s.fec p && !s.flag F.PCS.STATUS_FEC_LOCK d i) || s.flag F.PCS.STATUS_HI_BER d i ||
      s.flag F.PCS.STATUS_LF_RX d i then 2
  else 1

/-! ## Continuity (R191) -/

/-- PT_GEN advances, once for all causes of one tick, which stands for the lane island's cycle: event 1; the LINK of a
timing lane's port re-measures. -/
def State.ptGen (s : State) (l : Nat) : State :=
  if (s.lane l).genAt = s.tick (l / 24) + 1 then s
  else
    let s0 := s.setLane l { s.lane l with genAt := s.tick (l / 24) + 1 }
    let s1 := (s0.addWrap F.LANE.STATUS_PT_GEN (l / 24) (l % 24) 1).raise (l / 24) B.LANE (l % 24) 1
    if s1.portOf l = l then s1.linkGen l else s1

/-- PT_LOCK changes: event 0. -/
def State.setPtLock (s : State) (l : Nat) (b : Bool) : State :=
  s.wfRaise F.LANE.STATUS_PT_LOCK (l / 24) (l % 24) (ofBool b) 0

/-- The tracker stops reporting: its lock and MESO are gone. -/
def State.dropLock (s : State) (l : Nat) : State :=
  let s1 := s.setLane l { s.lane l with reported := false, winAt := none, unfit := 0 }
  (s1.setPtLock l false).wf F.LANE.STATUS_MESO (l / 24) (l % 24) 0

/-! ## Adaptation (R196 to R201) -/

/-- An interval of the lane would qualify for adaptation: its tracker reports, and its content is of R198's list (R199). -/
def State.qualifies (s : State) (l : Nat) : Bool :=
  let d := l / 24
  let i := l % 24
  let p := s.portOf l
  let pat := s.rfF F.LANE.TEST_RX_PAT d i
  let locked := bitSet (s.rf F.PCS.STATUS_BLOCK_LOCK (p / 24) (p % 24)) (lockBit l p)
  if !s.flag F.LANE.STATUS_PT_LOCK d i || s.flag F.LANE.SLEEP_RX_ASLEEP d i then false
  else if pat ≠ 0 then decide (3 ≤ pat) && s.flag F.LANE.PRBS_STAT_LOCK d i
  else if s.mode p = 1 then locked && decide ((s.lane l).sets < 64)
  else locked && (!s.fec p || s.flag F.PCS.STATUS_FEC_LOCK (p / 24) (p % 24))

/-- The next `n` report intervals of each lane of a port carry content that does not qualify (R198). -/
def State.addUnfit (s : State) (ls : List Nat) (n : Nat) : State :=
  ls.foldl (fun s l => s.setLane l { s.lane l with unfit := (s.lane l).unfit + n }) s

/-- ADAPT_FROZEN follows: set while adaptation runs and nothing qualifies; event 5. -/
def State.refreshFrozen (s : State) (l : Nat) : State :=
  let d := l / 24
  let i := l % 24
  let v := s.laneRun l && s.rfF F.LANE.EQ_RX_MODE d i == 0 && !s.qualifies l
  s.wfRaise F.LANE.STATUS_ADAPT_FROZEN d i (ofBool v) 5

/-- The same for every lane of a port. -/
def State.refreshFrozens (s : State) (p : Nat) : State := (s.lanesOf p).foldl (fun s l => s.refreshFrozen l) s

/-- A step of the peaking, which sets ADAPT_LIMIT at either end (R201); a sleep in the same cycle undoes it (R200). -/
def State.peakStep (s : State) (l n : Nat) : State :=
  let d := l / 24
  let i := l % 24
  let lim := decide (n = 0 ∨ n = 31)
  let s1 := s.setLane l { s.lane l with qual := 0, stepAt := s.tick d + 1, stepFrom := s.rf F.LANE.EQ_NOW_PEAK_NOW d i,
                                         stepLim := lim && !s.flag F.LANE.ERR_ADAPT_LIMIT d i }
  let s2 := s1.wf F.LANE.EQ_NOW_PEAK_NOW d i n
  if lim then s2.setFlag F.LANE.ERR_ADAPT_LIMIT d i else s2

/-- CTLE_ADAPT_STEP: 65,536 qualifying intervals have passed since the last step; the peaking moves one step (R198, R201),
unless a direction has fallen asleep in the same cycle (R200). -/
def execCtleAdaptStep (l : Nat) (up : Bool) (s : State) : Out :=
  onPort l s fun s =>
    let d := l / 24
    let i := l % 24
    let v := s.rf F.LANE.EQ_NOW_PEAK_NOW d i
    if s.laneRun l && s.rfF F.LANE.EQ_RX_MODE d i == 0 && decide (65536 ≤ (s.lane l).qual) && s.qualifies l &&
        (s.lane l).sleepAt != s.tick d + 1 then
      s.peakStep l (if up then min (v + 1) 31 else v - 1)
    else s

/-- ADAPT_FREEZE: more ordered sets in a row are received at 1000BASE-X, the 64th of which freezes adaptation; a resetting
code group, in the last one's period or alone, wins (R199). -/
def execAdaptFreeze (l : Nat) (g : CodeGroups) (s : State) : Out :=
  onPort l s fun s =>
    if s.laneRun l && s.mode (s.portOf l) == 1 then
      (s.setLane l { s.lane l with sets := if g.resets then 0 else min 64 ((s.lane l).sets + g.sets) }).refreshFrozen l
    else s

/-- A code group that is no ordered set of R199 reaches the lane. -/
def State.liftFreeze (s : State) (l : Nat) : State :=
  if (s.lane l).sets = 0 then s else (s.setLane l { s.lane l with sets := 0 }).refreshFrozen l

/-! ## Tracker (R187 to R190, R211) -/

/-- A report of a phase folded into one unit interval of the lane's rate, 0.25 ps. -/
def foldUi (rate : Nat) (x : Int) : Int := x * 206250 % Int.ofNat (uiFs825 rate) / 206250

/-- SKEW_1 to SKEW_3 of a group's lowest lane follow the reports (R192). -/
def State.laneSkews (s : State) (lead : Nat) : State :=
  let d := lead / 24
  let i := lead % 24
  let base := s.rfS F.LANE.PT_SAMPLE_PHASE d i
  [1, 2, 3].foldl (fun s j =>
    s.wf (F.LANE.SKEW_SKEW j) d i (ofSigned 32 (s.rfS F.LANE.PT_SAMPLE_PHASE d (i + j) - base))) s

/-- SKEW_1 to SKEW_3 read zero except on the lowest lane of a running group. -/
def State.clearSkews (s : State) (lead : Nat) : State :=
  [1, 2, 3].foldl (fun s j => s.wf (F.LANE.SKEW_SKEW j) (lead / 24) (lead % 24) 0) s

/-- PHASE_REPORT: the received boundaries have moved by `move` units of 0.25 ps since the last report (their offset, for
the first one), and the lane's own boundary lies `sub` units of 2^-32 ns after the present ridge edge (R187, R188, R211,
R264). An interval is one block: one with an invalid header, or within an uncorrectable codeword, is not counted (R198). -/
def execPhaseReport (l : Nat) (move : Int) (sub : Nat) (s : State) : Out :=
  onPort l s fun s =>
    let d := l / 24
    let i := l % 24
    let p := s.portOf l
    if s.laneRun l && s.flag F.LANE.STATUS_PT_LOCK d i && !s.flag F.LANE.SLEEP_RX_ASLEEP d i then
      let x := s.lane l
      let phase := if x.reported then s.rfS F.LANE.PT_SAMPLE_PHASE d i + move else foldUi (s.rfF F.LANE.CFG_RATE d i) move
      let win := if x.reported then x.winAt else some (s.tick d, phase)
      let q := if s.qualifies l && x.unfit == 0 then 1 else 0
      let s1 := s.setLane l { x with reported := true, winAt := win, qual := x.qual + q, quals := x.quals + q,
                                     unfit := x.unfit - 1 }
      let s2 := (s1.wf F.LANE.PT_SAMPLE_TICK d i (s.tick d)).wf F.LANE.PT_SAMPLE_PHASE d i (ofSigned 48 phase)
      let s3 := s2.wf F.LANE.PT_SAMPLE_GEN d i (s2.rf F.LANE.STATUS_PT_GEN d i)
      let s4 := if s3.grouped l && s3.pcsRun p then s3.laneSkews p else s3
      if p = l ∧ s4.pcsRun p then s4.linkReport p phase sub else s4
    else s

/-- TRACKER_LOCK: the tracker would lock to a peer `ppb` away; beyond its range it does not (R189). -/
def execTrackerLock (l : Nat) (ppb : Int) (s : State) : Out :=
  onPort l s fun s =>
    let d := l / 24
    let i := l % 24
    if s.laneRun l && !s.flag F.LANE.STATUS_PT_LOCK d i && !s.flag F.LANE.SLEEP_RX_ASLEEP d i then
      let range := if s.rfF F.LANE.CFG_SSC_TOL d i = 1 then 5200000 else 200000
      let s1 := s.setFlag F.LANE.STATUS_SIG_DET d i
      if range < ppb.natAbs then s1.setFlag F.LANE.ERR_FREQ_RANGE d i
      else ((((s1.setLane l { s1.lane l with reported := false, winAt := none }).setPtLock l true).refreshFrozen l).refreshLane
        l).followRefs
    else s

/-- TRACKER_UNLOCK, with whether signal energy remains (R191, R192). -/
def execTrackerUnlock (l : Nat) (signal : Bool) (s : State) : Out :=
  onPort l s fun s =>
    let d := l / 24
    let i := l % 24
    if s.flag F.LANE.STATUS_PT_LOCK d i then
      let s1 := (s.dropLock l).setFlag F.LANE.ERR_PT_UNLOCK d i
      ((((s1.putFlag F.LANE.STATUS_SIG_DET d i signal).ptGen l).refreshFrozen l).refreshLane l).followRefs
    else s.putFlag F.LANE.STATUS_SIG_DET d i signal

/-- Ridge ticks in 1 ms, the length of a window (R190). -/
def freqWindow : Nat := 625000

/-- A rate in 2^-16 ppb of a phase that moved by `x` units of 0.25 ps in `n` ticks, less than one unit off (over 1 ms, 0.25 ppb a
unit of phase): the rounding is the receiver's. -/
def phaseRate (x : Int) (n : Nat) (rate : Int) : Bool :=
  decide ((rate * Int.ofNat n - x * 16384 * Int.ofNat freqWindow).natAbs < n)

/-- FREQ_WINDOW_END: a full 1 ms window of reports has passed since the tracker's first report or the last window (R190); `rate` is
the receiver's, which is that of the unwrapped phase. -/
def execFreqWindowEnd (l : Nat) (rate : Int) (s : State) : Out :=
  onPort l s fun s =>
    let d := l / 24
    let i := l % 24
    let x := s.lane l
    let phase := s.rfS F.LANE.PT_SAMPLE_PHASE d i
    match x.winAt with
    | some (t, a) =>
      if s.flag F.LANE.STATUS_PT_LOCK d i && decide (t + freqWindow ≤ s.tick d) && phaseRate (phase - a) (s.tick d - t) rate then
        let f := (s.setLane l { x with winAt := some (s.tick d, phase) }).fit 64 rate
        ((f.2.wf F.LANE.FREQ_OFFSET d i f.1).putFlag F.LANE.STATUS_MESO d i (decide (rate.natAbs ≤ 10 * 65536))).refreshLane l
      else s
    | none => s

/-! ## The PCS's own events -/

/-- Block lock, codeword lock or synchronisation of a lane's coding; codeword lock is FEC_LOCK too (R193). -/
def State.setBlockLock (s : State) (l : Nat) (b : Bool) : State :=
  let p := s.portOf l
  let s1 := s.putBit F.PCS.STATUS_BLOCK_LOCK (p / 24) (p % 24) (lockBit l p) b
  s1.putFlag F.PCS.STATUS_FEC_LOCK (p / 24) (p % 24) (s1.fec p && s1.blocksLocked p)

/-- The port's coding locks by sync headers: a BASE-R mode without RS-FEC (R193). -/
def State.byHeaders (s : State) (p : Nat) : Bool := s.mode p != 1 && !s.fec p

/-- BLOCK_LOCK_ACQUIRE on a lane (R193): after the slips, one per invalid header, valid sync headers in a row at the candidate
position: 64 of them are lock. Codeword lock and code-group synchronisation come as their clauses lay down. -/
def execBlockLockAcquire (h : HeaderSearch) (s : State) : Out :=
  let l := h.lane
  onPort l s fun s =>
    let p := s.portOf l
    if s.laneRun l && s.pcsRun p then
      if !s.byHeaders p then ((s.setBlockLock l true).refreshFrozens p).refreshLink p
      else
        let s1 := s.setLane l { s.lane l with slip := ((s.lane l).slip + h.slips) % 66 }
        if h.valid < 64 then s1 else ((s1.setBlockLock l true).refreshFrozens p).refreshLink p
    else s

/-- A group's lane alignment is lost: one break of continuity on each of its lanes (R191). -/
def State.alignLost (s : State) (p : Nat) : State :=
  let s1 := (s.wf F.PCS.STATUS_ALIGN_LOCK (p / 24) (p % 24) 0).setFlag F.PCS.ERR_ALIGN_LOST (p / 24) (p % 24)
  (s1.lanesOf p).foldl (fun s l => s.ptGen l) (s1.refreshLink p)

/-- The lane's lock is gone: a break of its continuity (R191); alignment, which needs lock on every lane (R194), goes with it. -/
def State.lockLost (s : State) (l : Nat) : State :=
  let p := s.portOf l
  let s1 := ((s.setBlockLock l false).setLane p { s.lane p with clean := false }).refreshFrozens p
  if s1.flag F.PCS.STATUS_ALIGN_LOCK (p / 24) (p % 24) then s1.alignLost p else (s1.refreshLink p).ptGen l

/-- The lane has its lock. -/
def State.laneLocked (s : State) (l : Nat) : Bool :=
  let p := s.portOf l
  bitSet (s.rf F.PCS.STATUS_BLOCK_LOCK (p / 24) (p % 24)) (lockBit l p)

/-- BLOCK_LOCK_LOSS on a lane: invalid sync headers within the last 64, of which 16 lose lock; codeword lock and
synchronisation go as their clauses lay down (R191, R193). An invalid header that does not lose lock spoils its own interval
(R198). -/
def execBlockLockLoss (h : HeaderCount) (s : State) : Out :=
  onPort h.lane s fun s =>
    if s.laneLocked h.lane && (!s.byHeaders (s.portOf h.lane) || decide (16 ≤ h.invalid ∧ h.invalid ≤ 64)) then s.lockLost h.lane
    else if s.laneLocked h.lane && decide (1 ≤ h.invalid ∧ h.invalid < 16) then s.addUnfit [h.lane] 1
    else s

/-- ALIGN_LOCK_CHANGE of a 100 Gb/s group, with the skew between its lanes in ps (R191, R194). -/
def execAlignLockChange (p : Nat) (lock : Bool) (skew : Nat) (s : State) : Out :=
  onPort p s fun s =>
    let d := p / 24
    let i := p % 24
    let had := s.flag F.PCS.STATUS_ALIGN_LOCK d i
    if s.mode p ≠ 4 ∨ !s.pcsRun p then s
    else if lock then
      if s.blocksLocked p ∧ skew ≤ 180000 then (s.setFlag F.PCS.STATUS_ALIGN_LOCK d i).refreshLink p else s
    else if had then s.alignLost p
    else s

/-- HI_BER_CHANGE (R195): event 1. -/
def execHiBerChange (p : Nat) (hi : Bool) (s : State) : Out :=
  onPort p s fun s =>
    let d := p / 24
    let i := p % 24
    if !s.pcsRun p || s.flag F.PCS.STATUS_HI_BER d i == hi then s
    else
      let s1 := (s.putFlag F.PCS.STATUS_HI_BER d i hi).raise d B.PCS i 1
      (if hi then s1.setFlag F.PCS.ERR_HI_BER_SEEN d i else s1).refreshLink p

/-- FAULT_ORDERED_SET_RECEIVE in a BASE-R mode: Local Fault, or Remote Fault, which is then what is being received (R195). -/
def execFaultOrderedSetReceive (p : Nat) (localFault : Bool) (s : State) : Out :=
  onPort p s fun s =>
    let d := p / 24
    let i := p % 24
    if s.pcsRun p && s.mode p != 1 && s.blocksLocked p then
      let f := if localFault then F.PCS.STATUS_LF_RX else F.PCS.STATUS_RF_RX
      let other := if localFault then F.PCS.STATUS_RF_RX else F.PCS.STATUS_LF_RX
      (((s.wf other d i 0).setFlag f d i).setLane p { s.lane p with clean := false }).refreshLink p
    else s

/-- PCS_LINK_UP: 128 blocks have arrived without a fault ordered set (R195). -/
def execPcsLinkUp (p : Nat) (s : State) : Out :=
  onPort p s fun s =>
    let d := p / 24
    let i := p % 24
    if s.pcsRun p && s.blocksLocked p then
      let s1 := (s.wf F.PCS.STATUS_LF_RX d i 0).wf F.PCS.STATUS_RF_RX d i 0
      (s1.setLane p { s1.lane p with clean := true }).refreshLink p
    else s

/-- UNCORRECTABLE_CODEWORD carrying `blocks` 66-bit blocks (R184): counted, with the codewords and symbols that the
decoder corrected since the last; its blocks are errors unless FEC_BYP_IND. The report intervals of the codeword, one a block
shared among the lanes, do not qualify (R198): that they are the next ones reported is the model's choice (log 105). -/
def execUncorrectableCodeword (p blocks corrected symbols : Nat) (s : State) : Out :=
  onPort p s fun s =>
    let d := p / 24
    let i := p % 24
    if s.pcsRun p && s.fec p then
      let s0 := (s.addSat F.PCS.FEC_CORR_COUNT d i corrected).addSat F.PCS.FEC_SYMB_COUNT d i symbols
      let ls := s.lanesOf p
      let s0 := s0.addUnfit ls ((blocks + ls.length - 1) / ls.length)
      let s1 := ((s0.addSat F.PCS.FEC_UNCORR_COUNT d i 1).setFlag F.PCS.ERR_FEC_UNCORR_SEEN d i).raise d B.PCS i 2
      if s.rfF F.PCS.CFG_FEC_BYP_IND d i = 1 then s1
      else
        let x := s1.port p
        (s1.setPort p { x with rx := x.rx.map fun r => { r with bad := true } }).addSat F.PCS.BLOCK_ERR_COUNT d i blocks
    else s

/-! ## Patterns (R202, R203) -/

/-- The exponents n and k of a pattern's polynomial x^n + x^k + 1: PRBS7, PRBS9, PRBS15, PRBS31. -/
def prbsTaps (pat : Nat) : Nat × Nat :=
  match pat with
  | 1 => (7, 6)
  | 2 => (9, 5)
  | 3 => (15, 14)
  | _ => (31, 28)

/-- The bit that follows the bits of a pattern, newest first: the sum of those n and k places back. -/
def prbsNext (pat : Nat) (l : List Bool) : Bool := (l.getD ((prbsTaps pat).1 - 1) false) != (l.getD ((prbsTaps pat).2 - 1) false)

/-- The next `n` bits that a generator sends after those of `l`, oldest first, with POL_TX applied (R202). -/
def State.prbsSend (s : State) (lane : Nat) : Nat → List Bool → List Bool
  | 0, _ => []
  | n + 1, l =>
    let b := prbsNext (s.rfF F.LANE.TEST_TX_PAT (lane / 24) (lane % 24)) l
    (b != (s.rfF F.LANE.CFG_POL_TX (lane / 24) (lane % 24) == 1)) :: s.prbsSend lane n (b :: l)

/-- Every one of the first `n` bits, newest first, is the one that those before it foretell. An all-zero stream fits the recurrence:
that it counts as free of errors is the model's choice, since R203 asks for error-free bits alone (log 105). -/
def prbsClean (pat : Nat) : Nat → List Bool → Bool
  | 0, _ => true
  | _, [] => false
  | n + 1, b :: l => decide ((prbsTaps pat).1 ≤ l.length) && b == prbsNext pat l && prbsClean pat n l

/-- PRBS_LOCK: bits have arrived, newest first; the checker locks where the last 64 are free of errors (R203),
in a window of errors that begins anew. -/
def execPrbsLock (b : PatternBits) (s : State) : Out :=
  let l := b.lane
  onPort l s fun s =>
    let d := l / 24
    let i := l % 24
    let pat := s.rfF F.LANE.TEST_RX_PAT d i
    if s.laneRun l && pat != 0 && prbsClean pat 64 (b.bits.map (· != (s.rfF F.LANE.CFG_POL_RX d i == 1))) then
      ((s.setLane l { s.lane l with errs := [] }).wfRaise F.LANE.PRBS_STAT_LOCK d i 1 4).refreshFrozen l
    else s

/-- The counts of pattern errors that lie within the last 1,024 bits of the lane (R203): a ridge tick is 1.6 ns. -/
def State.errsNear (s : State) (l : Nat) : List (Nat × Nat) :=
  let ui := uiFs825 (s.rfF F.LANE.CFG_RATE (l / 24) (l % 24))
  (s.lane l).errs.filter fun e => decide ((s.tick (l / 24) - e.1) * 1600000 * 825 ≤ 1024 * ui)

/-- PRBS_LOSS: bit errors since the last count, and how many of all errors lie within the last 1,024 bits, earlier counts
included: each is counted while LOCK is set, and 64 within 1,024 bits clear it (R203). -/
def execPrbsLoss (l : Nat) (x : PatternErrors) (s : State) : Out :=
  onPort l s fun s =>
    let d := l / 24
    let i := l % 24
    if s.flag F.LANE.PRBS_STAT_LOCK d i then
      let near := s.errsNear l
      let s0 := s.setLane l { s.lane l with errs := (s.tick d, x.count) :: near }
      let s1 := s0.addSat F.LANE.PRBS_ERR_COUNT d i x.count
      if 64 ≤ x.window ∧ x.window ≤ x.count + (near.map (·.2)).sum then
        ((s1.wfRaise F.LANE.PRBS_STAT_LOCK d i 0 4).setFlag F.LANE.PRBS_STAT_LOST d i).refreshFrozen l
      else s1
    else s

/-! ## Sleep (R204 to R206) -/

/-- Sleep is available on the lane's port (R205). -/
def State.canSleep (s : State) (l : Nat) : Bool :=
  let p := s.portOf l
  s.mode p == 2 || (s.mode p == 3 && !s.fec p)

/-- An adaptation step of the present cycle is discarded (R200). -/
def State.undoStep (s : State) (l : Nat) : State :=
  let d := l / 24
  let i := l % 24
  let x := s.lane l
  if x.stepAt = s.tick d + 1 then
    let s1 := (s.setLane l { x with stepAt := 0 }).wf F.LANE.EQ_NOW_PEAK_NOW d i x.stepFrom
    if x.stepLim then s1.wf F.LANE.ERR_ADAPT_LIMIT d i 0 else s1
  else s

/-- The peaking in use is saved at an entry to sleep (R200). -/
def State.snapshot (s : State) (l : Nat) : State :=
  let d := l / 24
  let i := l % 24
  let s1 := s.undoStep l
  (s1.setLane l { s1.lane l with snap := true, sleepAt := s1.tick d + 1 }).wf F.LANE.EQ_NOW_SNAP d i
    (s1.rf F.LANE.EQ_NOW_PEAK_NOW d i)

/-- The transmit direction falls asleep, where it may (R204, R205). -/
def State.txSleep (s : State) (l : Nat) : State :=
  let d := l / 24
  let i := l % 24
  if s.laneRun l && s.pcsRun l && s.canSleep l && !s.flag F.LANE.SLEEP_TX_ASLEEP d i then
    let s1 := ((s.snapshot l).setFlag F.LANE.SLEEP_TX_ASLEEP d i).setFlag F.PCS.STATUS_LPI_TX d i
    ((s1.raise d B.LANE i 3).ptGen l).refreshLane l
  else s

/-- The transmit direction wakes: its first frame waits for TX_WAKE_DONE (R206). -/
def State.txWake (s : State) (l : Nat) : State :=
  let d := l / 24
  let i := l % 24
  if s.flag F.LANE.SLEEP_TX_ASLEEP d i then
    let s1 := (s.wf F.LANE.SLEEP_TX_ASLEEP d i 0).wf F.PCS.STATUS_LPI_TX d i 0
    ((s1.setLane l { s1.lane l with waking := true }).raise d B.LANE i 3).refreshLane l
  else s

/-- No copy waits in the port's queues or is in transmission. -/
def State.queuesEmpty (s : State) (p : Nat) : Bool :=
  let x := s.port p
  x.queues.all (fun q => q.2.isEmpty) && x.tx.isNone

/-- The port's queues have been empty for TX_IDLE µs, whose last cycle has passed (R204, R206). -/
def State.idleOver (s : State) (p : Nat) : Bool :=
  let us := max 1 (s.rf F.LANE.SLEEP_TX_IDLE (p / 24) (p % 24))
  s.queuesEmpty p && decide ((s.lane p).idleFrom + 625 * us < s.tick (p / 24))

/-- What the fields of SLEEP ask of the transmitter (R204, R205): a TX_MODE other than 0 without sleep sets SLEEP_NA; in mode 2 one
whose queues have not been empty for TX_IDLE is awake. -/
def State.sleepFollow (s : State) (l : Nat) : State :=
  let d := l / 24
  let i := l % 24
  let mode := s.rf F.LANE.SLEEP_TX_MODE d i
  if (mode = 1 ∨ mode = 2) ∧ !s.canSleep l then (s.txWake l).setFlag F.LANE.ERR_SLEEP_NA d i
  else
    match mode with
    | 1 => if s.flag F.LANE.SLEEP_TX_REQ d i then s.txSleep l else s.txWake l
    | 2 => if s.idleOver l then s else s.txWake l
    | _ => s.txWake l

/-- A write of LANE.SLEEP acts at once (R204, R205). -/
def State.wrSleep (s : State) (l data : Nat) : State :=
  let d := l / 24
  let i := l % 24
  (((s.wf F.LANE.SLEEP_TX_IDLE d i (bitsOf data 16 16)).wf F.LANE.SLEEP_TX_MODE d i (bitsOf data 4 2)).wf
    F.LANE.SLEEP_TX_REQ d i (bitsOf data 3 1)).sleepFollow l

/-- The value of a SLEEP write in TX_MODE 1. -/
def sleepWord (idle : BitVec 16) (req : Bool) : Nat := idle.toNat * 2 ^ 16 + 16 + 8 * ofBool req

/-- LANE_SLEEP_REQUEST: an engine writes TX_REQ one in TX_MODE 1. -/
def execLaneSleepRequest (e l : Nat) (idle : BitVec 16) (s : State) : Out :=
  if Config.nPorts s.part ≤ l then .fault .absentPort
  else
    arriveWrite e (mkFa (l / 24) B.LANE (l % 24) 0xC) 32 (sleepWord idle true) s fun s => s.wrSleep l (sleepWord idle true)

/-- LANE_WAKE_REQUEST: an engine writes TX_REQ zero in TX_MODE 1. -/
def execLaneWakeRequest (e l : Nat) (idle : BitVec 16) (s : State) : Out :=
  if Config.nPorts s.part ≤ l then .fault .absentPort
  else
    arriveWrite e (mkFa (l / 24) B.LANE (l % 24) 0xC) 32 (sleepWord idle false) s fun s => s.wrSleep l (sleepWord idle false)

/-- TX_IDLE_EXPIRE: in TX_MODE 2 the queues have been empty for TX_IDLE µs, and no frame has come in the cycle in which that time
ran out, which has passed (R204, R206). -/
def execTxIdleExpire (p : Nat) (s : State) : Out :=
  onPort p s fun s =>
    let d := p / 24
    let i := p % 24
    if s.rf F.LANE.SLEEP_TX_MODE d i == 2 && s.idleOver p then s.txSleep p else s

/-- A frame reaches a queue of the port: the queues are not empty, and in TX_MODE 2 it wakes the transmitter (R206). -/
def State.frameWake (s : State) (p : Nat) : State :=
  let s1 := s.setLane p { s.lane p with idleFrom := s.tick (p / 24) }
  if s1.rf F.LANE.SLEEP_TX_MODE (p / 24) (p % 24) = 2 then s1.txWake p else s1

/-- TX_WAKE_DONE (R206). -/
def execTxWakeDone (p : Nat) (s : State) : Out :=
  onPort p s fun s => s.setLane p { s.lane p with waking := false }

/-- RX_SLEEP_ENTER: LPI is received (R204, R205). The tracker stops, and ERR.PT_UNLOCK is set with its lock; at a LANE stop it is not:
R191 names neither, and both are the model's choice (log 105). -/
def execRxSleepEnter (l : Nat) (s : State) : Out :=
  onPort l s fun s =>
    let d := l / 24
    let i := l % 24
    if s.laneRun l && s.pcsRun l && s.canSleep l && !s.flag F.LANE.SLEEP_RX_ASLEEP d i then
      let had := s.flag F.LANE.STATUS_PT_LOCK d i
      let s1 := ((s.snapshot l).setFlag F.LANE.SLEEP_RX_ASLEEP d i).wfRaise F.PCS.STATUS_LPI_RX d i 1 3
      let s2 := s1.dropLock l
      let s3 := if had then s2.setFlag F.LANE.ERR_PT_UNLOCK d i else s2
      ((((s3.raise d B.LANE i 3).ptGen l).refreshFrozen l).refreshLane l).followRefs
    else s

/-- The peaking with which the CTLE starts (R196). -/
def State.startPeak (s : State) (l : Nat) : Nat :=
  let d := l / 24
  let i := l % 24
  if s.rfF F.LANE.EQ_RX_MODE d i = 2 then 0 else s.rfF F.LANE.EQ_PEAK d i

/-- RX_WAKE: the peer ends LPI; `bad` where the snapshot fails its ECC check (R200, R206); where none is held any more, the CTLE
starts as at FN.START. -/
def execRxWake (l : Nat) (bad : Bool) (s : State) : Out :=
  onPort l s fun s =>
    let d := l / 24
    let i := l % 24
    if s.flag F.LANE.SLEEP_RX_ASLEEP d i then
      let s1 := (s.wf F.LANE.SLEEP_RX_ASLEEP d i 0).wfRaise F.PCS.STATUS_LPI_RX d i 0 3
      let s2 := if bad then (s1.wf F.LANE.EQ_NOW_PEAK_NOW d i (s1.startPeak l)).setFlag F.LANE.ERR_SNAP_BAD d i
        else s1.wf F.LANE.EQ_NOW_PEAK_NOW d i (if (s1.lane l).snap then s1.rf F.LANE.EQ_NOW_SNAP d i else s1.startPeak l)
      ((s2.raise d B.LANE i 3).refreshLane l).followRefs
    else s

/-! ## Run states (R208 to R210, R84) -/

/-- The start checks of a LANE. -/
def State.laneStartErr (s : State) (d i : Nat) : Nat :=
  let rate := s.rf F.LANE.CFG_RATE d i
  let c0 := s.rf F.LANE.TXEQ_C0 d i
  let cp := s.rf F.LANE.TXEQ_CP1 d i
  let cm := s.rf F.LANE.TXEQ_CM1 d i
  if rate = 0 ∨ 4 ≤ rate ∨ (2 ≤ s.rf F.LANE.CFG_PT_BW d i ∧ !s.flag F.LANE.CFG_SSC_TOL d i) then 0x10
  else if 63 < cm + c0 + cp ∨ c0 < 16 + cm + cp then 0x11
  else if s.rf F.LANE.EQ_RX_MODE d i = 3 then 0x12
  else if 4 < s.rf F.LANE.TEST_TX_PAT d i ∨ 4 < s.rf F.LANE.TEST_RX_PAT d i then 0x13
  else if s.grouped (24 * d + i) ∧ rate ≠ 3 then 0x14
  else 0

/-- A LANE enters RUN (R191, R200, R204). -/
def State.laneStarted (s : State) (l : Nat) : State :=
  let d := l / 24
  let i := l % 24
  let s1 := (s.setLane l { s.lane l with snap := false, sets := 0, reported := false, winAt := none, qual := 0,
                                                   unfit := 0, errs := [] }).wf
    F.LANE.EQ_NOW_PEAK_NOW d i (s.startPeak l)
  let s2 := (s1.wf F.LANE.PRBS_STAT_LOCK d i 0)
  ((((s2.ptGen l).refreshFrozen l).refreshLane l).sleepFollow l).followRefs

/-- A lane whose coding or whose drivers stop is asleep in neither direction (R205): event 3 where it was. -/
def State.endSleep (s : State) (l : Nat) : State :=
  let d := l / 24
  let i := l % 24
  if s.flag F.LANE.SLEEP_TX_ASLEEP d i || s.flag F.LANE.SLEEP_RX_ASLEEP d i then
    let s1 := ((s.wf F.LANE.SLEEP_TX_ASLEEP d i 0).wf F.LANE.SLEEP_RX_ASLEEP d i 0).wf F.PCS.STATUS_LPI_TX d i 0
    ((s1.wfRaise F.PCS.STATUS_LPI_RX d i 0 3).raise d B.LANE i 3)
  else s

/-- A LANE leaves RUN: the transmitter idles, the receiver is off, its port is down (R84, R208); what is lost with it breaks
the continuity of its phase (R191). -/
def State.laneStopped (s : State) (l : Nat) : State :=
  let d := l / 24
  let i := l % 24
  let p := s.portOf l
  let had := s.flag F.LANE.STATUS_PT_LOCK d i
  let s0 := s.endSleep l
  let s1 := ((s0.dropLock l).wf F.LANE.STATUS_SIG_DET d i 0).wfRaise F.LANE.PRBS_STAT_LOCK d i 0 4
  let s2 := if s1.laneLocked l then s1.lockLost l else if had then s1.ptGen l else s1
  let s3 := s2.setLane p { s2.lane p with clean := false }
  (((s3.refreshFrozen l).refreshLink p).refreshLane l).followRefs

/-- The start checks of a PCS. -/
def State.pcsStartErr (s : State) (d i : Nat) : Nat :=
  let m := s.rf F.PCS.CFG_MODE d i
  let g := i - i % 4
  let ls := if m = 4 then [g, g + 1, g + 2, g + 3] else [i]
  let mf := s.rf F.PCS.CFG_MAX_FRAME d i
  let rate := if m = 4 then 3 else m
  if m = 0 ∨ 5 ≤ m then 0x10
  else if ls.any fun l => !s.inRun d B.LANE l then 0x11
  else if ls.any fun l => s.rfF F.LANE.CFG_RATE d l != rate then 0x12
  else if ls.any fun l => s.rf F.LANE.TEST_TX_PAT d l != 0 || s.rf F.LANE.TEST_RX_PAT d l != 0 then 0x13
  else if s.flag F.PCS.CFG_FEC d i ∧ (m = 1 ∨ m = 2) then 0x14
  else if mf < 64 ∨ 16000 < mf then 0x15
  else if m = 4 ∧ i % 4 ≠ 0 then 0x16
  else if m = 4 ∧ [i + 1, i + 2, i + 3].any (fun l => s.run d B.PCS l != 0) then 0x17
  else if m = 4 ∧ [i + 1, i + 2, i + 3].any (fun l => s.owner d B.LANE l != s.owner d B.LANE i) then 0x18
  else if i % 4 ≠ 0 ∧ s.grouped (24 * d + i) then 0x19
  else 0

/-- Locks of a port are gone. -/
def State.clearLocks (s : State) (p : Nat) : State :=
  let d := p / 24
  let i := p % 24
  let s1 := ((s.wf F.PCS.STATUS_BLOCK_LOCK d i 0).wf F.PCS.STATUS_FEC_LOCK d i 0).wf F.PCS.STATUS_ALIGN_LOCK d i 0
  let s2 := ((s1.wf F.PCS.STATUS_HI_BER d i 0).wf F.PCS.STATUS_LF_RX d i 0).wf F.PCS.STATUS_RF_RX d i 0
  s2.setLane p { s2.lane p with clean := false }

/-- A PCS enters RUN. -/
def State.pcsStarted (s : State) (p : Nat) : State :=
  let s1 := ((s.clearLocks p).refreshFrozens p).refreshLanes p
  (s1.lanesOf p).foldl (fun s l => s.sleepFollow l) s1

/-- A PCS enters STOPPING or FAULT: the link is down, the frame in reception is discarded, and every lane's continuity is
broken (R84, R191). -/
def State.pcsStopping (s : State) (p : Nat) (lanes : List Nat) : State :=
  let s1 := ((s.endSleep p).clearLocks p).refreshLink p
  let s2 := (lanes.foldl (fun s l => s.ptGen l) s1).clearSkews p
  (lanes.foldl (fun s l => s.refreshFrozen l) s2).refreshLanes p

end Sys2Proof.Machine
end

