-- ==== Sys2Proof/Machine/Gate.lean ====
section
/-!
DEFINITION. The gate control lists (R389 to R392). Instants are counted in fifths of 2^-32 ns, in which 1.6 ns is whole.
-/
namespace Sys2Proof.Machine

/-- 1.6 ns in fifths of 2^-32 ns. -/
def gateUnit : Nat := 8 * 2 ^ 32

/-- The list in force: GATES and INTERVAL of each entry below LIST_LEN. -/
def State.gateList (s : State) (p : Nat) : List (Nat × Nat) :=
  let d := p / 24
  let i := p % 24
  (List.range (s.rfF F.GATE.CFG_LIST_LEN d i)).map fun k =>
    (s.rfF (F.GATE.ENTRY_GATES k) d i, s.rfF (F.GATE.ENTRY_INTERVAL k) d i)

/-- The cycle in fifths of 2^-32 ns. -/
def State.gateCycle (s : State) (p : Nat) : Nat := s.rfF F.GATE.CYCLE_CYCLE (p / 24) (p % 24) * gateUnit

/-- The entry that contains an offset in the cycle: the last one lasts until the next cycle. -/
def gateEntry (off : Nat) : List (Nat × Nat) → Nat → Nat
  | [], k => k - 1
  | [_], k => k
  | (_, n) :: r, k => if off < n * gateUnit then k else gateEntry (off - n * gateUnit) r (k + 1)

/-- The offset at which entry `k` begins. -/
def gateStart (l : List (Nat × Nat)) (k : Nat) : Nat := ((l.take k).map fun e => e.2 * gateUnit).foldl (· + ·) 0

/-- The die's time in fifths of 2^-32 ns. -/
def State.now5 (s : State) (d : Nat) : Int := Int.ofNat (5 * s.now d)

/-- Cycle and entry at the present time, once the first cycle has begun. -/
def State.gatePlace (s : State) (p : Nat) : Option (Int × Nat) :=
  match (s.port p).gate with
  | none => none
  | some g =>
    let x := s.now5 (p / 24) - Int.ofNat g.first
    let c := Int.ofNat (s.gateCycle p)
    if x < 0 ∧ !g.begun then none else some (x / c, gateEntry (x % c).toNat (s.gateList p) 0)

/-- The gate states at the present time: bit q open (R390; all open where no list runs, R84). -/
def State.gatesOpen (s : State) (p : Nat) : Nat :=
  match s.gatePlace p with
  | none => 0xFFFF
  | some (_, k) => ((s.gateList p).map (·.1)).getD k 0xFFFF

/-- The next instant at which the gate of queue `q` closes; `none` where it never does (R391). -/
def State.gateCloses (s : State) (p q : Nat) : Option Int :=
  match (s.port p).gate with
  | none => none
  | some g =>
    let l := s.gateList p
    let len := l.length
    let from_ : Int × Nat × Nat := match s.gatePlace p with
      | some (n, k) => (n, k, 1)
      | none => (0, 0, 0)
    let steps := (List.range (len + 1)).map fun j => from_.2.1 + from_.2.2 + j
    (steps.find? fun m => !bitSet ((l.map (·.1)).getD (m % len) 0xFFFF) q).map fun m =>
      Int.ofNat g.first + (from_.1 + Int.ofNat (m / len)) * Int.ofNat (s.gateCycle p) + Int.ofNat (gateStart l (m % len))

/-- A frame of `len` bytes that begins now ends before the gate of its queue closes (R391). -/
def State.gateFits (s : State) (p q len : Nat) : Bool :=
  match s.gateCloses p q with
  | none => true
  | some t =>
    let rate := Int.ofNat (s.lineRate p)
    decide (s.now5 (p / 24) * rate + Int.ofNat ((len + 20) * 8 * 1000 * 5 * 2 ^ 32) ≤ t * rate)

/-- STATUS and CYC_START follow the present time (R390); the Bool says that a cycle begins. -/
def State.gateShow (s : State) (p : Nat) : State × Bool :=
  let d := p / 24
  let i := p % 24
  match (s.port p).gate, s.gatePlace p with
  | some g, some (n, k) =>
    let t := Int.ofNat g.first + n * Int.ofNat (s.gateCycle p)
    let start := (xtOfInt (t / 5)).toNat
    let fresh := !g.begun || s.rf F.GATE.CYC_START_TIME d i != start
    let s1 := s.setPort p { s.port p with gate := some { g with begun := true } }
    let s2 := ((s1.wf F.GATE.STATUS_OPEN d i (s1.gatesOpen p)).wf F.GATE.STATUS_ENTRY d i k).wf F.GATE.CYC_START_TIME d i start
    (s2, fresh)
  | _, _ => (s, false)

/-- The list goes on to the entry of the present time; a cycle that begins raises event 0 (R390). -/
def State.gateSync (s : State) (p : Nat) : State :=
  let r := s.gateShow p
  if r.2 then r.1.raise (p / 24) B.GATE (p % 24) 0 else r.1

/-- GATE_ENTRY_START: an entry's instant has come. -/
def execGateEntryStart (p : Nat) (s : State) : Out :=
  onPort p s fun s => if s.inRun (p / 24) B.GATE (p % 24) then s.gateSync p else s

/-- A change of the time scale is applied: the list is placed again (R390). -/
def State.gateReplace (s : State) (p : Nat) : State :=
  let d := p / 24
  let i := p % 24
  if s.inRun d B.GATE i && (s.port p).gate.isSome then
    ((s.gateShow p).1.setFlag F.GATE.ERR_REPLACED d i).raise d B.GATE i 1
  else s

/-- The start checks of R392. -/
def State.gateStartErr (s : State) (d i : Nat) : Nat :=
  let cyc := s.rf F.GATE.CYCLE_CYCLE d i
  let len := s.rf F.GATE.CFG_LIST_LEN d i
  let ivs := (List.range (min len 256)).map fun k => s.rf (F.GATE.ENTRY_INTERVAL k) d i
  if cyc < 63 ∨ 625000000 < cyc then 0x10
  else if 256 < len then 0x11
  else if ivs.any (· == 0) then 0x12
  else if cyc < ivs.foldl (· + ·) 0 then 0x13
  else if 10 ^ 9 ≤ XT.nanos (BitVec.ofNat 128 (s.rf F.GATE.BASE_BASE d i)) then 0x14
  else if !s.portExists (24 * d + i) then 0x15
  else 0

/-- GATE enters RUN: the list's first cycle is the first at or after now (R390). -/
def State.gateStarted (s : State) (p : Nat) : State :=
  let d := p / 24
  let i := p % 24
  let base := 5 * XT.units (BitVec.ofNat 128 (s.rfF F.GATE.BASE_BASE d i))
  let c := s.gateCycle p
  let now := 5 * s.now d
  let first := if now ≤ base then base else base + (now - base + c - 1) / c * c
  let g : Option GatePlace := if s.rfF F.GATE.CFG_LIST_LEN d i = 0 then none else some { first := first, begun := false }
  (s.setPort p { s.port p with gate := g }).wf F.GATE.STATUS_OPEN d i 0xFFFF

/-- GATE leaves RUN: every gate is open (R84). -/
def State.gateStopped (s : State) (p : Nat) : State :=
  (s.setPort p { s.port p with gate := none }).wf F.GATE.STATUS_OPEN (p / 24) (p % 24) 0xFFFF

end Sys2Proof.Machine
end

