-- ==== Sys2Proof/Machine/Ridge.lean ====
section
/-!
DEFINITION. The ridge island's time scale (R229 to R244): changes and their apply ticks, followers, DELTA, replicas, the
fixed lines 58 and 59.
-/
namespace Sys2Proof.Machine

/-! ## The scale of one die -/

/-- A die's scale as an alignment state (R240). -/
def State.alignOf (s : State) (d : Nat) : AlignState :=
  let r := s.ridge d
  { offset := r.offset, base := r.base, rate := r.rate, jump := s.rfF F.RIDGE.JUMP_LIMIT_LIMIT d 0,
    valid := s.flag F.RIDGE.STATUS_VALID d 0, steps := r.steps, running := s.inRun d B.RIDGE 0 }

/-- Two alignment states say the same of the scale. -/
def AlignState.same (a b : AlignState) : Bool := { a with running := b.running } == b

/-- A field of RIDGE that hardware keeps at the value in force. -/
def State.mirror (s : State) (f : Fld) (d v : Nat) : State := (s.wf f d 0 v).wfF f d 0 v

/-- The scale of a die set, with OFFSET and BASE as they read in RUN. -/
def State.setScale (s : State) (d offset base rate : Nat) : State :=
  let s1 := s.setRidge d { s.ridge d with offset := offset, base := base, rate := rate }
  (s1.mirror F.RIDGE.BASE_BASE d base).mirror F.RIDGE.OFFSET_OFFSET d (xtOfUnits offset).toNat

/-- VALID changes: event 2 (R236). -/
def State.setValid (s : State) (d : Nat) (b : Bool) : State :=
  (s.wfRaise F.RIDGE.STATUS_VALID d 0 (ofBool b) 2).refreshTg d

/-- Lines 58 and 59 of the die's engines follow the time's milliseconds and seconds (R77, R238): a boundary reached or
crossed forward is marked once; a backward change marks none. -/
def State.markLine (s : State) (d line : Nat) : State :=
  (List.range 4).foldl (fun s k => s.setLine (4 * d + k) line) s

def State.markMs (s : State) (d : Nat) : State :=
  let n := s.now d / msUnits 1
  let r := s.ridge d
  let s1 := s.setRidge d { r with lastMs := n }
  if r.lastMs < n then s1.markLine d 58 else s1

def State.markSec (s : State) (d : Nat) : State :=
  let n := s.now d / unitsPerSec
  let r := s.ridge d
  let s1 := s.setRidge d { r with lastSec := n }
  if r.lastSec < n then s1.markLine d 59 else s1

/-- MILLISECOND_BOUNDARY (R238). -/
def execMillisecondBoundary (d : Nat) (s : State) : Out := onDie d s fun s => s.markMs d
/-- SECOND_BOUNDARY (R238). -/
def execSecondBoundary (d : Nat) (s : State) : Out := onDie d s fun s => s.markSec d

/-- Everything on die `d` that a change applied at `A` reaches, its time having been `old` (R232, R238, R264, R309, R318,
R390, R464). -/
def State.changeSeen (s : State) (d A old : Nat) : State :=
  let s0 := s.linkShift d (Int.ofNat (s.now d) - Int.ofNat old)
  let s1 := ((s0.wf F.RIDGE.LAST_APPLY_TICK d 0 A).raise d B.RIDGE 0 0).evApplied d A
  let s2 := s1.fieldReplace d old
  let s3 := (List.range 24).foldl (fun s i => s.gateReplace (24 * d + i)) s2
  let s4 := if d = 0 then s3.gnssApplied (Int.ofNat (s3.now 0) - Int.ofNat old) else s3
  ((s4.markMs d).markSec d).refreshTg d

/-- Die `d` takes the leader's scale at `A` (R240), and the steps that STEP_SUM counts with it (R234). -/
def State.follow (s : State) (d A : Nat) (a : AlignState) : State :=
  let old := s.now d
  let s1 := ((s.setScale d a.offset a.base a.rate).wf F.RIDGE.RATE_RATE d 0 a.rate).mirror F.RIDGE.JUMP_LIMIT_LIMIT d a.jump
  ((s1.setRidge d { s1.ridge d with steps := a.steps }).setValid d a.valid).changeSeen d A old

/-! ## Announcing (R232, R241) -/

/-- The apply tick of a change that reaches die `d` now (R232). -/
def State.applyTick (s : State) (d : Nat) : Nat := (s.pkgTick d + 256 + 255) / 256 * 256

/-- A change with apply tick `A` is announced to every other die. -/
def State.announce (s : State) (d A : Nat) : State :=
  let a := s.alignOf d
  let tell (s : State) (k : Nat) : State := if k = d ∨ !s.linkUp d k then s else s.post d k (.align A a)
  (List.range (Config.nDies s.part)).foldl tell (s.setFlag F.RIDGE.STATUS_PEND d 0)

/-- PEND follows what waits. -/
def State.refreshPend (s : State) (d : Nat) : State :=
  let r := s.ridge d
  s.putFlag F.RIDGE.STATUS_PEND d 0 (r.rates != [] || r.pendSteps != [] || r.pendStart.isSome)

/-- The outcome of the change announced for `A` is settled: messages still on their way carry it. -/
def settleMsgs (A : Nat) (a : AlignState) (l : List CtlMsg) : List CtlMsg :=
  l.map fun m => match m.body with
    | .align t _ => if t = A then { m with body := .align A a } else m
    | _ => m

/-- The change announced for `A` comes to nothing. -/
def State.withdraw (s : State) (A : Nat) : State :=
  let gone (m : CtlMsg) : Bool := match m.body with
    | .align t _ => t == A
    | _ => false
  let s1 := { s with msgs := s.msgs.filter fun m => !gone m }
  (List.range (Config.nDies s.part)).foldl (fun s k =>
    s.setRidge k { s.ridge k with armed := (s.ridge k).armed.filter (· != A) }) s1

/-! ## Writes (R233, R234) -/

/-- RATE lies within ±1,000 ppm of nominal (R233). -/
def rateInRange (x : Nat) : Bool :=
  let nom : Int := 0x1999999999A
  decide ((Int.ofNat x - nom).natAbs * 1000 ≤ nom.toNat)

/-- Of two RATE writes with one apply tick the one of the higher-numbered engine remains, and of one engine's the later (R29,
R233). The debug port counts as below every engine (DESIGN CHOICE, log entry 90). -/
def rateYields (l : List (Nat × Option Nat × Nat)) (A : Nat) (by_ : Option Nat) : Bool :=
  let rank (e : Option Nat) : Nat := match e with
    | some e => e + 1
    | none => 0
  l.any fun p => p.1 == A && decide (rank by_ < rank p.2.1)

/-- A write of RATE: in RUN the register reads the new value from its apply tick on; while a start waits it is held for the next one
(R233). -/
def State.wrRate (s : State) (by_ : Option Nat) (d data : Nat) : State :=
  if d ≠ s.leader then s.setFlag F.RIDGE.ERR_NOT_LEAD d 0
  else if !s.inRun d B.RIDGE 0 then
    if (s.ridge d).pendStart.isSome then s.setRidge d { s.ridge d with held := some data } else s.wf F.RIDGE.RATE_RATE d 0 data
  else if !rateInRange data then s.setFlag F.RIDGE.ERR_RATE_RANGE d 0
  else
    let A := s.applyTick d
    let r := s.ridge d
    if rateYields r.rates A by_ then s
    else
      (s.setRidge d { r with rates := r.rates.filter (fun p => p.1 != A) ++ [(A, by_, data)], held := none }).announce d A

/-- A step is refused with a code (R234). -/
def State.stepRefused (s : State) (d code : Nat) : State :=
  ((s.wf F.RIDGE.STATUS_STEP_STAT d 0 code).setFlag F.RIDGE.ERR_STEP_REFUSED d 0).raise d B.RIDGE 0 1

/-- A write of STEP. -/
def State.wrStep (s : State) (d data : Nat) : State :=
  let s0 := s.wf F.RIDGE.STEP_STEP d 0 data
  if !s.inRun d B.RIDGE 0 then s0.stepRefused d 1
  else if d ≠ s.leader then (s0.setFlag F.RIDGE.ERR_NOT_LEAD d 0).stepRefused d 2
  else
    let A := s.applyTick d
    let r := s.ridge d
    (s0.setRidge d { r with pendSteps := r.pendSteps ++ [(A, toSigned 64 data)] }).announce d A

/-- RATE_WRITE. -/
def execRateWrite (e d : Nat) (data : Word) (s : State) : Out :=
  arriveWrite e (mkFa d B.RIDGE 0 0x10) 64 data.toNat s fun s => s.wrRate (some e) d data.toNat
/-- STEP_WRITE. -/
def execStepWrite (e d : Nat) (data : Word) (s : State) : Out :=
  arriveWrite e (mkFa d B.RIDGE 0 0x18) 64 data.toNat s fun s => s.wrStep d data.toNat

/-! ## Applying (R232 to R236) -/

/-- The magnitudes of the steps applied in the 625,000,000 ticks before a package tick, 2^-16 ns. -/
def RidgeState.stepSum (r : RidgeState) (A : Nat) : Nat :=
  ((r.steps.filter fun p => decide (p.1 < A) && decide (A ≤ p.1 + 625000000)).map (·.2)).foldl (· + ·) 0

/-- STEP_SUM as a read finds it: ns, rounded up. -/
def State.stepSumNs (s : State) (d : Nat) : Nat :=
  let r := s.ridge d
  let t := s.pkgTick d
  let sum := ((r.steps.filter fun p => decide (p.1 ≤ t) && decide (t < p.1 + 625000000)).map (·.2)).foldl (· + ·) 0
  min ((sum + 65535) / 65536) (2 ^ 32 - 1)

/-- The scale rebased at `A` (R233): the time of `A` under the old rate, and a rate from there. -/
def State.rebaseAt (s : State) (d A rate : Nat) : State := s.setScale d (s.unitsAt d A) A rate

/-- One step judged at `A` (R234); `others` where another step of the same `A` came before it, or one waits for a later tick. -/
def State.stepAt (s : State) (d A : Nat) (others : Bool) (x : Int) : State × Bool :=
  let r := s.ridge d
  let lim := s.rfF F.RIDGE.JUMP_LIMIT_LIMIT d 0 * 65536
  let new := Int.ofNat (s.unitsAt d A) + x * 65536
  if others then (s.stepRefused d 3, false)
  else if lim < x.natAbs + r.stepSum A then (s.stepRefused d 4, false)
  else if new < 0 then (s.stepRefused d 5, false)
  else
    let s1 := (s.rebaseAt d A r.rate).setScale d new.toNat A r.rate
    let kept := r.steps.filter fun p => decide (A ≤ p.1 + 625000000)
    ((s1.setRidge d { s1.ridge d with steps := (A, x.natAbs) :: kept }).wf F.RIDGE.STATUS_STEP_STAT d 0 0, true)

/-- The steps of one apply tick in order of arrival. -/
def State.stepsAt (s : State) (d A : Nat) (others : Bool) : List Int → State × Bool
  | [] => (s, false)
  | x :: r =>
    let a := s.stepAt d A others x
    let b := a.1.stepsAt d A true r
    (b.1, a.2 || b.2)

/-- The answer to engines whose FN.START waited (R112, R236). -/
def State.startReply (s : State) (by_ : List Nat) (die blk inst code : Nat) : State :=
  by_.foldl (fun s e => s.answer e (mkFa die blk inst 0) 0 code) s

/-- The leader's start takes effect at `A` (R236); its first start makes a measurement of DELTA due (R230). -/
def State.startAt (s : State) (d _A : Nat) (p : PendStart) : State :=
  let s0 := s.takeEffect d B.RIDGE 0
  let valid := (s.ridge d).written
  let offset := XT.units (BitVec.ofNat 128 (s.rf F.RIDGE.OFFSET_OFFSET d 0))
  let s1 := s0.setScale d offset (s.rf F.RIDGE.BASE_BASE d 0) (s.rf F.RIDGE.RATE_RATE d 0)
  let s2 := s1.setRidge d { s1.ridge d with pendStart := none, written := false, started := true }
  let s3 := ((s2.wf (F.BLOCK.FSTATE_START_ERR B.RIDGE) d 0 0).wf (F.BLOCK.FSTATE_FAULT_CODE B.RIDGE) d 0 0).setRun d B.RIDGE 0 1
  let s4 := if valid then (List.range (Config.nDies s.part)).foldl (fun s k => s.setValid k true) s3 else s3
  let s5 := if (s.ridge d).started then s4 else s4.deltaDue d
  s5.startReply p.by_ d B.RIDGE 0 0

/-- The least apply tick that waits on a die. -/
def RidgeState.nextApply (r : RidgeState) : Option Nat :=
  ((r.rates.map (·.1)) ++ (r.pendSteps.map (·.1)) ++ (r.pendStart.map (·.at_)).toList).foldl (fun m x =>
    match m with
    | none => some x
    | some y => some (min x y)) none

/-- What waits for `A` on die `d` takes effect there: whether anything changed. -/
def State.applyOwn (s : State) (d A : Nat) : State × Bool :=
  let r := s.ridge d
  let rate := ((r.rates.filter fun p => p.1 == A).getLast?).map (·.2.2)
  let steps := (r.pendSteps.filter fun p => p.1 == A).map (·.2)
  let s0 := s.setRidge d { r with rates := r.rates.filter (fun p => p.1 != A), pendSteps := r.pendSteps.filter (fun p => p.1 != A) }
  match r.pendStart with
  | some p =>
    if p.at_ = A then (s0.startAt d A p, true) else (s0, false)
  | none =>
    let s1 := match rate with
      | some x => (s0.rebaseAt d A x).wf F.RIDGE.RATE_RATE d 0 x
      | none => s0
    let q := s1.stepsAt d A (r.pendSteps.any fun p => decide (A < p.1)) steps
    (q.1, rate.isSome || q.2)

/-- Another die at the apply tick: a RIDGE in RUN that has been told of it takes the scale; one that is not keeps it for its
next start. -/
def State.applyOther (s : State) (d A : Nat) (a : AlignState) : State :=
  let r := s.ridge d
  if r.armed.contains A then
    let s1 := s.setRidge d { r with armed := r.armed.filter (· != A), align := some a }
    if s1.inRun d B.RIDGE 0 then s1.follow d A a else s1
  else s

/-- The change that waits on die `d` for the least apply tick is applied everywhere (R232, R242). -/
def State.changeApply (s : State) (d A : Nat) : State :=
  let old := s.now d
  let q := s.applyOwn d A
  if q.2 then
    let s1 := (q.1.changeSeen d A old).refreshPend d
    let a := s1.alignOf d
    let s2 := { s1 with msgs := settleMsgs A a s1.msgs }
    (List.range (Config.nDies s.part)).foldl (fun s k => if k = d then s else s.applyOther k A a) s2
  else (q.1.withdraw A).refreshPend d

/-- CHANGE_APPLY: the apply tick of a change that die `d` received as leader has come. -/
def execChangeApply (d : Nat) (s : State) : Out :=
  onDie d s fun s =>
    match (s.ridge d).nextApply with
    | some A => if A ≤ s.pkgTick d then s.changeApply d A else s
    | none => s

/-- The message announces a change of scale. -/
def CtlBody.isAlign : CtlBody → Bool
  | .align _ _ => true
  | _ => false

/-- A change of `A` still waits on some die. -/
def State.stillWaits (s : State) (A : Nat) : Bool :=
  (List.range (Config.nDies s.part)).any fun d => (s.ridge d).nextApply == some A

/-- The alignment message that reaches a follower next: the oldest on its way, else the running leader's present state. -/
def State.alignNext (s : State) (d : Nat) : Option (Nat × AlignState × List CtlMsg) :=
  let l := s.leader
  match takeMsg (fun m => m.dst == d && m.body.isAlign) s.msgs with
  | some (⟨_, _, .align A a⟩, rest) => some (A, a, rest)
  | _ =>
    if d ≠ l ∧ s.linkUp l d ∧ s.inRun l B.RIDGE 0 then some (s.rf F.RIDGE.LAST_APPLY_TICK l 0, s.alignOf l, s.msgs) else none

/-- ALIGN_MESSAGE_ARRIVE: an alignment message reaches a follower with a measurement of SKEW, 0.25 ps (R239 to R241); only that
of a running leader counts for the follower's start (R237). -/
def execAlignMessageArrive (d : Nat) (skew : Int) (s : State) : Out :=
  onDie d s fun s =>
    match s.alignNext d with
    | some (A, a, rest) =>
      let s0 := ({ s with msgs := rest }.wf F.RIDGE.SKEW_SKEW d 0 (if d = s.leader then 0 else ofSigned 32 skew))
      let s1 := (s0.setRidge d { s0.ridge d with skewFresh := true, skewAt := s0.tick d,
                                                 align := if a.running then some a else (s0.ridge d).align }).refreshAlign d
      if s1.pkgTick d < A ∨ s1.stillWaits A then
        s1.setRidge d { s1.ridge d with armed := (s1.ridge d).armed ++ [A] }
      else if s1.inRun d B.RIDGE 0 && !(s1.alignOf d).same a then (s1.setFlag F.RIDGE.ERR_ALIGN_LATE d 0).follow d A a
      else s1
    | none => s

/-- A change whose apply tick has passed is not yet known on the die: its timestamps are not timing-grade (R241). -/
def State.alignPast (s : State) (d : Nat) : Bool :=
  s.msgs.any fun m => m.dst == d && (match m.body with
    | .align A a => decide (A ≤ s.pkgTick d) && !(s.alignOf d).same a
    | _ => false)

/-- SKEW_STALE: SKEW has not been updated within the last 10 µs, 6,250 ticks (R243). -/
def execSkewStale (d : Nat) (s : State) : Out :=
  onDie d s fun s =>
    if (s.ridge d).skewAt + 6250 < s.tick d then (s.setRidge d { s.ridge d with skewFresh := false }).refreshAlign d else s

/-! ## DELTA (R230) and the replicas (R244) -/

/-- DELTA_MEASURE_BEGIN: a due measurement begins at a package tick that is a multiple of 256. -/
def execDeltaMeasureBegin (d : Nat) (s : State) : Out :=
  onDie d s fun s =>
    let holds (k : Nat) : Bool := s.pllMode k == 1 || s.pllMode k == 2
    let r := s.ridge d
    if d ≠ 0 ∧ r.deltaDue ∧ s.inRun d B.RIDGE 0 ∧ holds d ∧ holds 0 ∧ s.pkgTick 0 % 256 = 0 ∧ s.linkUp d 0 then
      s.setRidge d { r with deltaDue := false, deltaFrom := some (s.pkgTick 0) }
    else s

/-- DELTA_MEASURE_END: 64 exchanges later DELTA is known. -/
def execDeltaMeasureEnd (d : Nat) (delta : Int) (s : State) : Out :=
  onDie d s fun s =>
    if (s.ridge d).deltaFrom.isSome then
      let s1 := (s.setRidge d { s.ridge d with deltaFrom := none }).wf F.RIDGE.ALIGN_DELTA d 0 (ofSigned 64 delta)
      (s1.setFlag F.RIDGE.STATUS_DELTA_OK d 0).refreshTg d
    else s

/-- REPLICA_CHECK: 65,536 ticks after the last one every replica is compared; `bad` where one differs (R244). -/
def execReplicaCheck (d : Nat) (bad : Bool) (s : State) : Out :=
  onDie d s fun s =>
    let r := s.ridge d
    if r.repAt + 65536 ≤ s.tick d then
      let s1 := (s.setRidge d { r with repAt := s.tick d }).putFlag F.RIDGE.STATUS_REP_OK d 0 (!bad)
      let s2 := if bad then (s1.setFlag F.RIDGE.ERR_REP_FAULT d 0).raise d B.RIDGE 0 3 else s1
      s2.refreshTg d
    else s

/-! ## Run states (R236, R237, R240) -/

/-- The start checks of R237 on a die, at the arrival of the command. -/
def State.ridgeStartErr (s : State) (d : Nat) : Nat :=
  let lim := s.rf F.RIDGE.JUMP_LIMIT_LIMIT d 0
  let base := Int.ofNat (s.rf F.RIDGE.BASE_BASE d 0)
  if d ≠ s.leader then (if (s.ridge d).align.isNone then 0x14 else 0)
  else if lim < 1 ∨ 1000000000 < lim then 0x10
  else if !rateInRange (s.rf F.RIDGE.RATE_RATE d 0) then 0x11
  else if 10 ^ 9 ≤ XT.nanos (BitVec.ofNat 128 (s.rf F.RIDGE.OFFSET_OFFSET d 0)) then 0x12
  else if 2 ^ 40 ≤ (base - Int.ofNat (s.pkgTick d)).natAbs then 0x13
  else 0

/-- An accepted start of the leader's RIDGE waits for its apply tick (R236). -/
def State.ridgePend (s : State) (d : Nat) (by_ : List Nat) : State :=
  let A := s.applyTick d
  (s.setRidge d { s.ridge d with pendStart := some { at_ := A, by_ := by_ } }).announce d A

/-- A RATE held back is in the register for the next start (R233). -/
def State.takeRate (s : State) (d : Nat) : State :=
  match (s.ridge d).held with
  | some x => (s.setRidge d { s.ridge d with held := none }).wf F.RIDGE.RATE_RATE d 0 x
  | none => s

/-- A stop before the apply tick cancels the start (R236). -/
def State.ridgeCancel (s : State) (d : Nat) : State :=
  match (s.ridge d).pendStart with
  | none => s
  | some p =>
    let s1 := ((s.setRidge d { s.ridge d with pendStart := none }).withdraw p.at_).refreshPend d
    let s2 := ((s1.takeRate d).wf (F.BLOCK.FSTATE_START_ERR B.RIDGE) d 0 0x15).setFlag (F.BLOCK.CFLAGS_START_REFUSED B.RIDGE) d 0
    s2.startReply p.by_ d B.RIDGE 0 0x15

/-- A follower's RIDGE enters RUN on the leader's latest state (R240); its first start makes a measurement due (R230). Taking that
state counts as applying a change: that it raises event 0, with LAST_APPLY as it stands, is the model's choice (log 105). -/
def State.ridgeStarted (s : State) (d : Nat) : State :=
  let first := !(s.ridge d).started
  let s1 := s.setRidge d { s.ridge d with started := true, written := false }
  let s2 := match (s1.ridge d).align with
    | some a => s1.follow d (s1.rf F.RIDGE.LAST_APPLY_TICK d 0) a
    | none => s1
  (if first then s2.deltaDue d else s2).refreshTg d

/-- RIDGE leaves RUN: pending steps are discarded (R234, R236); time runs on (R84). R233 does not say what becomes of a RATE
accepted in RUN whose apply tick has not come: that it is then held for the next start is the model's choice (log 105). -/
def State.ridgeStopped (s : State) (d : Nat) : State :=
  let r := s.ridge d
  let ticks := (r.rates.map (·.1)) ++ (r.pendSteps.map (·.1))
  let held := match r.rates.getLast? with
    | some p => some p.2.2
    | none => r.held
  let s1 := (s.setRidge d { r with rates := [], pendSteps := [], written := false, held := held }).takeRate d
  let s2 := r.pendSteps.foldl (fun s _ => s.stepRefused d 1) s1
  ((ticks.foldl (fun s A => s.withdraw A) s2).refreshPend d).refreshTg d

end Sys2Proof.Machine
end

