-- ==== Sys2Proof/Machine/L2.lean ====
section
/-!
DEFINITION. The L2 table: replicas, lookups, cuckoo insertion, the order point, learning, ageing, software access, rehash
and resynchronisation (R48, R49, R341 to R360).
-/
namespace Sys2Proof.Machine

/-! ## Entries and banks -/

/-- The L2 replica of a die. -/
def State.l2t (s : State) (d : Nat) : L2State := Store.get {} s.l2 d
def State.setL2 (s : State) (d : Nat) (x : L2State) : State := { s with l2 := Store.put {} s.l2 d x }

/-- The key of a VLAN and a MAC address (R109, R341). -/
def l2Key (vlan mac : Nat) : Nat := vlan % 2 ^ 12 * 2 ^ 48 + mac % 2 ^ 48

/-- Fields of an entry word (R342). -/
def l2Static (w : Nat) : Bool := bitSet w 62
def l2Hit (w : Nat) : Bool := bitSet w 61
def l2Route (w : Nat) : Bool := bitSet w 60
def l2Kind (w : Nat) : Nat := bitsOf w 58 2
def l2Dest (w : Nat) : Nat := bitsOf w 44 14

/-- An entry word from its fields (R342): VALID is one, bits 43:32 are zero. -/
def l2Word (static hit route : Bool) (kind dest seq : Nat) : Nat :=
  2 ^ 63 + ofBool static * 2 ^ 62 + ofBool hit * 2 ^ 61 + ofBool route * 2 ^ 60 + kind % 4 * 2 ^ 58 +
    dest % 2 ^ 14 * 2 ^ 44 + seq % 2 ^ 32

/-- The slots of the bucket of a key in table `t` under a seed, in ascending order (R341). -/
def l2Bucket (t seed key : Nat) : List Nat :=
  let b := (crc32c (BitVec.ofNat 32 seed) (bytesLE 8 key)).toNat % 2 ^ 15
  [0, 1, 2, 3].map fun w => t * 131072 + b * 4 + w

/-- The slot's entry; an empty slot reads as key and word zero. -/
def L2Bank.at_ (b : L2Bank) (slot : Nat) : Nat × Nat := Store.get (0, 0) b slot

/-- The slot of a key among the given slots. -/
def L2Bank.among (b : L2Bank) (key : Nat) (slots : List Nat) : Option Nat :=
  slots.find? fun i => (b.at_ i).2 != 0 && (b.at_ i).1 == key

/-- The slot that holds a key (R344: both buckets are read). -/
def L2Bank.find (b : L2Bank) (seeds : Nat × Nat) (key : Nat) : Option Nat :=
  b.among key (l2Bucket 0 seeds.1 key ++ l2Bucket 1 seeds.2 key)

/-- The first free slot. -/
def L2Bank.free (b : L2Bank) (slots : List Nat) : Option Nat := slots.find? fun i => (b.at_ i).2 == 0

/-- The other bucket of the entry in a slot. -/
def L2Bank.other (b : L2Bank) (seeds : Nat × Nat) (slot : Nat) : List Nat :=
  if slot < 131072 then l2Bucket 1 seeds.2 (b.at_ slot).1 else l2Bucket 0 seeds.1 (b.at_ slot).1

/-- A path put into a level's list before the first path whose head is a greater slot. -/
def pathInsert (p : List Nat) : List (List Nat) → List (List Nat)
  | [] => [p]
  | q :: r => if p.headD 0 < q.headD 0 then p :: q :: r else q :: pathInsert p r

/-- The paths of the next level: each slot of the other bucket, once, in ascending slot order. -/
def L2Bank.nextLevel (b : L2Bank) (seeds : Nat × Nat) (seen : List Nat) (paths : List (List Nat)) : List (List Nat) :=
  let grow (acc : List (List Nat)) (p : List Nat) : List (List Nat) :=
    (b.other seeds (p.headD 0)).foldl
      (fun acc i => if seen.contains i || acc.any (fun q => q.headD 0 == i) then acc else pathInsert (i :: p) acc) acc
  paths.foldl grow []

/-- The breadth-first search of R343: `paths` are the paths of the present level (newest slot first), `fuel` the moves
left; the answer is the free slot in front of the path that leads to it. -/
def L2Bank.search (b : L2Bank) (seeds : Nat × Nat) : Nat → List Nat → List (List Nat) → Option (List Nat)
  | 0, _, _ => none
  | n + 1, seen, paths =>
    match paths.findSome? fun p => (b.free (b.other seeds (p.headD 0))).map fun i => i :: p with
    | some chain => some chain
    | none =>
    let seen1 := seen ++ paths.map fun p => p.headD 0
    b.search seeds n seen1 (b.nextLevel seeds seen1 paths)

/-- The chain's moves from its free end back (R344), with the count of moves. -/
def L2Bank.relocate (b : L2Bank) : List Nat → L2Bank × Nat
  | [] => (b, 0)
  | [_] => (b, 0)
  | free :: slot :: r =>
    let b1 := Store.put (0, 0) (Store.put (0, 0) b free (b.at_ slot)) slot (0, 0)
    let rest := L2Bank.relocate b1 (slot :: r)
    (rest.1, rest.2 + 1)

/-- An insertion (R343): the bank with the key, and the moves made; `none` where it fails and nothing moves. -/
def L2Bank.add (b : L2Bank) (seeds : Nat × Nat) (key word : Nat) : Option (L2Bank × Nat) :=
  let h0 := l2Bucket 0 seeds.1 key
  let h1 := l2Bucket 1 seeds.2 key
  match b.free h0 with
  | some i => some (Store.put (0, 0) b i (key, word), 0)
  | none =>
    match b.free h1 with
    | some i => some (Store.put (0, 0) b i (key, word), 0)
    | none =>
      match b.search seeds 8 [] ((h0 ++ h1).map fun i => [i]) with
      | some chain =>
        let r := b.relocate chain
        some (Store.put (0, 0) r.1 (chain.getLastD 0) (key, word), r.2)
      | none => none

/-! ## A replica -/

/-- The seeds in force (R341). -/
def State.l2Seeds (s : State) (d : Nat) : Nat × Nat := (s.rf F.L2T.SEED_SEED_0 d 0, s.rf F.L2T.SEED_SEED_1 d 0)

/-- The bank that an epoch bit names. -/
def L2State.bank (x : L2State) (epoch : Nat) : L2Bank := if epoch = 0 then x.bank0 else x.bank1
def L2State.withBank (x : L2State) (epoch : Nat) (b : L2Bank) : L2State :=
  if epoch = 0 then { x with bank0 := b } else { x with bank1 := b }

/-- The active bank of a die. -/
def State.l2Bank (s : State) (d : Nat) : L2Bank := (s.l2t d).bank (s.rf F.L2T.STATUS_EPOCH d 0)

/-- The active bank replaced; COUNT follows. -/
def State.l2SetBank (s : State) (d : Nat) (b : L2Bank) : State :=
  (s.setL2 d ((s.l2t d).withBank (s.rf F.L2T.STATUS_EPOCH d 0) b)).wf F.L2T.COUNT_ENTRIES d 0 b.length

/-- The entry word of a key on a die, 0 where absent. -/
def State.l2Lookup (s : State) (d key : Nat) : Nat :=
  match (s.l2Bank d).find (s.l2Seeds d) key with
  | some i => ((s.l2Bank d).at_ i).2
  | none => 0

/-- The entry word of a key in the bank that an epoch bit names, 0 where absent (R340). -/
def State.l2LookupIn (s : State) (d e key : Nat) : Nat :=
  let x := s.l2t d
  let seeds := if e = s.rf F.L2T.STATUS_EPOCH d 0 then s.l2Seeds d else x.oldSeeds.getD (s.l2Seeds d)
  match (x.bank e).find seeds key with
  | some i => ((x.bank e).at_ i).2
  | none => 0

/-- An insertion that failed on a replica (R358). -/
def State.l2Fail (s : State) (d key : Nat) : State :=
  let s1 := ((s.addSat F.L2T.INS_FAIL_COUNT d 0 1).setFlag F.L2T.ERR_INS_FAIL_SEEN d 0).raise d B.L2T 0 1
  if d = 0 then ((s1.wf F.L2T.FAIL_KEY_KEY 0 0 key).setFlag F.L2T.ERR_REHASH_REQ 0 0).raise 0 B.L2T 0 0 else s1

/-- A key's word written: into its slot, or by insertion, whose moves count (R344, R444); the Bool says that it stands there. -/
def State.l2Write (s : State) (d key word : Nat) : State × Bool :=
  let b := s.l2Bank d
  match b.find (s.l2Seeds d) key with
  | some i => (s.l2SetBank d (Store.put (0, 0) b i (key, word)), true)
  | none =>
    match b.add (s.l2Seeds d) key word with
    | some (b1, moves) => (((s.l2SetBank d b1).addWrap F.L2T.RELOC_COUNT d 0 moves).perfEvent d 0x12 0 moves, true)
    | none => (s.l2Fail d key, false)

/-- A sequenced LEARN (R347). -/
def State.l2Learn (s : State) (d seq key port : Nat) : State :=
  let w := s.l2Lookup d key
  let s1 :=
    if w = 0 then (s.l2Write d key (l2Word false true false 0 port seq)).1
    else if l2Static w || l2Kind w != 0 then s
    else if l2Dest w = port then
      if l2Hit w then s else (s.l2Write d key (l2Word false true (l2Route w) 0 port seq)).1
    else (s.addSat F.L2T.MOVES_COUNT d 0 1).l2Write d key (l2Word false true (l2Route w) 0 port seq) |>.1
  s1.setL2 d { s1.l2t d with cache := (s1.l2t d).cache.filter (· != key) }

/-- An AGE scan over the slots in a range (R349): unmarked entries that are not static go, HIT clears in the rest. -/
def State.l2Age (s : State) (d lo hi : Nat) : State :=
  let inside (p : Nat × Nat × Nat) : Bool := decide (lo ≤ p.1) && decide (p.1 < hi)
  let stale (p : Nat × Nat × Nat) : Bool := inside p && !l2Static p.2.2 && !l2Hit p.2.2
  let b := s.l2Bank d
  let clear (p : Nat × Nat × Nat) : Nat × Nat × Nat :=
    if inside p && l2Hit p.2.2 then (p.1, p.2.1, p.2.2 - 2 ^ 61) else p
  (s.l2SetBank d ((b.filter fun p => !stale p).map clear)).addSat F.L2T.AGED_COUNT d 0 (b.filter stale).length

/-- A FLUSH scan over the slots in a range (R357). -/
def State.l2Flush (s : State) (d port : Nat) (all : Bool) (lo hi : Nat) : State :=
  let gone (p : Nat × Nat × Nat) : Bool :=
    decide (lo ≤ p.1) && decide (p.1 < hi) && l2Kind p.2.2 == 0 && l2Dest p.2.2 == port && (all || !l2Static p.2.2)
  s.l2SetBank d ((s.l2Bank d).filter fun p => !gone p)

/-! ## Numbering -/

/-- The number after `n` (R351). -/
def seqNext (n : Nat) : Nat := if n = 0xFFFFFFFF then 1 else n + 1

/-- `a` is after `b` in sequence order. -/
def seqAfter (a b : Nat) : Bool := let x := (a + 2 ^ 32 - b) % 2 ^ 32; decide (0 < x) && decide (x < 2 ^ 31)

/-- The order point may number (R353, R354). -/
def State.numbering (s : State) : Bool :=
  s.inRun 0 B.L2T 0 && !s.flag F.L2T.REHASH_CMD_BUSY 0 0 && !s.l2Order.backlog

/-- STATUS.NUMBERING of D0. -/
def State.l2Status (s : State) : State := s.putFlag F.L2T.STATUS_NUMBERING 0 0 s.numbering

/-- The message carries a numbered change. -/
def CtlBody.isL2Change : CtlBody → Bool
  | .l2Change _ _ => true
  | _ => false

/-- The message carries a request to the order point. -/
def CtlBody.isL2Req : CtlBody → Bool
  | .l2Req _ => true
  | _ => false

/-- Replica `d` has room, or does not count (R352). -/
def State.l2Room (s : State) (d : Nat) : Bool :=
  !s.linkUp 0 d || !s.inRun d B.L2T 0 || s.flag F.L2T.STATUS_RESYNC d 0 ||
    decide ((s.l2t d).queue.length + (s.msgs.filter fun m => m.dst == d && m.body.isL2Change).length < 4096)

/-- Every replica has room. -/
def State.l2AllRoom (s : State) : Bool := (List.range (Config.nDies s.part)).all fun d => s.l2Room d

/-- The replica on a die sets RESYNC when it has missed a change, runs, and can be reached (R354). -/
def State.l2Notice (s : State) (d : Nat) : State :=
  if d ≠ 0 ∧ (s.l2t d).missed ∧ s.inRun d B.L2T 0 ∧ s.linkUp 0 d then s.wfRaise F.L2T.STATUS_RESYNC d 0 1 3 else s

/-- A replica misses a numbered change; D0's never does (R354). -/
def State.l2Miss (s : State) (d : Nat) : State :=
  if d = 0 then s else (s.setL2 d { s.l2t d with missed := true }).l2Notice d

/-- A numbered change goes to every die (R49); one that cannot be reached misses it. -/
def State.l2Broadcast (s : State) (seq : Nat) (c : L2Change) : State :=
  (List.range (Config.nDies s.part)).foldl
    (fun s d => if s.linkUp 0 d then s.post 0 d (.l2Change seq c) else s.l2Miss d) s

/-- The answer to the blocking access numbered so of an engine, which waits for it still: it stands in the engine's hold. -/
def State.callAnswer (s : State) (c : Option (Nat × Nat)) (v : Nat) (block : List Byte) : State :=
  match c with
  | some (e, n) =>
    let g := s.eng e
    match g.hold with
    | .access op a none =>
      if g.calls = n then
        (s.setEng e { g with hold := .access op a (some ⟨0, v⟩), block := block }).tagTarget e (faDie a) true
      else s
    | _ => s
  | none => s

/-- The answer to the TBL.FLUSH of an engine. -/
def State.flushAnswer (s : State) (c : Option (Nat × Nat)) (v : Nat) : State := s.callAnswer c v []

/-- The order point numbers a change (R350, R351): ISSUED advances, the change goes out, a TBL.FLUSH completes, a UPD
shows its number. -/
def State.l2Number (s : State) (h : L2Held) : State :=
  let n := seqNext (s.rf F.L2T.ISSUED_SEQ 0 0)
  let s1 := ((s.wf F.L2T.ISSUED_SEQ 0 0 n).l2Broadcast n h.chg).flushAnswer h.eng n
  match h.chg with
  | .updWrite _ _ | .updDelete _ => (s1.wf F.L2T.UPD_SEQ_SEQ 0 0 n).raise 0 B.L2T 0 4
  | _ => s1

/-- A learn request that is lost: it leaves its source's cache and is counted there (R346). -/
def State.learnDrop (s : State) (d key : Nat) : State :=
  let x := s.l2t d
  ((s.setL2 d { x with cache := x.cache.filter (· != key) }).addSat F.L2T.LEARN_DROP_COUNT d 0 1).setFlag
    F.L2T.ERR_LEARN_DROP_SEEN d 0

/-- A request that the order point turns away while it numbers nothing (R353). -/
def State.l2Turn (s : State) (h : L2Held) : State :=
  match h.chg with
  | .learn key _ => s.learnDrop h.src key
  | .flush _ _ => s.flushAnswer h.eng 0
  | .updWrite _ _ | .updDelete _ => (s.wf F.L2T.UPD_CMD_STATUS 0 0 2).putFlag F.L2T.UPD_CMD_BUSY 0 0 false
  | _ => s

/-- The request may be numbered now: a REHASH is numbered while BUSY holds all others (R359). -/
def State.l2MayNumber (s : State) (h : L2Held) : Bool :=
  match h.chg with
  | .rehash _ _ => s.inRun 0 B.L2T 0 && !s.l2Order.backlog && s.l2AllRoom
  | _ => s.numbering && s.l2AllRoom

/-- A request at the order point: numbered, or held while there is no room (R352), a learn beyond 256 of its die lost. -/
def State.l2Offer (s : State) (h : L2Held) : State :=
  if s.l2MayNumber h && s.l2Order.held == [] then s.l2Number h
  else
    let full := decide (256 ≤ (s.l2Order.held.filter fun x => x.src == h.src).length)
    match h.chg with
    | .learn key _ => if full then s.learnDrop h.src key
        else { s with l2Order := { s.l2Order with held := s.l2Order.held ++ [h] } }
    | _ => { s with l2Order := { s.l2Order with held := s.l2Order.held ++ [h] } }

/-- Held requests, an AGE among them, are numbered in order of arrival as far as there is room (R349, R350, R352). -/
def State.l2Serve (s : State) : State :=
  let one (s : State) (_ : Nat) : State :=
    match s.l2Order.held.filter s.l2MayNumber with
    | h :: _ =>
      let o := s.l2Order
      { s with l2Order := { o with held := o.held.erase h, ageHeld := o.ageHeld && h.chg != L2Change.age } }.l2Number h
    | [] => s
  (List.range s.l2Order.held.length).foldl one s.l2Status

/-- D0's replica as it stands. -/
def State.l2Snap (s : State) : L2Snap :=
  let x := s.l2t 0
  { bank0 := x.bank0, bank1 := x.bank1, nextSeeds := x.nextSeeds, oldSeeds := x.oldSeeds, epoch := s.rf F.L2T.STATUS_EPOCH 0 0,
    seeds := s.l2Seeds 0, count := s.rf F.L2T.COUNT_ENTRIES 0 0 }

/-- D0 has applied `seq`: each copy whose C that is has its subject (R354). -/
def State.l2SnapAt (s : State) (seq : Nat) : State :=
  (List.range (Config.nDies s.part)).foldl (fun s k =>
    if (s.l2t k).copying = some seq then s.setL2 k { s.l2t k with snap := some s.l2Snap } else s) s

/-- Numbered changes wait for D0's replica, in its queue or on their way there (R354). -/
def State.l2Behind (s : State) : Bool := (s.l2t 0).queue != [] || s.msgs.any fun m => m.dst == 0 && m.body.isL2Change

/-- The change at the head of a replica's queue is applied: it leaves the queue, APPLIED shows it, and room it leaves is
used (R351, R352). -/
def State.l2Applied (s : State) (d seq : Nat) : State :=
  let x := s.l2t d
  let s1 := (s.setL2 d { x with queue := x.queue.drop 1, scan := none }).wf F.L2T.APPLIED_SEQ d 0 seq
  let s2 := if d = 0 then s1.l2SnapAt seq else s1
  let s3 := if d = 0 ∧ s2.l2Behind = false then { s2 with l2Order := { s2.l2Order with backlog := false } } else s2
  s3.l2Serve

/-- The head of a replica's queue, where it may be applied: in RUN, no scan, no copy (R350, R354). -/
def State.l2Head (s : State) (d : Nat) : Option (Nat × L2Change) :=
  let x := s.l2t d
  if s.inRun d B.L2T 0 && !s.flag F.L2T.STATUS_RESYNC d 0 && x.scan == none then x.queue.head? else none

/-- An update applied on a replica, with its outcome (R355). -/
def State.l2Upd (s : State) (d seq : Nat) : L2Change → State × Nat
  | .updWrite key w =>
    let r := s.l2Write d key (l2Word (l2Static w) true (l2Route w) (l2Kind w) (l2Dest w) seq)
    (r.1, if r.2 then 0 else 5)
  | .updDelete key =>
    match (s.l2Bank d).find (s.l2Seeds d) key with
    | some i => (s.l2SetBank d (Store.put (0, 0) (s.l2Bank d) i (0, 0)), 0)
    | none => (s, 4)
  | _ => (s, 0)

/-- The shadow bank rebuilt with new seeds (R359), `none` where an insertion fails, and the moves made (R343). -/
def rebuild (seeds : Nat × Nat) (b : L2Bank) : Option L2Bank × Nat :=
  b.foldl (fun acc p =>
    match acc.1.bind fun n => L2Bank.add n seeds p.2.1 p.2.2 with
    | some r => (some r.1, acc.2 + r.2)
    | none => (none, acc.2)) (some [], 0)

/-- A replica rebuilds its shadow bank and reports to the order point (R359). -/
def State.l2Rehash (s : State) (d : Nat) (seeds : Nat × Nat) : State :=
  let x := s.l2t d
  let e := s.rf F.L2T.STATUS_EPOCH d 0
  let built := rebuild seeds (s.l2Bank d)
  let y := { x.withBank (1 - e) (built.1.getD []) with nextSeeds := if built.1.isSome then some seeds else none }
  let s0 := ((s.setL2 d y).addWrap F.L2T.RELOC_COUNT d 0 built.2).perfEvent d 0x12 0 built.2
  let s1 := s0.setFlag F.L2T.STATUS_REHASHING d 0
  match s1.l2Order.rehash with
  | some j =>
    let j1 : RehashJob := { left := j.left.filter (· != d), failed := j.failed || built.1.isNone }
    { s1 with l2Order := { s1.l2Order with rehash := some j1 } }
  | none => s1

/-- The switch to the rebuilt bank on a die (R360). -/
def State.l2Switch (s : State) (d : Nat) : State :=
  let x := s.l2t d
  let e := 1 - s.rf F.L2T.STATUS_EPOCH d 0
  let seeds := x.nextSeeds.getD (s.l2Seeds d)
  let s0 := s.setL2 d { x with draining := some (s.tick d), nextSeeds := none, oldSeeds := some (s.l2Seeds d) }
  let s1 := (s0.wf F.L2T.STATUS_EPOCH d 0 e).putFlag F.L2T.STATUS_REHASHING d 0 false
  let s2 := (s1.wf F.L2T.SEED_SEED_0 d 0 seeds.1).wf F.L2T.SEED_SEED_1 d 0 seeds.2
  s2.wf F.L2T.COUNT_ENTRIES d 0 (s2.l2Bank d).length

/-- A change applied whole, as a buffered change is after a copy (R354). -/
def State.l2Whole (s : State) (d seq : Nat) (c : L2Change) : State :=
  match c with
  | .learn key port => s.l2Learn d seq key port
  | .updWrite _ _ | .updDelete _ => (s.l2Upd d seq c).1
  | .flush port all => s.l2Flush d port all 0 262144
  | .age => s.l2Age d 0 262144
  | .rehash a b => s.l2Rehash d (a, b)
  | .switch _ => s.l2Switch d

/-! ## The commands -/

/-- ORDER_POINT_ARRIVE: the oldest request of die `src` reaches the order point (R350, R353). -/
def execOrderPointArrive (src : Nat) (s : State) : Out :=
  onDie src s fun s =>
    match takeMsg (fun m => m.src == src && m.dst == 0 && m.body.isL2Req) s.msgs with
    | some (⟨_, _, .l2Req h⟩, r) =>
      let s1 := { s with msgs := r }
      if s1.numbering then s1.l2Offer h else s1.l2Turn h
    | _ => s

/-- AGE_PERIOD_EXPIRE (R349): the period has run on D0's ticks; an AGE that cannot be numbered takes its place among the held
requests, unless one is held. -/
def execAgePeriodExpire (s : State) : Out :=
  let p := s.rf F.L2T.AGE_PERIOD 0 0
  if p ≠ 0 ∧ s.l2Order.ageFrom + 625000000 * p ≤ s.tick 0 then
    let s1 := { s with l2Order := { s.l2Order with ageFrom := s.l2Order.ageFrom + 625000000 * p } }
    if s1.numbering && s1.l2AllRoom && s1.l2Order.held == [] then .next (s1.l2Number ⟨0, none, .age⟩)
    else if s1.l2Order.ageHeld then .next s1
    else .next { s1 with l2Order := { s1.l2Order with ageHeld := true, held := s1.l2Order.held ++ [⟨0, none, .age⟩] } }
  else .next s

/-- A write of L2T.AGE restarts the count (R349). -/
def State.wrAge (s : State) (data : Nat) : State :=
  { s.wf F.L2T.AGE_PERIOD 0 0 data with l2Order := { s.l2Order with ageFrom := s.tick 0 } }

/-- L2_CHANGE_ARRIVE: the oldest numbered change on its way reaches a replica's queue (R49, R352, R354). -/
def execL2ChangeArrive (d : Nat) (s : State) : Out :=
  onDie d s fun s =>
    match takeMsg (fun m => m.dst == d && m.body.isL2Change) s.msgs with
    | some (⟨_, _, .l2Change seq c⟩, r) =>
      let s1 := { s with msgs := r }
      let x := s1.l2t d
      let push := s1.setL2 d { x with queue := x.queue ++ [(seq, c)] }
      if d = 0 then push
      else if !s1.inRun d B.L2T 0 then s1.l2Miss d
      else if s1.flag F.L2T.STATUS_RESYNC d 0 then
        match x.copying with
        | some base =>
          if !seqAfter seq base then s1
          else if x.queue.length < 4096 then push else s1.setL2 d { x with queue := [], overrun := true }
        | none => s1
      else if seqAfter seq (s1.rf F.L2T.APPLIED_SEQ d 0) then push
      else s1
    | _ => s

/-- APPLY_LEARN: a replica applies the LEARN at the head of its queue (R347). -/
def execApplyLearn (d : Nat) (s : State) : Out :=
  onDie d s fun s =>
    match s.l2Head d with
    | some (seq, .learn key port) => (s.l2Learn d seq key port).l2Applied d seq
    | _ => s

/-- A scan begun at the head of the queue, or gone on with, up to but not including slot `upTo`. -/
def State.l2Scan (s : State) (d upTo : Nat) (mine : L2Change → Bool) : State :=
  let x := s.l2t d
  let start := if !s.active d B.L2T 0 then none else match x.scan with
    | some (seq, c, lo) => if mine c then some (seq, c, lo) else none
    | none => match s.l2Head d with
      | some (seq, c) => if mine c then some (seq, c, 0) else none
      | none => none
  match start with
  | some (seq, c, lo) =>
    let hi := max lo (min upTo 262144)
    let s1 := match c with
      | .age => s.l2Age d lo hi
      | .flush port all => s.l2Flush d port all lo hi
      | _ => s
    s1.setL2 d { s1.l2t d with scan := some (seq, c, hi) }
  | none => s

/-- The change is an AGE, or a FLUSH. -/
def L2Change.isAge : L2Change → Bool
  | .age => true
  | _ => false
def L2Change.isFlush : L2Change → Bool
  | .flush _ _ => true
  | _ => false

/-- APPLY_AGE: a replica scans its slots below `upTo` (R349). -/
def execApplyAge (d upTo : Nat) (s : State) : Out := onDie d s fun s => s.l2Scan d upTo L2Change.isAge

/-- APPLY_FLUSH: a replica scans its slots below `upTo` (R357). -/
def execApplyFlush (d upTo : Nat) (s : State) : Out := onDie d s fun s => s.l2Scan d upTo L2Change.isFlush

/-- TABLE_SCAN_END: the scan in progress finishes on a replica (R350). -/
def execTableScanEnd (d : Nat) (s : State) : Out :=
  onDie d s fun s =>
    match (s.l2t d).scan with
    | some (seq, _, _) => if s.active d B.L2T 0 then (s.l2Scan d 262144 fun _ => true).l2Applied d seq else s
    | none => s

/-- A UPD that ends: STATUS, and BUSY clear (R355). -/
def State.updDone (s : State) (st : Nat) : State :=
  (s.wf F.L2T.UPD_CMD_STATUS 0 0 st).putFlag F.L2T.UPD_CMD_BUSY 0 0 false

/-- DEST is within the range of its DKIND (R342, R355). -/
def State.l2DestOk (s : State) (w : Nat) : Bool :=
  match l2Kind w with
  | 0 => decide (l2Dest w < Config.nPorts s.part)
  | 2 => decide (l2Dest w < Config.nEngines s.part)
  | _ => true

/-- A write of L2T.UPD_CMD (R353, R355): OP is stored (R21); while BUSY is set it starts nothing. -/
def State.wrUpdCmd (s : State) (data : Nat) : State :=
  let op := bitsOf data 29 2
  let s1 := s.wf F.L2T.UPD_CMD_OP 0 0 op
  if s1.flag F.L2T.UPD_CMD_BUSY 0 0 then s1
  else
    let key := s1.rf F.L2T.UPD_KEY_VALUE 0 0
    let w := s1.rf F.L2T.UPD_WORD_VALUE 0 0
    let refused := (!l2Static w && (l2Kind w != 0 || l2Route w)) || !s1.l2DestOk w || bitsOf key 60 4 != 0
    if op ≠ 1 ∧ op ≠ 2 then s1
    else if op = 1 ∧ refused then s1.updDone 1
    else if !s1.inRun 0 B.L2T 0 then s1.updDone 2
    else if s1.flag F.L2T.REHASH_CMD_BUSY 0 0 then s1.updDone 3
    else (s1.setFlag F.L2T.UPD_CMD_BUSY 0 0).l2Offer ⟨0, none, if op = 1 then .updWrite key w else .updDelete key⟩

/-- The address of L2T.UPD_CMD. -/
def updCmdAddr : Nat := mkFa 0 B.L2T 0 0x68

/-- L2_UPD_WRITE: a write of UPD_CMD with OP WRITE (R355). -/
def execL2UpdWrite (e : Nat) (s : State) : Out := arriveWrite e updCmdAddr 32 (2 ^ 29) s fun s => s.wrUpdCmd (2 ^ 29)

/-- L2_UPD_DELETE: a write of UPD_CMD with OP DELETE (R355). -/
def execL2UpdDelete (e : Nat) (s : State) : Out := arriveWrite e updCmdAddr 32 (2 ^ 30) s fun s => s.wrUpdCmd (2 ^ 30)

/-- APPLY_UPD: a replica applies the UPD at the head of its queue; on D0 BUSY clears (R355). -/
def execApplyUpd (d : Nat) (s : State) : Out :=
  onDie d s fun s =>
    let done (seq : Nat) (c : L2Change) : State :=
      let r := s.l2Upd d seq c
      ((if d = 0 then r.1.updDone r.2 else r.1)).l2Applied d seq
    match s.l2Head d with
    | some (seq, .updWrite k w) => done seq (.updWrite k w)
    | some (seq, .updDelete k) => done seq (.updDelete k)
    | _ => s

/-- A die's instance takes part: in RUN and reachable from D0. -/
def State.l2Live (s : State) (d : Nat) : Bool := s.inRun d B.L2T 0 && s.linkUp 0 d

/-- A write of L2T.REHASH_CMD (R359). -/
def State.wrRehash (s : State) (data : Nat) : State :=
  if !bitSet data 30 || s.flag F.L2T.REHASH_CMD_BUSY 0 0 then s
  else if !s.inRun 0 B.L2T 0 then s.wf F.L2T.REHASH_CMD_STATUS 0 0 2
  else if !(List.range (Config.nDies s.part)).all s.l2Live then s.wf F.L2T.REHASH_CMD_STATUS 0 0 3
  else
    let seeds := s.rf F.L2T.REHASH_SEED_SEEDS 0 0
    let job : RehashJob := { left := List.range (Config.nDies s.part), failed := false }
    let s1 := { s.setFlag F.L2T.REHASH_CMD_BUSY 0 0 with l2Order := { s.l2Order with rehash := some job } }
    let h : L2Held := ⟨0, none, .rehash (seeds % 2 ^ 32) (seeds / 2 ^ 32)⟩
    { s1 with l2Order := { s1.l2Order with held := s1.l2Order.held ++ [h] } }.l2Serve

/-- REHASH_GO: a write of REHASH_CMD with GO (R359). -/
def execRehashGo (e : Nat) (s : State) : Out :=
  arriveWrite e (mkFa 0 B.L2T 0 0x78) 32 (2 ^ 30) s fun s => s.wrRehash (2 ^ 30)

/-- APPLY_REHASH: a replica rebuilds its shadow bank once that bank may be written (R359, R360). -/
def execApplyRehash (d : Nat) (s : State) : Out :=
  onDie d s fun s =>
    match s.l2Head d, (s.l2t d).draining with
    | some (seq, .rehash a b), none => (s.l2Rehash d (a, b)).l2Applied d seq
    | _, _ => s

/-- The apply tick of a SWITCH (R360). -/
def switchTick (now : Nat) : Nat := (now + 1024 + 255) / 256 * 256

/-- A rehash ends: STATUS, BUSY clear, event 2, and numbering resumes (R359). -/
def State.rehashEnds (s : State) (failed : Bool) : State :=
  (((s.wf F.L2T.REHASH_CMD_STATUS 0 0 (ofBool failed)).putFlag F.L2T.REHASH_CMD_BUSY 0 0 false).raise 0 B.L2T 0 2).l2Serve

/-- REHASH_RESULT: every replica that takes part has reported (R359): a failure ends the rehash, else the SWITCH is numbered,
and the rehash ends once D0's epoch has changed. -/
def execRehashResult (s : State) : Out :=
  match s.l2Order.rehash with
  | some j =>
    if !s.inRun 0 B.L2T 0 || !s.l2AllRoom || j.left.any fun d => s.l2Live d && !(s.l2t d).missed then .next s
    else
      let s1 := { s with l2Order := { s.l2Order with rehash := none } }
      let unmark (s : State) (d : Nat) : State :=
        (s.putFlag F.L2T.STATUS_REHASHING d 0 false).setL2 d { s.l2t d with nextSeeds := none }
      if j.failed then .next (((List.range (Config.nDies s.part)).foldl unmark s1).rehashEnds true)
      else .next (s1.l2Number ⟨0, none, .switch (switchTick (s1.pkgTick 0))⟩)
  | none => .next s

/-- The L2 part of TABLE_SWITCH_APPLY: the switch at the head of the queue has reached its apply tick (R360). -/
def State.l2SwitchApply (s : State) (d : Nat) : State :=
  match s.l2Head d with
  | some (seq, .switch at_) =>
    if at_ ≤ s.pkgTick d then
      let s1 := (s.l2Switch d).l2Applied d seq
      let s2 := if at_ < s.pkgTick d then s1.setFlag F.L2T.ERR_SWITCH_LATE d 0 else s1
      if d = 0 ∧ s2.flag F.L2T.REHASH_CMD_BUSY 0 0 = true then s2.rehashEnds false else s2
    else s
  | _ => s

/-! ## Resynchronisation (R354) -/

/-- A copy begins with the number last assigned; D0 may already have come to it. -/
def State.l2CopyBegin (s : State) (d : Nat) : State :=
  let c := s.rf F.L2T.ISSUED_SEQ 0 0
  let snap := if s.rf F.L2T.APPLIED_SEQ 0 0 = c then some s.l2Snap else none
  s.setL2 d { s.l2t d with copying := some c, snap := snap, copied := false, queue := [], scan := none, overrun := false }

/-- L2_RESYNC_START: a copy of D0's replica begins. -/
def execL2ResyncStart (d : Nat) (s : State) : Out :=
  onDie d s fun s =>
    if s.flag F.L2T.STATUS_RESYNC d 0 && s.inRun d B.L2T 0 && s.inRun 0 B.L2T 0 && s.linkUp 0 d && (s.l2t d).copying == none then
      s.l2CopyBegin d
    else s

/-- A copy in progress on a die is abandoned (R354, R352). -/
def State.l2Abandon (s : State) (d : Nat) : State :=
  let x := s.l2t d
  if x.copying.isSome then
    s.setL2 d { x with copying := none, snap := none, copied := false, queue := [], overrun := false, missed := true }
  else s

/-- Buffered changes applied in order, as far as no switch waits for its tick and no rebuild for the old bank (R360). -/
def State.l2Drain (s : State) (d : Nat) : List (Nat × L2Change) → State
  | [] => s.setL2 d { s.l2t d with queue := [] }
  | (seq, c) :: r =>
    let wait := match c with
      | .switch at_ => decide (s.pkgTick d < at_)
      | .rehash _ _ => (s.l2t d).draining.isSome
      | _ => false
    if wait then s.setL2 d { s.l2t d with queue := (seq, c) :: r }
    else ((s.l2Whole d seq c).wf F.L2T.APPLIED_SEQ d 0 seq).l2Drain d r

/-- The replica becomes D0's as it stood at `base`; the die's learn cache is cleared (R346). -/
def State.l2Copy (s : State) (d base : Nat) (z : L2Snap) : State :=
  let x := { s.l2t d with bank0 := z.bank0, bank1 := z.bank1, nextSeeds := z.nextSeeds, oldSeeds := z.oldSeeds, cache := [],
                          copied := true, missed := false }
  let put (s : State) (p : Fld × Nat) : State := s.wf p.1 d 0 p.2
  [(F.L2T.STATUS_REHASHING, ofBool z.nextSeeds.isSome), (F.L2T.STATUS_EPOCH, z.epoch), (F.L2T.SEED_SEED_0, z.seeds.1),
    (F.L2T.SEED_SEED_1, z.seeds.2), (F.L2T.COUNT_ENTRIES, z.count), (F.L2T.APPLIED_SEQ, base)].foldl put (s.setL2 d x)

/-- The copy is whole: every change buffered since C is applied, and RESYNC clears once none is left (R354). -/
def State.l2CopyEnd (s : State) (d : Nat) : State :=
  let s1 := s.l2Drain d (s.l2t d).queue
  if (s1.l2t d).queue = [] then
    let s2 := s1.setL2 d { s1.l2t d with copying := none, snap := none, copied := false }
    (((s2.putFlag F.L2T.STATUS_RESYNC d 0 false).setFlag F.L2T.ERR_RESYNC_SEEN d 0).raise d B.L2T 0 3).l2Serve
  else s1

/-- L2_RESYNC_END: D0 has applied every change up to C and the copy completes; a discarded buffer starts a new copy. -/
def execL2ResyncEnd (d : Nat) (s : State) : Out :=
  onDie d s fun s =>
    let x := s.l2t d
    match x.copying, x.snap with
    | some base, some z =>
      if x.overrun then s.l2CopyBegin d
      else if x.copied then s.l2CopyEnd d
      else (s.l2Copy d base z).l2CopyEnd d
    | _, _ => s

/-! ## Learning at a frame's end, and run states -/

/-- Learning is judged for a good frame, by the bank that its E_L2 names (R340, R345, R346). -/
def State.l2Judge (s : State) (d epoch key port : Nat) : State :=
  if !s.inRun d B.L2T 0 then s
  else
    let w := s.l2LookupIn d epoch key
    let x := s.l2t d
    let ask : State :=
      if x.cache.contains key then s
      else if 64 ≤ x.cache.length then s.learnDrop d key
      else if !s.linkUp d 0 then s.learnDrop d key
      else (s.setL2 d { x with cache := x.cache ++ [key] }).post d 0 (.l2Req ⟨d, none, .learn key port⟩)
    if w = 0 then ask
    else if l2Static w || l2Kind w != 0 then
      if l2Kind w != 0 || l2Dest w != port then s.addSat F.L2T.STATIC_CONFLICT_COUNT d 0 1 else s
    else if l2Dest w = port ∧ l2Hit w then s
    else ask

/-- An L2T instance enters RUN: D0 applies what is queued before it numbers again; another may have missed changes. -/
def State.l2Started (s : State) (d : Nat) : State :=
  if d = 0 then
    { s with l2Order := { s.l2Order with backlog := s.l2Behind } }.l2Serve
  else (s.l2Notice d).l2Serve

/-- An L2T instance leaves RUN (R353, R354). A REHASH and an AGE stay held; a replica that no longer runs leaves room. -/
def State.l2Stopped (s : State) (d : Nat) : State :=
  if d = 0 then
    let back := s.l2Order.held.filter fun h => match h.chg with
      | .rehash _ _ | .age => false
      | _ => true
    let kept := s.l2Order.held.filter fun h => match h.chg with
      | .rehash _ _ | .age => true
      | _ => false
    let s1 := back.foldl State.l2Turn { s with l2Order := { s.l2Order with held := kept } }
    (List.range (Config.nDies s.part)).foldl (fun s k => s.l2Abandon k) s1.l2Status
  else
    let s1 := s.l2Abandon d
    let x := s1.l2t d
    let keep := match x.scan with
      | some _ => x.queue.take 1
      | none => []
    (if x.queue = keep then s1 else s1.setL2 d { x with queue := keep, missed := true }).l2Serve

/-- A scan in progress is cut off: D0's replica goes on with it at its next start, another has missed the change (R354). -/
def State.l2ScanCut (s : State) (d : Nat) : State :=
  let x := s.l2t d
  if d = 0 ∨ x.scan.isNone then s else s.setL2 d { x with scan := none, queue := [], missed := true }

end Sys2Proof.Machine
end

