-- ==== Sys2Proof/Machine/Tables.lean ====
section
/-!
DEFINITION. The LPM and multicast-group tables: lookups, the command register, the order point, mirrored writes, rebuild,
bank switch and resynchronisation (R50, R360 to R371).
-/
namespace Sys2Proof.Machine

/-! ## Instances and banks -/

/-- The number of an LPM (0x15) or MCG (0x16) instance. -/
def tblKey (d blk : Nat) : Nat := 256 * d + blk

def State.tbl (s : State) (d blk : Nat) : TblState := Store.get {} s.tbls (tblKey d blk)
def State.setTbl (s : State) (d blk : Nat) (x : TblState) : State := { s with tbls := Store.put {} s.tbls (tblKey d blk) x }
def State.tblOrder (s : State) (blk : Nat) : TblOrder := Store.get {} s.tblOrders blk
def State.setTblOrder (s : State) (blk : Nat) (x : TblOrder) : State :=
  { s with tblOrders := Store.put {} s.tblOrders blk x }

/-- The fields that the two maps share. -/
def tblF (blk : Nat) (lpm mcg : Fld) : Fld := if blk = B.LPM then lpm else mcg
def fCmdBusy (blk : Nat) : Fld := tblF blk F.LPM.CMD_BUSY F.MCG.CMD_BUSY
def fCmdStatus (blk : Nat) : Fld := tblF blk F.LPM.CMD_STATUS F.MCG.CMD_STATUS
def fResync (blk : Nat) : Fld := tblF blk F.LPM.STATUS_RESYNC F.MCG.STATUS_RESYNC
def fTstate (blk : Nat) : Fld := tblF blk F.LPM.STATUS_TSTATE F.MCG.STATUS_TSTATE
def fEpoch (blk : Nat) : Fld := tblF blk F.LPM.STATUS_EPOCH F.MCG.STATUS_EPOCH
def fResyncSeen (blk : Nat) : Fld := tblF blk F.LPM.ERR_RESYNC_SEEN F.MCG.ERR_RESYNC_SEEN
def fNoSlot (blk : Nat) : Fld := tblF blk F.LPM.ERR_NO_SLOT_SEEN F.MCG.ERR_NO_SLOT_SEEN
def fLate (blk : Nat) : Fld := tblF blk F.LPM.ERR_SWITCH_LATE F.MCG.ERR_SWITCH_LATE

/-- The bank that an epoch bit names. -/
def TblState.bank (x : TblState) (epoch : Nat) : TblBank := if epoch = 0 then x.bank0 else x.bank1
def TblState.withBank (x : TblState) (epoch : Nat) (b : TblBank) : TblState :=
  if epoch = 0 then { x with bank0 := b } else { x with bank1 := b }

/-- The active bank of an instance. -/
def State.tblBank (s : State) (d blk : Nat) : TblBank := (s.tbl d blk).bank (s.rf (fEpoch blk) d 0)

/-! ## Prefixes (R361 to R363) -/

/-- Bits of an address of a family. -/
def famBits (family : Nat) : Nat := if family = 0 then 32 else 128

/-- The map length of a prefix (R361). -/
def mapLen (family len : Nat) : Nat := if family = 0 then 96 + len else len

/-- An address masked to a prefix length. -/
def maskTo (family len a : Nat) : Nat := a / 2 ^ (famBits family - len) * 2 ^ (famBits family - len)

/-- The prefix of a family and length that an address has in a bank. -/
def TblBank.lpmAt (b : TblBank) (family len a : Nat) : Option LpmEntry :=
  b.lpm.find? fun e => e.family == family && e.len == len && e.pfx == maskTo family len a

/-- The bank holds a prefix of a map length (R361). -/
def TblBank.mapBit (b : TblBank) (n : Nat) : Bool := b.lpm.any fun e => mapLen e.family e.len == n

/-- The filter bits of a masked key: taken from its CRC-32C under the bank's filter seed (R362). -/
def TblBank.filterBits (b : TblBank) (family pfx : Nat) : BitVec 16 × BitVec 16 × BitVec 16 :=
  Config.lpmFilterPick (crc32c (BitVec.ofNat 32 b.filterSeed) (Config.lpmKey family pfx))

/-- The filter of a length tests positive (R362). -/
def TblBank.filterHit (b : TblBank) (family len a : Nat) : Bool :=
  let t := b.filterBits family (maskTo family len a)
  let bit (x : BitVec 16) : Bool := Store.get 0 b.filters (65536 * mapLen family len + x.toNat) == 1
  bit t.1 && bit t.2.1 && bit t.2.2

/-- The lengths that a lookup probes, longest first (R363). -/
def TblBank.probes (b : TblBank) (family a : Nat) : List Nat :=
  ((List.range (famBits family + 1)).reverse).filter fun len => b.mapBit (mapLen family len) && b.filterHit family len a

/-- The probes made until one finds its key, and what it finds (R363). -/
def TblBank.probe (b : TblBank) (family a : Nat) : Nat → List Nat → Nat × Option LpmEntry
  | n, [] => (n, none)
  | n, len :: r =>
    match b.lpmAt family len a with
    | some e => (n + 1, some e)
    | none => b.probe family a (n + 1) r

/-- The longest match of an address, with the number of probes. -/
def TblBank.lookup (b : TblBank) (family a : Nat) : Nat × Option LpmEntry := b.probe family a 0 (b.probes family a)

/-- Prefixes of a family in a bank. -/
def TblBank.count (b : TblBank) (family : Nat) : Nat := (b.lpm.filter fun e => e.family == family).length

/-- The same prefix: family, length and address. -/
def LpmEntry.same (e f : LpmEntry) : Bool := e.family == f.family && e.len == f.len && e.pfx == f.pfx

/-! ## Buckets (R361): 16,384 of 8 units, with two hash choices; an insertion relocates as in R343. How entries of one and of
two units share a bucket, and in which order its entries are searched, is the model's choice (DESIGN CHOICE, log entry 73). -/

/-- The units that an entry takes. -/
def LpmEntry.units (e : LpmEntry) : Nat := if e.family = 0 then 1 else 2

/-- The two buckets of a prefix under the bank's bucket seed. -/
def TblBank.buckets (b : TblBank) (e : LpmEntry) : Nat × Nat :=
  let h := Config.lpmBuckets b.bucketSeed e.len (Config.lpmKey e.family e.pfx)
  (h.1.toNat, h.2.toNat)

/-- The bucket to which an entry can move. -/
def TblBank.otherBucket (b : TblBank) (e : LpmEntry) : Nat :=
  if e.bucket = (b.buckets e).1 then (b.buckets e).2 else (b.buckets e).1

/-- The units taken of a bucket. -/
def unitsIn (l : List LpmEntry) (k : Nat) : Nat := ((l.filter fun e => e.bucket == k).map LpmEntry.units).foldl (· + ·) 0

/-- Bucket `k` has room for `n` more units. -/
def TblBank.room (b : TblBank) (k n : Nat) : Bool := decide (unitsIn b.lpm k + n ≤ 8)

/-- The entries of bucket `k`, oldest first, whose move makes room for `n` units. -/
def TblBank.movable (b : TblBank) (k n : Nat) : List LpmEntry :=
  b.lpm.filter fun e => e.bucket == k && decide (unitsIn b.lpm k + n ≤ 8 + e.units)

/-- A path put into a level's list by the bucket of its newest entry. -/
def lpmPathInsert (p : List LpmEntry) (l : List (List LpmEntry)) : List (List LpmEntry) :=
  let before (q : List LpmEntry) : Bool := q.head?.any fun f => p.head?.any fun e => decide (f.bucket ≤ e.bucket)
  l.takeWhile before ++ p :: l.dropWhile before

/-- The entries with those of a path moved, each to its other bucket. -/
def TblBank.moved (b : TblBank) (p : List LpmEntry) : List LpmEntry :=
  b.lpm.map fun f => if p.any f.same then { f with bucket := b.otherBucket f } else f

/-- The bucket to which the moves of a path (newest entry first) make room. -/
def pathBucket (p : List LpmEntry) : Nat := ((p.getLast?).map LpmEntry.bucket).getD 0

/-- The moves of a path make room for `n` units, and no bucket overflows by them. -/
def TblBank.pathFits (b : TblBank) (n : Nat) (p : List LpmEntry) : Bool :=
  let l := b.moved p
  decide (unitsIn l (pathBucket p) + n ≤ 8) && p.all fun f => decide (unitsIn l (b.otherBucket f) ≤ 8)

/-- The breadth-first search of R343 over the entries to move: `paths` are those of the present level, newest entry first, and
the fuel the moves left; the answer is the first path that makes room for `n` units. -/
def TblBank.chain (b : TblBank) (n : Nat) : Nat → List (List LpmEntry) → Option (List LpmEntry)
  | 0, _ => none
  | k + 1, paths =>
    match paths.find? (b.pathFits n) with
    | some p => some p
    | none =>
      let more (p : List LpmEntry) : List (List LpmEntry) := match p with
        | e :: _ => ((b.movable (b.otherBucket e) e.units).filter fun f => !p.any f.same).map fun f => f :: p
        | [] => []
      b.chain n k ((paths.flatMap more).foldl (fun l p => lpmPathInsert p l) [])

/-- Where a new prefix goes: the entries after the moves that its place takes, and its bucket; `none` where no chain of 8 moves
or fewer makes room (R343, R361, R368 STATUS 0x05). -/
def TblBank.place (b : TblBank) (e : LpmEntry) : Option (List LpmEntry × Nat) :=
  let h := b.buckets e
  if b.room h.1 e.units then some (b.lpm, h.1)
  else if b.room h.2 e.units then some (b.lpm, h.2)
  else (b.chain e.units 8 ((b.movable h.1 e.units ++ b.movable h.2 e.units).foldl (fun l f => lpmPathInsert [f] l) [])).map
    fun p => (b.moved p, pathBucket p)

/-- A prefix written, with its filter bits (R362): in its units where it stands, else in the place found for it. -/
def TblBank.addLpm (b : TblBank) (e : LpmEntry) : TblBank :=
  let t := b.filterBits e.family e.pfx
  let set (m : Store Nat) (x : BitVec 16) : Store Nat := Store.put 0 m (65536 * mapLen e.family e.len + x.toNat) 1
  let at_ : List LpmEntry × Nat := match b.lpm.find? e.same with
    | some f => (b.lpm, f.bucket)
    | none => (b.place e).getD (b.lpm, (b.buckets e).1)
  { b with lpm := at_.1.filter (fun f => !f.same e) ++ [{ e with bucket := at_.2 }],
           filters := set (set (set b.filters t.1) t.2.1) t.2.2 }

/-- The entry that a command spells. -/
def TblOp.entry (c : TblOp) : LpmEntry :=
  { family := c.family, len := c.len, pfx := c.pfx, result := c.result, vid := c.vid }

/-- A command's effect on one bank: a prefix or a group written or removed (R362, R370). -/
def TblBank.write (b : TblBank) (blk : Nat) (c : TblOp) : TblBank :=
  let e := c.entry
  let add := c.op = 0x01 || c.op = 0x11
  if blk = B.LPM then (if add then b.addLpm e else { b with lpm := b.lpm.filter fun f => !f.same e })
  else { b with groups := Store.put (0, 0) b.groups c.group (if add then (c.ports, c.engines) else (0, 0)) }

/-- The bank with nothing in it, with the seeds that REBUILD_BEGIN gives an LPM bank (R367). -/
def TblBank.cleared (blk : Nat) (c : TblOp) : TblBank :=
  if blk = B.LPM then { bucketSeed := c.seed1, filterSeed := c.seed2 } else {}

/-- COUNT, SEED and MAP show the active bank. -/
def State.tblShow (s : State) (d blk : Nat) : State :=
  let b := s.tblBank d blk
  if blk = B.LPM then
    let m := ((List.range 129).map fun n => ofBool (b.mapBit n) * 2 ^ n).foldl (· + ·) 0
    let s1 := (s.wf F.LPM.COUNT_V4 d 0 (b.count 0)).wf F.LPM.COUNT_V6 d 0 (b.count 1)
    let s2 := (s1.wf F.LPM.SEED_BUCKET d 0 b.bucketSeed).wf F.LPM.SEED_FILTER d 0 b.filterSeed
    (s2.wf F.LPM.MAP_LO_MAP d 0 m).wf F.LPM.MAP_HI_MAP d 0 (m / 2 ^ 128)
  else s.wf F.MCG.COUNT_GROUPS d 0 b.groups.length

/-- TSTATE changes (event 2). -/
def State.setTstate (s : State) (d blk v : Nat) : State := s.wfRaise (fTstate blk) d 0 v 2

/-! ## Command blocks (R370) -/

/-- Bytes `lo` to `lo + n - 1` of a command block, least significant byte first. -/
def TblState.le (x : TblState) (lo n : Nat) : Nat := leNat (Store.getList 0 x.blk lo n)

/-- The command that a block spells. -/
def TblState.cmd (x : TblState) (blk : Nat) : TblOp :=
  let family := x.le 2 1
  if blk = B.LPM then
    { op := x.le 0 1, family := family, len := x.le 3 1,
      pfx := beNat (Store.getList 0 x.blk 8 (if family = 0 then 4 else 16)),
      result := x.le 24 8, vid := x.le 32 2 % 2 ^ 12, group := 0, ports := 0, engines := 0, seed1 := x.le 8 4,
      seed2 := x.le 12 4 }
  else
    { op := x.le 0 1, family := 0, len := 0, pfx := 0, result := 0, vid := 0, group := x.le 8 2, ports := x.le 16 24,
      engines := x.le 40 4, seed1 := 0, seed2 := 0 }

/-- The OP is one of R370. -/
def tblOpKnown (op : Nat) : Bool := [0x01, 0x02, 0x03, 0x10, 0x11, 0x12, 0x13, 0x14].contains op

/-- STATUS 0x01: an unknown OP, a field out of range, or prefix bits beyond LEN (R368). -/
def TblOp.bad (c : TblOp) (blk : Nat) : Bool :=
  !tblOpKnown c.op ||
    ([0x01, 0x02, 0x03, 0x11, 0x12].contains c.op &&
      (if blk = B.LPM then
        decide (1 < c.family) || decide (famBits c.family < c.len) || maskTo c.family c.len c.pfx != c.pfx
      else decide (16383 < c.group)))

/-- The response written, BUSY clear, and the TBL.CMD that waits answered (R365, R368). -/
def State.tblRespond (s : State) (d blk status seq : Nat) : State :=
  let x := s.tbl d blk
  let y := { x with blk := Store.putList 0 (Store.put 0 x.blk 1 (BitVec.ofNat 8 status)) 4 (bytesLE 4 seq), eng := none }
  let s1 := (((s.setTbl d blk y).wf (fCmdStatus blk) d 0 status).putFlag (fCmdBusy blk) d 0 false).raise d blk 0 0
  let s2 := if status = 0x05 then s1.setFlag (fNoSlot blk) d 0 else s1
  s2.callAnswer x.eng status (Store.getList 0 y.blk 0 64)

/-- A command that the order point turns away: no number is assigned, so what SEQ shows is a free value. -/
def State.tblRefuse (s : State) (d blk status : Nat) : State :=
  let r := s.draw
  let o := r.2.tblOrder blk
  (r.2.setTblOrder blk { o with queue := o.queue.filter (· != d) }).tblRespond d blk status (r.1.toNat % 2 ^ 32)

/-- GO with the block filled: BUSY is set and the command takes its place at the order point (R365). -/
def State.tblGo (s : State) (d blk : Nat) (by_ : Option (Nat × Nat)) : State :=
  let o := s.tblOrder blk
  let c := (s.tbl d blk).cmd blk
  let s1 := (s.setTbl d blk { s.tbl d blk with eng := by_, issued := c }).setFlag (fCmdBusy blk) d 0
  if c.bad blk then s1.tblRefuse d blk 0x01
  else if c.op = 0x03 then s1
  else s1.setTblOrder blk { o with queue := o.queue ++ [d] }

/-- A write of the CMD register (R365). -/
def State.wrTblCmd (s : State) (d blk data : Nat) : State :=
  if bitSet data 30 && !s.flag (fCmdBusy blk) d 0 then s.tblGo d blk none else s

/-- The block is LPM or MCG. -/
def isTbl (blk : Nat) : Bool := blk == B.LPM || blk == B.MCG

/-- TABLE_CMD_GO: a write of CMD with GO (R365). -/
def execTableCmdGo (e d blk : Nat) (s : State) : Out :=
  if isTbl blk then arriveWrite e (mkFa d blk 0 0) 32 (2 ^ 30) s fun s => s.wrTblCmd d blk (2 ^ 30)
  else .fault .absentInstance

/-! ## The order point (R365 to R368) -/

/-- The instance takes part: in RUN, reachable from D0, and not resynchronising. -/
def State.tblLive (s : State) (blk d : Nat) : Bool :=
  s.inRun d blk 0 && s.linkUp 0 d && !s.flag (fResync blk) d 0 && !(s.tbl d blk).missed

/-- The command's turn: its instance is busy with it, it stands first, and no other is in progress. -/
def State.tblTurn (s : State) (d blk op : Nat) : Bool :=
  let o := s.tblOrder blk
  s.flag (fCmdBusy blk) d 0 && (s.tbl d blk).issued.op == op && o.job == none && o.queue.head? == some d

/-- The state in which an OP is allowed (R367). -/
def tblOpState (op : Nat) : Nat := if op = 0x01 ∨ op = 0x02 ∨ op = 0x10 then 0 else 1

/-- The bank of D0 that the command changes first: its shadow bank, which in MIRRORED holds what the active one does. -/
def State.tblTarget (s : State) (blk : Nat) : TblBank :=
  if s.rf (fTstate blk) 0 0 = 0 then s.tblBank 0 blk else (s.tbl 0 blk).bank (1 - s.rf (fEpoch blk) 0 0)

/-- The key or group stands in a bank. -/
def TblBank.holds (b : TblBank) (blk : Nat) (c : TblOp) : Bool :=
  if blk = B.LPM then (b.lpmAt c.family c.len c.pfx).isSome else Store.get (0, 0) b.groups c.group != (0, 0)

/-- Why a command cannot be carried out, 0 where it can (R368). -/
def State.tblStatus (s : State) (d blk : Nat) (c : TblOp) : Nat :=
  let b := s.tblTarget blk
  let add := c.op == 0x01 || c.op == 0x11
  let del := c.op == 0x02 || c.op == 0x12
  if !s.linkUp d 0 then 0x06
  else if !s.inRun 0 blk 0 then 0x07
  else if !(List.range (Config.nDies s.part)).all (s.tblLive blk) then 0x06
  else if s.rf (fTstate blk) 0 0 ≠ tblOpState c.op then 0x02
  else if del && !b.holds blk c then 0x03
  else if blk = B.LPM && add && !b.holds blk c && decide ((if c.family = 0 then 65536 else 16384) ≤ b.count c.family) then
    0x04
  else if blk = B.LPM && add && !b.holds blk c &&
      (b.place c.entry).isNone then 0x05
  else 0

/-- A step of a command goes to every die. -/
def State.tblPost (s : State) (blk seq : Nat) (c : TblOp) (step : TblStep) (ds : List Nat) : State :=
  ds.foldl (fun s d => s.post 0 d (.tblStep blk seq c step)) s

/-- The order point takes up a command: numbered, with its first step on its way (R366, R367); a SWITCH takes the number after
that of its command (R360; DESIGN CHOICE, log entry 95). -/
def State.tblBegin (s : State) (d blk op : Nat) (step : TblStep) : State :=
  if !s.tblTurn d blk op then s
  else
    let c := (s.tbl d blk).issued
    let st := s.tblStatus d blk c
    if st ≠ 0 then s.tblRefuse d blk st
    else
      let o := s.tblOrder blk
      let n := seqNext o.seq
      let k := match step with
        | .switch _ => seqNext n
        | _ => n
      let all := List.range (Config.nDies s.part)
      (s.setTblOrder blk { seq := k, queue := o.queue.drop 1, job := some ⟨d, n, c, k, step, all, false⟩ }).tblPost blk k c
        step all

/-- A row of the table commands: the die's LPM or MCG instance. -/
def onTbl (d blk : Nat) (s : State) (f : State → State) : Out :=
  if isTbl blk then onInst d blk 0 s f else .fault .absentInstance

/-- INSERT (R366). -/
def execInsert (d blk : Nat) (s : State) : Out := onTbl d blk s fun s => s.tblBegin d blk 0x01 .shadow
/-- DELETE (R366). -/
def execDelete (d blk : Nat) (s : State) : Out := onTbl d blk s fun s => s.tblBegin d blk 0x02 .shadow
/-- REBUILD_BEGIN (R367). -/
def execRebuildBegin (d blk : Nat) (s : State) : Out := onTbl d blk s fun s => s.tblBegin d blk 0x10 .shadow
/-- SHADOW_INSERT (R367). -/
def execShadowInsert (d blk : Nat) (s : State) : Out := onTbl d blk s fun s => s.tblBegin d blk 0x11 .shadow
/-- SHADOW_DELETE (R367). -/
def execShadowDelete (d blk : Nat) (s : State) : Out := onTbl d blk s fun s => s.tblBegin d blk 0x12 .shadow

/-- COMMIT: its first step is the SWITCH (R367). -/
def execCommit (d blk : Nat) (s : State) : Out :=
  onTbl d blk s fun s => s.tblBegin d blk 0x13 (.switch (switchTick (s.pkgTick 0)))

/-- ABORT completes at once; every replica then copies its active bank (R367). -/
def execAbort (d blk : Nat) (s : State) : Out :=
  onTbl d blk s fun s =>
    let s1 := s.tblBegin d blk 0x14 .sync
    match (s1.tblOrder blk).job with
    | some j =>
      if j.cmd.op = 0x14 ∧ j.die = d ∧ s.tblTurn d blk 0x14 then
        ((s1.setTblOrder blk { s1.tblOrder blk with job := none }).setTstate 0 blk 2).tblRespond d blk 0 j.seq
      else s1
    | none => s1

/-- The entry fields that READ fills in (R370). -/
def TblState.fillRead (x : TblState) (blk : Nat) (b : TblBank) (c : TblOp) : Store Byte :=
  if blk = B.LPM then
    match b.lpmAt c.family c.len c.pfx with
    | some e => Store.putList 0 (Store.putList 0 x.blk 24 (bytesLE 8 e.result)) 32 (bytesLE 2 e.vid)
    | none => x.blk
  else
    let g := Store.get (0, 0) b.groups c.group
    Store.putList 0 (Store.putList 0 x.blk 16 (bytesLE 24 g.1)) 40 (bytesLE 4 g.2)

/-- READ is answered from the active bank of the addressed die alone (R365). -/
def execRead (d blk : Nat) (s : State) : Out :=
  onTbl d blk s fun s =>
    let x := s.tbl d blk
    let c := x.issued
    if s.flag (fCmdBusy blk) d 0 && c.op == 0x03 then
      let b := s.tblBank d blk
      if b.holds blk c then (s.setTbl d blk { x with blk := x.fillRead blk b c }).tblRefuse d blk 0
      else s.tblRefuse d blk 0x03
    else s

/-! ## Replicas -/

/-- The message is a step for the table, for the table's replica on any die. -/
def CtlBody.isTblStep (blk : Nat) : CtlBody → Bool
  | .tblStep _ _ _ (.switch _) => false
  | .tblStep b _ _ _ => b == blk
  | _ => false

/-- The message is a SWITCH of the table. -/
def CtlBody.isTblSwitch (blk : Nat) : CtlBody → Bool
  | .tblStep b _ _ (.switch _) => b == blk
  | _ => false

/-- The message acknowledges a command of the table for a die. -/
def CtlBody.isTblAck (blk seq d : Nat) : CtlBody → Bool
  | .tblAck b n k => b == blk && n == seq && k == d
  | _ => false

/-- A step's effect on a replica: the shadow bank written or cleared, or the state of R367 entered. -/
def State.tblApply (s : State) (d blk : Nat) (c : TblOp) : State :=
  let x := s.tbl d blk
  let e := 1 - s.rf (fEpoch blk) d 0
  match c.op with
  | 0x10 => (s.setTbl d blk (x.withBank e (TblBank.cleared blk c))).setTstate d blk 1
  | 0x14 => s.setTstate d blk 2
  | _ => s.setTbl d blk (x.withBank e ((x.bank e).write blk c))

/-- TABLE_REPLICA_WRITE: a replica takes the oldest step on its way to it, writes, and acknowledges (R366). A replica that
no longer runs has missed it (R369). -/
def execTableReplicaWrite (d blk : Nat) (s : State) : Out :=
  onTbl d blk s fun s =>
    match takeMsg (fun m => m.dst == d && m.body.isTblStep blk) s.msgs with
    | some (⟨_, _, .tblStep _ seq c _⟩, r) =>
      let s1 := { s with msgs := r }
      if s1.run d blk 0 = 1 ∨ s1.run d blk 0 = 2 then
        if (s1.tbl d blk).draining.isSome then s
        else if c.op = 0x14 then s1.tblApply d blk c
        else (s1.tblApply d blk c).post d 0 (.tblAck blk seq d)
      else s1.setTbl d blk { s1.tbl d blk with missed := true }
    | _ => s

/-- Die `d` will acknowledge no more: it has missed the command (R369). -/
def State.tblLost (s : State) (blk d : Nat) : Bool := (s.tbl d blk).missed || !s.linkUp 0 d || s.run d blk 0 == 3

/-- The acknowledgement of a die stands among the messages. -/
def State.tblAcked (s : State) (blk seq d : Nat) : Bool :=
  s.msgs.any fun m => m.dst == 0 && m.body.isTblAck blk seq d

/-- A finished command: its response, with 0x08 where a die missed it (R368, R369). -/
def State.tblFinish (s : State) (blk : Nat) (j : TblJob) : State :=
  (s.setTblOrder blk { s.tblOrder blk with job := none }).tblRespond j.die blk (if j.missed then 0x08 else 0) j.seq

/-- TABLE_ACKS_COMPLETE: every die has acknowledged the step or is no longer waited for (R366, R367, R369). -/
def execTableAcksComplete (blk : Nat) (s : State) : Out :=
  if !isTbl blk then .fault .absentInstance
  else
    match (s.tblOrder blk).job with
    | some j =>
      if !j.left.all fun d => s.tblAcked blk j.num d || s.tblLost blk d then .next s
      else
        let gone := j.left.filter fun d => !s.tblAcked blk j.num d
        let s1 := gone.foldl (fun s d => s.setTbl d blk { s.tbl d blk with missed := true }) s
        let rest := s1.msgs.filter fun m => !(j.left.any fun d => m.body.isTblAck blk j.num d)
        let s2 := { s1 with msgs := rest }
        let live := j.left.filter fun d => !gone.contains d
        let j1 := { j with left := live, missed := j.missed || decide (gone ≠ []) }
        match j.step, j.cmd.op with
        | .shadow, 0x01 | .shadow, 0x02 =>
          let sw := TblStep.switch (switchTick (s2.pkgTick 0))
          let o := s2.tblOrder blk
          let n := seqNext o.seq
          .next ((s2.setTblOrder blk { o with seq := n, job := some { j1 with step := .second, num := n } }).tblPost blk n j.cmd
            sw live)
        | _, _ => .next (s2.tblFinish blk j1)
    | none => .next s

/-- The tables' part of TABLE_SWITCH_APPLY: the SWITCH on its way to the die has reached its apply tick (R360). -/
def State.tblSwitchApply (s : State) (d blk : Nat) : State :=
  match takeMsg (fun m => m.dst == d && m.body.isTblSwitch blk) s.msgs with
  | some (⟨_, _, .tblStep _ seq c (.switch at_)⟩, r) =>
    if s.pkgTick d < at_ then s
    else
      let s1 := { s with msgs := r }
      let x := s1.tbl d blk
      if s1.run d blk 0 ≠ 1 ∧ s1.run d blk 0 ≠ 2 then s1.setTbl d blk { x with missed := true }
      else
        let y := { x with draining := some (s1.tick d), again := if c.op = 0x13 then none else some (seq, c) }
        let s2 := ((s1.setTbl d blk y).wf (fEpoch blk) d 0 (1 - s1.rf (fEpoch blk) d 0)).tblShow d blk
        let s3 := if at_ < s2.pkgTick d then s2.setFlag (fLate blk) d 0 else s2
        let s4 := s3.raise d blk 0 1
        if c.op = 0x13 then (s4.setTstate d blk 2).post d 0 (.tblAck blk seq d) else s4
  | _ => s

/-- TABLE_SWITCH_APPLY of the L2, LPM or MCG table on a die (R360). -/
def execTableSwitchApply (d blk : Nat) (s : State) : Out :=
  if blk = B.L2T then onInst d blk 0 s fun s => s.l2SwitchApply d
  else onTbl d blk s fun s => s.tblSwitchApply d blk

/-- Sixty-four pipeline cycles, in ridge ticks (R360). -/
def drainTicks : Nat := 40

/-- BANK_DRAIN_END: the old bank may be written again; a mirrored write is repeated in it (R360, R366 step 3). -/
def execBankDrainEnd (d blk : Nat) (s : State) : Out :=
  if blk = B.L2T then
    onInst d blk 0 s fun s =>
      match (s.l2t d).draining with
      | some t => if t + drainTicks ≤ s.tick d then s.setL2 d { s.l2t d with draining := none } else s
      | none => s
  else
    onTbl d blk s fun s =>
      let x := s.tbl d blk
      match x.draining with
      | some t =>
        if s.tick d < t + drainTicks then s
        else
          let s1 := s.setTbl d blk { x with draining := none, again := none }
          match x.again with
          | some (seq, c) => (s1.tblApply d blk c).post d 0 (.tblAck blk seq d)
          | none => s1
      | none => s

/-- The copy of the active bank finishes on a replica (R367). -/
def State.tblSync (s : State) (d blk : Nat) : State :=
  let e := s.rf (fEpoch blk) d 0
  if s.rf (fTstate blk) d 0 = 2 then
    (s.setTbl d blk ((s.tbl d blk).withBank (1 - e) ((s.tbl d blk).bank e))).setTstate d blk 0
  else s

/-- TABLE_SYNC_END: the copies have finished on every replica (R367). -/
def execTableSyncEnd (blk : Nat) (s : State) : Out :=
  if !isTbl blk then .fault .absentInstance
  else
    let all := List.range (Config.nDies s.part)
    let busy := (s.tblOrder blk).job.isSome || s.msgs.any (fun m => m.body.isTblStep blk || m.body.isTblSwitch blk) ||
      all.any (fun d => (s.tbl d blk).draining.isSome)
    if busy || s.rf (fTstate blk) 0 0 != 2 then .next s
    else .next (all.foldl (fun s d => if (s.tbl d blk).missed then s else s.tblSync d blk) s)

/-! ## Resynchronisation (R369) -/

/-- The instance sets RESYNC once it has missed a command, runs, and can be reached. -/
def State.tblNotice (s : State) (d blk : Nat) : State :=
  if (s.tbl d blk).missed ∧ s.inRun d blk 0 ∧ s.linkUp 0 d then s.wfRaise (fResync blk) d 0 1 3 else s

/-- TABLE_RESYNC_START. -/
def execTableResyncStart (d blk : Nat) (s : State) : Out :=
  onTbl d blk s fun s =>
    let s1 := s.tblNotice d blk
    if s1.flag (fResync blk) d 0 && s1.inRun d blk 0 && s1.inRun 0 blk 0 && s1.linkUp 0 d then
      s1.setTbl d blk { s1.tbl d blk with copying := true }
    else s1

/-- A copy is abandoned. -/
def State.tblAbandon (s : State) (d blk : Nat) : State :=
  if (s.tbl d blk).copying then s.setTbl d blk { s.tbl d blk with copying := false } else s

/-- TABLE_RESYNC_END: the instance becomes D0's, with banks, seeds, TSTATE and epoch. -/
def execTableResyncEnd (d blk : Nat) (s : State) : Out :=
  onTbl d blk s fun s =>
    let x := s.tbl d blk
    let z := s.tbl 0 blk
    if x.copying && (s.tblOrder blk).job == none && z.draining == none then
      let y := { x with bank0 := z.bank0, bank1 := z.bank1, missed := false, copying := false, again := none, draining := none }
      let s1 := (s.setTbl d blk y).wf (fEpoch blk) d 0 (s.rf (fEpoch blk) 0 0)
      let s2 := (s1.setTstate d blk (s.rf (fTstate blk) 0 0)).tblShow d blk
      ((s2.putFlag (fResync blk) d 0 false).setFlag (fResyncSeen blk) d 0).raise d blk 0 3
    else s

/-- Die `d` has missed the command in progress: nothing more of it is carried out there (R369). -/
def State.tblMiss (s : State) (d blk : Nat) : State :=
  let kept := s.msgs.filter fun m => !(m.dst == d && (m.body.isTblStep blk || m.body.isTblSwitch blk))
  { s with msgs := kept }.setTbl d blk { s.tbl d blk with missed := true, again := none }

/-- Something of a numbered command remains to be done on a die: a step on its way there, the second write, or an
acknowledgement still to be given. -/
def State.tblOwes (s : State) (d blk : Nat) : Bool :=
  s.msgs.any (fun m => m.dst == d && (m.body.isTblStep blk || m.body.isTblSwitch blk)) || (s.tbl d blk).again.isSome ||
    (match (s.tblOrder blk).job with
    | some j => j.left.contains d && !s.tblAcked blk j.num d
    | none => false)

/-- FAULT, or the drain limit, cuts off what the instance had to do (R81, R369): a numbered command it has missed, and a command
of its own that has no number yet is answered 0x06. -/
def State.tblForced (s : State) (d blk : Nat) : State :=
  let mine := match (s.tblOrder blk).job with
    | some j => j.die == d
    | none => false
  let s1 := if s.tblOwes d blk then s.tblMiss d blk else s
  if s1.flag (fCmdBusy blk) d 0 && !mine then s1.tblRefuse d blk 0x06 else s1

/-- The link of a die to D0 goes down before the die has acknowledged a numbered command or SWITCH (R369). -/
def State.tblCut (s : State) (d blk : Nat) : State := if s.tblOwes d blk then s.tblMiss d blk else s

/-- The instance's part of every command is done: its own, and the steps of numbered ones (R84, R368). -/
def State.tblDrained (s : State) (d blk : Nat) : Bool := !s.flag (fCmdBusy blk) d 0 && !s.tblOwes d blk

/-- An LPM or MCG instance enters RUN. -/
def State.tblStarted (s : State) (d blk : Nat) : State := s.tblNotice d blk

/-- An LPM or MCG instance leaves RUN: copies to it, or from D0's, are abandoned (R369). -/
def State.tblStopped (s : State) (d blk : Nat) : State :=
  if d = 0 then (List.range (Config.nDies s.part)).foldl (fun s k => s.tblAbandon k blk) s else s.tblAbandon d blk

end Sys2Proof.Machine
end

