-- ==== Sys2Proof/Machine/Frame.lean ====
section
/-!
DEFINITION. Frames as bytes: addresses, tags, Ethertypes, PTP recognition (R255, R338), redundancy trailers and tags
(R407, R408), and the changes of the egress pipeline with their checksums (R256, R396, R397).
-/
namespace Sys2Proof.Machine

/-! ## Reading -/

/-- Bytes `off` to `off + n - 1` in network order. -/
def be (l : List Byte) (off n : Nat) : Nat := beNat ((l.drop off).take n)

def dstMac (l : List Byte) : Nat := be l 0 6
def srcMac (l : List Byte) : Nat := be l 6 6

/-- A group address: the first bit on the wire of its first byte is set. -/
def isGroup (mac : Nat) : Bool := bitSet mac 40

/-- A VLAN tag stands at the offset (R255: either TPID). -/
def tagAt (l : List Byte) (off : Nat) : Bool := be l off 2 == 0x8100 || be l off 2 == 0x88A8

/-- The offset of the Ethertype after at most two tags (R255). -/
def typeOff (l : List Byte) : Nat := if tagAt l 12 then (if tagAt l 16 then 20 else 16) else 12

/-- The Ethertype after at most two tags. -/
def etherType (l : List Byte) : Nat := be l (typeOff l) 2

/-- PCP and VID of the outer tag with TPID 0x8100 (R338, R385). -/
def outerTag (l : List Byte) : Option (Nat × Nat) :=
  if be l 12 2 = 0x8100 then some (be l 14 2 / 2 ^ 13, be l 14 2 % 2 ^ 12) else none

/-- The forms in which a frame carries PTP (R255). -/
inductive PtpForm where
  | l2 | udp4 | udp6
  deriving DecidableEq, Repr

/-- A frame's PTP form, its UDP destination port (0 over Ethernet) and the offset of the PTP header (R255). -/
def ptpOf (l : List Byte) : Option (PtpForm × Nat × Nat) :=
  let o := typeOff l
  let ip := o + 2
  let t := etherType l
  if t = 0x88F7 then some (.l2, 0, ip)
  else if t = 0x0800 then
    let ihl := be l ip 1 % 16
    if be l ip 1 / 16 = 4 ∧ be l (ip + 9) 1 = 17 ∧ be l (ip + 6) 2 % 2 ^ 14 = 0 then
      some (.udp4, be l (ip + 4 * ihl + 2) 2, ip + 4 * ihl + 8)
    else none
  else if t = 0x86DD then
    if be l (ip + 6) 1 = 17 then some (.udp6, be l (ip + 42) 2, ip + 48) else none
  else none

/-- PTP event messages by where they are carried: Ethertype 0x88F7 or UDP port 319 (R255). -/
def ptpEvent (l : List Byte) : Option (PtpForm × Nat) :=
  match ptpOf l with
  | some (.l2, _, h) => some (.l2, h)
  | some (f, port, h) => if port = 319 then some (f, h) else none
  | none => none

/-- A PTP general message to UDP port 320 (R406). -/
def ptpGeneral (l : List Byte) : Bool :=
  match ptpOf l with
  | some (_, port, _) => port == 320
  | none => false

/-- Version 2 and a message type of 0 to 3 (R255). -/
def ptpCorrected (l : List Byte) (h : Nat) : Bool := be l (h + 1) 1 % 16 == 2 && decide (be l h 1 % 16 ≤ 3)

/-! ## FCS (R397) -/

/-- A received frame without its FCS, and the FCS. -/
def bodyOf (l : List Byte) : List Byte := l.take (l.length - 4)
def fcsOf (l : List Byte) : List Byte := l.drop (l.length - 4)

/-- The frame's FCS is the CRC-32 of its bytes. -/
def fcsGood (l : List Byte) : Bool := decide (4 ≤ l.length) && fcsOf l == fcsBytes (crc32 (bodyOf l))

/-- The FCS inverted bit by bit: a stomped frame (R395). -/
def stomp (body : List Byte) : List Byte := body ++ fcsBytes (~~~(crc32 body))

/-- The number of an FCS in wire order. -/
def fcsWord (l : List Byte) : BitVec 32 := BitVec.ofNat 32 (leNat (fcsOf l))

/-- The new body with its FCS derived from the old frame's (R397): the residue is kept where nothing moves; where bytes
move a non-zero residue stays non-zero, its value depending on which bits were hit, so it is a free value. -/
def State.carryFcs (s : State) (old body : List Byte) (moved : Bool) : List Byte × State :=
  let res := fcsWord old ^^^ crc32 (bodyOf old)
  if res = 0 then (withFcs body, s)
  else if !moved then (body ++ fcsBytes (crc32 body ^^^ res), s)
  else
    let x := s.draw.1.truncate 32
    (body ++ fcsBytes (crc32 body ^^^ (if x = 0 then 1 else x)), s.draw.2)

/-! ## Redundancy (R407, R408) -/

/-- A VLAN tag of either TPID follows the source address. -/
def vlanLen (l : List Byte) : Nat := if tagAt l 12 then 4 else 0

/-- LSDUsize of a frame that carries its trailer or tag, `n` bytes long without FCS: what follows the Ethertype (IEC
62439-3). -/
def lsduSize (l : List Byte) (n : Nat) : Nat := n - 14 - vlanLen l

/-- The redundancy trailer before the FCS: sequence number, LanId and LSDUsize (R408). -/
def rctOf (l : List Byte) : Option (Nat × Nat) :=
  let n := l.length - 4
  if 20 ≤ n ∧ be l (n - 2) 2 = 0x88FB ∧ be l (n - 4) 2 % 2 ^ 12 = lsduSize l n then
    some (be l (n - 6) 2, be l (n - 4) 2 / 2 ^ 12)
  else none

/-- The HSR tag after the source address and any outer VLAN tag: sequence number and PathId (R408). -/
def hsrOf (l : List Byte) : Option (Nat × Nat) :=
  let o := 12 + vlanLen l
  if be l o 2 = 0x892F ∧ be l (o + 2) 2 % 2 ^ 12 = lsduSize l (l.length - 4) then
    some (be l (o + 4) 2, be l (o + 2) 2 / 2 ^ 12)
  else none

/-- The body without its redundancy trailer. -/
def dropRct (body : List Byte) : List Byte := body.take (body.length - 6)

/-- The body without its HSR tag. -/
def dropHsr (body : List Byte) : List Byte :=
  let o := 12 + vlanLen body
  body.take o ++ body.drop (o + 6)

/-- The trailer of a copy (R407). -/
def rctBytes (seq : Nat) (onB : Bool) (body : List Byte) : List Byte :=
  bytesBE 2 seq ++ bytesBE 2 ((if onB then 0xB else 0xA) * 2 ^ 12 + lsduSize body (body.length + 6) % 2 ^ 12) ++ [0x88, 0xFB]

/-- The HSR tag of a copy whose stored body is `n` bytes long after the changes before it (R407). -/
def hsrBytes (seq : Nat) (onB : Bool) (body : List Byte) (n : Nat) : List Byte :=
  [0x89, 0x2F] ++ bytesBE 2 (ofBool onB * 2 ^ 12 + lsduSize body (n + 6) % 2 ^ 12) ++ bytesBE 2 seq

/-! ## Egress changes (R396) -/

/-- Bytes replaced at an offset. -/
def patch (l : List Byte) (off : Nat) (new : List Byte) : List Byte := l.take off ++ new ++ l.drop (off + new.length)

/-- One's-complement sum of 16-bit words. -/
def ocAdd (a b : Nat) : Nat := if 2 ^ 16 ≤ a + b then a + b - 2 ^ 16 + 1 else a + b

/-- A checksum after one word of what it covers has changed. -/
def csumFix (c old new : Nat) : Nat := 0xFFFF - ocAdd (ocAdd (0xFFFF - c) (0xFFFF - old)) new

/-- A checksum after the words at an offset have changed. -/
def csumWords (c : Nat) (old new : List Byte) : Nat → Nat
  | 0 => c
  | n + 1 => csumFix (csumWords c old new n) (be old (2 * n) 2) (be new (2 * n) 2)

/-- The TTL or hop limit of a routed frame (R396): its offset and value, with the IPv4 checksum's offset. -/
def hopLimit (l : List Byte) : Option (Nat × Nat × Option Nat) :=
  let ip := typeOff l + 2
  if etherType l = 0x0800 then some (ip + 8, be l (ip + 8) 1, some (ip + 10))
  else if etherType l = 0x86DD then some (ip + 7, be l (ip + 7) 1, none)
  else none

/-- Step 1: a routed copy's addresses, hop limit and header checksum. -/
def routeEdit (l : List Byte) (nhMac rmac : Nat) : List Byte :=
  let l1 := patch (patch l 0 (bytesBE 6 nhMac)) 6 (bytesBE 6 rmac)
  match hopLimit l1 with
  | some (o, ttl, some ck) =>
    let word := be l1 o 2
    patch (patch l1 o (bytesBE 1 (ttl - 1))) ck (bytesBE 2 (csumFix (be l1 ck 2) word (word - 256)))
  | some (o, ttl, none) => patch l1 o (bytesBE 1 (ttl - 1))
  | none => l1

/-- Step 2: the outer tag of a copy that came from a port, with the frame's VLAN and priority. -/
def tagEdit (l : List Byte) (egTag untag vlan prio : Nat) : List Byte :=
  match outerTag l with
  | some _ =>
    let l1 := patch l 14 (bytesBE 2 (be l 14 2 / 2 ^ 12 * 2 ^ 12 + vlan))
    if egTag = 1 ∧ vlan = untag then l1.take 12 ++ l1.drop 16 else l1
  | none =>
    if egTag = 2 ∧ vlan ≠ untag then l.take 12 ++ bytesBE 2 0x8100 ++ bytesBE 2 (prio * 2 ^ 13 + vlan) ++ l.drop 12 else l

/-- Step 3: the correctionField replaced, with a non-zero UDP checksum updated (R256). -/
def corrEdit (l : List Byte) (form : PtpForm) (h corr : Nat) : List Byte :=
  let new := bytesBE 8 corr
  let old := (l.drop (h + 8)).take 8
  let l1 := patch l (h + 8) new
  match form with
  | .l2 => l1
  | _ =>
    let ck := be l (h - 2) 2
    if ck = 0 then l1
    else
      let c := csumWords ck old new 4
      patch l1 (h - 2) (bytesBE 2 (if c = 0 then 0xFFFF else c))

/-- The sum of a correctionField and a residence time, both in 2^-16 ns (R256). -/
def corrSum (field : Nat) (res : Int) : Nat :=
  let x := toSigned 64 field + res
  if -(2 ^ 63) ≤ x ∧ x < 2 ^ 63 then ofSigned 64 x else 0x7FFFFFFFFFFFFFFF

end Sys2Proof.Machine
end

