-- ==== Sys2Proof/Machine/Lookup.lean ====
section
/-!
DEFINITION. The forwarding lookup of the input die: VLAN, L2, routing and group lookups, source removal and the partition
policy (R46, R56, R338 to R340, R363, R364).
-/
namespace Sys2Proof.Machine

/-- What the lookup decides (R339): ports as a global mask, engines, the rewrite fields, and the epochs it read. -/
structure Fate where
  ports : Nat := 0
  engines : Nat := 0
  route : Option (Nat × Nat) := none
  multi : Bool := false
  vlan : Nat := 0
  epochs : Nat × Nat × Nat := (0, 0, 0)
  deriving DecidableEq, Repr

/-- A counter of a port's record (R152), by its place; counters wrap at 2^64. -/
def State.portCount (s : State) (p k n : Nat) : State :=
  let x := s.port p
  s.setPort p { x with counts := Store.put 0 x.counts k ((Store.get 0 x.counts k + n) % 2 ^ 64) }

/-- The counters of queue `q` in a port's state: frames transmitted, frames dropped (R152). -/
def queueSent (q : Nat) : Nat := 16 + 2 * q
def queueDropped (q : Nat) : Nat := 17 + 2 * q

/-- The existing ports of a mask (R45, R46). -/
def State.existing (s : State) (mask : Nat) : List Nat :=
  (List.range (Config.nPorts s.part)).filter fun p => bitSet mask p && s.portExists p

/-- A mask of port or engine numbers. -/
def maskOf (l : List Nat) : Nat := l.foldl (fun m i => m ||| 2 ^ i) 0

/-- The present engines of a mask. -/
def engMask (p : Part) (m : Nat) : Nat := m % 2 ^ Config.nEngines p

/-- A destination by kind: 0 port, 1 group, 2 engine (R342, R370), with the group read in the active bank of the die
(R364). -/
def State.fateOf (s : State) (d kind dest : Nat) : Nat × Nat × Bool :=
  match kind with
  | 0 => (2 ^ dest, 0, false)
  | 1 => let g := Store.get (0, 0) (s.tblBank d B.MCG).groups dest
         (g.1, g.2, true)
  | _ => (0, 2 ^ dest, false)

/-- The epoch bits of a frame whose lookup begins now (R340). -/
def State.epochsOf (s : State) (d : Nat) : Nat × Nat × Nat :=
  (s.rf F.L2T.STATUS_EPOCH d 0, s.rf F.LPM.STATUS_EPOCH d 0, s.rf F.MCG.STATUS_EPOCH d 0)

/-- Steps 2 to 5 of R338: what the frame's key and addresses give, `none` where the frame is dropped. `ingress` is the
local port for the ingress checks, where the frame came from one; `spare` says that a further probe found a cycle. While L2T
is in STOPPED or FAULT every unknown destination is flooded (R84). -/
def State.forward (s : State) (d : Nat) (ingress : Option Nat) (vlan : Nat) (l : List Byte) (spare : Bool) :
    State × Option Fate :=
  let eps := s.epochsOf d
  let da := dstMac l
  let w := s.l2Lookup d (l2Key vlan da)
  let flood := s.fateOf d 1 vlan
  let make (s : State) (t : Nat × Nat × Bool) (route : Option (Nat × Nat)) : State × Option Fate :=
    (s, some { ports := t.1, engines := t.2.1, route := route, multi := t.2.2, vlan := vlan, epochs := eps })
  if w = 0 then
    let s1 := s.perfEvent d 0x10 0 1
    let drop := match ingress with
      | some i => s.flag (F.L2T.PORT_UNK_DROP i) d 0 && !isGroup da && s.active d B.L2T 0
      | none => false
    if drop then (s1.addSat F.L2T.UNK_DROP_COUNT d 0 1, none) else make s1 flood none
  else if l2Route w && (etherType l == 0x0800 || etherType l == 0x86DD) then
    let family := if etherType l = 0x0800 then 0 else 1
    let ip := typeOff l + 2
    let a := if family = 0 then be l (ip + 16) 4 else be l (ip + 24) 16
    let r := (s.tblBank d B.LPM).lookup family a
    let s1 := if 4 < r.1 then s.addSat F.LPM.DEEP_COUNT d 0 1 else s
    if 4 < r.1 ∧ !spare then (s.addSat F.LPM.OVERRUN_COUNT d 0 1, none)
    else
      match r.2 with
      | none => (s1.addSat F.LPM.MISS_COUNT d 0 1, none)
      | some e =>
        if bitsOf e.result 62 2 = 3 then (s1, none)
        else make s1 (s.fateOf d (bitsOf e.result 62 2) (bitsOf e.result 48 14)) (some (e.result % 2 ^ 48, e.vid))
  else if l2Kind w = 3 then (s.addSat F.L2T.HIT_DROP_COUNT d 0 1, none)
  else make s (s.fateOf d (l2Kind w) (l2Dest w)) none

/-- The policy of a die lets a frame of partition `i` leave by a port (R56, R72). -/
def State.policyAllows (s : State) (d i p : Nat) : Bool :=
  bitSet (Store.get 0x8421 s.own.policy d) (4 * i + s.ownerAt d (p / 24) B.PCS (p % 24))

/-- A count of the input die for frames that came from no port (log entry 78). -/
def State.dieCount (s : State) (d k n : Nat) : State :=
  let x := s.die d
  s.setDie d { x with lost := Store.put 0 x.lost k ((Store.get 0 x.lost k + n) % 2 ^ 64) }

/-- The end of the lookup: absent ports have no effect (R46), the ports of ingress leave the set (step 6), and ports that the
policy denies are dropped and counted, against the port `count` or, for a frame of a host ring, on the die (R56). `none` where
nothing is left. -/
def State.settle (s : State) (d part : Nat) (count : Option Nat) (ingress : List Nat) (f : Fate) : State × Option Fate :=
  let here := s.existing f.ports
  let eng := engMask s.part f.engines
  let tally (s : State) (k n : Nat) : State := match count with
    | some p => if n = 0 then s else s.portCount p k n
    | none => if n = 0 then s else s.dieCount d k n
  if here = [] ∧ eng = 0 then (tally s 8 1, none)
  else
    let out := here.filter fun p => !ingress.contains p
    let ok := out.filter fun p => s.policyAllows d part p
    let s1 := tally s 7 (out.length - ok.length)
    if ok = [] ∧ eng = 0 then (s1, none) else (s1, some { f with ports := maskOf ok, engines := eng })

end Sys2Proof.Machine
end

