-- ==== Sys2Proof/Machine/Prp.lean ====
section
/-!
DEFINITION. The redundancy box: pairings, the source table, duplicate judgement and the HSR ring (R402 to R418).
-/
namespace Sys2Proof.Machine

/-! ## Pairings -/

/-- The two local ports of a pairing, by the values in force (R403). -/
def State.prpA (s : State) (d i : Nat) : Nat := s.rfF F.PRP.CFG_PORT_A d i
def State.prpB (s : State) (d i : Nat) : Nat := s.rfF F.PRP.CFG_PORT_B d i

/-- The running pairing of a local port, and whether the port is its PORT_B. -/
def State.prpOf (s : State) (d lp : Nat) : Option (Nat × Bool) :=
  ((List.range 12).find? fun i => s.inRun d B.PRP i && (s.prpA d i == lp || s.prpB d i == lp)).map fun i =>
    (i, s.prpA d i != lp)

/-- HSR mode (R407). -/
def State.hsrMode (s : State) (d i : Nat) : Bool := s.rfF F.PRP.CFG_MODE d i == 1

/-- The window's width W (R410). -/
def State.prpW (s : State) (d i : Nat) : Nat := 32 * 2 ^ s.rfF F.PRP.CFG_WIN d i

/-- The form's enable of a port. -/
def State.formOn (s : State) (p : Nat) (f : PtpForm) : Bool :=
  s.rfF (match f with
    | .l2 => F.TSU.CFG_PTP_L2
    | .udp4 => F.TSU.CFG_PTP_UDP4
    | .udp6 => F.TSU.CFG_PTP_UDP6) (p / 24) (p % 24) == 1

/-- R255 recognises the frame on a port: a form that is enabled there, version 2 and a message type of 0 to 3. -/
def State.ptpKnown (s : State) (p : Nat) (l : List Byte) : Bool :=
  match ptpEvent l with
  | some (f, h) => s.formOn p f && ptpCorrected l h
  | none => false

/-- A frame on port `p` that its pairing leaves alone (R406): one that R255 recognises, or a general message to UDP port 320;
DEDUCED, log entry 61: by the port's own enables, whether or not its TSU corrects. -/
def State.prpExempt (s : State) (d i p : Nat) (l : List Byte) : Bool :=
  (s.rfF F.PRP.CFG_EXEMPT_PTP d i == 1 && (s.ptpKnown p l || ptpGeneral l)) ||
    (s.rfF F.PRP.CFG_EXEMPT_LOCAL d i == 1 && etherType l == 0x88B5)

/-! ## The source table (R409) -/

/-- ENTRIES of every pairing and the die-wide FREE follow the table. -/
def State.prpShow (s : State) (d : Nat) : State :=
  let l := (s.die d).prp
  (List.range 12).foldl (fun s i =>
    (s.wf F.PRP.STATUS_ENTRIES d i (l.filter fun e => e.inst == i).length).wf F.PRP.POOL_FREE d i (8192 - l.length)) s

/-- The table replaced. -/
def State.setPrp (s : State) (d : Nat) (l : List PrpEntry) : State := (s.setDie d { s.die d with prp := l }).prpShow d

/-- The entry of a pairing and source. -/
def State.prpEntry (s : State) (d i src : Nat) : Option PrpEntry :=
  (s.die d).prp.find? fun e => e.inst == i && e.source == src

/-- An entry put in place of the one of its pairing and source. -/
def State.prpPut (s : State) (d : Nat) (e : PrpEntry) : State :=
  s.setPrp d (((s.die d).prp.filter fun x => !(x.inst == e.inst && x.source == e.source)) ++ [e])

/-- No entry is free (R409). -/
def State.prpFull (s : State) (d i : Nat) : State :=
  ((s.addSat F.PRP.TBL_FULL_COUNT d i 1).setFlag F.PRP.ERR_TBL_FULL_SEEN d i).raise d B.PRP i 0

/-- What a window makes of a number (R410). -/
inductive Verdict where
  | accept | outside | duplicate
  deriving DecidableEq, Repr

/-- The judgement of R410: the verdict and the window after it, a bitmap of HIGH − b at bit b. -/
def judge (w : Nat) (win : Option (Nat × Nat)) (seq : Nat) : Verdict × (Nat × Nat) :=
  match win with
  | none => (.accept, (seq, 1))
  | some (high, bits) =>
    let d := (seq + 2 ^ 16 - high) % 2 ^ 16
    if 1 ≤ d ∧ d < 32768 then (.accept, (seq, (bits * 2 ^ (min d w) + 1) % 2 ^ w))
    else
      let b := (high + 2 ^ 16 - seq) % 2 ^ 16
      if w ≤ b then (.outside, (high, bits))
      else if bitSet bits b then (.duplicate, (high, bits))
      else (.accept, (high, bits ||| 2 ^ b))

/-- The bit of a number cleared in a window (R412). -/
def unmark (w seq : Nat) : Option (Nat × Nat) → Option (Nat × Nat)
  | some (high, bits) =>
    let b := (high + 2 ^ 16 - seq) % 2 ^ 16
    some (high, if b < w ∧ bitSet bits b then bits - 2 ^ b else bits)
  | none => none

/-- A source recorded as a proxy (R407). -/
def State.prpProxy (s : State) (d i src : Nat) : State :=
  match s.prpEntry d i src with
  | some e => if e.proxy then s else s.prpPut d { e with proxy := true }
  | none =>
    if 8192 ≤ (s.die d).prp.length then s.prpFull d i
    else s.prpPut d ⟨i, src, true, none, none, none, s.tick d⟩

/-- The delivery judgement of a tagged frame (R409, R410): the Bool says that it is accepted, the second that its bit is
marked. -/
def State.prpDeliver (s : State) (d i src seq : Nat) : State × Bool × Bool :=
  let w := s.prpW d i
  match s.prpEntry d i src with
  | none =>
    if 8192 ≤ (s.die d).prp.length then (s.prpFull d i, true, false)
    else (s.prpPut d ⟨i, src, false, some (judge w none seq).2, none, none, s.tick d⟩, true, true)
  | some e =>
    let r := judge w e.window seq
    let s1 := s.prpPut d { e with window := some r.2, last := s.tick d }
    match r.1 with
    | .accept => (s1, true, true)
    | .outside => (((s1.addSat F.PRP.OUT_WIN_COUNT d i 1).setFlag F.PRP.ERR_OUT_WIN_SEEN d i).raise d B.PRP i 2, true, false)
    | .duplicate => (s1.addSat F.PRP.DUP_DISC_COUNT d i 1, false, false)

/-- The ring window towards the other ring port (R414): whether the frame goes on, and whether its bit is marked. -/
def State.prpRing (s : State) (d i src seq : Nat) (onB : Bool) : State × Bool × Bool :=
  let w := s.prpW d i
  match s.prpEntry d i src with
  | none =>
    if 8192 ≤ (s.die d).prp.length then (s, true, false)
    else
      let win := some (judge w none seq).2
      (s.prpPut d ⟨i, src, false, none, if onB then win else none, if onB then none else win, s.tick d⟩, true, true)
  | some e =>
    let r := judge w (if onB then e.ringA else e.ringB) seq
    if r.1 = .duplicate then (s.addSat F.PRP.RING_DUP_COUNT d i 1, false, false)
    else (s.prpPut d (if onB then { e with ringA := some r.2 } else { e with ringB := some r.2 }), true, r.1 == .accept)

/-- A tagged frame on PORT_A or PORT_B: its count, and LAN_OK (R411). -/
def State.prpTagged (s : State) (d i : Nat) (onB : Bool) : State :=
  let x := s.die d
  let s1 := s.setDie d { x with prpLan := Store.put 0 x.prpLan (2 * i + ofBool onB) (s.tick d + 1) }
  if onB then (s1.addWrap F.PRP.TAGGED_B_COUNT d i 1).wfRaise F.PRP.STATUS_LAN_B_OK d i 1 1
  else (s1.addWrap F.PRP.TAGGED_A_COUNT d i 1).wfRaise F.PRP.STATUS_LAN_A_OK d i 1 1

/-- An untagged frame is counted (R408). -/
def State.prpUntagged (s : State) (d i : Nat) (onB : Bool) : State :=
  s.addSat (if onB then F.PRP.UNTAG_B_COUNT else F.PRP.UNTAG_A_COUNT) d i 1

/-- What a pairing makes of a received frame: whether it is delivered, what is left of it, whether it goes on round the
ring, and the provisional mark. -/
structure PrpFate where
  deliver : Bool := true
  strip : Bool := false
  ring : Bool := false
  prov : Option PrpProv := none
  deriving DecidableEq, Repr

/-- A PRP frame on a pairing's port (R408, R410). -/
def State.prpReceive (s : State) (d i : Nat) (onB : Bool) (l : List Byte) : State × PrpFate :=
  match rctOf l with
  | some (seq, lan) =>
    if lan = (if onB then 0xB else 0xA) then
      let r := (s.prpTagged d i onB).prpDeliver d i (srcMac l) seq
      (r.1, { deliver := r.2.1, strip := true, prov := if r.2.2 then some ⟨i, srcMac l, seq, onB, true, false⟩ else none })
    else
      ((((s.addSat F.PRP.WRONG_LAN_COUNT d i 1).setFlag F.PRP.ERR_WRONG_LAN_SEEN d i).prpUntagged d i onB), {})
  | none => (s.prpUntagged d i onB, {})

/-- The address is a proxy of the pairing. -/
def State.isProxy (s : State) (d i mac : Nat) : Bool := (s.prpEntry d i mac).any fun e => e.proxy

/-- An HSR frame on a pairing's port (R408, R414). -/
def State.hsrReceive (s : State) (d i : Nat) (onB : Bool) (l : List Byte) : State × PrpFate :=
  match hsrOf l with
  | none => (s.prpUntagged d i onB, { deliver := false })
  | some (seq, _) =>
    let s0 := s.prpTagged d i onB
    let src := srcMac l
    if s0.isProxy d i src then (s0.addSat F.PRP.RING_REMOVED_COUNT d i 1, { deliver := false })
    else
      let mine := !isGroup (dstMac l) && s0.isProxy d i (dstMac l)
      let ring := if mine then (s0, false, false) else s0.prpRing d i src seq onB
      let r := ring.1.prpDeliver d i src seq
      let mark := if r.2.2 || ring.2.2 then some (⟨i, src, seq, onB, r.2.2, ring.2.2⟩ : PrpProv) else none
      (r.1, { deliver := r.2.1, strip := true, ring := ring.2.1, prov := mark })

/-- The provisional bits of a frame that ended with a bad FCS are cleared (R412). -/
def State.prpUndo (s : State) (d : Nat) : Option PrpProv → State
  | some m =>
    match s.prpEntry d m.inst m.source with
    | some e =>
      let w := s.prpW d m.inst
      let e1 := if m.deliver then { e with window := unmark w m.seq e.window } else e
      let e2 := if !m.ring then e1 else if m.onB then { e1 with ringA := unmark w m.seq e1.ringA }
        else { e1 with ringB := unmark w m.seq e1.ringB }
      s.prpPut d e2
    | none => s
  | none => s

/-- A pairing takes one sequence number (R407). -/
def State.prpNumber (s : State) (d i : Nat) : Nat × State :=
  (s.rf F.PRP.SEQ_NEXT_SEQ d i, s.addWrap F.PRP.SEQ_NEXT_SEQ d i 1)

/-! ## Run states (R417, R418) -/

/-- The start checks (R418). -/
def State.prpStartErr (s : State) (d i : Nat) : Nat :=
  let a := s.rf F.PRP.CFG_PORT_A d i
  let b := s.rf F.PRP.CFG_PORT_B d i
  let taken (k : Nat) : Bool := k != i && s.active d B.PRP k &&
    (s.prpA d k == a || s.prpA d k == b || s.prpB d k == a || s.prpB d k == b)
  if 1 < s.rf F.PRP.CFG_MODE d i ∨ s.rf F.PRP.CFG_WIN d i = 3 then 0x10
  else if a = b ∨ 23 < a ∨ 23 < b then 0x11
  else if (List.range 12).any taken then 0x12
  else if s.portOwner (24 * d + a) ≠ s.owner d B.PRP i ∨ s.portOwner (24 * d + b) ≠ s.owner d B.PRP i then 0x13
  else if !s.portExists (24 * d + a) || !s.portExists (24 * d + b) then 0x14
  else 0

/-- At entry to STOPPING the pairing's entries are released (R417). -/
def State.prpStopped (s : State) (d i : Nat) : State := s.setPrp d ((s.die d).prp.filter fun e => e.inst != i)

/-! ## The commands -/

/-- FORGET in ticks; 0 acts as 1 (R411). -/
def State.forgetTicks (s : State) (d i : Nat) : Nat := 625000 * max 1 (s.rf F.PRP.FORGET_FORGET d i)

/-- PRP_FORGET: an entry that has judged no frame for FORGET ms is removed (R411). -/
def execPrpForget (d i src : Nat) (s : State) : Out :=
  onInst d B.PRP i s fun s =>
    match s.prpEntry d i src with
    | some e =>
      if e.last + s.forgetTicks d i ≤ s.tick d then
        (s.setPrp d ((s.die d).prp.filter fun x => !(x.inst == i && x.source == src))).addSat F.PRP.FORGOTTEN_COUNT d i 1
      else s
    | none => s

/-- LAN_OK_EXPIRE: no tagged frame has arrived on PORT_A or PORT_B for FORGET ms. -/
def execLanOkExpire (d i : Nat) (onB : Bool) (s : State) : Out :=
  onInst d B.PRP i s fun s =>
    let last := Store.get 0 (s.die d).prpLan (2 * i + ofBool onB)
    if last ≠ 0 ∧ last - 1 + s.forgetTicks d i ≤ s.tick d then
      s.wfRaise (if onB then F.PRP.STATUS_LAN_B_OK else F.PRP.STATUS_LAN_A_OK) d i 0 1
    else s

end Sys2Proof.Machine
end

