-- ==== Sys2Proof/Machine/Tsu.lean ====
section
/-!
DEFINITION. Frame timestamps: strobes, the TX timestamp queue and the transparent clock (R245 to R257).
-/
namespace Sys2Proof.Machine

/-- The TSU of a port is in RUN. -/
def State.tsuRun (s : State) (p : Nat) : Bool := s.inRun (p / 24) B.TSU (p % 24)

/-- TX_FIXED and RX_FIXED of a mode, with RS-FEC or without, in 0.25 ps (R247). -/
def fixedDelays (mode : Nat) (fec : Bool) : Nat × Nat :=
  match mode, fec with
  | 1, _ => (384000, 512000)
  | 2, _ => (192000, 288000)
  | 3, false => (128000, 179200)
  | 3, true => (153600, 960000)
  | 4, false => (153600, 307200)
  | 4, true => (179200, 512000)
  | _, _ => (0, 0)

/-- TX_FIXED and RX_FIXED of a port's mode. -/
def State.fixed (s : State) (p : Nat) : Nat × Nat := fixedDelays (s.mode p) (s.fec p)

/-- BIT_POS, with the codeword's offset on a port with RS-FEC alone, in unit intervals (R246). -/
def bitPos (mode : Nat) (fec : Bool) (k : Strobe) : Int :=
  (if mode = 1 then 80 else if k.lane4 then 100 else 68) + if fec then k.codeword else 0

/-- The deskew depth in use, in unit intervals: on a 100 Gb/s port alone (R247). -/
def deskewUi (mode : Nat) (k : Strobe) : Int := if mode = 4 then 66 * Int.ofNat k.deskew else 0

/-- The instant of a strobe moved by a path, floored to 2^-32 ns (R245): `fs` in femtoseconds, `ui` in unit intervals. -/
def State.stampAt (s : State) (p T : Nat) (fs ui : Int) : Int :=
  let d := p / 24
  let x := 825 * (250 * s.rfS F.RIDGE.SKEW_SKEW d 0 + fs) + ui * Int.ofNat (uiFs825 (s.mode p))
  (Int.ofNat (s.unitsAt d T) * 825000000 + x * 2 ^ 32) / 825000000

/-- REP_DLY of a lane's island less d_TDC, in femtoseconds (R245, R430). -/
def State.strobeFs (s : State) (p : Nat) (k : Strobe) : Int :=
  let d := p / 24
  let i := p % 24
  250 * (s.coeff d (1877 + i)).getD 0 - s.lineDelay d i k.taps

/-- The ingress timestamp of a frame whose strobe falls now (R245, R247). -/
def State.rxStamp (s : State) (p : Nat) (k : Strobe) : XT :=
  let d := p / 24
  let i := p % 24
  let path := Int.ofNat (s.fixed p).2 + s.rfS F.TSU.DLY_RX_CAL d i + s.rfS F.TSU.ADJ_RX_ADJ d i
  xtOfInt (s.stampAt p (s.pkgTick d) (s.strobeFs p k - 250 * path) 
    (bitPos (s.mode p) (s.fec p) k - deskewUi (s.mode p) k))

/-- The egress timestamp of a frame whose strobe falls now (R245). -/
def State.txStamp (s : State) (p : Nat) (k : Strobe) : XT :=
  let d := p / 24
  let i := p % 24
  let path := Int.ofNat (s.fixed p).1 + s.rfS F.TSU.DLY_TX_CAL d i + s.rfS F.TSU.ADJ_TX_ADJ d i
  xtOfInt (s.stampAt p (s.pkgTick d) (s.strobeFs p k + 250 * path) (bitPos (s.mode p) (s.fec p) k))

/-- A timestamp taken now on a port is timing-grade (R241, R249). -/
def State.stampTg (s : State) (p : Nat) : Bool := s.flag F.TSU.STATUS_TG (p / 24) (p % 24) && !s.alignPast (p / 24)

/-! ## The TX timestamp queue -/

/-- STATUS.DEPTH follows the queue. -/
def State.tsqShow (s : State) (p : Nat) : State := s.wf F.TSU.STATUS_DEPTH (p / 24) (p % 24) (s.port p).tsq.length

/-- A frame with TS_REQ passes the medium, or is discarded (R251, R252, R254). -/
def State.tsPush (s : State) (p id : Nat) (time : XT) (tg dropped : Bool) : State :=
  let d := p / 24
  let i := p % 24
  if !s.tsuRun p then s.addSat F.TSU.FLUSHED_COUNT d i 1
  else
    let x := s.port p
    let y := { x with tsSeq := (x.tsSeq + 1) % 2 ^ 16 }
    if 16 ≤ x.tsq.length then
      ((((s.setPort p y).setFlag F.TSU.ERR_TSQ_OVF d i).raise d B.TSU i 1).portCount p 11 1)
    else
      let s1 := (s.setPort p { y with tsq := x.tsq ++ [⟨id, tg, dropped, x.tsSeq, time⟩] }).tsqShow p
      if x.tsq = [] then s1.raise d B.TSU i 0 else s1

/-- A discarded copy that had asked for a timestamp (R251). -/
def State.tsDrop (s : State) (p : Nat) (m : FrameMeta) : State :=
  match m.tsId with
  | some id => s.tsPush p id 0 false true
  | none => s

/-- The word of TXQ_META for an entry. -/
def TsEntry.word (t : TsEntry) : Nat :=
  2 ^ 63 + ofBool t.tg * 2 ^ 62 + ofBool t.dropped * 2 ^ 61 + t.seq % 2 ^ 16 * 2 ^ 32 + t.id % 2 ^ 16

/-- A 64-bit read of TXQ_META (R253). -/
def State.tsTake (s : State) (p : Nat) : State × Nat :=
  let x := s.port p
  match x.tsq with
  | [] => (s, 0)
  | t :: r => (((s.setPort p { x with tsq := r }).tsqShow p).wf F.TSU.TXQ_TIME_TIME (p / 24) (p % 24) t.time.toNat, t.word)

/-- TXQ_META_READ by an engine. -/
def execTxqMetaRead (e p : Nat) (s : State) : Out :=
  arriveRead e (mkFa (p / 24) B.TSU (p % 24) 0x10) 64 s fun s => s.tsTake p

/-- The queue is dropped at entry to STOPPING (R254). -/
def State.tsuStopping (s : State) (p : Nat) : State :=
  let x := s.port p
  ((s.setPort p { x with tsq := [] }).tsqShow p).addSat F.TSU.FLUSHED_COUNT (p / 24) (p % 24) x.tsq.length

/-! ## The transparent clock (R255 to R257) -/

/-- The message of R255 in a copy that leaves by a port: its form and the offset of its header. -/
def State.corrects (s : State) (p : Nat) (m : FrameMeta) (l : List Byte) : Option (PtpForm × Nat) :=
  let fromPort := match m.src with
    | .port _ => true
    | _ => false
  match ptpEvent l with
  | some (f, h) =>
    if s.tsuRun p && s.rfF F.TSU.CFG_TC_EN (p / 24) (p % 24) == 1 && fromPort && s.formOn p f && ptpCorrected l h then
      some (f, h)
    else none
  | none => none

/-- The residence time in 2^-16 ns (R256). -/
def residence (ingress egress : XT) : Int := (Int.ofNat (XT.units egress) - Int.ofNat (XT.units ingress)) / 2 ^ 16

/-- Step 3 of R396: a message of R255 with both timestamps corrected, counted where one is not timing-grade (R257). -/
def State.correct (s : State) (p : Nat) (m : FrameMeta) (l : List Byte) (egress : Option XT) (tg : Bool) :
    State × List Byte :=
  match s.corrects p m l, m.time, egress with
  | some (f, h), some i, some e =>
    let sum := corrSum (be l (h + 8) 8) (residence i e)
    if m.tg && tg then (s, corrEdit l f h sum)
    else
      let s1 := (s.addSat F.TSU.NTG_CORR_COUNT (p / 24) (p % 24) 1).setFlag F.TSU.ERR_NTG_CORR_SEEN (p / 24) (p % 24)
      (s1, corrEdit l f h (if s.rfF F.TSU.CFG_NTG_POISON (p / 24) (p % 24) = 1 then 0x7FFFFFFFFFFFFFFF else sum))
  | _, _, _ => (s, l)

end Sys2Proof.Machine
end

