-- ==== Sys2Proof/Machine/Mirr.lean ====
section
/-!
DEFINITION. Frames on their way to a host ring (R151), and the header mirror (R398 to R400).
-/
namespace Sys2Proof.Machine

/-- Descriptors of device-to-host ring `k` of endpoint `h` that no waiting frame has claimed (R147, R151). -/
def State.ringFree (s : State) (h k : Nat) : Nat :=
  let d := Config.hostDie s.part h
  let open_ := (s.rf (F.HBAR.DB_RX_PROD k) h 0 + 2 ^ 16 - s.rf (F.HBAR.CONS_RX_CONS k) h 0) % 2 ^ 16
  open_ - ((s.die d).rings.filter fun f => f.host == h && f.ring == k).length

/-- Ring `k` of endpoint `h` takes a frame (R151). -/
def State.ringTakes (s : State) (h k : Nat) : Bool :=
  let d := Config.hostDie s.part h
  decide (h < Config.nHosts s.part) && s.owner d B.HOST 0 == h && s.inRun d B.HOST 0 && s.flag (F.HOST.RING_CFG_RX_EN k) d 0 &&
    decide (0 < s.ringFree h k)

/-- A frame dropped at a ring (R151). -/
def State.ringDrop (s : State) (h k : Nat) : State := s.addSat (F.HOST.RING_DROPS_COUNT k) (Config.hostDie s.part h) 0 1

/-- A frame for a ring waits for its DMA, or is dropped. -/
def State.ringOffer (s : State) (h k : Nat) (f : RxFrame) : State :=
  let d := Config.hostDie s.part h
  if s.ringTakes h k then s.setDie d { s.die d with rings := (s.die d).rings ++ [⟨h, k, f⟩] } else s.ringDrop h k

/-- The charge of a length, in cells. -/
def cellsOf (n : Nat) : Nat := (n + 255) / 256

/-- Cells of the host pool in use on a die (R378). -/
def State.hostUsed (s : State) (d : Nat) : Nat :=
  let engs := ([0, 1, 2, 3].flatMap fun e => (s.eng (4 * d + e)).rxq).map fun f => cellsOf f.bytes.length
  let rings := (s.die d).rings.map fun f => cellsOf f.frame.bytes.length
  let open_ := (s.die d).frames.map fun o => cellsOf o.frame.len * (o.engines.length + if o.ring.isSome then 1 else 0)
  (engs ++ rings ++ open_).foldl (· + ·) 0

/-! ## The mirror -/

/-- Why a record is taken (R399). -/
inductive MirrReason where
  | rx | tx | admission | ageing | stopped
  deriving DecidableEq, Repr

def MirrReason.code : MirrReason → Nat
  | .rx => 0
  | .tx => 1
  | .admission => 2
  | .ageing => 3
  | .stopped => 4

/-- The kind by which events are counted (R398). -/
def MirrReason.kind : MirrReason → Nat
  | .rx => 0
  | .tx => 1
  | _ => 2

/-- Bytes held in the ring. -/
def ringBytes (l : List (List Byte)) : Nat := (l.map List.length).foldl (· + ·) 0

/-- The oldest records removed until `n` bytes fit, with how many went (R400). -/
def ringTrim (n : Nat) : List (List Byte) → List (List Byte) × Nat
  | [] => ([], 0)
  | r :: q => if ringBytes (r :: q) + n ≤ 1048576 then (r :: q, 0) else ((ringTrim n q).1, (ringTrim n q).2 + 1)

/-- A record is lost at a full ring (R400). -/
def State.mirrLost (s : State) (d n : Nat) : State :=
  ((s.addSat F.MIRR.LOST_COUNT d 0 n).setFlag F.MIRR.ERR_RING_FULL_SEEN d 0).raise d B.MIRR 0 1

/-- The mirror of a die replaced; USED follows. -/
def State.setMirr (s : State) (d : Nat) (m : MirrState) : State :=
  (s.setDie d { s.die d with mirr := m }).wf F.MIRR.STATUS_USED d 0 (ringBytes m.ring)

/-- The direction from die `a` to die `b` is up; a die reaches itself by its local path. -/
def State.txUp (s : State) (a b : Nat) : Bool := a == b || s.flag F.MESH.STATUS_TX_UP a b

/-- A record stored in the internal ring, or sent to the host ring as a frame of its own (R151, R378, R400). -/
def State.mirrStore (s : State) (d : Nat) (r : List Byte) : State :=
  let m := (s.die d).mirr
  let m1 := { m with seq := (m.seq + 1) % 2 ^ 32 }
  if s.rfF F.MIRR.CFG_DEST d 0 = 1 then
    let k := s.rfF F.MIRR.CFG_RING d 0
    let s1 := s.setMirr d m1
    if s1.txUp d 0 then
      let f : RxFrame := { time := 0, ingress := 0xFFFF, tg := false, fcsBad := false, bytes := withFcs r }
      if s1.hostUsed (Config.hostDie s1.part 0) + cellsOf f.bytes.length ≤ 1024 then s1.ringOffer 0 k f else s1.ringDrop 0 k
    else s1.addSat F.MESH.STG_DROP_COUNT d 0 1
  else if ringBytes m.ring + r.length ≤ 1048576 then
    let s1 := s.setMirr d { m1 with ring := m.ring ++ [r] }
    if m.ring = [] then s1.raise d B.MIRR 0 0 else s1
  else if s.rfF F.MIRR.CFG_WRAP d 0 = 1 then
    let t := ringTrim r.length m.ring
    (s.setMirr d { m1 with ring := t.1 ++ [r] }).mirrLost d t.2
  else (s.setMirr d m1).mirrLost d 1

/-- What a record says besides its counters (R399). -/
structure MirrInfo where
  time : Nat
  len : Nat
  inPort : Nat
  outPort : Nat
  queue : Nat
  flags : Nat
  inPart : Nat
  bytes : List Byte
  deriving DecidableEq, Repr

/-- The bytes of a record (R399). -/
def MirrInfo.record (i : MirrInfo) (seq snap : Nat) (why : MirrReason) : List Byte :=
  let cap := i.bytes.take (min snap i.len)
  let blocks := (cap.length + 31) / 32
  bytesLE 16 i.time ++ bytesLE 4 seq ++ bytesLE 2 i.len ++ bytesLE 1 i.inPort ++ bytesLE 1 i.outPort ++
    bytesLE 1 why.code ++ bytesLE 1 i.queue ++ bytesLE 1 i.flags ++ bytesLE 1 blocks ++ bytesLE 1 i.inPart ++ [0, 0, 0] ++
    cap ++ List.replicate (32 * blocks - cap.length) 0

/-- The ports that a kind of record selects. -/
def State.mirrPorts (s : State) (d : Nat) (why : MirrReason) : Nat :=
  match why.kind with
  | 0 => s.rf F.MIRR.RX_EN_PORTS d 0
  | 1 => s.rf F.MIRR.TX_EN_PORTS d 0
  | _ => s.rf F.MIRR.DROP_EN_PORTS d 0

/-- A qualifying event on a local port: one in 2^SAMPLE is recorded, at most one in 4 ns (R398). -/
def State.mirrTry (s : State) (d lp : Nat) (why : MirrReason) (i : MirrInfo) : State :=
  if !s.inRun d B.MIRR 0 || !bitSet (s.mirrPorts d why) lp then s
  else
    let m := (s.die d).mirr
    let key := 32 * why.kind + lp
    let n := Store.get 0 m.seen key
    let m1 := { m with seen := Store.put 0 m.seen key (n + 1) }
    if n % 2 ^ s.rf F.MIRR.CFG_SAMPLE d 0 ≠ 0 then s.setMirr d m1
    else if m.last ≠ 0 ∧ s.tick d + 1 < m.last + 3 then
      ((s.setMirr d m1).addSat F.MIRR.MISSED_COUNT d 0 1).setFlag F.MIRR.ERR_MISSED_SEEN d 0
    else
      (s.setMirr d { m1 with last := s.tick d + 1 }).mirrStore d (i.record m.seq (s.rfF F.MIRR.CFG_SNAP d 0) why)

/-- The ingress port's byte and partition of a record; an injected frame has no ingress port, and its IN_PART is a free
value (R399). -/
def State.mirrIn (s : State) (m : FrameMeta) : (Nat × Nat) × State :=
  match m.src with
  | .port p => ((p, s.portOwner p), s)
  | _ => ((0xFF, s.draw.1.toNat % 4), s.draw.2)

/-- FLAGS of a record (R399). -/
def mirrFlags (tg bad cut multi routed : Bool) : Nat :=
  ofBool tg + 2 * ofBool bad + 4 * ofBool cut + 8 * ofBool multi + 16 * ofBool routed

/-- The record of a dropped copy for a global port. -/
def State.mirrDrop (s : State) (p q : Nat) (m : FrameMeta) (why : MirrReason) (cut bad : Bool) (l : List Byte) : State :=
  let d := p / 24
  let src := s.mirrIn m
  src.2.mirrTry d (p % 24) why
    { time := (xtOfUnits (s.now d)).toNat, len := m.len, inPort := src.1.1, outPort := p, queue := q,
      flags := mirrFlags (s.tg d) bad cut m.multi m.route.isSome, inPart := src.1.2, bytes := l }

/-- The record of a frame received on a port, taken at its end, when its verdict is known. -/
def State.mirrRx (s : State) (p : Nat) (r : RxFrameCur) (bad : Bool) : State :=
  let m := r.frame
  s.mirrTry (p / 24) (p % 24) .rx
    { time := (m.time.getD 0).toNat, len := r.raw.length, inPort := p, outPort := 0xFF, queue := 0xFF,
      flags := mirrFlags m.tg bad false m.multi m.route.isSome, inPart := s.portOwner p, bytes := r.raw }

/-- The record of a copy that a port sends, with the frame as it leaves. -/
def State.mirrTx (s : State) (p : Nat) (t : TxCur) (bad : Bool) (l : List Byte) : State :=
  let m := t.copy.frame
  let src := s.mirrIn m
  src.2.mirrTry (p / 24) (p % 24) .tx
    { time := (t.time.getD 0).toNat, len := l.length, inPort := src.1.1, outPort := p, queue := t.copy.queue,
      flags := mirrFlags t.tg bad t.copy.cut m.multi m.route.isSome, inPart := src.1.2, bytes := l }

/-- The head of the ring as REC_HEAD returns it (R400). -/
def mirrWord (r : List Byte) : Nat := 2 ^ 63 + r.length % 2 ^ 9 * 2 ^ 32 + leNat ((r.drop 16).take 4)

/-- A 64-bit read of REC_HEAD (R400). -/
def State.mirrTake (s : State) (d : Nat) : State × Nat :=
  let m := (s.die d).mirr
  match m.ring with
  | [] => (s, 0)
  | r :: q => (s.setMirr d { m with ring := q, record := r }, mirrWord r)

/-- MIRR_REC_HEAD_READ by an engine. -/
def execMirrRecHeadRead (e d : Nat) (s : State) : Out :=
  arriveRead e (mkFa d B.MIRR 0 0x20) 64 s fun s => s.mirrTake d

/-- The start check (R400). -/
def State.mirrStartErr (s : State) (d : Nat) : Nat :=
  let n := s.rf F.MIRR.CFG_SNAP d 0
  if n % 32 ≠ 0 ∨ n < 64 ∨ 256 < n then 0x10 else 0

end Sys2Proof.Machine
end

