-- ==== Sys2Proof/Machine/Switch.lean ====
section
/-!
DEFINITION. The input side of the switch core: reception, lookup, staging FIFOs, and the way of a cell to its output die
(R262, R282, R338, R372 to R377, R386, R449, R450).
-/
namespace Sys2Proof.Machine

/-! ## Tags (R449, R450) -/

/-- A stage of a tagged frame, told to its input die's PERF from die `d` (R450): over a link that is down it is lost. -/
def State.tagTell (s : State) (d : Nat) (m : FrameMeta) (stage : Nat) (u : TagItem) (done dropped : Bool) : State :=
  match m.tag with
  | some (home, _) =>
    let v := { u with id := m.id, flags := if m.multi then u.flags ||| 8 else u.flags }
    if d = home then s.tagReport home stage (s.pkgTick d) v done dropped
    else if s.linkUp d home then s.post d home (.tagStage stage (s.pkgTick d) v done dropped)
    else s
  | none => s

/-- What a report says of a copy for port `p` and queue `q`: it counts where that is the port followed (R450). -/
def tagItemOf (p q flags : Nat) : TagItem := { kind := 1, outPort := p, queue := q, flags := flags, t0 := 0 }

/-- The copy for port `p` is the one that the tag follows. -/
def FrameMeta.follows (m : FrameMeta) (p : Nat) : Bool :=
  match m.tag with
  | some (_, q) => q == p
  | none => false

/-- A received frame is a candidate (R449): the Bool says that it is tagged. -/
def State.tagCandidate (s : State) (p : Nat) (tg : Bool) : State × Bool :=
  let d := p / 24
  if s.inRun d B.PERF 0 && s.rfF F.PERF.TAG_CFG_FR_EN d 0 == 1 then
    let x := s.perf d
    let y := lfsrNext x.lfsrF
    if y % 2 ^ s.rfF F.PERF.TAG_CFG_FR_LOG2 d 0 = 0 ∧ x.frame = none then
      let T := s.pkgTick d
      let item : TagItem := { kind := 1, id := s.nextFrame, inPort := p, flags := 16 * ofBool tg, t0 := T, stages := [(0, 0)] }
      ((s.setPerf d { x with lfsrF := y, frame := some item }).setFlag F.PERF.TAG_STAT_FR_BUSY d 0, true)
    else (s.setPerf d { x with lfsrF := y }, false)
  else (s, false)

/-! ## Staging FIFOs (R372 to R376) -/

/-- Staging FIFO `i` of a die: 0 to 23 its ports', 24 the injection FIFO. -/
def State.fifo (s : State) (d i : Nat) : List StgCell := if i < 24 then (s.port (24 * d + i)).stg else (s.die d).injFifo

/-- The FIFO replaced. -/
def State.setFifo (s : State) (d i : Nat) (l : List StgCell) : State :=
  if i < 24 then s.setPort (24 * d + i) { s.port (24 * d + i) with stg := l }
  else s.setDie d { s.die d with injFifo := l }

/-- STG_DROP of each destination die but the die itself, which has no instance for itself (R375). -/
def State.stgDrop (s : State) (d : Nat) (dies : List Nat) : State :=
  (dies.filter (· != d)).foldl (fun s k => s.addSat F.MESH.STG_DROP_COUNT d k 1) s

/-- A frame that is lost before it reaches an output die: its tag completes as dropped, with no further stage. -/
def State.frameLost (s : State) (d : Nat) (m : FrameMeta) : State :=
  s.tagTell d m 12 (tagItemOf 0xFF 0 0) false true

/-- The tag of a frame follows it to a die that cannot report to die `d`. -/
def State.unseen (s : State) (d : Nat) (m : FrameMeta) : Bool :=
  match m.tag with
  | some (_, p) => p != 0xFF && p / 24 != d && !s.linkUp d (p / 24)
  | none => false

/-- The next cell of a frame goes into its FIFO, or the frame is dropped or ended as bad (R372, R375, R42). A tag that
follows it to a die out of reach completes as dropped. -/
def State.stage (s : State) (d i : Nat) (r : RxFrameCur) (last bad : Bool) : State × RxFrameCur :=
  if r.dropped || r.cutOff then (s, { r with done := r.done + 256 })
  else
    let l := s.fifo d i
    let first := r.done == 0
    let dead := if first then r.dies.filter fun k => !s.txUp d k else []
    let live := if first then r.dies.filter fun k => s.txUp d k else r.dies
    let full := decide (32 ≤ slotsUsed l)
    let s0 := s.stgDrop d dead
    let s1 := if first && (live == [] || full || s0.unseen d r.frame) then s0.frameLost d r.frame else s0
    if first && (live == [] || full) then
      (if live = [] then s1 else s1.stgDrop d live, { r with dropped := true, done := r.done + 256 })
    else if full then
      (s1.setFifo d i (l ++ [⟨⟨r.frame, false, true, true, []⟩, live⟩]), { r with cutOff := true, done := r.done + 256 })
    else
      let cell : Cell := ⟨r.frame, first, last, bad, (r.bytes.drop r.done).take 256⟩
      let s2 := s1.setFifo d i (l ++ [⟨cell, live⟩])
      let s3 := if first then s2.tagTell d r.frame 4 (tagItemOf 0xFF 0 0) (r.frame.ports == 0) false else s2
      (s3, { r with dies := live, done := r.done + 256 })

/-- Every cell of a frame that is still to be cut, the last one with the verdict. -/
def State.stageRest (s : State) (d i : Nat) (bad : Bool) : Nat → RxFrameCur → State
  | 0, _ => s
  | n + 1, r =>
    if r.done + 256 < r.bytes.length then
      let t := s.stage d i r false false
      t.1.stageRest d i bad n t.2
    else (s.stage d i r true bad).1

/-- The next cell of the frame in injection is full: a die injects 10 bytes a tick, the 50 Gb/s of R40 (DESIGN CHOICE, log
entry 22: it injects at its limit). -/
def State.injDue (s : State) (d : Nat) (r : RxFrameCur) : Bool :=
  decide (min (r.done + 256) r.bytes.length ≤ 10 * ((s.tick d + 2 ^ 64 - (s.die d).injAt) % 2 ^ 64))

/-- The cells of the injected frame that are full by now are offered to the injection FIFO (R372, R375). -/
def State.injFill (s : State) (d : Nat) : Nat → State
  | 0 => s
  | n + 1 =>
    match (s.die d).inj with
    | none => s
    | some r =>
      if !s.injDue d r then s
      else
        let last := decide (r.bytes.length ≤ r.done + 256)
        let t := s.stage d 24 r last false
        (t.1.setDie d { t.1.die d with inj := if last then none else some t.2 }).injFill d n

/-! ## Reception -/

/-- The destinations of peer-delay messages over Ethernet, UDP/IPv4 and UDP/IPv6, the first that of link exchange. -/
def peerDelay (mac : Nat) : Bool := mac == 0x0180C200000E || mac == 0x01005E00006B || mac == 0x33330000006B

/-- The frame is taken aside for the handler (R262). -/
def takenAside (l : List Byte) : Bool :=
  (dstMac l == 0x0180C200000E && (etherType l == 0x88B5 || etherType l == 0x88F7)) ||
    (peerDelay (dstMac l) && (ptpOf l).isSome)

/-- A beacon or release frame, which D0's SUMMIT receives as well (R282). -/
def State.isBeacon (s : State) (l : List Byte) : Bool :=
  let o := typeOff l
  dstMac l == s.rfF F.SUMMIT.BCN_MAC_MAC 0 0 && etherType l == 0x88B5 && (be l (o + 2) 1 == 0x10 || be l (o + 2) 1 == 0x11)

/-- The dies that hold the destinations of a frame. -/
def destDies (p : Part) (ports engines : Nat) : List Nat :=
  (List.range (Config.nDies p)).filter fun d => bitsOf ports (24 * d) 24 != 0 || bitsOf engines (4 * d) 4 != 0

/-- The lowest port of a mask. -/
def lowestPort (p : Part) (mask : Nat) : Nat := ((List.range (Config.nPorts p)).find? (bitSet mask ·)).getD 0xFF

/-- The frame enters the pipeline as received on this local port for steps 6 and 7 (R404). -/
def State.asPort (s : State) (p : Nat) : Nat :=
  match s.prpOf (p / 24) (p % 24) with
  | some (i, _) => 24 * (p / 24) + s.prpA (p / 24) i
  | none => p

/-- VLAN and priority of a received frame (R338 step 1, R385). -/
def State.rxClass (s : State) (p : Nat) (l : List Byte) : Nat × Nat :=
  let d := p / 24
  let i := p % 24
  match outerTag l with
  | some (pcp, vid) => (if vid = 0 then s.rf (F.L2T.PORT_PVID i) d 0 else vid, pcp)
  | none => (s.rf (F.L2T.PORT_PVID i) d 0, s.rf F.QUE.CFG_DEF_PCP d i)

/-- A frame in reception with its destinations; one with none has no cells. -/
def State.rxBegin (s : State) (p : Nat) (m : FrameMeta) (bytes raw : List Byte) (ovr : Bool) (learn : Option (Nat × Nat))
    (prov : Option PrpProv) : State :=
  let dies := destDies s.part m.ports m.engines
  let tag := m.tag.map fun t => (t.1, lowestPort s.part m.ports)
  let m1 := { m with tag := tag, multi := m.multi || decide (1 < dies.length) }
  let r : RxFrameCur := { frame := m1, dies := dies, bytes := bytes, done := 0, raw := raw, ovr := ovr, learn := learn,
                          prov := prov, dropped := dies == [] }
  let s0 := match tag with
    | some (home, q) => s.tagDest home m.id (if q = 0xFF then 0xFF else q / 24)
    | none => s
  let s1 := s0.setPort p { s0.port p with rx := some r }
  if dies = [] then s1.frameLost (p / 24) m1 else s1

/-- The redundancy judgement of a received frame (R402, R406, R408). -/
def State.prpJudge (s : State) (p : Nat) (l : List Byte) : State × PrpFate :=
  let d := p / 24
  match s.prpOf d (p % 24) with
  | some (i, onB) =>
    if s.prpExempt d i p l then (s, {})
    else if s.hsrMode d i then s.hsrReceive d i onB l
    else s.prpReceive d i onB l
  | none => (s, {})

/-- The HSR copy that goes on round the ring (R414): the frame unchanged, for the other ring port. -/
def State.ringForward (s : State) (p : Nat) (m : FrameMeta) (raw : List Byte) : State :=
  let d := p / 24
  match s.prpOf d (p % 24) with
  | some (i, onB) =>
    let out := 24 * d + (if onB then s.prpA d i else s.prpB d i)
    let m1 := { m with id := m.id + 1, ports := 2 ^ out, engines := 0, hsr := some out, tag := none, len := raw.length,
                       prio := (s.rxClass p raw).2 }
    s.setPort p { s.port p with fwd := some { frame := m1, dies := [d], bytes := raw, done := 0, raw := raw } }
  | none => s

/-- The ports that step 6 takes from the set: the port as which the frame is received and, in PRP mode, both ports of the
pairing (R404). An exempt frame is handled as on an unpaired port (R406; DEDUCED, log entry 61). -/
def State.ingressOf (s : State) (p : Nat) (exempt : Bool) : List Nat :=
  let d := p / 24
  match s.prpOf d (p % 24) with
  | some (i, _) =>
    if exempt then [p]
    else if s.hsrMode d i then [s.asPort p]
    else [24 * d + s.prpA d i, 24 * d + s.prpB d i]
  | none => [p]

/-- A frame looked up, settled and put in reception (R338). -/
def State.rxForward (s : State) (p : Nat) (m : FrameMeta) (l raw : List Byte) (ovr spare : Bool) (prov : Option PrpProv)
    (exempt : Bool) : State :=
  let d := p / 24
  let as_ := if exempt then p else s.asPort p
  let cls := s.rxClass p l
  let f := s.forward d (some (p % 24)) cls.1 l spare
  let g := match f.2 with
    | some x => f.1.settle d (s.portOwner p) (some p) (s.ingressOf p exempt) x
    | none => (f.1, none)
  let x := g.2.getD { vlan := cls.1, epochs := s.epochsOf d }
  let m1 := { m with len := l.length, vlan := cls.1, prio := cls.2, ports := x.ports, engines := x.engines, route := x.route,
                     epochs := x.epochs, multi := x.multi, exempt := exempt }
  g.1.rxBegin p m1 l raw ovr (some (cls.1, as_)) prov

/-- The pipeline of the input die takes a frame whose start has been strobed (R338). -/
def State.pipeline (s : State) (p : Nat) (m : FrameMeta) (raw : List Byte) (ovr spare : Bool) : State :=
  let d := p / 24
  let plain (s : State) (ports engines : Nat) : State :=
    s.rxBegin p { m with ports := ports, engines := engines } raw raw ovr none none
  if takenAside raw then
    plain (if m.tg then s.linkGraded p false (m.time.getD 0) else s) 0 (engMask s.part (2 ^ s.rfF F.LINK.CFG_HANDLER d (p % 24)))
  else if etherType raw = 0x8808 then plain (s.portCount p 7 1) 0 0
  else
    let s1 := if s.isBeacon raw && s.linkUp d 0 then s.post d 0 (.beacon raw) else s
    let exempt := match s1.prpOf d (p % 24) with
      | some (i, _) => s1.prpExempt d i p raw
      | none => false
    let j := s1.prpJudge p raw
    let s2 := if j.2.ring then j.1.ringForward p m raw else j.1
    if !j.2.deliver then s2.rxBegin p { m with tag := m.tag } [] raw ovr none j.2.prov
    else if j.2.strip then
      let body := match s2.prpOf d (p % 24) with
        | some (i, _) => if s2.hsrMode d i then dropHsr (bodyOf raw) else dropRct (bodyOf raw)
        | none => bodyOf raw
      let c := s2.carryFcs raw body true
      c.2.rxForward p m c.1 raw ovr spare j.2.prov false
    else s2.rxForward p m raw raw ovr spare none exempt

/-- The port can begin to receive a frame: link up, receive direction awake, none in reception. -/
def State.canReceive (s : State) (p : Nat) : Bool :=
  s.portExists p && s.pcsRun p && s.portUp p && !s.flag F.LANE.SLEEP_RX_ASLEEP (p / 24) (p % 24) && (s.port p).rx == none

/-- FRAME_RECEIVE_START: a frame of these bytes, FCS included, starts to arrive (R185, R245, R250, R338). -/
def execFrameReceiveStart (p : Nat) (bytes : List Byte) (k : Strobe) (spare : Bool) (s : State) : Out :=
  onPort p s fun s =>
    if !s.canReceive p then s
    else
      let d := p / 24
      let s0 := if s.mode p = 1 then s.liftFreeze p else s
      let max := s.rfF F.PCS.CFG_MAX_FRAME d (p % 24)
      let ovr := decide (max < bytes.length)
      let raw := if ovr then bytes.take (max + 1) else bytes
      let run := s0.tsuRun p
      let tg := run && s0.stampTg p
      let t := (s0.bwAdd d (p % 24) false raw.length).tagCandidate p tg
      let m : FrameMeta := { id := s.nextFrame, src := .port p, len := raw.length,
                             time := if run then some (s0.rxStamp p k) else none, tg := tg, strobe := s0.pkgTick d,
                             rate := s0.lineRate p, tag := if t.2 then some (d, 0xFF) else none }
      let s1 := { t.1 with nextFrame := s.nextFrame + 2 }
      let s2 := [1, 2, 3].foldl (fun s st => s.tagTell d m st (tagItemOf 0xFF 0 0) false false) s1
      s2.pipeline p m raw ovr spare

/-- The cells that a frame's further 256 bytes fill: of the frame itself, and of its ring copy. -/
def State.rxStep (s : State) (p : Nat) : State :=
  let d := p / 24
  let one (s : State) (get : PortState → Option RxFrameCur) (put : PortState → Option RxFrameCur → PortState) : State :=
    match get (s.port p) with
    | some r =>
      if r.done + 256 < r.bytes.length then
        let t := s.stage d (p % 24) r false false
        t.1.setPort p (put (t.1.port p) (some t.2))
      else s
    | none => s
  one (one s (fun x => x.rx) fun x r => { x with rx := r }) (fun x => x.fwd) fun x r => { x with fwd := r }

/-- FRAME_CELL_RECEIVE: a further 256 bytes have arrived and more follow (R372, R375). -/
def execFrameCellReceive (p : Nat) (s : State) : Out := onPort p s fun s => s.rxStep p

/-- The end of the frame in reception with the port's verdict (R185, R345, R395, R412); the mirror's record of it is taken now,
when FCS_BAD is known (R398; DESIGN CHOICE, log entry 103). -/
def State.rxEnd (s : State) (p : Nat) (bad : Bool) : State :=
  match (s.port p).rx with
  | none => s
  | some r =>
    let d := p / 24
    let n := r.raw.length
    let fail := bad || r.bad || r.ovr || !fcsGood r.raw
    let s0 := s.setPort p { s.port p with rx := none, fwd := none }
    let s1 := s0.stageRest d (p % 24) fail (r.bytes.length / 256 + 2) r
    let s2 := match (s.port p).fwd with
      | some w => s1.stageRest d (p % 24) fail (w.bytes.length / 256 + 2) w
      | none => s1
    let s3 := (s2.mirrRx p r fail).perfEvent d 0x02 (p % 24) (n + 20)
    if fail then
      let s4 := if r.ovr then s3.portCount p 3 1 else s3.portCount p 2 1
      (s4.perfEvent d 0x07 (p % 24) 1).prpUndo d r.prov
    else
      let s4 := ((s3.portCount p 0 1).portCount p 1 n).perfEvent d 0x01 (p % 24) 1
      match r.learn with
      | some (vlan, port) =>
        let sa := srcMac r.bytes
        if s4.flag (F.L2T.PORT_LEARN (port % 24)) d 0 && !isGroup sa then
          let before := s4.msgs.length
          let s5 := s4.l2Judge d r.frame.epochs.1 (l2Key vlan sa) port
          if before < s5.msgs.length then s5.perfEvent d 0x11 0 1 else s5
        else s4
      | none => s4

/-- FRAME_RECEIVE_END: the frame ends; `bad` says that a block of it was marked as an error or reception broke off. -/
def execFrameReceiveEnd (p : Nat) (bad : Bool) (s : State) : Out := onPort p s fun s => s.rxEnd p bad

/-! ## To the output die -/

/-- The first cell of a FIFO that waits for a die, taken: the cell, and the FIFO after it. -/
def takeFor (dest : Nat) : List StgCell → Option (Cell × List StgCell)
  | [] => none
  | c :: r =>
    if c.left.contains dest then
      let left := c.left.filter (· != dest)
      some (c.cell, if left = [] then r else ⟨c.cell, left⟩ :: r)
    else (takeFor dest r).map fun x => (x.1, c :: x.2)

/-- The FIFO whose turn it is: the first at or after the pointer, of 25, with a cell for the die (R373). -/
def State.turnOf (s : State) (d dest : Nat) : Option Nat :=
  let ptr := Store.get 0 (s.die d).turn dest
  ((List.range 25).map fun k => (ptr + k) % 25).find? fun i => (takeFor dest (s.fifo d i)).isSome

/-- The cells on their way from a die to a die. -/
def State.onWay (s : State) (a b : Nat) : List Cell := Store.get [] s.cells (8 * a + b)
def State.setWay (s : State) (a b : Nat) (l : List Cell) : State := { s with cells := Store.put [] s.cells (8 * a + b) l }

/-- CELL_SEND: the local path or a link's cell channel takes one cell (R373, R38, R376). -/
def execCellSend (d dest : Nat) (s : State) : Out :=
  if !s.hasDie d || !s.hasDie dest then .fault .absentDie
  else if !s.txUp d dest || (d != dest && !s.inRun d B.MESH dest) then .next s
  else
    match s.turnOf d dest with
    | none => .next s
    | some i =>
      match takeFor dest (s.fifo d i) with
      | none => .next s
      | some (c, rest) =>
        let s1 := (s.setFifo d i rest).setWay d dest (s.onWay d dest ++ [c])
        let s2 := s1.setDie d { s1.die d with turn := Store.put 0 (s1.die d).turn dest ((i + 1) % 25) }
        let s3 := if d = dest then s2
          else (s2.addWrap F.MESH.CELLS_TX_COUNT d dest 1).perfEvent d 0x18 dest 1
        let s4 := if c.first && c.frame.follows (lowestPort s.part c.frame.ports) &&
            decide (lowestPort s.part c.frame.ports / 24 = dest) then
            s3.tagTell d c.frame 5 (tagItemOf 0xFF 0 (if d = dest then 0 else 4)) false false
          else s3
        .next s4

end Sys2Proof.Machine
end

