-- ==== Sys2Proof/Machine/Queue.lean ====
section
/-!
DEFINITION. The output side of the switch core: pools and admission, delivery to engines and rings, scheduling, ageing,
cut-through, egress changes and transmission (R377 to R397, R501).
-/
namespace Sys2Proof.Machine

/-! ## Pools and charges (R378, R381) -/

/-- MIN in force of a queue, where it is enabled; and whether it is. -/
def State.queueOn (s : State) (d lp q : Nat) : Bool := bitSet (s.rfF F.QUE.QEN_EN d lp) q
def State.queueMin (s : State) (d lp q : Nat) : Nat := s.rfF (F.QUE.QS_MIN q) d lp

/-- The reserves of one port's enabled queues. -/
def State.portMin (s : State) (d lp : Nat) : Nat :=
  ((List.range 16).map fun q => if s.queueOn d lp q then s.queueMin d lp q else 0).foldl (· + ·) 0

/-- RSV_TOTAL (R378). -/
def State.rsvTotal (s : State) (d : Nat) : Nat :=
  ((List.range 24).map fun lp => if s.active d B.QUE lp then s.portMin d lp else 0).foldl (· + ·) 0

/-- What a port takes from the shared pool. -/
def State.portShared (s : State) (d lp : Nat) : Nat :=
  ((List.range 16).map fun q => s.queueOcc d lp q - s.queueMin d lp q).foldl (· + ·) 0

/-- POOL of every instance of the die follows (R378). -/
def State.poolShow (s : State) (d : Nat) : State :=
  let rsv := s.rsvTotal d
  let used := ((List.range 24).map fun lp => s.portShared d lp).foldl (· + ·) 0
  (List.range 24).foldl (fun s lp =>
    (s.wf F.QUE.POOL_RSV_TOTAL d lp rsv).wf F.QUE.POOL_SHARED_FREE d lp (31744 - rsv - used)) s

/-- The occupancy of a queue and its port moved from `old` to `new` cells. -/
def State.charge (s : State) (d lp q old new : Nat) : State :=
  let w := s.rf (F.QUE.OCC_OCC (q / 4)) d lp
  let lo := 16 * (q % 4)
  let o := bitsOf w lo 16
  let o1 := o + new - old
  let s1 := s.wf (F.QUE.OCC_OCC (q / 4)) d lp (w - o * 2 ^ lo + o1 % 2 ^ 16 * 2 ^ lo)
  (s1.wf F.QUE.STATUS_PORT_OCC d lp (s1.rf F.QUE.STATUS_PORT_OCC d lp + new - old)).poolShow d

/-- A copy's charge released. -/
def State.release (s : State) (p : Nat) (c : Copy) : State := s.charge (p / 24) (p % 24) c.queue c.charge 0

/-! ## Queues -/

/-- The copies of a queue, oldest first. -/
def State.queue (s : State) (p q : Nat) : List Copy := Store.get [] (s.port p).queues q

/-- The serial number of the frame at the head of a queue. -/
def headId (l : List Copy) : Option Nat := l.head?.map fun c => c.frame.id

/-- A queue replaced: a followed copy that comes to its head is at stage 9 (R451). -/
def State.setQueue (s : State) (p q : Nat) (l : List Copy) : State :=
  let s1 := s.setPort p { s.port p with queues := Store.put [] (s.port p).queues q l }
  match l.head? with
  | some c =>
    if c.frame.follows p && headId (s.queue p q) != headId l then
      s1.tagTell (p / 24) c.frame 9 (tagItemOf p q (if c.cut then 2 else 0)) false false
    else s1
  | none => s1

/-- FRAME_LIM of a port. -/
def State.frameLim (s : State) (p : Nat) : Nat := s.rf F.QUE.STATUS_FRAME_LIM (p / 24) (p % 24)

/-- head_len: FRAME_LIM for a cut-through copy, else the stored length (R388). -/
def State.headLen (s : State) (p : Nat) (c : Copy) : Nat := if c.cut then s.frameLim p else c.frame.len

/-- QUE in RUN or STOPPING. -/
def State.queActive (s : State) (p : Nat) : Bool := s.active (p / 24) B.QUE (p % 24)

/-- The transmitter may begin a frame: link up, awake, and no lane of the port sending a pattern in its place (R202, R206,
R387). -/
def State.txReady (s : State) (p : Nat) : Bool :=
  s.pcsRun p && (s.lanesOf p).all (fun l => s.rfF F.LANE.TEST_TX_PAT (l / 24) (l % 24) == 0) && s.portUp p &&
    !s.flag F.LANE.SLEEP_TX_ASLEEP (p / 24) (p % 24) && !(Store.get {} s.lanes p).waking

/-- Queue `q` is eligible with a head frame of the given length (R387). -/
def State.eligible (s : State) (p q len : Nat) : Bool :=
  s.queueOn (p / 24) (p % 24) q && s.txReady p && bitSet (s.gatesOpen p) q && s.gateFits p q len && s.queActive p

/-- The head length of each queue that is not empty, as the scheduler sees it. -/
def State.heads (s : State) (p q : Nat) : Option Nat := (s.queue p q).head?.map (s.headLen p)

/-- The scheduler's place: deficits, pointer and fresh (R388). -/
structure Dwrr where
  deficit : Store Nat
  ptr : Nat
  fresh : Bool
  deriving DecidableEq, Repr

/-- The deficit weighted round robin of R388 with at most `n` moves; `head` gives the head lengths. -/
def State.dwrr (s : State) (p : Nat) (head : Nat → Option Nat) : Nat → Dwrr → Option Nat × Dwrr
  | 0, w => (none, w)
  | n + 1, w =>
    let q := w.ptr
    let on := (q + 1) % 12
    match head q with
    | none => s.dwrr p head n { deficit := Store.put 0 w.deficit q 0, ptr := on, fresh := true }
    | some len =>
      if !s.eligible p q len then s.dwrr p head n { w with ptr := on, fresh := true }
      else
        let have_ := Store.get 0 w.deficit q +
          (if w.fresh then s.rfF (F.QUE.QS_QUANTUM q) (p / 24) (p % 24) else 0)
        if len ≤ have_ then
          (some q, { deficit := Store.put 0 w.deficit q (have_ - len), ptr := q, fresh := false })
        else s.dwrr p head n { deficit := Store.put 0 w.deficit q have_, ptr := on, fresh := true }

/-- The queue that R388 chooses, with the scheduler's place after it. -/
def State.choose (s : State) (p : Nat) (head : Nat → Option Nat) : Option Nat × Dwrr :=
  let x := s.port p
  let w : Dwrr := ⟨x.deficit, x.ptr, x.fresh⟩
  match [15, 14, 13, 12].find? fun q => match head q with
    | some len => s.eligible p q len
    | none => false with
  | some q => (some q, w)
  | none => s.dwrr p head 13 w

/-! ## Drops -/

/-- The frames-dropped counter of a copy's queue. -/
def State.queueDrop (s : State) (p q : Nat) : State := s.portCount p (queueDropped q) 1

/-- A copy counts as an admission drop (R152, R379, R381). -/
def State.admCount (s : State) (p q : Nat) : State :=
  let d := p / 24
  let i := p % 24
  ((((s.queueDrop p q).portCount p 9 1).perfEvent d 0x05 i 1).setFlag F.QUE.ERR_ADM_DROP_SEEN d i).raise d B.QUE i 0

/-- A copy dropped at admission (R152, R379): `bad` says that its only cell carries a bad verdict. -/
def State.admDrop (s : State) (p q : Nat) (m : FrameMeta) (cut bad : Bool) (l : List Byte) : State :=
  let d := p / 24
  let s2 := (s.admCount p q).tsDrop p m
  let s3 := s2.mirrDrop p q m .admission cut bad l
  if m.follows p then s3.tagTell d m 7 (tagItemOf p q 0) false true else s3

/-- A copy discarded for its age (R393). -/
def State.ageDrop (s : State) (p : Nat) (c : Copy) : State :=
  let d := p / 24
  let i := p % 24
  let s1 := (((s.release p c).queueDrop p c.queue).portCount p 10 1).perfEvent d 0x06 i 1
  let s2 := ((s1.setFlag F.QUE.ERR_AGE_DROP_SEEN d i).raise d B.QUE i 1).tsDrop p c.frame
  let s3 := s2.mirrDrop p c.queue c.frame .ageing c.cut c.bad c.bytes
  if c.frame.follows p then s3.tagTell d c.frame 12 (tagItemOf p c.queue 0) false true else s3

/-- A copy discarded without a counter of its own (R395, drain limits). -/
def State.plainDrop (s : State) (p : Nat) (c : Copy) : State :=
  let s1 := (s.release p c).tsDrop p c.frame
  if c.frame.follows p then s1.tagTell (p / 24) c.frame 12 (tagItemOf p c.queue 0) false true else s1

/-! ## Admission (R379 to R385) -/

/-- Twice the ALPHA of a queue times SHARED_FREE bounds twice what it may hold beyond its reserve (R379, codes 2^(c−4)). -/
def alphaAllows (code free ovr : Nat) : Bool := decide (ovr * 16 ≤ 2 ^ code * free)

/-- The admission rule (R379) for a copy of charge `n`; `len` is `none` for a cut-through copy. -/
def State.admits (s : State) (p q n : Nat) (len : Option Nat) : Bool :=
  let d := p / 24
  let i := p % 24
  let Q := s.queueOcc d i q
  let min_ := s.queueMin d i q
  let free := s.rf F.QUE.POOL_SHARED_FREE d i
  let tooLong := match len with
    | some l => decide (s.frameLim p < l)
    | none => false
  if !s.inRun d B.QUE i || !s.queueOn d i q || tooLong then false
  else if s.rfF F.QUE.PMAX_PMAX d i < s.rf F.QUE.STATUS_PORT_OCC d i + n then false
  else if Q + n ≤ min_ then true
  else decide (Q + n - max Q min_ ≤ free) && alphaAllows (s.rf (F.QUE.QL_ALPHA q) d i) free (Q + n - min_)

/-- The queue of a copy for a port (R385). -/
def State.queueFor (s : State) (p : Nat) (m : FrameMeta) : Nat :=
  match m.queue with
  | some q => q
  | none => bitsOf (s.rf F.QUE.PCP_MAP_MAP (p / 24) (p % 24)) (4 * m.prio) 4

/-- The conditions of R394 but for the scheduler's choice. -/
def State.cutCan (s : State) (p q : Nat) (m : FrameMeta) : Bool :=
  let fromPort := match m.src with
    | .port _ => true
    | _ => false
  s.rfF F.QUE.CFG_CT (p / 24) (p % 24) == 1 && fromPort && decide (s.lineRate p ≤ m.rate) && (s.queue p q).isEmpty &&
    (s.port p).tx == none && (s.port p).next == none

/-- The port would begin this copy at once (R394): R388 chooses its queue. -/
def State.cutNow (s : State) (p q : Nat) (m : FrameMeta) : Bool :=
  s.cutCan p q m && (s.choose p fun k => if k = q then some (s.frameLim p) else s.heads p k).1 == some q

/-- A copy's first cell is judged for its queue: admitted, it is charged, and a cut-through copy is queued at once. The
answer holds the copy that waits for its last cell. -/
def State.admitCopy (s : State) (p : Nat) (m : FrameMeta) (mark : Option PrpMark) (l : List Byte) (bad : Bool) :
    State × Option Copy :=
  let d := p / 24
  let q := s.queueFor p m
  let cut := s.cutNow p q m
  let n := cellsOf (if cut then s.frameLim p else m.len)
  let flags := if cut then 2 else 0
  let s0 := if m.follows p then s.tagTell d m 6 (tagItemOf p q flags) false false else s
  if !s0.admits p q n (if cut then none else some m.len) then (s0.admDrop p q m cut bad l, none)
  else
    let c : Copy := { frame := m, port := p, queue := q, charge := n, prp := mark, cut := cut, bytes := l }
    let s1 := s0.charge d (p % 24) q 0 n
    let s2 := if m.follows p then s1.tagTell d m 7 (tagItemOf p q flags) false false else s1
    if cut then
      let s3 := if m.follows p then s2.tagTell d m 8 (tagItemOf p q flags) false false else s2
      let s4 := s3.setQueue p q [c]
      ((s4.setPort p { s4.port p with next := some q }).frameWake p, none)
    else (s2, some c)

/-- The copies that a frame's first cell asks for on a die, in ascending order of local port (R382, R405, R407): each port
with what PRP adds. -/
def State.targets (s : State) (d : Nat) (m : FrameMeta) (l : List Byte) : State × List (Nat × Option PrpMark) :=
  let named := m.queue.isSome || m.hsr.isSome
  let one (acc : State × List (Nat × Option PrpMark)) (i : Nat) : State × List (Nat × Option PrpMark) :=
    let p := 24 * d + i
    if !bitSet m.ports p then acc
    else
      match acc.1.prpOf d i with
      | some (k, false) =>
        if named || acc.1.prpExempt d k p l then (acc.1, acc.2 ++ [(p, none)])
        else
          let n := acc.1.prpNumber d k
          let s1 := n.2.prpProxy d k (srcMac l)
          (s1, acc.2 ++ [(p, some ⟨k, n.1, false⟩), (24 * d + s1.prpB d k, some ⟨k, n.1, true⟩)])
      | _ => (acc.1, acc.2 ++ [(p, none)])
  let r := (List.range 24).foldl one (s, [])
  (r.1, (List.range 24).flatMap fun i => r.2.filter fun t => t.1 == 24 * d + i)

/-- Copies for engines, admitted while the host pool has room (R378). -/
def State.admitEngines (s : State) (d : Nat) (m : FrameMeta) : State × List Nat :=
  let n := cellsOf m.len
  let one (acc : State × List Nat) (k : Nat) : State × List Nat :=
    let e := 4 * d + k
    if !bitSet m.engines e then acc
    else if acc.1.hostUsed d + n * acc.2.length + n ≤ 1024 then (acc.1, acc.2 ++ [e])
    else
      let g := acc.1.eng e
      ((acc.1.setEng e { g with rxDrops := (g.rxDrops + 1) % 2 ^ 64 }).perfEvent d 0x22 k 1, acc.2)
  [0, 1, 2, 3].foldl one (s, [])

/-- The copy for a host ring, admitted while the ring takes it and the host pool has room (R151, R378). -/
def State.admitRing (s : State) (d : Nat) (m : FrameMeta) (engines : List Nat) : State × Option (Nat × Nat) :=
  match m.ring with
  | some (h, k) =>
    if Config.hostDie s.part h ≠ d then (s, none)
    else if s.ringTakes h k ∧ s.hostUsed d + cellsOf m.len * (engines.length + 1) ≤ 1024 then (s, some (h, k))
    else (s.ringDrop h k, none)
  | none => (s, none)

/-- A frame's first cell reaches its output die (R374, R379, R384). -/
def State.firstCell (s : State) (d : Nat) (c : Cell) : State :=
  let m := c.frame
  let t := s.targets d m c.data
  let one (acc : State × List Copy) (x : Nat × Option PrpMark) : State × List Copy :=
    let r := acc.1.admitCopy x.1 m x.2 c.data (c.last && c.bad)
    (r.1, acc.2 ++ r.2.toList)
  let a := t.2.foldl one (t.1, [])
  let e := a.1.admitEngines d m
  let r := e.1.admitRing d m e.2
  let o : OutFrame := { frame := m, bytes := c.data, copies := a.2, engines := e.2, ring := r.2 }
  r.1.setDie d { r.1.die d with frames := (r.1.die d).frames ++ [o] }

/-! ## Cells of a frame on its output die -/

/-- A cut-through copy of the frame, with what arrives of it. -/
def Copy.grow (c : Copy) (id : Nat) (l : List Byte) (last bad : Bool) : Copy :=
  if c.cut ∧ c.frame.id = id ∧ !c.whole then { c with bytes := c.bytes ++ l, whole := last, bad := bad } else c

/-- The last cell's true charge, or the end at FRAME_LIM, of a cut-through copy (R381): the copy, and whether it has grown
too long. -/
def Copy.tooLong (c : Copy) (lim : Nat) : Bool := c.cut && !c.ended && decide (lim < c.bytes.length)

/-- A port's cut-through copy of the frame takes a further cell (R381, R395). -/
def State.growPort (s : State) (p id : Nat) (l : List Byte) (last bad : Bool) : State :=
  let x := s.port p
  let lim := s.frameLim p
  match x.tx with
  | some t =>
    if t.copy.cut ∧ t.copy.frame.id = id ∧ !t.copy.ended then
      let c := t.copy.grow id l last bad
      if c.tooLong lim then
        let c1 := { c with bytes := c.bytes.take lim, ended := true, bad := true, whole := true }
        let s1 := s.setPort p { x with tx := some { t with copy := c1 } }
        s1.admCount p c.queue
      else
        let n := cellsOf c.bytes.length
        let s1 := s.setPort p { x with tx := some { t with copy := if last then { c with charge := n } else c } }
        if last then s1.charge (p / 24) (p % 24) c.queue c.charge n else s1
    else s
  | none => s

/-- A cut-through copy still in its queue takes a further cell (R381, R395). -/
def State.growQueue (s : State) (p q id : Nat) (l : List Byte) (last bad : Bool) : State :=
  let mine (c : Copy) : Bool := c.cut && c.frame.id == id && !c.whole
  match (s.queue p q).find? mine with
  | none => s
  | some c0 =>
    let c := c0.grow id l last bad
    let rest := (s.queue p q).filter fun x => !mine x
    let gone (s : State) : State :=
      let s1 := s.setQueue p q rest
      if (s1.port p).next = some q then s1.setPort p { s1.port p with next := none } else s1
    if c.tooLong (s.frameLim p) then
      ((gone s).plainDrop p c).admCount p q
    else if last && bad then (gone s).plainDrop p c
    else
      let n := cellsOf c.bytes.length
      let c1 := if last then { c with charge := n } else c
      let s1 := s.setQueue p q ((s.queue p q).map fun x => if mine x then c1 else x)
      if last then s1.charge (p / 24) (p % 24) q c.charge n else s1

/-- A stored copy is queued once its last cell is there (R394), or discarded on a bad verdict (R395). -/
def State.enqueue (s : State) (c : Copy) (l : List Byte) (bad : Bool) : State :=
  if bad then s.plainDrop c.port c
  else
    let s1 := if c.frame.follows c.port then
        s.tagTell (c.port / 24) c.frame 8 (tagItemOf c.port c.queue 0) false false else s
    (s1.setQueue c.port c.queue (s1.queue c.port c.queue ++ [{ c with bytes := l, whole := true }])).frameWake c.port

/-- The receive header's source and the frame for an engine or a ring (R124). DESIGN CHOICE (log entry 87): a frame that came from
no port is never timing-grade, and one of a host ring is stamped and marked as one of an engine is. -/
def rxFrameOf (m : FrameMeta) (l : List Byte) (bad : Bool) (now : Nat) : RxFrame :=
  match m.src with
  | .port p => { time := (m.time.getD 0).toNat, ingress := p, tg := m.tg, fcsBad := bad, bytes := l }
  | _ => { time := now, ingress := 0xFFFF, tg := false, fcsBad := bad, bytes := l }

/-- A frame is whole, or has ended as bad, on its output die. -/
def State.frameDone (s : State) (d : Nat) (o : OutFrame) (bad : Bool) : State :=
  let s1 := o.copies.foldl (fun s c => s.enqueue c o.bytes bad) s
  let f := rxFrameOf o.frame o.bytes bad (xtOfUnits (s.now d)).toNat
  let s2 := o.engines.foldl (fun s e => s.rxDeliver e f) s1
  match o.ring with
  | some (h, k) => s2.ringOffer h k f
  | none => s2

/-- A further cell of a frame: every copy takes it; the last one ends the frame (R395). -/
def State.nextCell (s : State) (d : Nat) (id : Nat) (l : List Byte) (last bad : Bool) : State :=
  let x := s.die d
  match x.frames.find? fun o => o.frame.id == id with
  | none => s
  | some o =>
    let o1 := { o with bytes := o.bytes ++ l }
    let rest := x.frames.filter fun o => o.frame.id != id
    let s1 := s.setDie d { x with frames := if last then rest else rest ++ [o1] }
    let port (s : State) (i : Nat) : State :=
      (List.range 16).foldl (fun s q => s.growQueue (24 * d + i) q id l last bad) (s.growPort (24 * d + i) id l last bad)
    let s2 := (List.range 24).foldl port s1
    if last then s2.frameDone d o1 bad else s2

/-- CELL_ARRIVE: the oldest cell on its way from a die reaches the output die's buffer (R374); a header that fails its CRC
loses the cell, and the frame ends as bad (R39, R401). -/
def execCellArrive (d src : Nat) (hdrOk : Bool) (s : State) : Out :=
  if !s.hasDie d || !s.hasDie src then .fault .absentDie
  else
    match s.onWay src d with
    | [] => .next s
    | c :: r =>
      let s1 := s.setWay src d r
      if d ≠ src ∧ !hdrOk then
        let s2 := (s1.addSat F.MESH.HDR_DROP_COUNT d src 1).setFlag F.MESH.ERR_HDR_CRC_SEEN d src
        let mine := c.first && c.frame.follows (lowestPort s.part c.frame.ports)
        .next ((if mine then s2.frameLost d c.frame else s2).nextCell d c.frame.id [] true true)
      else
        let s2 := if d = src then s1 else s1.addWrap F.MESH.CELLS_RX_COUNT d src 1
        if c.first then
          let s3 := s2.firstCell d c
          .next (if c.last then s3.nextCell d c.frame.id [] true c.bad else s3)
        else .next (s2.nextCell d c.frame.id c.data c.last c.bad)

/-! ## Transmission -/

/-- The copy comes from a port, and is not one that goes on round a ring unchanged. -/
def FrameMeta.edited (m : FrameMeta) : Bool :=
  match m.src with
  | .port _ => m.hsr.isNone
  | _ => false

/-- The frame's VLAN at egress: NH_VID of a routed frame (R396 step 1). -/
def FrameMeta.egVlan (m : FrameMeta) : Nat :=
  match m.route with
  | some (_, v) => v
  | none => m.vlan

/-- The head of a copy after the changes of R396, in their order: `head` is the stored bytes at hand without FCS. -/
def State.egress (s : State) (p : Nat) (c : Copy) (head : List Byte) (time : Option XT) (tg : Bool) : State × List Byte :=
  let d := p / 24
  let i := p % 24
  let m := c.frame
  let l1 := match m.route with
    | some (mac, _) => if m.hsr.isNone then routeEdit head mac (s.rfF F.QUE.RMAC_MAC d i) else head
    | none => head
  let l2 := if m.edited then
      tagEdit l1 (s.rfF F.QUE.CFG_EG_TAG d i) (s.rfF F.QUE.CFG_UNTAG_VID d i) m.egVlan m.prio
    else l1
  let r := if m.edited then s.correct p m l2 time tg else (s, l2)
  match c.prp with
  | some k =>
    if s.hsrMode d k.inst then
      let o := 12 + vlanLen r.2
      let body := m.len - 4 + r.2.length - head.length
      (r.1, r.2.take o ++ hsrBytes k.seq k.onB r.2 body ++ r.2.drop o)
    else r
  | none => r

/-- Zero bytes up to 64 with FCS, for a copy that step 2 shortened below that (R396 step 4). -/
def padTo60 (shortened : Bool) (body : List Byte) : List Byte :=
  if shortened ∧ body.length < 60 then body ++ List.replicate (60 - body.length) 0 else body

/-- The body that leaves: the changed head, the rest of the stored frame, padding, and the trailer of a PRP copy. -/
def State.txBody (s : State) (p : Nat) (t : TxCur) (stored : List Byte) : List Byte :=
  let rest := stored.drop t.taken
  let body := padTo60 (decide (t.head.length < t.taken)) (t.head ++ rest)
  match t.copy.prp with
  | some k => if s.hsrMode (p / 24) k.inst then body else body ++ rctBytes k.seq k.onB body
  | none => body

/-- The head copy of a chosen queue is older than AGE (R393): ages are counted on package ticks, 625 to the microsecond. -/
def State.tooOld (s : State) (p : Nat) (c : Copy) : Bool :=
  let age := (s.pkgTick (p / 24) + 2 ^ 64 - c.frame.strobe) % 2 ^ 64
  let lim := s.rf (F.QUE.QL_AGE c.queue) (p / 24) (p % 24)
  lim != 0 && decide (lim * 625 < age)

/-- A routed copy with a hop limit of 0 or 1 (R396). -/
def Copy.spent (c : Copy) : Bool :=
  c.frame.route.isSome && c.frame.hsr.isNone && (match hopLimit c.bytes with
    | some (_, ttl, _) => decide (ttl ≤ 1)
    | none => false)

/-- The frame that leaves, with its FCS: derived from the stored frame's, computed for an injected one (R121), stomped
for a bad or overlong one (R395, R397). -/
def State.txFrame (s : State) (p : Nat) (t : TxCur) : List Byte × State :=
  match t.fin with
  | some l => (l, s)
  | none =>
    let c := t.copy
    let stored := if c.ended then c.bytes else bodyOf c.bytes
    let body := s.txBody p t stored
    if c.bad then (stomp body, s)
    else s.carryFcs c.bytes body t.moved

/-- A copy begins on the port (R245, R251, R256, R396, R398, R453). The head that the changes see never holds a byte of the
FCS (R397). The mirror takes its record of a stored copy now, and that of a cut-through copy when it ends (DESIGN CHOICE, log
entry 103). -/
def State.txBegin (s : State) (p : Nat) (c : Copy) (k : Strobe) : State :=
  let d := p / 24
  let i := p % 24
  let run := s.tsuRun p
  let time := if run then some (s.txStamp p k) else none
  let tg := run && s.stampTg p
  let head := if c.whole then bodyOf c.bytes else c.bytes.take (c.frame.len - 4)
  let e := s.egress p c head time tg
  let t0 : TxCur := { copy := c, time := time, tg := tg, head := e.2, taken := head.length,
                      moved := e.2.length != head.length || c.prp.isSome }
  let x := e.1.txFrame p t0
  let t := if c.whole then { t0 with fin := some x.1 } else t0
  let s0 := if c.whole then x.2 else e.1
  let len := (s0.txBody p t (head ++ List.replicate (c.frame.len - 4 - head.length) 0)).length + 4
  let s1 := (s0.setPort p { s0.port p with tx := some t, next := none }).bwAdd d i true len
  let s2 := match c.frame.tsId with
    | some id => (if tg then s1.linkGraded p true (time.getD 0) else s1).tsPush p id (time.getD 0) tg false
    | none => s1
  let s3 := match c.frame.time, time with
    | some a, some b => s2.histFeed d 1 i (residence a b)
    | _, _ => s2
  let s4 := if c.whole then s3.mirrTx p t c.bad x.1 else s3
  if c.frame.follows p then
    let u := tagItemOf p c.queue (if c.cut then 2 else 0)
    (s4.tagTell d c.frame 10 u false false).tagTell d c.frame 11 u true false
  else s4

/-- The scheduler chooses until it finds a copy to begin: aged and spent copies are discarded and use no deficit (R388,
R393, R396). -/
def State.txChoose (s : State) (p : Nat) (k : Strobe) : Nat → State
  | 0 => s
  | n + 1 =>
    let r := s.choose p (s.heads p)
    match r.1 with
    | none =>
      let w := r.2
      s.setPort p { s.port p with deficit := w.deficit, ptr := w.ptr, fresh := w.fresh, next := none }
    | some q =>
      match s.queue p q with
      | [] => s
      | c :: rest =>
        let s1 := s.setQueue p q rest
        if s.tooOld p c then (s1.ageDrop p c).txChoose p k n
        else if c.spent then ((s1.plainDrop p c).queueDrop p q).txChoose p k n
        else
          let w := r.2
          (s1.setPort p { s1.port p with deficit := w.deficit, ptr := w.ptr, fresh := w.fresh }).txBegin p c k

/-- FRAME_TRANSMIT_START: a transmission opportunity (R387, R388). -/
def execFrameTransmitStart (p : Nat) (k : Strobe) (s : State) : Out :=
  onPort p s fun s =>
    if (s.port p).tx.isSome || !s.portExists p then s
    else s.txChoose p k (((s.port p).queues.map fun q => q.2.length).foldl (· + ·) 0 + 1)

/-- FRAME_TRANSMIT_END: the copy in transmission ends once all of it is there (R152, R378, R395). -/
def execFrameTransmitEnd (p : Nat) (s : State) : Out :=
  onPort p s fun s =>
    match (s.port p).tx with
    | none => s
    | some t =>
      if !t.copy.whole then s
      else
        let d := p / 24
        let i := p % 24
        let f := s.txFrame p t
        let n := f.1.length
        let s0 := if t.fin.isSome then f.2 else f.2.mirrTx p t t.copy.bad f.1
        let s1 := (s0.setPort p { s0.port p with tx := none, sent := f.1, errEnd := false }).release p t.copy
        let s2 := ((s1.portCount p 4 1).portCount p 5 n).portCount p (queueSent t.copy.queue) 1
        let s3 := if t.copy.bad then s2.portCount p 6 1 else s2
        let s4 := (s3.perfEvent d 0x03 i 1).perfEvent d 0x04 i (n + 20)
        s4.setLane p { s4.lane p with idleFrom := s4.tick d }

/-- The frame in transmission is ended with an error block (R84, R81): what of it is there has been sent, without FCS. It is
counted as TX stomped, the port record's count of frames ended as bad (DESIGN CHOICE, log entry 79). -/
def State.txCutOff (s : State) (p : Nat) : State :=
  match (s.port p).tx with
  | some t =>
    let body := s.txBody p t (if t.copy.whole && !t.copy.ended then bodyOf t.copy.bytes else t.copy.bytes)
    let s1 := if t.fin.isSome then s else s.mirrTx p t true body
    (((s1.setPort p { s1.port p with tx := none, sent := body, errEnd := true }).release p t.copy).portCount p 6 1)
  | none => s

/-- STOPPED_PORT_DISCARD: the head copy of an enabled queue is discarded while the PCS is in STOPPED or FAULT (R501). -/
def execStoppedPortDiscard (p q : Nat) (s : State) : Out :=
  onPort p s fun s =>
    let d := p / 24
    let st := s.run d B.PCS (p % 24)
    match s.queue p q with
    | [] => s
    | c :: rest =>
      if (st = 0 ∨ st = 3) ∧ s.queueOn d (p % 24) q then
        let s1 := (s.setQueue p q rest).plainDrop p c
        let s2 := s1.queueDrop p q
        let s3 := if (s2.port p).next = some q then s2.setPort p { s2.port p with next := none } else s2
        s3.mirrDrop p q c.frame .stopped c.cut c.bad c.bytes
      else s

/-! ## Run states of QUE (R380, R383) -/

/-- ⌈MAX_FRAME / 256⌉ twice, for a port. -/
def State.twoFrames (s : State) (p : Nat) : Nat := 2 * cellsOf (s.rfF F.PCS.CFG_MAX_FRAME (p / 24) (p % 24))

/-- The start checks (R383). -/
def State.queStartErr (s : State) (d i : Nat) : Nat :=
  let p := 24 * d + i
  let qs := (List.range 16).filter fun q => bitSet (s.rf F.QUE.QEN_EN d i) q
  let sum := (qs.map fun q => s.rf (F.QUE.QS_MIN q) d i).foldl (· + ·) 0
  let pmax := s.rf F.QUE.PMAX_PMAX d i
  if qs.any fun q => s.rf (F.QUE.QS_MIN q) d i < s.twoFrames p then 0x10
  else if qs.any fun q => q < 12 && s.rf (F.QUE.QS_QUANTUM q) d i < 64 then 0x11
  else if pmax < sum ∨ 31744 < pmax then 0x12
  else if 31744 < sum + s.rsvTotal d then 0x13
  else if !s.portExists p then 0x14
  else if s.rf F.QUE.CFG_EG_TAG d i = 3 then 0x15
  else 0

/-- QUE enters RUN: FRAME_LIM is latched and the scheduler starts afresh (R380, R388). -/
def State.queStarted (s : State) (p : Nat) : State :=
  let s1 := s.wf F.QUE.STATUS_FRAME_LIM (p / 24) (p % 24) (s.rfF F.PCS.CFG_MAX_FRAME (p / 24) (p % 24))
  (s1.setPort p { s1.port p with deficit := [], ptr := 0, fresh := true }).poolShow (p / 24)

/-- A PCS that starts with another MAX_FRAME while its QUE runs (R380). -/
def State.maxfCheck (s : State) (p : Nat) : State :=
  if s.inRun (p / 24) B.QUE (p % 24) ∧ s.rfF F.PCS.CFG_MAX_FRAME (p / 24) (p % 24) ≠ s.frameLim p then
    (s.setFlag F.QUE.ERR_MAXF_STALE (p / 24) (p % 24)).raise (p / 24) B.QUE (p % 24) 2
  else s

/-- The drain of QUE is complete: its queues are empty and nothing of them is in transmission (R84). -/
def State.queDrained (s : State) (p : Nat) : Bool :=
  s.queuesEmpty p && !((s.die (p / 24)).frames.any fun o => o.copies.any fun c => c.port == p)

/-- At the drain limit, or in FAULT, the remaining frames are discarded and counted: nothing more is transmitted, so the
frame in transmission is ended as at a PCS's limit (R84; DESIGN CHOICE, log entry 79). -/
def State.queFlush (s0 : State) (p : Nat) : State :=
  let s := match (s0.port p).tx with
    | some t => (s0.txCutOff p).queueDrop p t.copy.queue
    | none => s0
  let one (s : State) (c : Copy) : State := (s.plainDrop p c).queueDrop p c.queue
  let all := (List.range 16).flatMap fun q => s.queue p q
  let s1 := all.foldl one (s.setPort p { s.port p with queues := [], next := none })
  let d := p / 24
  let waiting := (s1.die d).frames.flatMap fun o => o.copies.filter fun c => c.port == p
  let s2 := waiting.foldl one s1
  s2.setDie d { s2.die d with frames := (s2.die d).frames.map fun o => { o with copies := o.copies.filter fun c => c.port != p } }

end Sys2Proof.Machine
end

