-- ==== Sys2Proof/Machine/Own.lean ====
section
/-!
DEFINITION. Ownership of instances and the policy between partitions (R65 to R72, R76): SYS.OWN_CMD and SYS.POLICY on D0,
and each die's copies.
-/
namespace Sys2Proof.Machine

/-- The six blocks of a port group (R68). -/
def groupBlocks : List Nat := [B.LANE, B.PCS, B.TSU, B.LINK, B.QUE, B.GATE]

/-- The instances that a command's BLOCK and INSTANCE name: one, or those of the port group 0xFF. -/
def ownInsts (blk inst : Nat) : List (Nat × Nat) := if blk = 0xFF then groupBlocks.map fun b => (b, inst) else [(blk, inst)]

/-- What the command names exists (R70 check 2). -/
def State.ownHas (s : State) (die blk inst : Nat) : Bool := (ownInsts blk inst).all fun x => s.has die x.1 x.2

/-- The instance may be given to the partition (R70 check 3; R65, R68, R135). -/
def State.mayGive (s : State) (die blk inst part : Nat) : Bool :=
  if blk = 0xFF then true
  else if groupBlocks.contains blk then false
  else if part = 0 then true
  else if blk = B.ENG ∨ blk = B.PRP ∨ blk = B.HIST then true
  else if blk = B.HOST then Config.dieHost s.part die == some part
  else blk == B.EVT && decide (inst < 6)

/-- An engine is held by a loader (R141). -/
def State.loaderHolds (s : State) (e : Nat) : Bool :=
  (List.range 4).any fun h => match (s.host h).load with
    | some l => l.phase == .writing && l.targets.any (fun t => t.1 == e)
    | none => false

/-- An instance is held for a change of owner (R71). -/
def State.ownHeld (s : State) (die blk inst : Nat) : Bool :=
  s.own.holds.any fun h => h.die == die && (ownInsts h.blk h.inst).contains (blk, inst)

/-- Check 5 of R70, made on the target die. -/
def State.ownStopped (s : State) (die blk inst : Nat) : Bool :=
  ((ownInsts blk inst).all fun x => s.run die x.1 x.2 == 0) && !(blk == B.ENG && s.loaderHolds (4 * die + inst))

/-- A SYS.OWN_CMD ends with a status. -/
def State.ownEnd (s : State) (status : Nat) : State :=
  (({ s with own := { s.own with phase := .idle } }.wf F.SYS.OWN_CMD_STATUS 0 0 status).putFlag F.SYS.OWN_CMD_BUSY 0 0
    false)

/-- D0's map of an instance, or of a port group by its PCS. -/
def State.ownOf (s : State) (die blk inst : Nat) : Nat :=
  Store.get 0 s.own.map (instKey die (if blk = 0xFF then B.PCS else blk) inst)

/-- The checks of R70 made on D0: 0 where the command goes to its target. -/
def State.ownCheck (s : State) (die blk inst part : Nat) : Nat :=
  if Config.nHosts s.part ≤ part then 4
  else if !s.ownHas die blk inst then 3
  else if !s.mayGive die blk inst part then 2
  else if !s.linkUp 0 die then 5
  else 0

/-- A SET (R70, R71). -/
def State.ownSet (s : State) (die blk inst part : Nat) : State :=
  match s.ownCheck die blk inst part with
  | 0 => { s with own := { s.own with phase := .sent die blk inst part } }.post 0 die (.ownHold blk inst part)
  | c => s.ownEnd c

/-- A QUERY (R70). -/
def State.ownQuery (s : State) (die blk inst : Nat) : State :=
  if s.ownHas die blk inst then (s.wf F.SYS.OWN_CMD_PART 0 0 (s.ownOf die blk inst)).ownEnd 0 else s.ownEnd 3

/-- A write of SYS.OWN_CMD: without effect while BUSY. -/
def State.wrOwnCmd (s : State) (data : Nat) : State :=
  if s.flag F.SYS.OWN_CMD_BUSY 0 0 then s
  else
    let die := bitsOf data 26 3
    let blk := bitsOf data 18 8
    let inst := bitsOf data 9 9
    let s1 := ((s.wf F.SYS.OWN_CMD_OP 0 0 (bitsOf data 29 2)).wf F.SYS.OWN_CMD_DIE 0 0 die).wf F.SYS.OWN_CMD_BLOCK 0 0 blk
    let s2 := (s1.wf F.SYS.OWN_CMD_INSTANCE 0 0 inst).wf F.SYS.OWN_CMD_PART 0 0 (bitsOf data 7 2)
    match bitsOf data 29 2 with
    | 1 => (s2.setFlag F.SYS.OWN_CMD_BUSY 0 0).ownSet die blk inst (bitsOf data 7 2)
    | 2 => (s2.setFlag F.SYS.OWN_CMD_BUSY 0 0).ownQuery die blk inst
    | _ => s2

/-- The word of a SYS.OWN_CMD. -/
def ownWord (op die blk inst part : Nat) : Nat :=
  op * 2 ^ 29 + (die % 8) * 2 ^ 26 + (blk % 256) * 2 ^ 18 + (inst % 512) * 2 ^ 9 + (part % 4) * 2 ^ 7

/-- OWN_CMD_SET. -/
def execOwnCmdSet (e die blk inst part : Nat) (s : State) : Out :=
  let w := ownWord 1 die blk inst part
  arriveWrite e (mkFa 0 B.SYS 0 0x10) 32 w s fun s => s.wrOwnCmd w

/-- OWN_CMD_QUERY. -/
def execOwnCmdQuery (e die blk inst : Nat) (s : State) : Out :=
  let w := ownWord 2 die blk inst 0
  arriveWrite e (mkFa 0 B.SYS 0 0x10) 32 w s fun s => s.wrOwnCmd w

/-! ## On the target die -/

def CtlBody.isOwnHold : CtlBody → Bool
  | .ownHold _ _ _ => true
  | _ => false

def CtlBody.isOwnReply : CtlBody → Bool
  | .ownReply _ => true
  | _ => false

def CtlBody.isOwnEntries : CtlBody → Bool
  | .ownEntries _ _ _ _ => true
  | _ => false

def CtlBody.isPolicy : CtlBody → Bool
  | .policy _ => true
  | _ => false

/-- The command reaches its target, which judges check 5 and holds the instances (R71). -/
def State.ownJudge (s : State) (d blk inst : Nat) : State :=
  if s.ownStopped d blk inst then
    let o := { s.own with holds := s.own.holds ++ [{ die := d, blk := blk, inst := inst }] }
    State.post { s with own := o } d 0 (.ownReply true)
  else s.post d 0 (.ownReply false)

/-- OWN_HOLD_REQUEST; a die that D0 has first to bring up to date takes nothing before that (R71). -/
def execOwnHoldRequest (d : Nat) (s : State) : Out :=
  onDie d s fun s =>
    if s.own.resync.contains d then s
    else
      match takeMsg (fun m => m.dst == d && m.body.isOwnHold) s.msgs with
      | some (⟨_, _, .ownHold blk inst _⟩, r) => { s with msgs := r }.ownJudge d blk inst
      | _ => s

/-! ## D0 again -/

/-- Entries written into a map. -/
def ownPut (m : Store Nat) (die blk inst part : Nat) : Store Nat :=
  (ownInsts blk inst).foldl (fun m x => Store.put 0 m (instKey die x.1 x.2) part) m

/-- The change is made in D0's map and its entries go to every present die (R71). -/
def State.ownSend (s : State) (die blk inst part : Nat) : State :=
  let all := List.range (Config.nDies s.part)
  let near := all.filter fun k => s.linkUp 0 k
  let o := { s.own with map := ownPut s.own.map die blk inst part, phase := .entries near (near.length != all.length) }
  near.foldl (fun s k => s.post 0 k (.ownEntries die blk inst part)) { s with own := o }

/-- OWN_HOLD_REPLY. -/
def execOwnHoldReply (s : State) : Out :=
  match takeMsg (fun m => m.dst == 0 && m.body.isOwnReply) s.msgs with
  | some (⟨_, _, .ownReply ok⟩, r) =>
    let s1 := { s with msgs := r }
    match s1.own.phase with
    | .sent die blk inst part => .next (if ok then s1.ownSend die blk inst part else s1.ownEnd 1)
    | _ => .next s1
  | _ => .next s

/-! ## Copies -/

/-- EN clears in every EVMAP entry of a die's engines that maps an instance whose owner changes (R76). -/
def State.evmapClear (s : State) (d : Nat) (changed : Nat → Bool) : State :=
  let hit (q : EvEntry) : Bool := q.en && changed (instKey q.die q.blk q.inst)
  (List.range 4).foldl (fun s k =>
    let g := s.eng (4 * d + k)
    let clear (m : Store EvEntry) : Store EvEntry :=
      (m.map fun p => if hit p.2 then (p.1, { p.2 with en := false }) else p).filter fun p => p.2 != {}
    s.setEng (4 * d + k) { g with evmap := clear g.evmap, evLive := clear g.evLive }) s

/-- HBAR.STATE.OWNED of the endpoint on a die follows its HOST instance's owner, with an interrupt (R135, R137). -/
def State.hostOwned (s : State) (d : Nat) : State :=
  match Config.dieHost s.part d with
  | some h =>
    let v := ofBool (s.owner d B.HOST 0 == h)
    if s.rf F.HBAR.STATE_OWNED h 0 = v then s else (s.wf F.HBAR.STATE_OWNED h 0 v).irq h F.HBAR.IRQ_STATE_CHG
  | none => s

/-- A die's copy replaced; its engines' EVMAP entries and its endpoint follow (R76, R135). -/
def State.ownCopy (s : State) (d : Nat) (m : Store Nat) : State :=
  let old := Store.get [] s.own.copies d
  let s1 := { s with own := { s.own with copies := Store.put [] s.own.copies d m } }
  (s1.evmapClear d fun k => Store.get 0 old k != Store.get 0 m k).hostOwned d

/-- The holds of a die on what a change names are released. -/
def State.ownRelease (s : State) (d blk inst : Nat) : State :=
  { s with own := { s.own with holds := s.own.holds.filter fun h => !(h.die == d && h.blk == blk && h.inst == inst) } }

/-- A die is no longer awaited. -/
def OwnPhase.drop (d : Nat) (missed : Bool) : OwnPhase → OwnPhase
  | .entries l m => .entries (l.filter (· != d)) (m || (missed && l.contains d))
  | p => p

/-- The changed entries reach a die. -/
def State.ownApply (s : State) (d die blk inst part : Nat) : State :=
  let s1 := s.ownCopy d (ownPut (Store.get [] s.own.copies d) die blk inst part)
  let s2 := if d = die then s1.ownRelease d blk inst else s1
  { s2 with own := { s2.own with phase := s2.own.phase.drop d false } }

/-- OWN_ENTRIES_APPLY. -/
def execOwnEntriesApply (d : Nat) (s : State) : Out :=
  onDie d s fun s =>
    if s.own.resync.contains d then s
    else
      match takeMsg (fun m => m.dst == d && m.body.isOwnEntries) s.msgs with
      | some (⟨_, _, .ownEntries die blk inst part⟩, r) => { s with msgs := r }.ownApply d die blk inst part
      | _ => s

/-- OWN_CMD_COMPLETE: every reachable die has acknowledged. -/
def execOwnCmdComplete (s : State) : Out :=
  match s.own.phase with
  | .entries [] missed => .next (s.ownEnd (if missed then 6 else 0))
  | _ => .next s

/-! ## Grants (R154) -/

/-- D0's grants reach endpoint `p`, where D0's link with its die is up (R154; log entry 82). -/
def State.grantCopy (s : State) (p : Nat) : State :=
  if Config.nHosts s.part ≤ p ∨ !s.linkUp 0 (Config.hostDie s.part p) then s
  else
    s.setHost p { s.host p with
      grants := s.rf (F.HOST.GRANT_HIST p) 0 0 * 2 ^ 16 + s.rf (F.HOST.GRANT_PORTS p) 0 0 * 2 ^ 8 + s.rf (F.HOST.GRANT_PERF p) 0 0 }

/-- The same for the endpoint that stands on a die, if one does. -/
def State.grantBack (s : State) (d : Nat) : State :=
  match Config.dieHost s.part d with
  | some h => s.grantCopy h
  | none => s

/-- OWN_RESYNC: D0's first message to a die whose link is up again settles its entries, its policy, what it holds and
its grants. -/
def execOwnResync (d : Nat) (s : State) : Out :=
  onDie d s fun s =>
    if s.own.resync.contains d && s.linkUp 0 d then
      let s1 := s.ownCopy d s.own.map
      let o := s1.own
      { s1 with own := { o with policy := Store.put 0x8421 o.policy d (Store.get 0x8421 o.policy 0),
                                holds := o.holds.filter (fun h => h.die != d),
                                resync := o.resync.filter (· != d) } }.grantBack d
    else s

/-! ## Policy (R72) -/

/-- The result of a write that covers POLICY reaches its engine. -/
def State.policyJudge (s : State) (by_ : Option PolicyWrite) : State :=
  match by_ with
  | some w => s.judged w.eng w.addr w.width w.data 0
  | none => s

/-- Writes that await no die any more are acknowledged. -/
def State.policyAck (s : State) : State :=
  let done := s.own.policyWait.filter fun w => w.2 == []
  let s1 := { s with own := { s.own with policyWait := s.own.policyWait.filter fun w => w.2 != [] } }
  done.foldl (fun s w => s.policyJudge w.1) s1

/-- A write of SYS.POLICY: D0's copy at once, the other dies' one crossing later. -/
def State.wrPolicy (s : State) (by_ : Option PolicyWrite) (data : Nat) : State :=
  let v := data % 2 ^ 16
  let near := ((List.range (Config.nDies s.part)).filter fun k => k != 0 && s.linkUp 0 k)
  let s1 := s.wf F.SYS.POLICY_ALLOW 0 0 v
  let o := { s1.own with policy := Store.put 0x8421 s1.own.policy 0 v, policyWait := s1.own.policyWait ++ [(by_, near)] }
  State.policyAck (near.foldl (fun s k => State.post s 0 k (.policy v)) { s1 with own := o })

/-- A write of an engine that covers POLICY arrives: `f` notes it with the dies it awaits, whose last one acknowledges it. -/
def arrivePolicy (e addr width data : Nat) (s : State) (f : State → State) : Out :=
  if Config.nEngines s.part ≤ e then .next s
  else if s.resets.asserted || s.early e addr width data then .next s
  else
    match s.accessCause e addr width false with
    | 0 => .next (f s)
    | c => .next (s.judged e addr width data c)

/-- POLICY_WRITE: acknowledged once every reachable die's copy holds the value. -/
def execPolicyWrite (e : Nat) (data : Word32) (s : State) : Out :=
  let a := mkFa 0 B.SYS 0 0x14
  arrivePolicy e a 32 data.toNat s fun s => s.wrPolicy (some ⟨e, a, 32, data.toNat⟩) data.toNat

/-- The oldest write that awaits a die awaits it no more. -/
def policyGot (d : Nat) : List (Option PolicyWrite × List Nat) → List (Option PolicyWrite × List Nat)
  | [] => []
  | w :: r => if w.2.contains d then (w.1, w.2.filter (· != d)) :: r else w :: policyGot d r

/-- POLICY_COPY_APPLY. -/
def execPolicyCopyApply (d : Nat) (s : State) : Out :=
  onDie d s fun s =>
    if s.own.resync.contains d then s
    else
      match takeMsg (fun m => m.dst == d && m.body.isPolicy) s.msgs with
      | some (⟨_, _, .policy v⟩, r) =>
        let o := { s.own with policy := Store.put 0x8421 s.own.policy d v, policyWait := policyGot d s.own.policyWait }
        { s with msgs := r, own := o }.policyAck
      | _ => s

/-! ## Links (R71) -/

/-- The link between D0 and die `d` goes down: what has not been acknowledged fails. -/
def State.ownCut (s : State) (d : Nat) : State :=
  let o := { s.own with policyWait := s.own.policyWait.map fun w => (w.1, w.2.filter (· != d)),
                        phase := s.own.phase.drop d true }
  let s1 := { s with own := o }.policyAck
  match s1.own.phase with
  | .sent die _ _ _ => if die = d then s1.ownEnd 5 else s1
  | _ => s1

/-- The link between D0 and die `d` is up again. -/
def State.ownBack (s : State) (d : Nat) : State :=
  { s with own := { s.own with resync := s.own.resync.filter (· != d) ++ [d] } }

end Sys2Proof.Machine
end

