-- ==== Sys2Proof/Machine/Mesh.lean ====
section
/-!
DEFINITION. The saddle links (R35 to R43, R376, R401): directions that go down or come up, with everything on them.
-/
namespace Sys2Proof.Machine

/-! ## What a link loses (R43) -/

/-- The message is on its way between two dies. -/
def CtlMsg.between (a b : Nat) (m : CtlMsg) : Bool := (m.src == a && m.dst == b) || (m.src == b && m.dst == a)

/-- A message completes with an error. -/
def State.msgFails (s : State) (m : CtlMsg) : State :=
  match m.body with
  | .event _ _ => s.eventLost m.src m.dst
  | .l2Req ⟨d, e, c⟩ =>
    match c with
    | .learn key _ => s.learnDrop d key
    | _ => s.flushAnswer e 0
  | .l2Change _ _ => s.l2Miss m.dst
  | .tblStep blk _ _ _ => s.setTbl m.dst blk { s.tbl m.dst blk with missed := true }
  | .tblAck blk _ d => s.setTbl d blk { s.tbl d blk with missed := true }
  | .ownHold _ _ _ | .ownReply _ | .ownEntries _ _ _ _ | .policy _ | .align _ _ | .tagStage _ _ _ _ _ | .beacon _ => s

/-- A posted access to a die that has become unreachable completes with FN_UNREACH (R43, R64). -/
def Posted.cut (d : Nat) (p : Posted) : Posted := if faDie p.addr = d then { p with result := some 0x09 } else p

/-- A blocking access to that die does, as long as its response has not arrived. -/
def Hold.cut (d : Nat) (h : Hold) : Hold :=
  match h with
  | .access op a _ => if faDie a = d then .access op a (some ⟨0x09, 0⟩) else h
  | _ => h

/-- The accesses of one engine to a die. -/
def State.engCut (s : State) (d e : Nat) : State :=
  let g := s.eng e
  s.setEng e { g with posted := g.posted.map (·.cut d), hold := g.hold.cut d }

/-- The accesses of a die's engines to another. -/
def State.accessCut (s : State) (a b : Nat) : State := [0, 1, 2, 3].foldl (fun s k => s.engCut b (4 * a + k)) s

/-- Requests of a die that the order point holds are turned away (R353). -/
def State.heldCut (s : State) (d : Nat) : State :=
  let mine := s.l2Order.held.filter fun h => h.src == d
  let s1 := { s with l2Order := { s.l2Order with held := s.l2Order.held.filter fun h => h.src != d } }
  mine.foldl (fun s h => s.l2Turn h) s1

/-- D0's link with a die: ownership, the order points and the copies from D0's replicas (R71, R353, R354, R369). -/
def State.homeCut (s : State) (d : Nat) : State :=
  let s1 := ((s.ownCut d).heldCut d).l2Abandon d
  [B.LPM, B.MCG].foldl (fun s blk => (s.tblAbandon d blk).tblCut d blk) s1.l2Serve

/-- Every message and access on the link between two dies fails. -/
def State.linkCut (s : State) (a b : Nat) : State :=
  let lost := s.msgs.filter (CtlMsg.between a b)
  let s1 := lost.foldl (fun s m => s.msgFails m) { s with msgs := s.msgs.filter fun m => !m.between a b }
  let s2 := (((s1.accessCut a b).accessCut b a).tagCut a b).tagCut b a
  if a = 0 then s2.homeCut b else if b = 0 then s2.homeCut a else s2

/-! ## What a direction loses (R42, R376) -/

/-- The frames whose copy for die `b` waits in FIFO `i` of die `a`, or is still to be cut into cells. -/
def waitingIds (b : Nat) (l : List StgCell) (cur : List (Option RxFrameCur)) : List Nat :=
  let fromCells := (l.filter fun c => c.left.contains b).map fun c => c.cell.frame.id
  let fromCur := cur.flatMap fun r => match r with
    | some r => if !r.dropped && !r.cutOff && decide (0 < r.done) && r.dies.contains b then [r.frame.id] else []
    | none => []
  (fromCells ++ fromCur).eraseDups

/-- The cells of a FIFO no longer wait for a die. -/
def stgRelease (b : Nat) (l : List StgCell) : List StgCell :=
  (l.map fun c => { c with left := c.left.filter (· != b) }).filter fun c => c.left != []

/-- A frame in reception or injection no longer goes to a die; a frame not yet begun is judged with its first cell. -/
def RxFrameCur.release (b : Nat) (r : RxFrameCur) : RxFrameCur :=
  if r.done = 0 then r
  else
    let dies := r.dies.filter (· != b)
    { r with dies := dies, dropped := r.dropped || dies == [] }

/-- FIFO `i` of die `a` and its frames lose die `b`; every frame is counted once (R376). -/
def State.fifoCut (s : State) (a b i : Nat) : State :=
  let cur := if i < 24 then [(s.port (24 * a + i)).rx, (s.port (24 * a + i)).fwd] else [(s.die a).inj]
  let n := (waitingIds b (s.fifo a i) cur).length
  let s1 := s.setFifo a i (stgRelease b (s.fifo a i))
  let s2 := if i < 24 then
      let x := s1.port (24 * a + i)
      s1.setPort (24 * a + i) { x with rx := x.rx.map (·.release b), fwd := x.fwd.map (·.release b) }
    else s1.setDie a { s1.die a with inj := (s1.die a).inj.map (·.release b) }
  s2.addSat F.MESH.STG_DROP_COUNT a b n

/-- The die on which a frame entered. -/
def FrameMeta.home (p : Part) (m : FrameMeta) : Nat :=
  match m.src with
  | .port p => p / 24
  | .engine e => e / 4
  | .ring h _ => Config.hostDie p h
  | .summit => 0

/-- Frames of die `a` that are partly delivered to die `b` end as bad there (R376); cells in flight are lost. -/
def State.cellsCut (s : State) (a b : Nat) : State :=
  let s1 := s.setWay a b []
  let open_ := ((s1.die b).frames.filter fun o => o.frame.home s1.part == a).map fun o => o.frame.id
  open_.foldl (fun s id => s.nextCell b id [] true true) s1

/-- FWD_CLK_OK of the receiving end: event 2 where it changes. -/
def State.fwdClk (s : State) (a b : Nat) (ok : Bool) : State := s.wfRaise F.MESH.STATUS_FWD_CLK_OK b a (ofBool ok) 2

/-- What follows the state of the direction from `a` to `b` besides: the clock that `b` takes from `a`, and both dies' time. -/
def State.clockFollows (s : State) (b : Nat) : State := (s.followRefs).refreshAlign b

/-- The direction from `a` to `b` goes down; `clk` says whether the forwarded clock is still there (R401). -/
def State.dirDown (s : State) (a b : Nat) (clk : Bool) : State :=
  if !s.txUp a b || a = b then (s.fwdClk a b clk).clockFollows b
  else
    let s1 := ((s.putFlag F.MESH.STATUS_TX_UP a b false).putFlag F.MESH.STATUS_RX_UP b a false)
    let s2 := ((s1.setFlag F.MESH.ERR_TX_DOWN_SEEN a b).setFlag F.MESH.ERR_RX_DOWN_SEEN b a)
    let s3 := (s2.raise a B.MESH b 0).raise b B.MESH a 0
    let s4 := (List.range 25).foldl (fun s i => s.fifoCut a b i) (s3.linkCut a b)
    ((s4.cellsCut a b).fwdClk a b clk).clockFollows b

/-- SADDLE_DIRECTION_DOWN: a data wire of the direction from `a` to `b` has lost its framing for 1 µs; both ends have to
restart (R401). -/
def execSaddleDirectionDown (a b : Nat) (clk : Bool) (s : State) : Out :=
  if !s.hasDie a || !s.hasDie b then .fault .absentDie
  else if a = b then .fault .absentInstance
  else if !s.txUp a b then .next s
  else
    let s1 := { s with saddles := Store.put 0 s.saddles (8 * a + b) 3 }
    .next (s1.dirDown a b clk)

/-! ## Training (R36, R401) -/

/-- Both directions of the link of two dies are up again (R43, R71, R354, R369). -/
def State.linkBack (s : State) (a b : Nat) : State :=
  if !s.linkUp a b then s
  else
    let d := if a = 0 then b else a
    if a ≠ 0 ∧ b ≠ 0 then s
    else ((((s.ownBack d).l2Notice d).l2Serve).tblNotice d B.LPM).tblNotice d B.MCG

/-- The wires of the spares in use. -/
def State.spares (s : State) (a b : Nat) (w : List Nat) : State :=
  let s0 := w.getD 0 0xFF
  let s1 := w.getD 1 0xFF
  let t := (s.wf F.MESH.TX_WIREMAP_SPARE0 a b s0).wf F.MESH.TX_WIREMAP_SPARE1 a b s1
  let r := (t.wf F.MESH.RX_WIREMAP_SPARE0 b a s0).wf F.MESH.RX_WIREMAP_SPARE1 b a s1
  (r.wf F.MESH.STATUS_TX_SPARES a b w.length).wf F.MESH.STATUS_RX_SPARES b a w.length

/-- The wire numbers in a mask of the 32 data wires, lowest first. -/
def wiresOf (mask : Word32) : List Nat := (List.range 32).filter fun i => bitSet mask.toNat i

/-- Training maps the failed wires: at most two, and only where both ends repair. -/
def State.trains (s : State) (a b : Nat) (w : List Nat) : Bool :=
  w.length == 0 || (decide (w.length ≤ 2) && s.rfF F.MESH.CFG_REPAIR_EN a b == 1 && s.rfF F.MESH.CFG_REPAIR_EN b a == 1)

/-- SADDLE_TRAINING_END: training of the direction from `a` to `b` ends, with the failed data wires found and the forwarded
clock present or not. Where it takes the direction down, both ends have to restart as well (R401). -/
def execSaddleTrainingEnd (a b : Nat) (failed : Word32) (clk : Bool) (s : State) : Out :=
  if !s.hasDie a || !s.hasDie b then .fault .absentDie
  else if a = b then .fault .absentInstance
  else if s.txUp a b || !s.inRun a B.MESH b || !s.inRun b B.MESH a || Store.get 0 s.saddles (8 * a + b) != 0 then .next s
  else
    let w := wiresOf failed
    if s.trains a b w then
      let s1 := ((s.spares a b w).setFlag F.MESH.STATUS_TX_UP a b).setFlag F.MESH.STATUS_RX_UP b a
      let s2 := ((s1.raise a B.MESH b 0).raise b B.MESH a 0).raise a B.MESH b 1
      .next ((((s2.raise b B.MESH a 1).fwdClk a b clk).linkBack a b).clockFollows b)
    else
      let s1 := ({ s with saddles := Store.put 0 s.saddles (8 * a + b) 3 }).spares a b []
      .next ((((s1.raise a B.MESH b 1).raise b B.MESH a 1).fwdClk a b clk).clockFollows b)

/-- A MESH instance starts: its two directions may train as far as it has kept them from it. -/
def State.meshStarted (s : State) (d peer : Nat) : State :=
  let clear (m : Store Nat) (k bit : Nat) : Store Nat :=
    let v := Store.get 0 m k
    Store.put 0 m k (v - v % (2 * bit) / bit * bit)
  { s with saddles := clear (clear s.saddles (8 * d + peer) 1) (8 * peer + d) 2 }

/-- A MESH instance has stopped or is in FAULT: both its directions are down, and with its transmitter the clock it
forwards (R84). -/
def State.meshStopped (s : State) (d peer : Nat) : State := (s.dirDown d peer false).dirDown peer d false

/-- A MESH instance that stops has no cells in flight any more. -/
def State.meshDrained (s : State) (d peer : Nat) : Bool := s.onWay d peer == [] && s.onWay peer d == []

/-! ## Retransmission (R39) -/

/-- CTL_MESSAGE_RECEIVE: a message from die `a` arrives at die `b`; one that fails its CRC is sent again, and its sender
counts it. Intact messages have their effect by the rows of their kinds. -/
def execCtlMessageReceive (a b : Nat) (crcOk : Bool) (s : State) : Out :=
  if !s.hasDie a || !s.hasDie b then .fault .absentDie
  else if a = b then .fault .absentInstance
  else if crcOk || !s.linkUp a b then .next s
  else .next ((s.addSat F.MESH.CTL_RETRY_COUNT a b 1).setFlag F.MESH.ERR_CTL_RETRY_SEEN a b)

end Sys2Proof.Machine
end

