-- ==== Sys2Proof/Machine/Comm.lean ====
section
/-!
DEFINITION. Frames and messages of an engine: SEND, RECV and MBX (R121 to R125), and the injection of frames into the
switch (R40, R123, R151).
-/
namespace Sys2Proof.Machine

/-! ## SEND -/

/-- The destination word of SEND (R121). -/
def sendKind (w : Word) : Nat := bitsOf w.toNat 62 2
def sendDest (w : Word) : Nat := bitsOf w.toNat 54 8
def sendQueue (w : Word) : Nat := bitsOf w.toNat 50 4
def sendTsReq (w : Word) : Bool := bitSet w.toNat 49
def sendTsId (w : Word) : Nat := bitsOf w.toNat 32 16
def sendLen (w : Word) : Nat := bitsOf w.toNat 0 14

/-- The named destination is there (R122 check 3). -/
def State.sendThere (s : State) (kind dest : Nat) : Bool :=
  match kind with
  | 0 => decide (dest < Config.nPorts s.part) && s.portExists dest
  | 1 => decide (dest < 16)
  | _ => decide (dest < Config.nEngines s.part)

/-- The destination belongs to the partition, by the copy of die `d` (R122 check 4). -/
def State.sendOwned (s : State) (d part kind dest : Nat) : Bool :=
  match kind with
  | 0 => s.ownerAt d (dest / 24) B.PCS (dest % 24) == part
  | 1 => s.ownerAt d (Config.hostDie s.part part) B.HOST 0 == part
  | _ => s.ownerAt d (dest / 4) B.ENG (dest % 4) == part

/-- The argument rules of check 3 besides the destination's presence. -/
def sendArgs (w : Word) : Bool :=
  sendKind w != 3 && !bitSet w.toNat 48 && bitsOf w.toNat 14 18 == 0 &&
    (sendKind w == 0 || (sendQueue w == 0 && !sendTsReq w)) && decide (60 ≤ sendLen w) && decide (sendLen w ≤ 15996)

/-- The checks of R122 in their order: the trap cause, 0 for none. -/
def State.sendCause (s : State) (e addr : Nat) (w : Word) : Nat :=
  if 0x10000 < addr + sendLen w then 0x02
  else if addr % 8 ≠ 0 then 0x03
  else if !sendArgs w || !s.sendThere (sendKind w) (sendDest w) then 0x10
  else if !s.sendOwned (e / 4) (s.engPart e) (sendKind w) (sendDest w) then 0x0A
  else 0

/-- SEND: a frame that passes waits for its turn of injection (R121 to R123). -/
def execSend (e : Nat) (rs1 rs2 : Reg) (s : State) : Out :=
  issue e s fun s =>
    let g := s.eng e
    let a := (g.rv rs1).toNat
    let w := g.rv rs2
    match s.sendCause e a w with
    | 0 => .next (s.setEng e { g with hold := .send w a })
    | c => .next (s.failAt e c)

/-! ## Injection (R40, R151) -/

/-- A frame enters the injection path of a die, which cuts it into cells as its bytes pass (R40, R372). -/
def State.inject (s : State) (d : Nat) (m : FrameMeta) (bytes : List Byte) (dies : List Nat) : State :=
  let l := withFcs bytes
  let m1 := { m with id := s.nextFrame, len := l.length, strobe := s.pkgTick d, multi := m.multi || decide (1 < dies.length) }
  let r : RxFrameCur := { frame := m1, dies := dies, bytes := l, done := 0, raw := l, dropped := dies == [] }
  let s1 := { s with nextFrame := s.nextFrame + 2 }
  if dies = [] then s1 else s1.setDie d { s1.die d with inj := some r, injAt := s1.tick d }

/-- A frame for one named destination, without a lookup (R121). -/
def State.injectTo (s : State) (d : Nat) (src : FrameSrc) (part kind dest queue : Nat) (ts : Option Nat) (bytes : List Byte) :
    State :=
  match kind with
  | 0 => s.inject d { id := 0, src := src, len := 0, queue := some queue, tsId := ts, ports := 2 ^ dest } bytes [dest / 24]
  | 1 => s.inject d { id := 0, src := src, len := 0, ring := some (part, dest) } bytes [Config.hostDie s.part part]
  | _ => s.inject d { id := 0, src := src, len := 0, engines := 2 ^ dest } bytes [dest / 4]

/-- A SEND gets its turn: its frame is read out of DMEM and the instruction completes (R59, R123). -/
def State.injectSend (s : State) (e : Nat) (w : Word) (a : Nat) : State :=
  let g := s.eng e
  let n := sendLen w
  if g.dmemDouble a n then s.trapAt e 0x04
  else
    let s1 := s.dmemTouch e a n
    let ts := if sendTsReq w then some (sendTsId w) else none
    let s2 := s1.injectTo (e / 4) (.engine e) (s.engPart e) (sendKind w) (sendDest w) (sendQueue w) ts (g.dmemBytes a n)
    s2.complete e

/-! ## RECV (R124) -/

/-- The 32-byte receive header. -/
def rxHeader (f : RxFrame) (trunc : Bool) : List Byte :=
  bytesLE 16 f.time ++ bytesLE 2 f.bytes.length ++ bytesLE 2 f.ingress ++
    [BitVec.ofNat 8 (ofBool f.tg + 2 * ofBool trunc + 4 * ofBool f.fcsBad)] ++ List.replicate 11 0

/-- What RECV checks of its area. -/
def recvCause (a cap : Nat) : Nat :=
  if 0x10000 < a + cap then 0x02 else if a % 16 ≠ 0 then 0x03 else if cap < 32 then 0x10 else 0

/-- RECV (R124); the last word, where it is filled in part, is read for the rest of it (R59, R132). -/
def execRecv (e : Nat) (rd rs1 rs2 : Reg) (s : State) : Out :=
  issue e s fun s =>
    let g := s.eng e
    let a := (g.rv rs1).toNat
    let cap := (g.rv rs2).toNat
    match recvCause a cap with
    | 0 =>
      match g.rxq with
      | [] => .next (s.doneWith e { g.wv rd 0 with flags := g.flags.setZ true })
      | f :: r =>
        let trunc := decide (cap < 32 + f.bytes.length)
        let l := rxHeader f trunc ++ f.bytes.take (cap - 32)
        let tail := l.length % 8
        if g.dmemDouble (a + l.length - tail) tail then .next (s.trapAt e 0x04)
        else
          let s1 := s.dmemTouch e (a + l.length - tail) tail
          let g1 := (s1.eng e).dmemWrite a l
          .next (s1.doneWith e { g1.wv rd (BitVec.ofNat 64 f.bytes.length) with rxq := r, flags := g.flags.setZ false })
    | c => .next (s.trapAt e c)

/-! ## MBX (R125, R145) -/

/-- What MBX checks. -/
def mbxCause (a n : Nat) : Nat :=
  if 0x10000 < a + n then 0x02
  else if a % 8 ≠ 0 then 0x03
  else if n < 8 ∨ 256 < n ∨ n % 8 ≠ 0 then 0x10
  else 0

/-- The outbound slots of an endpoint that nothing holds. -/
def HostEp.mboFree (x : HostEp) : List Nat := (List.range 16).filter fun k => !x.mboUsed.contains k

/-- A message enters an outbound queue, in a free slot; which one is not stated (R145). -/
def State.mboPut (s : State) (h : Nat) (bytes : List Byte) (svc : Bool) : State :=
  let x := s.host h
  let free := x.mboFree
  let slot := free.getD (s.draw.1.toNat % free.length) 0
  let s1 := s.draw.2
  let q : MboxMsg := ⟨slot, bytes.length, svc, 0⟩
  let y := { x with mbo := Store.putList 0 x.mbo (256 * slot) bytes, mboQ := x.mboQ ++ [q], mboUsed := x.mboUsed ++ [slot] }
  (s1.setHost h y).irq h F.HBAR.IRQ_MBO_NEW

/-- The endpoint of a partition works for it, as die `d` finds it (R125, R135). -/
def State.hostServes (s : State) (d part : Nat) : Bool :=
  let k := Config.hostDie s.part part
  decide (part < Config.nHosts s.part) && s.inRun k B.HOST 0 && s.owner k B.HOST 0 == part && s.linkUp d k

/-- MBX (R125). -/
def execMbx (e : Nat) (rd rs1 : Reg) (imm : Imm16) (s : State) : Out :=
  issue e s fun s =>
    let g := s.eng e
    let a := (g.rv rs1).toNat
    let n := imm.toNat
    let h := s.engPart e
    match mbxCause a n with
    | 0 =>
      if g.dmemDouble a n then .next (s.trapAt e 0x04)
      else
        let s0 := s.dmemTouch e a n
        let answer (s : State) (x : Nat) : Out :=
          let g := s.eng e
          .next (s.doneWith e { g.wv rd (BitVec.ofNat 64 x) with flags := g.flags.setZ (x == 0) })
        if !s0.hostServes (e / 4) h then answer s0 2
        else if (s0.host h).mboFree = [] then answer s0 1
        else answer (s0.mboPut h (g.dmemBytes a n) false) 0
    | c => .next (s.trapAt e c)

end Sys2Proof.Machine
end

