-- ==== Sys2Proof/Machine/Summit.lean ====
section
/-!
DEFINITION. The summit role (R280 to R289): beacons, the lease, and the paths.
-/
namespace Sys2Proof.Machine

/-! ## Times and role -/

/-- D0's time, in 2^-32 ns units. -/
def State.sNow (s : State) : Nat := s.now 0

/-- A register of SUMMIT that holds an instant, as a count. -/
def State.sTime (s : State) (f : Fld) : Nat := XT.units (BitVec.ofNat 128 (s.rf f 0 0))
def State.setSTime (s : State) (f : Fld) (u : Nat) : State := s.wf f 0 0 (xtOfUnits u).toNat

/-- The role: 0 FOLLOWER, 1 STANDBY, 2 SUMMIT. A change raises event 0. -/
def State.role (s : State) : Nat := s.rf F.SUMMIT.STATUS_ROLE 0 0
def State.setRole (s : State) (r : Nat) : State := (s.wfRaise F.SUMMIT.STATUS_ROLE 0 0 r 0)

/-- The end of the holder's own lease (R280, R286). -/
def State.leaseEnd (s : State) : Nat := s.sTime F.SUMMIT.RENEWED_TIME + msUnits (s.rfF F.SUMMIT.CFG_TERM 0 0)

/-- When a standby becomes eligible (R283). -/
def State.eligibleAt (s : State) : Nat :=
  s.sTime F.SUMMIT.LEASE_EXP_TIME + msUnits (s.rfF F.SUMMIT.GUARD_GUARD 0 0 + (255 - s.rfF F.SUMMIT.CFG_PRIORITY 0 0))

/-- A standby in RUN whose time has reached that moment. -/
def State.eligibleNow (s : State) : Bool := s.inRun 0 B.SUMMIT 0 && s.role == 1 && decide (s.eligibleAt ≤ s.sNow)

/-- ELIGIBLE clears where its condition no longer holds (R285). -/
def State.dropEligible (s : State) : State :=
  if s.eligibleNow then s else s.putFlag F.SUMMIT.STATUS_ELIGIBLE 0 0 false

/-- The present time lies before LEASE_EXP: what LEASE_LIVE reads. -/
def State.leaseLive (s : State) : Bool := decide (s.sNow < s.sTime F.SUMMIT.LEASE_EXP_TIME)

/-- SUMMIT_ELIGIBLE: the standby's time has come (R283). -/
def execSummitEligible (s : State) : Out :=
  if s.eligibleNow && !s.flag F.SUMMIT.STATUS_ELIGIBLE 0 0 then
    .next ((s.setFlag F.SUMMIT.STATUS_ELIGIBLE 0 0).raise 0 B.SUMMIT 0 1)
  else .next s

/-- A path's status where the node is no holder (R289). -/
def State.pathFresh (s : State) (k : Nat) (last : Option Nat) : State :=
  match last with
  | some t => s.setPath k (decide (s.sNow < t + msUnits (3 * s.rfF F.SUMMIT.CFG_BCN_INT 0 0)))
  | none => s.setPath k false

/-- The holder becomes a standby; its paths show beacons again. -/
def State.leaveRole (s : State) : State :=
  let s1 := s.setRole 1
  (s1.pathFresh 0 s1.summit.lastA).pathFresh 1 s1.summit.lastB

/-- A lapsed lease ends the role (R286). -/
def State.lapse (s : State) : State :=
  if s.inRun 0 B.SUMMIT 0 && s.role == 2 && decide (s.leaseEnd ≤ s.sNow) then (s.leaveRole).setFlag F.SUMMIT.ERR_LAPSED 0 0
  else s

/-- LEASE_LAPSE. -/
def execLeaseLapse (s : State) : Out := .next s.lapse

/-! ## Beacons -/

/-- A beacon or release frame of path `k`, without FCS (R281). -/
def State.beaconBytes (s : State) (k subtype seq : Nat) : List Byte :=
  let vid := s.rfF (F.SUMMIT.PATH_VID k) 0 0
  let tag := if vid = 0 then [] else bytesBE 2 0x8100 ++ bytesBE 2 (7 * 2 ^ 13 + vid)
  bytesBE 6 (s.rfF F.SUMMIT.BCN_MAC_MAC 0 0) ++ bytesBE 6 (s.rfF F.SUMMIT.SRC_MAC_MAC 0 0) ++ tag ++ bytesBE 2 0x88B5 ++
    bytesBE 1 subtype ++ bytesBE 1 1 ++ bytesBE 1 k ++ bytesBE 1 (s.rfF F.SUMMIT.CFG_PRIORITY 0 0) ++
    bytesBE 2 (s.rfF F.SUMMIT.CFG_BCN_INT 0 0) ++ bytesBE 8 (s.rf F.SUMMIT.DEV_ID_DEVICE_ID 0 0) ++
    bytesBE 4 (s.rf F.SUMMIT.EPOCH_EPOCH 0 0) ++ bytesBE 4 seq ++ bytesBE 16 (xtOfUnits s.sNow).toNat ++
    bytesBE 16 (xtOfUnits s.leaseEnd).toNat ++ bytesBE 4 (s.rf F.SUMMIT.QUALITY_QUALITY 0 0) ++ bytesBE 4 0

/-- A beacon of one cell enters D0's injection FIFO for its port and queue. -/
def State.beaconInject (s : State) (port queue : Nat) (bytes : List Byte) : State :=
  let l := withFcs bytes
  let m : FrameMeta := { id := s.nextFrame, src := .summit, len := l.length, strobe := s.pkgTick 0, queue := some queue,
                         ports := 2 ^ port }
  let r : RxFrameCur := { frame := m, dies := [port / 24], bytes := l, done := 0, raw := l }
  (State.stage { s with nextFrame := s.nextFrame + 2 } 0 24 r true false).1

/-- One path's beacon, where the path is enabled and its port exists (R45, R280). -/
def State.beaconOn (s : State) (k subtype : Nat) : State :=
  if s.rfF (F.SUMMIT.PATH_EN k) 0 0 ≠ 1 then s
  else
    let x := s.summit
    let seq := (if k = 0 then x.seqA else x.seqB) + 1
    let port := s.rfF (F.SUMMIT.PATH_PORT k) 0 0
    let l := s.beaconBytes k subtype seq
    let s1 := { s with summit := if k = 0 then { x with seqA := seq } else { x with seqB := seq } }
    if port < Config.nPorts s.part ∧ s.portExists port then s1.beaconInject port (s.rfF (F.SUMMIT.PATH_QUEUE k) 0 0) l else s1

/-- Beacons on every enabled path. -/
def State.beacons (s : State) (subtype : Nat) : State := (s.beaconOn 0 subtype).beaconOn 1 subtype

/-- BEACON_SEND: at a holder in RUN whose next beacon is due (R280). -/
def execBeaconSend (s : State) : Out :=
  let s := s.lapse
  let step := msUnits (s.rfF F.SUMMIT.CFG_BCN_INT 0 0)
  let due := s.summit.nextBeacon
  let t := s.sNow
  if s.inRun 0 B.SUMMIT 0 && s.role == 2 && (decide (due ≤ t) || decide (t + step < due)) then
    let next := if due ≤ t ∧ t < due + step then due + step else t + step
    .next (State.beacons { s with summit := { s.summit with nextBeacon := next } } 0x10)
  else .next s

/-! ## Reception (R282, R285, R287) -/

/-- What a beacon says: release, path, priority, holder, epoch, ISSUE and EXPIRY as counts. -/
structure Beacon where
  release : Bool
  version : Nat
  path : Nat
  priority : Nat
  holder : Nat
  epoch : Nat
  issue : Nat
  expiry : Nat
  deriving DecidableEq, Repr

/-- The fields of a beacon frame (R281). -/
def beaconOf (l : List Byte) : Beacon :=
  let o := typeOff l - 12
  let time (off : Nat) : Nat := XT.units (BitVec.ofNat 128 (be l (o + off) 16))
  { release := be l (o + 14) 1 == 0x11, version := be l (o + 15) 1, path := be l (o + 16) 1, priority := be l (o + 17) 1,
    holder := be l (o + 20) 8, epoch := be l (o + 28) 4, issue := time 36, expiry := time 52 }

/-- The beacon is valid (R282). -/
def Beacon.valid (b : Beacon) (own : Nat) : Bool :=
  b.version == 1 && b.holder != own && decide (b.expiry ≤ b.issue + 10 * unitsPerSec)

/-- The beacon's lease is taken (R282). -/
def State.takeLease (s : State) (b : Beacon) : State :=
  if s.sTime F.SUMMIT.LEASE_EXP_TIME < b.expiry then
    (((s.setSTime F.SUMMIT.LEASE_EXP_TIME b.expiry).wf F.SUMMIT.HOLDER_HOLDER 0 0 b.holder).wf F.SUMMIT.EPOCH_EPOCH 0 0
      b.epoch).raise 0 B.SUMMIT 0 2
  else s

/-- The other holder ranks higher (R287). -/
def State.outranked (s : State) (b : Beacon) : Bool :=
  let p := s.rfF F.SUMMIT.CFG_PRIORITY 0 0
  let e := s.rf F.SUMMIT.EPOCH_EPOCH 0 0
  decide (p < b.priority) || (p == b.priority && (decide (e < b.epoch) ||
    (e == b.epoch && decide (b.holder < s.rf F.SUMMIT.DEV_ID_DEVICE_ID 0 0))))

/-- A holder hears another one with a live lease (R287). -/
def State.foreign (s : State) (b : Beacon) : State :=
  let s1 := (s.setFlag F.SUMMIT.ERR_FOREIGN 0 0).raise 0 B.SUMMIT 0 4
  if s1.outranked b then ((s1.leaveRole).setFlag F.SUMMIT.ERR_YIELDED 0 0).takeLease b else s1

/-- The path of a valid beacon has been heard (R289). -/
def State.pathHeard (s : State) (k : Nat) : State :=
  let x := s.summit
  if k = 0 ∨ k = 1 then
    let s1 := { s with summit := if k = 0 then { x with lastA := some s.sNow } else { x with lastB := some s.sNow } }
    if s1.role = 2 then s1 else s1.setPath k true
  else s

/-- A beacon copy is judged. -/
def State.beaconJudge (s : State) (b : Beacon) : State :=
  if !b.valid (s.rf F.SUMMIT.DEV_ID_DEVICE_ID 0 0) then s.setFlag F.SUMMIT.ERR_BCN_BAD 0 0
  else
    let s1 := s.pathHeard b.path
    let s2 := if b.release then s1.setSTime F.SUMMIT.LEASE_EXP_TIME b.issue
      else if s1.role = 2 then (if s1.sNow < b.expiry then s1.foreign b else s1)
      else s1.takeLease b
    s2.dropEligible

/-- The message carries a beacon. -/
def CtlBody.isBeacon : CtlBody → Bool
  | .beacon _ => true
  | _ => false

/-- BEACON_RECEIVE: the oldest copy on its way reaches D0's SUMMIT; outside RUN nothing is judged. -/
def execBeaconReceive (s : State) : Out :=
  match takeMsg (fun m => m.dst == 0 && m.body.isBeacon) s.msgs with
  | some (⟨_, _, .beacon l⟩, r) =>
    let s := State.lapse { s with msgs := r }
    .next (if s.inRun 0 B.SUMMIT 0 && fcsGood l then s.beaconJudge (beaconOf l) else s)
  | _ => .next s

/-- PATH_TIMEOUT: no valid beacon on the path within 3 × BCN_INT (R289). -/
def execPathTimeout (k : Nat) (s : State) : Out :=
  if k ≠ 0 ∧ k ≠ 1 then .fault .absentInstance
  else
    let x := s.summit
    let step := msUnits (3 * s.rfF F.SUMMIT.CFG_BCN_INT 0 0)
    match (if k = 0 then x.lastA else x.lastB) with
    | some t => if s.inRun 0 B.SUMMIT 0 && s.role != 2 && decide (t + step ≤ s.sNow) then .next (s.setPath k false) else .next s
    | none => .next s

/-! ## Commands (R284, R288) -/

/-- A command ends with a status. -/
def State.sumEnd (s : State) (status : Nat) : State := s.wf F.SUMMIT.CMD_STATUS 0 0 status

/-- The first millisecond of the scale after the present time. -/
def State.nextMs (s : State) : Nat := (s.sNow / msUnits 1 + 1) * msUnits 1

/-- TAKE (R284). -/
def State.sumTake (s : State) : State :=
  if !s.inRun 0 B.SUMMIT 0 then s.sumEnd 5
  else if s.rfF F.SUMMIT.CFG_PRIORITY 0 0 = 0 then s.sumEnd 2
  else if !s.flag F.SUMMIT.STATUS_ELIGIBLE 0 0 then s.sumEnd 1
  else if !s.tg 0 then s.sumEnd 3
  else
    let s1 := (s.setRole 2).addWrap F.SUMMIT.EPOCH_EPOCH 0 0 1
    let s2 := (s1.wf F.SUMMIT.HOLDER_HOLDER 0 0 (s1.rf F.SUMMIT.DEV_ID_DEVICE_ID 0 0)).setSTime F.SUMMIT.RENEWED_TIME s1.sNow
    let s3 := { s2 with summit := { s2.summit with nextBeacon := s2.nextMs } }
    (s3.dropEligible.holderPaths).sumEnd 0

/-- RENEW (R280). -/
def State.sumRenew (s : State) : State :=
  if !s.inRun 0 B.SUMMIT 0 then s.sumEnd 5
  else if s.role ≠ 2 then s.sumEnd 4
  else (s.setSTime F.SUMMIT.RENEWED_TIME s.sNow).sumEnd 0

/-- RELEASE (R288). -/
def State.sumRelease (s : State) : State :=
  if !s.inRun 0 B.SUMMIT 0 then s.sumEnd 5
  else if s.role ≠ 2 then s.sumEnd 4
  else ((s.beacons 0x11).leaveRole).sumEnd 0

/-- A write of SUMMIT.CMD. -/
def State.wrSummitCmd (s : State) (data : Nat) : State :=
  let s1 := (s.wf F.SUMMIT.CMD_OP 0 0 (bitsOf data 26 2)).lapse
  match bitsOf data 26 2 with
  | 1 => s1.sumTake
  | 2 => s1.sumRenew
  | 3 => s1.sumRelease
  | _ => s1

/-- SUMMIT_TAKE. -/
def execSummitTake (e : Nat) (s : State) : Out :=
  arriveWrite e (mkFa 0 B.SUMMIT 0 0x28) 32 (2 ^ 26) s fun s => s.wrSummitCmd (2 ^ 26)
/-- SUMMIT_RENEW. -/
def execSummitRenew (e : Nat) (s : State) : Out :=
  arriveWrite e (mkFa 0 B.SUMMIT 0 0x28) 32 (2 * 2 ^ 26) s fun s => s.wrSummitCmd (2 * 2 ^ 26)
/-- SUMMIT_RELEASE. -/
def execSummitRelease (e : Nat) (s : State) : Out :=
  arriveWrite e (mkFa 0 B.SUMMIT 0 0x28) 32 (3 * 2 ^ 26) s fun s => s.wrSummitCmd (3 * 2 ^ 26)

/-! ## Run states -/

/-- The start checks of the SUMMIT map, the first code in their order. -/
def State.summitStartErr (s : State) : Nat :=
  let bcn := s.rf F.SUMMIT.CFG_BCN_INT 0 0
  let term := s.rf F.SUMMIT.CFG_TERM 0 0
  let guard_ := s.rf F.SUMMIT.GUARD_GUARD 0 0
  let badPath (k : Nat) : Bool := s.rf (F.SUMMIT.PATH_EN k) 0 0 == 1 &&
    !(decide (s.rf (F.SUMMIT.PATH_PORT k) 0 0 < Config.nPorts s.part) && s.portExists (s.rf (F.SUMMIT.PATH_PORT k) 0 0))
  if bcn < 1 ∨ 100 < bcn then 0x10
  else if term < 100 ∨ 10000 < term then 0x11
  else if guard_ < 2 * bcn ∨ term < guard_ then 0x12
  else if !isGroup (s.rf F.SUMMIT.BCN_MAC_MAC 0 0) then 0x13
  else if badPath 0 || badPath 1 then 0x14
  else 0

/-- SUMMIT has entered RUN (R280, R283, and the text before the map). -/
def State.summitStarted (s : State) : State :=
  let was := s.role
  let ended := decide (s.leaseEnd ≤ s.sNow)
  let s1 := if was = 2 && ended then s.setFlag F.SUMMIT.ERR_LAPSED 0 0 else s
  let r := if s.rfF F.SUMMIT.CFG_PRIORITY 0 0 = 0 then 0 else if was = 2 && !ended then 2 else 1
  let s2 := (s1.setRole r).setSTime F.SUMMIT.LEASE_EXP_TIME (s1.sNow + msUnits (s1.rfF F.SUMMIT.CFG_TERM 0 0))
  let s3 := { s2.dropEligible with summit := { s2.summit with nextBeacon := s2.nextMs } }
  if r = 2 then s3.holderPaths else (s3.pathFresh 0 s3.summit.lastA).pathFresh 1 s3.summit.lastB

end Sys2Proof.Machine
end

