-- ==== Sys2Proof/Machine/Host.lean ====
section
/-!
DEFINITION. The host endpoints: mailboxes and services (R143 to R145), DMA rings (R146 to R151), grants (R154) and the
link to the host (R155). A host command names its endpoint `h`.
-/
namespace Sys2Proof.Machine

/-! ## Endpoints -/

/-- The die of an endpoint. -/
def State.hDie (s : State) (h : Nat) : Nat := Config.hostDie s.part h

/-- The endpoint's HOST instance is its partition's (R135, R137). -/
def State.ownsHost (s : State) (h : Nat) : Bool := s.owner (s.hDie h) B.HOST 0 == h

/-- The endpoint works for its partition (R135, R137), and PERST_N does not hold it in fundamental reset (R489). -/
def State.served (s : State) (h : Nat) : Bool := s.ownsHost h && (s.host h).perstN

/-- A host write to BAR0: an absent endpoint faults; without ownership, or in fundamental reset, it has no effect
(R137, R489). -/
def onHost (h : Nat) (s : State) (f : State → State) : Out :=
  if Config.nHosts s.part ≤ h then .fault .absentEndpoint else if s.served h then .next (s.held f) else .next s

/-- A HOST event of an endpoint. -/
def State.hostEvent (s : State) (h ev : Nat) : State := s.raise (s.hDie h) B.HOST 0 ev

/-- The endpoint whose HOST instance stands on a die. -/
def State.hostAt (s : State) (d : Nat) : Nat := (Config.dieHost s.part d).getD 0

/-! ## Inbound messages (R143, R144) -/

/-- A slot's FREE bit. -/
def State.mbiFree (s : State) (h slot : Nat) : Bool := bitSet (s.rf F.HBAR.MBI_FREE_FREE h 0) slot
def State.setMbiFree (s : State) (h slot : Nat) (b : Bool) : State :=
  let v := s.rf F.HBAR.MBI_FREE_FREE h 0
  if bitSet v slot = b then s else s.wf F.HBAR.MBI_FREE_FREE h 0 (if b then v + 2 ^ slot else v - 2 ^ slot)

/-- A slot becomes free. -/
def State.mbiFreed (s : State) (h slot : Nat) : State := (s.setMbiFree h slot true).irq h F.HBAR.IRQ_MBI_FREED

/-- A message length that a post may give. -/
def mbxLenOk (n : Nat) : Bool := decide (8 ≤ n) && decide (n ≤ 256) && n % 8 == 0

/-- Line 63 of every engine of the partition that the endpoint's die reaches (R77). -/
def State.line63 (s : State) (h : Nat) : State :=
  let mine := (List.range (Config.nEngines s.part)).filter fun e => s.engPart e == h && s.linkUp (s.hDie h) (e / 4)
  mine.foldl (fun s e => s.setLine e 63) s

/-- A post is refused. -/
def State.mbErr (s : State) (h : Nat) : State := s.irq h F.HBAR.IRQ_MB_ERR

/-- A plain post. -/
def State.mbiPost (s : State) (h slot len : Nat) : State :=
  let x := s.host h
  let q : MboxMsg := ⟨slot, len, false, h⟩
  ((((s.setMbiFree h slot false).setHost h { x with mbiQ := x.mbiQ ++ [q] }).line63 h).hostEvent h 0)

/-- The service slots of partition `h` that nothing holds (R145). -/
def State.svcFree (s : State) (h : Nat) : List Nat :=
  if h = 0 then [] else [2 * (h - 1), 2 * (h - 1) + 1].filter fun k => !(s.host 0).svcUsed.contains k

/-- A service request: copied into one of the partition's slots in H_0, which of them is not stated. -/
def State.svcPost (s : State) (h slot len : Nat) : State :=
  let free := s.svcFree h
  if free = [] ∨ !s.linkUp (s.hDie h) 0 then s.mbErr h
  else
    let k := free.getD (s.draw.1.toNat % free.length) 0
    let bytes := Store.getList 0 (s.host h).mbi (256 * slot) len
    let s1 := s.draw.2
    let x := s1.host 0
    let q : MboxMsg := ⟨k, len, true, h⟩
    let y := { x with svc := Store.putList 0 x.svc (256 * k) bytes, svcQ := x.svcQ ++ [q], svcUsed := x.svcUsed ++ [k] }
    ((s1.setHost 0 y).irq h F.HBAR.IRQ_MBI_FREED).raise 0 B.HOST 0 5

/-- A host write of HBAR.MBI_POST. -/
def State.wrMbiPost (s : State) (h data : Nat) : State :=
  let slot := bitsOf data 16 4
  let len := bitsOf data 0 9
  let svc := bitSet data 31
  let s1 := ((s.putFlag F.HBAR.MBI_POST_SVC h 0 svc).wf F.HBAR.MBI_POST_SLOT h 0 slot).wf F.HBAR.MBI_POST_LEN h 0 len
  if !s1.mbiFree h slot || !mbxLenOk len then s1.mbErr h
  else if svc then s1.svcPost h slot len
  else s1.mbiPost h slot len

/-- MBI_POST. -/
def execMbiPost (h slot len : Nat) (s : State) : Out :=
  onHost h s fun s => s.wrMbiPost h (slot % 16 * 2 ^ 16 + len % 512)

/-- SVC_POST. -/
def execSvcPost (h slot len : Nat) (s : State) : Out :=
  onHost h s fun s => s.wrMbiPost h (2 ^ 31 + slot % 16 * 2 ^ 16 + len % 512)

/-- What a mailbox head reads as: VALID, SVC, SRC, SLOT and LEN at their places. -/
def MboxMsg.word (m : MboxMsg) : Nat := 2 ^ 31 + m.slot * 2 ^ 16 + m.len

/-- A read of MBI_TAKE takes the oldest inbound message. -/
def State.mbiTake (s : State) (d : Nat) : State × Nat :=
  let h := s.hostAt d
  let x := s.host h
  match x.mbiQ with
  | [] => (s, 0)
  | m :: r => (s.setHost h { x with mbiQ := r, mbiTaken := x.mbiTaken ++ [m.slot] }, m.word)

/-- MBI_TAKE by an engine. -/
def execMbiTake (e d : Nat) (s : State) : Out := arriveRead e (mkFa d B.HOST 0 0x10) 32 s fun s => s.mbiTake d

/-- A write of HOST.MBI_FREE. -/
def State.wrMbiFree (s : State) (d data : Nat) : State :=
  let h := s.hostAt d
  let slot := data % 16
  let x := s.host h
  let s1 := s.wf F.HOST.MBI_FREE_SLOT d 0 slot
  if x.mbiTaken.contains slot then
    (s1.setHost h { x with mbiTaken := x.mbiTaken.filter (· != slot) }).mbiFreed h slot
  else s1.setFlag F.HOST.ERR_MBI_FREE_BAD d 0

/-- MBI_FREE by an engine. -/
def execMbiFree (e d : Nat) (slot : BitVec 4) (s : State) : Out :=
  arriveWrite e (mkFa d B.HOST 0 0x14) 32 slot.toNat s fun s => s.wrMbiFree d slot.toNat

/-! ## Outbound messages and services (R145) -/

/-- A host read of HBAR.MBO_TAKE. -/
def State.mboTake (s : State) (h : Nat) : State × Nat :=
  let x := s.host h
  match x.mboQ with
  | [] => (s, 0)
  | m :: r => (s.setHost h { x with mboQ := r }, m.word + ofBool m.svc * 2 ^ 30)

/-- MBO_TAKE: what the read returns is kept as the host's read data, zero where the endpoint does not serve it (R137). -/
def execMboTake (h : Nat) (s : State) : Out :=
  if Config.nHosts s.part ≤ h then .fault .absentEndpoint
  else
    .next (s.held fun s =>
      if !(s.host h).perstN then s
      else
      let r := if s.served h then s.mboTake h else (s, 0)
      r.1.setHost h { r.1.host h with rdata := r.2 })

/-- A host write of HBAR.MBO_FREE: a slot that was taken goes back to the device. -/
def State.wrMboFree (s : State) (h data : Nat) : State :=
  let slot := data % 16
  let x := s.host h
  let s1 := s.wf F.HBAR.MBO_FREE_SLOT h 0 slot
  if x.mboUsed.contains slot && !(x.mboQ.any fun m => m.slot == slot) then
    (s1.setHost h { x with mboUsed := x.mboUsed.filter (· != slot) }).hostEvent h 1
  else s1

/-- MBO_FREE. -/
def execMboFree (h : Nat) (slot : BitVec 4) (s : State) : Out := onHost h s fun s => s.wrMboFree h slot.toNat

/-- A read of HOST.SVC_TAKE takes a pending service request. -/
def State.svcTake (s : State) : State × Nat :=
  let x := s.host 0
  match x.svcQ with
  | [] => (s, 0)
  | m :: r => (s.setHost 0 { x with svcQ := r }, m.word + m.src * 2 ^ 24)

/-- SVC_TAKE by an engine. -/
def execSvcTake (e : Nat) (s : State) : Out := arriveRead e (mkFa 0 B.HOST 0 0x20) 32 s fun s => s.svcTake

/-- A write of HOST.SVC_REPLY frees its slot and delivers the reply, to a mailbox whose HOST its partition owns (R135).
DEDUCED (log entry 42): a slot whose request has not been taken stays held; a reply to DEST 0, to an absent or unowned
endpoint, over a link that is down, or with no outbound slot free is lost. -/
def State.wrSvcReply (s : State) (data : Nat) : State :=
  let dest := bitsOf data 62 2
  let slot := bitsOf data 59 3
  let word := bitsOf data 0 59
  let s1 := ((s.wf F.HOST.SVC_REPLY_DEST 0 0 dest).wf F.HOST.SVC_REPLY_SLOT 0 0 slot).wf F.HOST.SVC_REPLY_WORD 0 0 word
  let x := s1.host 0
  let queued := x.svcQ.any fun m => m.slot == slot
  let s2 := if queued then s1 else s1.setHost 0 { x with svcUsed := x.svcUsed.filter (· != slot) }
  if dest = 0 ∨ Config.nHosts s2.part ≤ dest ∨ !s2.linkUp 0 (s2.hDie dest) ∨ !s2.ownsHost dest ∨ (s2.host dest).mboFree = [] then s2
  else s2.mboPut dest (bytesLE 8 word) true

/-- SVC_REPLY by an engine. -/
def execSvcReply (e : Nat) (data : Word) (s : State) : Out :=
  arriveWrite e (mkFa 0 B.HOST 0 0x28) 64 data.toNat s fun s => s.wrSvcReply data.toNat

/-! ## Rings (R146, R147) -/

/-- Ring pair `k` of an endpoint. -/
def State.ring (s : State) (h k : Nat) : RingState := Store.get {} (s.host h).rings k
def State.setRing (s : State) (h k : Nat) (r : RingState) : State :=
  let x := s.host h
  s.setHost h { x with rings := Store.put {} x.rings k r }

/-- A legal ring size. -/
def log2Ok (n : Nat) : Bool := decide (6 ≤ n) && decide (n ≤ 12)

/-- EN of the host-to-device ring written. DESIGN CHOICE (log entry 80): the descriptor in progress of an earlier enable goes on
and moves none of the new indices. -/
def State.txEnable (s : State) (d k log2 : Nat) (en : Bool) : State :=
  let h := s.hostAt d
  let f := F.HOST.RING_CFG_TX_EN k
  if !en then s.putFlag f d 0 false
  else if s.flag f d 0 then s
  else if !log2Ok log2 then s.setFlag F.HOST.ERR_RING_CFG d 0
  else
    let r := { s.ring h k with txLog2 := log2, txBase := 32 * s.rf (F.HOST.RING_TXBASE_BASE k) d 0,
                               txOld := (s.ring h k).txJob.isSome }
    (((s.setRing h k r).setFlag f d 0).wf (F.HBAR.DB_TX_PROD k) h 0 0).wf (F.HBAR.CONS_TX_CONS k) h 0 0

/-- The frames that wait for a ring, but for the first `n`, are dropped and counted (R151). -/
def State.ringKeep (s : State) (h k n : Nat) : State :=
  let d := s.hDie h
  let mine (f : RingFrame) : Bool := f.host == h && f.ring == k
  let gone := ((s.die d).rings.filter mine).drop n
  let kept := ((s.die d).rings.filter mine).take n ++ (s.die d).rings.filter fun f => !mine f
  gone.foldl (fun s _ => s.ringDrop h k) (s.setDie d { s.die d with rings := kept })

/-- EN of the device-to-host ring written. Cleared, the ring still delivers the frame of its current descriptor, the oldest
that waits, and the others are dropped; what an earlier enable left is dropped at the next one (R146; DESIGN CHOICE, log
entry 80). -/
def State.rxEnable (s : State) (d k log2 : Nat) (en : Bool) : State :=
  let h := s.hostAt d
  let f := F.HOST.RING_CFG_RX_EN k
  if !en then (if s.flag f d 0 then (s.putFlag f d 0 false).ringKeep h k 1 else s)
  else if s.flag f d 0 then s
  else if !log2Ok log2 then s.setFlag F.HOST.ERR_RING_CFG d 0
  else
    let r := { s.ring h k with rxLog2 := log2, rxBase := 32 * s.rf (F.HOST.RING_RXBASE_BASE k) d 0 }
    ((((s.ringKeep h k 0).setRing h k r).setFlag f d 0).wf (F.HBAR.DB_RX_PROD k) h 0 0).wf (F.HBAR.CONS_RX_CONS k) h 0 0

/-- A write of HOST.RING_k.CFG. -/
def State.wrRingCfg (s : State) (d k data : Nat) : State :=
  let s1 := (s.wf (F.HOST.RING_CFG_TX_LOG2 k) d 0 (bitsOf data 20 4)).wf (F.HOST.RING_CFG_RX_LOG2 k) d 0 (bitsOf data 16 4)
  let s2 := (s1.wf (F.HOST.RING_CFG_INJ_PCP k) d 0 (bitsOf data 12 3)).wf (F.HOST.RING_CFG_INJ_VID k) d 0 (bitsOf data 0 12)
  (s2.txEnable d k (bitsOf data 20 4) (bitSet data 31)).rxEnable d k (bitsOf data 16 4) (bitSet data 30)

/-- RING_CFG_WRITE by an engine. -/
def execRingCfgWrite (e d k : Nat) (data : Word32) (s : State) : Out :=
  if 16 ≤ k then .fault .absentInstance
  else arriveWrite e (mkFa d B.HOST 0 (0x1010 + 0x40 * k)) 32 data.toNat s fun s => s.wrRingCfg d k data.toNat

/-- A doorbell is ignored (R147). -/
def State.dbErr (s : State) (h : Nat) : State :=
  (s.irq h F.HBAR.IRQ_DB_ERR).setFlag F.HOST.ERR_DB_RANGE (s.hDie h) 0

/-- A host write of DB_TX_k. -/
def State.wrDbTx (s : State) (h k data : Nat) : State :=
  let d := s.hDie h
  let prod := data % 2 ^ 16
  if s.inRun d B.HOST 0 && s.flag (F.HOST.RING_CFG_TX_EN k) d 0 &&
      decide ((prod + 2 ^ 16 - s.rf (F.HBAR.CONS_TX_CONS k) h 0) % 2 ^ 16 ≤ 2 ^ (s.ring h k).txLog2) then
    s.wf (F.HBAR.DB_TX_PROD k) h 0 prod
  else s.dbErr h

/-- A host write of DB_RX_k. -/
def State.wrDbRx (s : State) (h k data : Nat) : State :=
  let d := s.hDie h
  let prod := data % 2 ^ 16
  if s.inRun d B.HOST 0 && s.flag (F.HOST.RING_CFG_RX_EN k) d 0 &&
      decide ((prod + 2 ^ 16 - s.rf (F.HBAR.CONS_RX_CONS k) h 0) % 2 ^ 16 ≤ 2 ^ (s.ring h k).rxLog2) then
    s.wf (F.HBAR.DB_RX_PROD k) h 0 prod
  else s.dbErr h

/-- DB_TX. -/
def execDbTx (h k : Nat) (prod : BitVec 16) (s : State) : Out :=
  if 16 ≤ k then .fault .absentInstance else onHost h s fun s => s.wrDbTx h k prod.toNat
/-- DB_RX. -/
def execDbRx (h k : Nat) (prod : BitVec 16) (s : State) : Out :=
  if 16 ≤ k then .fault .absentInstance else onHost h s fun s => s.wrDbRx h k prod.toNat

/-! ## Completions (R150) -/

/-- A completion of ring pair `k` asks for its vector: at most one in 2 µs. -/
def State.ringIrq (s : State) (h k : Nat) : State :=
  let r := s.ring h k
  if r.holdoff then s.setRing h k { r with waiting := true }
  else (s.setRing h k { r with holdoff := true }).vector h (8 + k)

/-- MSIX_HOLDOFF_EXPIRE. -/
def execMsixHoldoffExpire (h k : Nat) (s : State) : Out :=
  if Config.nHosts s.part ≤ h then .fault .absentEndpoint
  else if 16 ≤ k then .fault .absentInstance
  else
    let r := s.ring h k
    if !r.holdoff then .next s
    else
      let s1 := s.setRing h k { r with holdoff := false, waiting := false }
      .next (if r.waiting then s1.ringIrq h k else s1)

/-- A host-to-device descriptor completes: STATUS, then CONS, then the interrupt it asks for. -/
def State.txDone (s : State) (h k status : Nat) (int : Bool) : State :=
  let s1 := s.setRing h k { s.ring h k with txStatus := 2 ^ 31 + status, txJob := none, txOld := false }
  let s2 := if (s.ring h k).txOld then s1 else s1.addWrap (F.HBAR.CONS_TX_CONS k) h 0 1
  if int then s2.ringIrq h k else s2

/-! ## Host to device (R148) -/

/-- The argument rules of a descriptor. -/
def TxDesc.argsOk (t : TxDesc) : Bool :=
  decide (60 ≤ t.length) && decide (t.length ≤ 15996) && decide (t.kind < 3) && decide (t.flags < 4) &&
    (if t.kind = 0 then decide (t.queue < 16) else t.queue == 0 && t.flags % 2 == 0) && (t.kind != 1 || t.dest == 0)

/-- The status with which a descriptor is refused, 0 for none. -/
def State.descStatus (s : State) (h : Nat) (t : TxDesc) : Nat :=
  if !t.argsOk then 0x01
  else if t.kind = 1 then 0
  else if !s.sendThere t.kind t.dest then 0x01
  else if !s.sendOwned (s.hDie h) h t.kind t.dest then 0x02
  else 0

/-- Ring `k` fetches host-to-device descriptors. -/
def State.txFetches (s : State) (h k : Nat) : Bool :=
  let d := s.hDie h
  let r := s.ring h k
  s.served h && s.inRun d B.HOST 0 && s.flag (F.HOST.RING_CFG_TX_EN k) d 0 && r.txJob == none && r.txReady == none &&
    s.rf (F.HBAR.DB_TX_PROD k) h 0 != s.rf (F.HBAR.CONS_TX_CONS k) h 0

/-- A ring of an endpoint. -/
def onRing (h k : Nat) (s : State) (f : State → State) : Out :=
  if Config.nHosts s.part ≤ h then .fault .absentEndpoint else if 16 ≤ k then .fault .absentInstance else .next (f s)

/-- TX_DESCRIPTOR_FETCHED: the next descriptor arrives from host memory with these fields. DESIGN CHOICE (log entry 104): its
reserved word at 0x1C is ignored. -/
def execTxDescriptorFetched (h k addr length kind queue dest flags tsId : Nat) (s : State) : Out :=
  onRing h k s fun s =>
    if !s.txFetches h k then s
    else
      let d := s.hDie h
      let t : TxDesc := { addr := addr, length := length, kind := kind, queue := queue, dest := dest, flags := flags,
                          tsId := tsId % 2 ^ 16, injVid := s.rf (F.HOST.RING_CFG_INJ_VID k) d 0,
                          injPcp := s.rf (F.HOST.RING_CFG_INJ_PCP k) d 0 }
      match s.descStatus h t with
      | 0 => s.setRing h k { s.ring h k with txJob := some t }
      | c => s.txDone h k c (bitSet flags 1)

/-- TX_FRAME_READ: the frame of the descriptor has been read, or the read failed (R148, R150). -/
def execTxFrameRead (h k : Nat) (bytes : List Byte) (failed : Bool) (s : State) : Out :=
  onRing h k s fun s =>
    match (s.ring h k).txJob with
    | none => s
    | some t =>
      let int := bitSet t.flags 1
      if failed then
        ((s.setFlag F.HOST.ERR_DMA_ERR (s.hDie h) 0).hostEvent h 4).txDone h k 0x03 int
      else if bytes.length ≠ t.length then s
      else (s.setRing h k { s.ring h k with txReady := some (t, bytes) }).txDone h k 0x00 int

/-- The lookup of a KIND 1 frame (R148, R338, R385). -/
def State.injectLookup (s : State) (d h k : Nat) (t : TxDesc) (bytes : List Byte) (spare : Bool) : State :=
  let l := withFcs bytes
  let cls := match outerTag l with
    | some (pcp, vid) => (if vid = 0 then t.injVid else vid, pcp)
    | none => (t.injVid, t.injPcp)
  let f := s.forward d none cls.1 l spare
  let g := match f.2 with
    | some x => f.1.settle d h none [] x
    | none => (f.1, none)
  match g.2 with
  | none => g.1
  | some x =>
    let m : FrameMeta := { id := 0, src := .ring h k, len := 0, vlan := cls.1, prio := cls.2, ports := x.ports,
                           engines := x.engines, route := x.route, epochs := x.epochs, multi := x.multi }
    g.1.inject d m bytes (destDies s.part x.ports x.engines)

/-- A descriptor's frame is injected. -/
def State.injectDesc (s : State) (d h k : Nat) (t : TxDesc) (bytes : List Byte) (spare : Bool) : State :=
  let s1 := s.setRing h k { s.ring h k with txReady := none }
  if t.kind = 1 then s1.injectLookup d h k t bytes spare
  else s1.injectTo d (.ring h k) h t.kind t.dest t.queue (if bitSet t.flags 0 then some t.tsId else none) bytes

/-- Source `i` of the die's cyclic order has a frame ready (R151): rings 0 to 15, then the four engines. -/
def State.injReady (s : State) (d i : Nat) : Bool :=
  if i < 16 then
    match Config.dieHost s.part d with
    | some h => (s.ring h i).txReady.isSome
    | none => false
  else match (s.eng (4 * d + i - 16)).hold with
    | .send _ _ => true
    | _ => false

/-- INJECTION_SERVE: the die injects one frame, from the next ready source at or after the pointer. -/
def execInjectionServe (d : Nat) (spare : Bool) (s : State) : Out :=
  onDie d s fun s =>
    if (s.die d).inj.isSome then s
    else
      match ((List.range 20).map fun k => ((s.die d).injPtr + k) % 20).find? (s.injReady d) with
      | none => s
      | some i =>
        let s1 := s.setDie d { s.die d with injPtr := (i + 1) % 20 }
        if i < 16 then
          let h := s.hostAt d
          match (s1.ring h i).txReady with
          | some (t, bytes) => s1.injectDesc d h i t bytes spare
          | none => s1
        else
          let e := 4 * d + i - 16
          match (s1.eng e).hold with
          | .send w a => s1.injectSend e w a
          | _ => s1

/-! ## Device to host (R149 to R151) -/

/-- The oldest frame that waits for a ring, and the frames without it. -/
def takeRing (h k : Nat) : List RingFrame → Option (RingFrame × List RingFrame)
  | [] => none
  | f :: r => if f.host = h ∧ f.ring = k then some (f, r) else (takeRing h k r).map fun x => (x.1, f :: x.2)

/-- RX_RING_DELIVER: the oldest frame for the ring goes into the buffer of its next descriptor, of this length. DESIGN CHOICE
(log entry 81): a BUF_LEN that R149 does not allow is taken as it stands. -/
def execRxRingDeliver (h k bufLen : Nat) (s : State) : Out :=
  onRing h k s fun s =>
    let d := s.hDie h
    if !s.served h || !(s.run d B.HOST 0 == 1 || s.run d B.HOST 0 == 2) then s
    else
      match takeRing h k (s.die d).rings with
      | none => s
      | some (f, r) =>
        let trunc := decide (bufLen < 32 + f.frame.bytes.length)
        let out := (rxHeader f.frame trunc ++ f.frame.bytes).take bufLen
        let s1 := s.setDie d { s.die d with rings := r }
        let status := 2 ^ 31 + ofBool trunc * 2 ^ 16 + out.length
        let s2 := s1.setRing h k { s1.ring h k with rxStatus := status, rxOut := out }
        (s2.addWrap (F.HBAR.CONS_RX_CONS k) h 0 1).ringIrq h k

/-- Frames that wait for rings of an endpoint are dropped and counted (R84, R151). -/
def State.ringsDrop (s : State) (h : Nat) : State :=
  let d := s.hDie h
  let gone := (s.die d).rings.filter fun f => f.host == h
  gone.foldl (fun s f => s.ringDrop h f.ring) (s.setDie d { s.die d with rings := (s.die d).rings.filter fun f => f.host != h })

/-! ## Grants and the link (R154, R155, R167) -/

/-- A write of HOST.GRANT_p on D0. -/
def State.wrGrant (s : State) (p data : Nat) : State :=
  (((s.wf (F.HOST.GRANT_HIST p) 0 0 (bitsOf data 16 8)).wf (F.HOST.GRANT_PORTS p) 0 0 (bitsOf data 8 8)).wf
    (F.HOST.GRANT_PERF p) 0 0 (bitsOf data 0 8)).grantCopy p

/-- GRANT_WRITE by an engine. -/
def execGrantWrite (e p : Nat) (data : Word32) (s : State) : Out :=
  if p < 1 ∨ 3 < p then .fault .absentInstance
  else arriveWrite e (mkFa 0 B.HOST 0 (0x100 + 4 * p)) 32 data.toNat s fun s => s.wrGrant p data.toNat

/-- The rates (1 to 4 for 2.5 to 16.0 GT/s) and widths at which a link trains (R134). -/
def pcieTrains (speed width : Nat) : Bool := decide (1 ≤ speed) && decide (speed ≤ 4) && [1, 2, 4, 8].contains width

/-- Vendor ID, device ID and class code of every endpoint (R134). -/
def Config.pcieIdentity : Part → Nat × Nat × Nat
  | .xu9192 => (0x1F3C, 0x9192, 0x028000)
  | .xu9096 => (0x1F3C, 0x9096, 0x028000)
  | .xu9048 => (0x1F3C, 0x9048, 0x028000)

/-- HOST_LINK_UP: link training ends with a rate and a width; at no other ones does it end (R134), and not
while PERST_N is low (R489). -/
def execHostLinkUp (h speed width : Nat) (s : State) : Out :=
  if Config.nHosts s.part ≤ h then .fault .absentEndpoint
  else
    let d := s.hDie h
    if s.resets.asserted || !(s.host h).perstN || s.flag F.HOST.LINK_UP d 0 || !pcieTrains speed width then .next s
    else .next ((((s.setFlag F.HOST.LINK_UP d 0).wf F.HOST.LINK_SPEED d 0 speed).wf F.HOST.LINK_WIDTH d 0 width).hostEvent h 3)

end Sys2Proof.Machine
end

