-- ==== Sys2Proof/Machine/Loader.lean ====
section
/-!
DEFINITION. Starting and stopping engines (R84, R113, R114), the image loader (R89 to R93, R139 to R142) and what it
reports to the boot sequence (R166, R167), and the reset of a host link (R155).
-/
namespace Sys2Proof.Machine

/-! ## Run states of an engine -/

/-- An instance enters RUN: its RW-S values take effect, and the record of the last refusal and fault clears (R79 to R81). -/
def State.enterRun (s : State) (die blk inst : Nat) : State :=
  let s1 := (s.takeEffect die blk inst).wf (F.BLOCK.FSTATE_START_ERR blk) die inst 0
  (s1.wf (F.BLOCK.FSTATE_FAULT_CODE blk) die inst 0).setRun die blk inst 1

/-- An engine in RUN begins to stop: a WAIT in progress is abandoned, held traps are recorded alone (R84, R502). -/
def State.engStop (s : State) (e : Nat) : State :=
  let s1 := s.dropHeld e
  let g := s1.eng e
  let h := match g.hold with
    | .waitTick _ _ _ => Hold.none
    | .waitTime _ _ _ => Hold.none
    | x => x
  (s1.setEng e { g with hold := h }).setRun (e / 4) B.ENG (e % 4) 2

/-- The engine's instruction and its accesses are complete. -/
def State.engDrained (s : State) (e : Nat) : Bool := (s.eng e).hold == .none && (s.eng e).posted == []

/-- The engine is stopped; LAST_PC is its last instruction (the ENG map). Posted accesses still outstanding at the drain
limit are acknowledged later (R502). -/
def State.engStopped (s : State) (e : Nat) : State :=
  let g := s.eng e
  ((s.setEng e { g with hold := .none }).lastPc e g.lastDone).setRun (e / 4) B.ENG (e % 4) 0

/-- No hook of the engine's ROM-resident program runs any more (R87). -/
def State.hookDone (s : State) (e : Nat) : State := { s with rom := { s.rom with calls := Store.put none s.rom.calls e none } }

/-- What a start at a word address does to an engine that enters RUN (R114). -/
def State.engStartedAt (s : State) (e at_ : Nat) : State :=
  let g := s.eng e
  (s.setEng e { g with flags := {}, pending := 0, hold := .none, pc := BitVec.ofNat 16 (4 * at_) }).hookDone e

/-- What FN.START does to it: it starts at START_PC. -/
def State.engStarted (s : State) (e : Nat) : State := s.engStartedAt e (s.rfF F.ENG.CTRL_START_PC (e / 4) (e % 4))

/-- An engine is started by the boot logic or the loader. -/
def State.engStart (s : State) (e : Nat) : State := (s.enterRun (e / 4) B.ENG (e % 4)).engStarted e

/-- An engine's ROM-resident program is replaced: it does not run again before the next boot (R88, R167). -/
def State.romReplaced (s : State) (e : Nat) : State :=
  { s with rom := { s.rom with progs := s.rom.progs.filter (· != e) } }

/-- Bytes written to IMEM; a word written whole has valid ECC again. -/
def Engine.imemWrite (g : Engine) (a : Nat) (l : List Byte) : Engine :=
  let fix (m : Store EccMark) (w : Nat) :=
    if a ≤ 8 * w ∧ 8 * w + 8 ≤ a + l.length then Store.put .good m w .good else m
  { g with imem := Store.putList 0 g.imem a l, imemEcc := (wordsOf a l.length).foldl fix g.imemEcc }

/-! ## Images (R89 to R91) -/

/-- `n` little-endian bytes of an image at an offset. -/
def le (l : List Byte) (off n : Nat) : Nat := leNat ((l.drop off).take n)

def imgLength (l : List Byte) : Nat := le l 0x08 4
def imgExt (l : List Byte) : Bool := bitSet (le l 0x0C 4) 0
def imgOwnerOnly (l : List Byte) : Bool := bitSet (le l 0x0C 4) 1
def imgSegs (l : List Byte) : Nat := le l 0x14 2
def imgKeyId (l : List Byte) : Nat := le l 0x20 8

/-- A segment table entry (R90). -/
structure Segment where
  kind : Nat
  eng : Nat
  local_ : Nat
  load : Nat
  size : Nat
  ofs : Nat
  entry : Nat
  flags : Nat
  crc : Nat
  clean : Bool
  deriving DecidableEq, Repr

/-- Entry `i`; `eng` is the global engine number of its die and local engine. -/
def segAt (l : List Byte) (i : Nat) : Segment :=
  let b := 0x40 + 32 * i
  { kind := le l b 1, eng := 4 * le l (b + 1) 1 + le l (b + 2) 1, local_ := le l (b + 2) 1, load := le l (b + 4) 4,
    size := le l (b + 8) 4, ofs := le l (b + 0x0C) 4, entry := le l (b + 0x10) 4, flags := le l (b + 0x14) 4,
    crc := le l (b + 0x18) 4, clean := le l (b + 3) 1 == 0 && le l (b + 0x1C) 4 == 0 }

/-- Every entry. -/
def segsOf (l : List Byte) : List Segment := (List.range (imgSegs l)).map (segAt l)

/-- The segment's data. -/
def Segment.data (l : List Byte) (g : Segment) : List Byte := (l.drop g.ofs).take g.size

/-- The first entry that fails a test. -/
def firstBad (p : Nat → Segment → Bool) (l : List Segment) : Option Nat :=
  ((List.range l.length).zip l).find? (fun x => p x.1 x.2) |>.map (·.1)

/-- Code 0x01: magic, format, sizes, reserved bytes. -/
def imgHeaderOk (l : List Byte) : Bool :=
  let n := imgLength l
  (l.take 4 == [0x58, 0x55, 0x49, 0x4D]) && le l 4 2 == 1 && le l 6 2 == 0x40 && n % 16 == 0 && decide (n ≤ 262144) &&
    decide (le l 0x0C 4 < 4) && le l 0x16 2 == 0 && le l 0x28 24 == 0 && decide (1 ≤ imgSegs l) && decide (imgSegs l ≤ 64) &&
    decide (0x40 + 32 * imgSegs l + 112 ≤ n)

/-- Code 0x02: part, stepping and ROM. -/
def State.imgFits (s : State) (l : List Byte) : Bool :=
  bitSet (le l 0x10 1) (Config.partBit s.part) && decide (le l 0x11 1 ≤ s.rf F.SYS.ID_STEPPING 0 0) &&
    (le l 0x12 2 == 0 || le l 0x12 2 == s.rf F.SYS.ROMVER_MAJOR 0 0)

/-- KEY_ID of a public key (R175). -/
def keyIdOf (pub : List Byte) : Nat := leNat ((Config.sha384 (0x04 :: pub)).take 8)

/-- The key in a slot that passes for loads (R174, R175). -/
def State.goodKey (s : State) (k : Nat) : Option (List Byte) :=
  if s.otp.lifecycle = 3 then none
  else match Store.get .empty s.otp.keys k with
    | .enrolled pub => some pub
    | _ => none

/-- The enrolled, unrevoked key of a KEY_ID. -/
def State.keyFor (s : State) (id : Nat) : Option (List Byte) :=
  ([0, 1, 2, 3].filterMap s.goodKey).find? fun pub => keyIdOf pub == id

/-- The signature block and the signature (R91). -/
def State.imgSigned (s : State) (l : List Byte) : Bool :=
  let b := imgLength l - 112
  le l b 4 == 1 && le l (b + 4) 4 == 0x70 && le l (b + 104) 8 == 0 &&
    (match s.keyFor (imgKeyId l) with
     | some pub => Config.ecdsaValid pub (l.take b) (le l (b + 8) 48) (le l (b + 56) 48)
     | none => false)

/-- Code 0x06: an entry out of its bounds (R86, R90). -/
def Segment.outside (l : List Byte) (g : Segment) : Bool :=
  let low := if imgExt l then (if g.kind = 1 then 0xC000 else 0xE000) else 0
  !(g.kind == 1 || g.kind == 2) || !g.clean || g.ofs % 16 != 0 || decide (4 ≤ g.flags) || (g.kind == 1 && g.size % 4 != 0) ||
    decide (imgLength l < g.ofs + g.size) || decide (0x10000 < g.load + g.size) || decide (g.load < low)

/-- Two segments meet in one memory. -/
def Segment.meets (a b : Segment) : Bool :=
  a.kind == b.kind && a.eng == b.eng && a.local_ == b.local_ && decide (a.load < b.load + b.size) && decide (b.load < a.load + a.size)

/-- Code 0x07: an entry that meets an earlier one. -/
def overlaps (l : List Segment) (i : Nat) (g : Segment) : Bool := (l.take i).any fun a => a.meets g

/-- Code 0x08: a target engine that the partition may not load. -/
def State.badTarget (s : State) (h : Nat) (g : Segment) : Bool :=
  decide (4 ≤ g.local_) || decide (Config.nEngines s.part ≤ g.eng) || s.engPart g.eng != h

/-- The checks after the signature, in the order of R92: the code and the segment it concerns. -/
def State.segChecks (s : State) (h : Nat) (l : List Byte) : Option (Nat × Option Nat) :=
  let g := segsOf l
  match firstBad (fun _ x => x.outside l) g with
  | some i => some (0x06, some i)
  | none =>
    match firstBad (overlaps g) g with
    | some i => some (0x07, some i)
    | none =>
      match firstBad (fun _ x => s.badTarget h x) g with
      | some i => some (0x08, some i)
      | none =>
        if imgOwnerOnly l && h != 0 then some (0x08, none)
        else (firstBad (fun _ x => (crc32 (x.data l)).toNat != x.crc) g).map fun i => (0x09, some i)

/-! ## Where a load stands (R139 to R142) -/

/-- SEC is in FAULT: every load ends with code 0x05 (R168). -/
def State.secFault (s : State) : Bool := s.run 0 B.SEC 0 == 3

/-- The code with which a load ends. -/
def State.loadCode (s : State) (code : Nat) : Nat := if s.secFault then 0x05 else code

/-- The load of an endpoint replaced. -/
def State.setLoad (s : State) (h : Nat) (l : Option Load) : State := s.setHost h { s.host h with load := l }

/-- A load finishes with a code, and where the code concerns a segment, its index (R139, R140). -/
def State.loadResult (s : State) (h code : Nat) (seg : Option Nat) : State :=
  let s1 := (s.setLoad h none).wf F.HBAR.LOAD_STATUS_CODE h 0 (s.loadCode code)
  let s2 := match (if s.secFault then none else seg) with
    | some i => s1.wf F.HBAR.LOAD_STATUS_SEG h 0 i
    | none => s1
  ((s2.putFlag F.HBAR.LOAD_STATUS_BUSY h 0 false).irq h F.HBAR.IRQ_LOAD_DONE).hostEvent h 2

/-- The boot sequence ends (R167 step 5). -/
def State.bootDone (s : State) : State := { s with sec := { s.sec with phase := .done } }.setFlag F.SEC.BOOT_DONE 0 0

/-- A slot's load begins: an ordinary load by H_0 from the flash (R165, R166). -/
def State.bootLoad (s : State) (slot : Nat) (second : Bool) : State :=
  let addr := if slot = 0 then 0 else 0x400000
  let s1 := { s with sec := { s.sec with phase := .loading slot second } }.wf F.HBAR.LOAD_ADDR_ADDR 0 0 (addr / 16)
  ((s1.setFlag F.HBAR.LOAD_CMD_SRC 0 0).setFlag F.HBAR.LOAD_STATUS_BUSY 0 0).setLoad 0
    (some { spi := true, addr := addr, phase := .staging, image := [], targets := [] })

/-- The boot sequence takes a slot's code (R167): done, the other slot, or the end. -/
def State.bootTake (s : State) (code : Nat) : Nat → State
  | 0 => s
  | n + 1 =>
    match s.sec.phase with
    | .loading slot second =>
      let s1 := s.wf (if slot = 0 then F.SEC.BOOT_CODE_A else F.SEC.BOOT_CODE_B) 0 0 code
      if code = 0 then (s1.wf F.SEC.BOOT_SLOT 0 0 (slot + 1)).bootDone
      else if second then s1.bootDone
      else
        let s2 := s1.bootLoad (1 - slot) true
        if s2.run 0 B.HOST 0 = 3 then (s2.loadResult 0 0x12 none).bootTake (s2.loadCode 0x12) n else s2
    | _ => s

/-- The boot sequence tries a slot first; with HOST in FAULT the load ends at once (R140). -/
def State.bootFrom (s : State) (slot : Nat) : State :=
  let s1 := s.bootLoad slot false
  if s1.run 0 B.HOST 0 = 3 then (s1.loadResult 0 0x12 none).bootTake (s1.loadCode 0x12) 2 else s1

/-- Step 5 of R167 by BOOT_SEL (R162): after a host load of H_0 in progress, if there is one. -/
def State.bootStep5 (s : State) : State :=
  let sel := s.rf F.SEC.BOOT_BOOT_SEL 0 0
  if sel = 1 ∨ sel = 3 then s.bootDone
  else if s.flag F.HBAR.LOAD_STATUS_BUSY 0 0 then { s with sec := { s.sec with phase := .waitLoader } }
  else s.bootFrom (if sel = 0 then 0 else 1)

/-- A load finishes; the boot sequence hears of H_0's. -/
def State.loadFinish (s : State) (h code : Nat) (seg : Option Nat) : State :=
  let s1 := s.loadResult h code seg
  if h ≠ 0 then s1
  else if s1.sec.phase = .waitLoader then s1.bootStep5
  else s1.bootTake (s.loadCode code) 2

/-- A write of GO (R139, R140). -/
def State.wrLoadGo (s : State) (h : Nat) (spi : Bool) : State :=
  if s.flag F.HBAR.LOAD_STATUS_BUSY h 0 then s.irq h F.HBAR.IRQ_DB_ERR
  else
    let s1 := (s.putFlag F.HBAR.LOAD_CMD_SRC h 0 spi).setFlag F.HBAR.LOAD_STATUS_BUSY h 0
    if s.run (s.hDie h) B.HOST 0 = 3 then s1.loadResult h 0x12 none
    else if spi ∧ h ≠ 0 then s1.loadResult h 0x11 none
    else s1.setLoad h (some { spi := spi, addr := 16 * s.rf F.HBAR.LOAD_ADDR_ADDR h 0, phase := .staging, image := [], targets := [] })

/-- LOAD_GO by the host. -/
def execLoadGo (h : Nat) (spi : Bool) (s : State) : Out := onHost h s fun s => s.wrLoadGo h spi

/-- The checks of R92 up to the signature: the code, 0 for none. -/
def State.headChecks (s : State) (l : List Byte) : Nat :=
  if s.secFault then 0x05
  else if !imgHeaderOk l then 0x01
  else if !s.imgFits l then 0x02
  else if (s.keyFor (imgKeyId l)).isNone then 0x03
  else if le l 0x1C 4 < s.otp.rollback then 0x04
  else 0

/-- The flash has been read: a flash access that waited for that runs before any later load reads (R171). -/
def State.spiRelease (s : State) : State :=
  if s.sec.spiWaiting then { s with sec := { s.sec with spiWaiting := false, spiActive := true } } else s

/-- The HOST instance of a load is in FAULT: the loader does not work, and the load ends (R140, R141). -/
def State.loaderDown (s : State) (h : Nat) : Bool := s.run (s.hDie h) B.HOST 0 == 3

/-- The staged copy is read (R139): a single-bit error is corrected and flagged; the Bool says that it holds a double-bit
error, which ends the load as a read error (DESIGN CHOICE, log entry 83). -/
def State.stagingRead (s : State) (h : Nat) (j : Load) : State × Bool :=
  if j.ecc.any fun p => p.2 == .double then (s, true)
  else if j.ecc.isEmpty then (s, false)
  else ((s.setLoad h (some { j with ecc := [] })).setFlag (F.BLOCK.CFLAGS_ECC_CORR B.HOST) (s.hDie h) 0, false)

/-- The staged image is there: `l` what was read, or a read failed. -/
def State.staged (s : State) (h : Nat) (j : Load) (l : List Byte) (failed : Bool) : State :=
  if failed then
    let s1 := if j.spi then s else (s.setFlag F.HOST.ERR_DMA_ERR (s.hDie h) 0).hostEvent h 4
    s1.loadFinish h 0x10 none
  else
    match s.headChecks l with
    | 0 =>
      let s1 := s.setLoad h (some { j with phase := .signature, image := l.take (imgLength l) })
      { s1 with sec := { s1.sec with sigQueue := s1.sec.sigQueue ++ [h] } }
    | c => s.loadFinish h c none

/-- The bytes are a whole header and, where LENGTH is legal, the whole image. -/
def stagedWhole (l : List Byte) : Bool :=
  decide (64 ≤ l.length) && (!(imgLength l % 16 == 0 && decide (imgLength l ≤ 262144)) || decide (imgLength l ≤ l.length))

/-- LOAD_STAGED: staging ends with the bytes that host memory or the flash returned, or with a read error; the
flash serves one access at a time (R171). A load waits while its HOST instance is not its partition's (R135; DESIGN CHOICE, log
entry 104). -/
def execLoadStaged (h : Nat) (bytes : List Byte) (failed : Bool) (s : State) : Out :=
  if Config.nHosts s.part ≤ h then .fault .absentEndpoint
  else match (s.host h).load with
    | some j =>
      if j.phase ≠ .staging ∨ !(failed || stagedWhole bytes) ∨ (j.spi && s.sec.spiActive) ∨ !s.ownsHost h then .next s
      else .next ((if j.spi then s.spiRelease else s).staged h j bytes failed)
    | none => .next s

/-- The engines of an image, each once, in ascending order. -/
def State.imgEngines (s : State) (l : List Byte) : List Nat :=
  (List.range (Config.nEngines s.part)).filter fun e => (segsOf l).any fun g => g.eng == e

/-- The engine writes begin: each target engine is held and stopped (R93, R141). DESIGN CHOICE (log entry 104): RUN and START_PC
"before the load" are those of this moment. -/
def State.loadHold (s : State) (h : Nat) (j : Load) : State :=
  let es := s.imgEngines j.image
  let t := es.map fun e =>
    (e, if s.inRun (e / 4) B.ENG (e % 4) then some (s.rfF F.ENG.CTRL_START_PC (e / 4) (e % 4)) else none)
  let one (s : State) (e : Nat) : State :=
    match s.run (e / 4) B.ENG (e % 4) with
    | 1 => s.engStop e
    | 3 => s.setRun (e / 4) B.ENG (e % 4) 0
    | _ => s
  es.foldl one (s.setLoad h (some { j with phase := .writing, targets := t }))

/-- SIGNATURE_CHECK_DONE: SEC ends the oldest check of a load that goes on, and the loader makes the rest (R92, R135, R142). -/
def execSignatureCheckDone (s : State) : Out :=
  match s.sec.sigQueue.find? s.ownsHost with
  | none => .next s
  | some h =>
    let s1 := { s with sec := { s.sec with sigQueue := s.sec.sigQueue.erase h } }
    match (s1.host h).load with
    | some j =>
      let r := s1.stagingRead h j
      if r.2 then .next (s1.loadFinish h 0x10 none)
      else if s1.secFault ∨ !s1.imgSigned j.image then .next (r.1.loadFinish h 0x05 none)
      else
        match s1.segChecks h j.image with
        | some (c, i) => .next (r.1.loadFinish h c i)
        | none => .next (r.1.loadHold h { j with ecc := [] })
    | none => .next s1

/-! ## Writing the engines (R93) -/

/-- A memory of one engine under an image: what ZERO_FILL keeps, then the segments. -/
def loadMem (ext : Bool) (low : Nat) (l : List Byte) (segs : List Segment) (m : Store Byte) : Store Byte :=
  let zero := segs.any fun g => bitSet g.flags 1
  let m1 := if zero then (if ext then m.filter fun p => decide (p.1 < low) else []) else m
  segs.foldl (fun m g => Store.putList 0 m g.load (g.data l)) m1

/-- The ECC marks that stay: a word filled with zero or written whole has valid ECC. -/
def loadEcc (ext : Bool) (low : Nat) (segs : List Segment) (m : Store EccMark) : Store EccMark :=
  let zero := segs.any fun g => bitSet g.flags 1
  let m1 := if zero then (if ext then m.filter fun p => decide (8 * p.1 < low) else []) else m
  m1.filter fun p => !(segs.any fun g => decide (g.load ≤ 8 * p.1) && decide (8 * p.1 + 8 ≤ g.load + g.size))

/-- One engine's memories under an image. -/
def Engine.loaded (g : Engine) (l : List Byte) (e : Nat) : Engine :=
  let ext := imgExt l
  let mine (k : Nat) := (segsOf l).filter fun x => x.eng == e && x.kind == k
  { g with imem := loadMem ext 0xC000 l (mine 1) g.imem, imemEcc := loadEcc ext 0xC000 (mine 1) g.imemEcc,
           dmem := loadMem ext 0xE000 l (mine 2) g.dmem, dmemEcc := loadEcc ext 0xE000 (mine 2) g.dmemEcc }

/-- The entries that an image's segments ask to start an engine at. -/
def entriesOf (l : List Byte) (e : Nat) : List Nat :=
  ((segsOf l).filter fun g => g.eng == e && bitSet g.flags 0).map (·.entry)

/-- An engine after its writes (DESIGN CHOICE, log entry 104: of an ENTRY START_PC takes what it holds of ENTRY / 4, as the spec
names no check of it): an extension image restarts one that ran, an ordinary image starts those it asks for. Which
of several entries counts is not stated. -/
def State.loadStart (s : State) (l : List Byte) (e : Nat) (ran : Option Nat) : State :=
  if s.run (e / 4) B.ENG (e % 4) ≠ 0 then s
  else if imgExt l then
    match ran with
    | some a => (s.enterRun (e / 4) B.ENG (e % 4)).engStartedAt e a
    | none => s
  else
    match entriesOf l e with
    | [] => s
    | [a] => (s.wf F.ENG.CTRL_START_PC (e / 4) (e % 4) (a / 4)).engStart e
    | a :: r =>
      let k := s.draw.1.toNat % (r.length + 1)
      (s.draw.2.wf F.ENG.CTRL_START_PC (e / 4) (e % 4) ((a :: r).getD k a / 4)).engStart e

/-- LOAD_END: every target engine is stopped or has failed; the rest is written and started. -/
def execLoadEnd (h : Nat) (s : State) : Out :=
  if Config.nHosts s.part ≤ h then .fault .absentEndpoint
  else match (s.host h).load with
    | some j =>
      let ready := j.targets.all fun t => s.run (t.1 / 4) B.ENG (t.1 % 4) == 0 || s.run (t.1 / 4) B.ENG (t.1 % 4) == 3
      if j.phase ≠ .writing ∨ !ready ∨ !s.ownsHost h then .next s
      else if s.secFault then .next (s.loadFinish h 0x05 none)
      else if (s.stagingRead h j).2 then .next (s.loadFinish h 0x10 none)
      else
        let write (s : State) (t : Nat × Option Nat) : State :=
          if s.run (t.1 / 4) B.ENG (t.1 % 4) = 0 then
            (if imgExt j.image then s else s.romReplaced t.1).setEng t.1 ((s.eng t.1).loaded j.image t.1)
          else s
        let s1 := j.targets.foldl write (s.stagingRead h j).1
        .next ((j.targets.foldl (fun s t => s.loadStart j.image t.1 t.2) s1).loadFinish h 0x00 none)
    | none => .next s

/-- A HOST instance has entered FAULT: its load ends with nothing more written (R140, R141), and SEC checks nothing for it; where it was reading the flash,
a flash access that waited runs (R171). -/
def State.loadFault (s : State) (h : Nat) : State :=
  match (s.host h).load with
  | some j =>
    let s1 := if j.spi && j.phase == .staging then s.spiRelease else s
    { s1 with sec := { s1.sec with sigQueue := s1.sec.sigQueue.filter (· != h) } }.loadFinish h 0x12 none
  | none => s

/-! ## The host link (R155) -/

/-- What R155 does to an endpoint; a load that is staging from host memory ends with a read error. DESIGN CHOICE (log entry
84): a frame that has been read and waits for injection is DMA in flight and is lost; service requests in H_0's slots stay; the
slots that come free set no IRQ.MBI_FREED and raise no event 1. -/
def State.linkReset (s : State) (h : Nat) : State :=
  let d := s.hDie h
  let off (s : State) (k : Nat) : State :=
    let r := s.ring h k
    ((s.setRing h k { r with txJob := none, txReady := none, txOld := false }).putFlag (F.HOST.RING_CFG_TX_EN k) d 0 false).putFlag
      (F.HOST.RING_CFG_RX_EN k) d 0 false
  let s1 := ((List.range 16).foldl off s).ringsDrop h
  let x := s1.host h
  let s2 := s1.setHost h { x with mbiQ := [], mbiTaken := [], mboQ := [], mboUsed := [] }
  let s3 := ((s2.wf F.HBAR.MBI_FREE_FREE h 0 0xFFFF).setFlag F.HOST.ERR_LINK_RESET d 0).hostEvent h 3
  match (s3.host h).load with
  | some j => if j.phase = .staging ∧ !j.spi then s3.loadFinish h 0x10 none else s3
  | none => s3

/-- The link of an endpoint is down. -/
def State.linkDown (s : State) (d : Nat) : State :=
  ((s.putFlag F.HOST.LINK_UP d 0 false).wf F.HOST.LINK_SPEED d 0 0).wf F.HOST.LINK_WIDTH d 0 0

/-- HOST_LINK_RESET: the link goes down, the host resets the endpoint or its function with the link up, or PERST_N changes: each
fall takes the link down and acts as R155, and its rise lets the endpoint go (R489). In the internal reset the endpoint is in
fundamental reset already (R161). -/
def execHostLinkReset (h : Nat) (cause : HostReset) (s : State) : Out :=
  if Config.nHosts s.part ≤ h then .fault .absentEndpoint
  else
    let act (s : State) : State := if s.resets.asserted then s else s.linkReset h
    match cause with
    | .linkDown => .next (act (s.linkDown (s.hDie h)))
    | .hotReset | .functionReset => .next (act s)
    | .perst true => .next (s.setHost h { s.host h with perstN := true })
    | .perst false =>
      if (s.host h).perstN then .next (act ((s.setHost h { s.host h with perstN := false }).linkDown (s.hDie h))) else .next s

end Sys2Proof.Machine
end

