-- ==== Sys2Proof/Machine/Cal.lean ====
section
/-!
DEFINITION. Self-calibration and the non-volatile store: TEMP (R422 to R424), CAL's runs, points, interpolation and banks
(R425 to R431, R435 to R438), and NVS (R432 to R434).
-/
namespace Sys2Proof.Machine

/-- NVS and CAL of a die. -/
def State.nvsOf (s : State) (d : Nat) : NvsState := Store.get {} s.nvs d
def State.setNvs (s : State) (d : Nat) (n : NvsState) : State := { s with nvs := Store.put {} s.nvs d n }
def State.cal (s : State) (d : Nat) : CalState := Store.get {} s.cals d
def State.setCal (s : State) (d : Nat) (c : CalState) : State := { s with cals := Store.put {} s.cals d c }

/-! ## Temperature and coverage -/

/-- T_REF is T_0 (R422), in 1/16 °C. -/
def State.tRef (s : State) (d : Nat) : Int := s.rfS (F.TEMP.T_TEMP 0) d 0

/-- CAL_DT in 1/16 °C; 0 acts as 1 unit of 0.25 °C. -/
def State.calDt (s : State) (d : Nat) : Int := 4 * Int.ofNat (max (s.rf F.TEMP.CFG_CAL_DT d 0) 1)

/-- |a − b|. -/
def absDiff (a b : Int) : Int := max (a - b) (b - a)

/-- What the sequencer of a die keeps, replaced. -/
def State.setCalSeq (s : State) (d : Nat) (c : CalSeq) : State :=
  { s with rom := { s.rom with cals := Store.put {} s.rom.cals d c } }

/-- TEMP event 0 reaches the calibration sequencer of the die, where it runs (R424). -/
def State.calAsk (s : State) (d : Nat) : State :=
  if s.rom.progs.contains (4 * d + 1) then s.setCalSeq d { Store.get {} s.rom.cals d with asked := true } else s

/-- STATUS.ALARM follows the readings and CFG.ALARM (R423): event 1, and a rise sets ALARM_SEEN. -/
def State.refreshAlarm (s : State) (d : Nat) : State :=
  let hot := (List.range 4).any fun k =>
    decide (Int.ofNat (16 * s.rf F.TEMP.CFG_ALARM d 0) ≤ s.rfS (F.TEMP.T_TEMP k) d 0)
  let s1 := if hot && !s.flag F.TEMP.STATUS_ALARM d 0 then s.setFlag F.TEMP.ERR_ALARM_SEEN d 0 else s
  s1.wfRaise F.TEMP.STATUS_ALARM d 0 (ofBool hot) 1

/-- STATUS.DT_EXCEEDED follows its condition while TEMP is in RUN (R423), its rise raising event 0; and ALARM its own. -/
def State.refreshDt (s : State) (d : Nat) : State :=
  if s.inRun d B.TEMP 0 then
    let dt := s.rf F.TEMP.T_LAST_TEMP d 0 == 0x8000 ||
      decide (s.calDt d < absDiff (s.tRef d) (s.rfS F.TEMP.T_LAST_TEMP d 0))
    let s1 := if dt && !s.flag F.TEMP.STATUS_DT_EXCEEDED d 0 then
        ((s.setFlag F.TEMP.STATUS_DT_EXCEEDED d 0).raise d B.TEMP 0 0).calAsk d
      else s.putFlag F.TEMP.STATUS_DT_EXCEEDED d 0 dt
    s1.refreshAlarm d
  else s.refreshAlarm d

/-- T_REF lies within CAL_DT of a point, or between two points (R429). -/
def State.coverHolds (s : State) (d : Nat) : Bool :=
  let t := s.tRef d
  let p := (s.cal d).points
  p.any (fun x => decide (absDiff t x.temp ≤ s.calDt d)) ||
    (p.any (fun x => decide (x.temp ≤ t)) && p.any (fun x => decide (t ≤ x.temp)))

/-- COVERED follows its condition, and with it CAL_OK of every channel of the die (R319, R429). -/
def State.refreshCovered (s : State) (d : Nat) : State :=
  let v := ofBool (s.coverHolds d)
  if s.rf F.CAL.STATUS_COVERED d 0 = v then s
  else (List.range 8).foldl (fun s k => s.wfRaise F.EVT.STATUS_CAL_OK d k v 4) (s.wfRaise F.CAL.STATUS_COVERED d 0 v 2)

/-- An act that comes round every `n` ticks is due: `n` have passed since the last one. -/
def pace (last : Option Nat) (n now : Nat) : Bool :=
  match last with
  | some t => decide (t + n ≤ now)
  | none => true

/-- A sensor's reading, with MAX: the highest since the last read (R422). -/
def State.sensor (s : State) (d k : Nat) (t : BitVec 16) : State :=
  let s1 := s.wf (F.TEMP.T_TEMP k) d 0 t.toNat
  if s1.rfS F.TEMP.MAX_TEMP d 0 < t.toInt then s1.wf F.TEMP.MAX_TEMP d 0 t.toNat else s1

/-- TEMP_SAMPLE: the four sensors are read (R422, R423). -/
def execTempSample (d : Nat) (t0 t1 t2 t3 : BitVec 16) (s : State) : Out :=
  onDie d s fun s =>
    if s.inRun d B.TEMP 0 && pace (s.cal d).tempAt 625000 (s.tick d) then
      let s1 := s.setCal d { s.cal d with tempAt := some (s.tick d) }
      (((((s1.sensor d 0 t0).sensor d 1 t1).sensor d 2 t2).sensor d 3 t3).refreshDt d).refreshCovered d
    else s

/-- A write of TEMP.CFG. -/
def State.wrTempCfg (s : State) (d data : Nat) : State :=
  (((s.wf F.TEMP.CFG_ALARM d 0 (bitsOf data 16 8)).wf F.TEMP.CFG_CAL_DT d 0 (bitsOf data 0 8)).refreshDt d).refreshCovered d

/-! ## The store's words -/

/-- Bytes of the store. -/
def State.nvsBytes (s : State) (d off n : Nat) : List Byte := Store.getList 0 (s.nvsOf d).mem off n

/-- A read finds the ECC errors of the words it touches (R433). -/
def State.nvsTouch (s : State) (d off n : Nat) : State :=
  ((s.nvsOf d).ecc.filter fun p => (wordsOf off n).contains p.1).foldl (fun s p =>
    match p.2 with
    | .single => (s.setNvs d { s.nvsOf d with ecc := Store.put .good (s.nvsOf d).ecc p.1 .good }).setFlag
        (F.BLOCK.CFLAGS_ECC_CORR B.NVS) d 0
    | .double => ((s.setFlag F.NVS.ERR_UNCORR d 0).wf F.NVS.UNCORR_ADDR_OFFSET d 0 (8 * p.1)).raise d B.NVS 0 0
    | .good => s) s

/-- One word write completes: its bytes stand, its ECC is valid and it is counted (R432). -/
def State.nvsPut (s : State) (d off n data : Nat) : State :=
  let v := s.nvsOf d
  (s.setNvs d { v with mem := Store.putList 0 v.mem off (bytesLE n data), ecc := Store.put .good v.ecc (off / 8) .good }).addWrap
    F.NVS.WRITES_COUNT d 0 1

/-- NVS.STATUS.PEND: the writes waiting, at most 31. -/
def State.nvsPend (s : State) (d : Nat) : State := s.wf F.NVS.STATUS_PEND d 0 (min (s.nvsOf d).queue.length 31)

/-- STORE_FAIL (R438). -/
def State.storeFail (s : State) (d : Nat) : State := (s.setFlag F.CAL.ERR_STORE_FAIL d 0).raise d B.CAL 0 3

/-- The store in progress is abandoned. -/
def State.storeDrop (s : State) (d : Nat) : State :=
  ((s.setCal d { s.cal d with store := [], cut := false }).putFlag F.CAL.STATUS_STORING d 0 false).storeFail d

/-- The word of CAL's store is the one in the array. -/
def State.calWord (s : State) (d : Nat) : Bool := (s.nvsOf d).word == some true

/-- A free array takes the next word: engines' and CAL's alternate (R433). -/
def State.nvsBegin (s : State) (d : Nat) : State :=
  let v := s.nvsOf d
  if v.word.isSome then s
  else if (s.cal d).store != [] && (v.calTurn || v.queue == []) then s.setNvs d { v with word := some true }
  else if v.queue != [] then s.setNvs d { v with word := some false }
  else s

/-- A waiting engine write's result goes back to its writer. -/
def State.nvsAck (s : State) (d : Nat) (w : NvsWrite) : State :=
  match w.writer with
  | some e => s.judged e (mkFa d B.NVS 0 w.off) w.width w.data 0
  | none => s

/-- The word write in the array completes (R432, R433). -/
def State.nvsWordDone (s : State) (d : Nat) : State :=
  if s.calWord d then
    match (s.cal d).store with
    | w :: r =>
      let s1 := ((s.nvsPut d (8 * w.1) 8 w.2).setCal d { s.cal d with store := r })
      let s2 := s1.setNvs d { s1.nvsOf d with calTurn := false, word := none }
      (if (s.cal d).cut then s2.storeDrop d else s2).nvsBegin d
    | [] => s
  else
    match (s.nvsOf d).queue with
    | w :: r =>
      let s1 := s.nvsPut d w.off (w.width / 8) w.data
      (((s1.setNvs d { s1.nvsOf d with queue := r, calTurn := true, word := none }).nvsPend d).nvsAck d w).nvsBegin d
    | [] => s

/-- NVS_WORD_WRITE_DONE. -/
def execNvsWordWriteDone (d : Nat) (s : State) : Out := onDie d s fun s => s.nvsWordDone d

/-- NVS leaves RUN: the word in the array completes; writes that wait are ignored, and a store is abandoned (R434, R438). -/
def State.nvsCut (s : State) (d : Nat) : State :=
  if s.calWord d then
    let s1 := (s.nvsOf d).queue.foldl (fun s w => (s.setFlag F.NVS.ERR_STOPPED_WR d 0).nvsAck d w) s
    (s1.setNvs d { s1.nvsOf d with queue := [] }).nvsPend d |>.setCal d { s.cal d with
      store := (s.cal d).store.take 1, cut := true }
  else
    let s1 := ((s.nvsOf d).queue.drop 1).foldl (fun s w => (s.setFlag F.NVS.ERR_STOPPED_WR d 0).nvsAck d w) s
    let s2 := (s1.setNvs d { s1.nvsOf d with queue := (s.nvsOf d).queue.take 1 }).nvsPend d
    if (s2.cal d).store = [] then s2 else s2.storeDrop d

/-- No word is in the array. -/
def State.nvsDrained (s : State) (d : Nat) : Bool := (s.nvsOf d).queue == [] && !s.calWord d

/-- An engine may not write the word (R434): the calibration banks, and D0's SEC area. -/
def nvsProtected (d off : Nat) : Bool :=
  decide (off < 0xE080) || (d == 0 && decide (0x10800 ≤ off) && decide (off < 0x11000))

/-- The bytes of a die's store (R432). -/
def nvsSize (d : Nat) : Nat := if d = 0 then 0x40000 else 0x10000

/-- A write reaches the store: queued, or ignored past its end (R62), by state or, in RUN, by region (R433, R434); the Bool says
that it is queued. -/
def State.nvsPost (s : State) (by_ : Option Nat) (d off width data : Nat) : State × Bool :=
  if nvsSize d ≤ off then (s, false)
  else if !s.inRun d B.NVS 0 then (s.setFlag F.NVS.ERR_STOPPED_WR d 0, false)
  else if nvsProtected d off then (s.setFlag F.NVS.ERR_PROT d 0, false)
  else
    let v := s.nvsOf d
    (((s.setNvs d { v with queue := v.queue ++ [⟨off, width, data, by_⟩] }).nvsPend d).nvsBegin d, true)

/-- An earlier posted access of the engine to the store has not arrived yet (R54); those that wait in the store's queue have. -/
def State.nvsEarly (s : State) (e d off width data : Nat) : Bool :=
  let a := mkFa d B.NVS 0 off
  let open_ := (s.eng e).posted.filter fun p => p.result.isNone && sameInstance p.addr a
  match open_.drop ((s.nvsOf d).queue.countP fun w => w.writer == some e) with
  | p :: _ => !(p.addr == a && p.width == width && p.data == data)
  | [] => false

/-- NVS_WRITE: an engine's write of NVS.MEM; NVS's registers, from 0x8_0000 on, are no part of it. -/
def execNvsWrite (e d off width data : Nat) (s : State) : Out :=
  if Config.nEngines s.part ≤ e then .next s
  else if !(decide (off < 2 ^ 20) && s.has d B.NVS 0) then .fault .absentInstance
  else if s.resets.asserted || s.nvsEarly e d off width data || decide (0x80000 ≤ off) then .next s
  else
    let a := mkFa d B.NVS 0 off
    match s.accessCause e a width false with
    | 0 =>
      let r := s.nvsPost (some e) d off width data
      .next (if r.2 then r.1 else r.1.judged e a width data 0)
    | c => .next (s.judged e a width data c)

/-- What a read of the store returns: D0's SEC area reads as zero (R433, R434), and so does what lies past its end (R62). -/
def State.nvsGet (s : State) (d off width : Nat) : State × Nat :=
  if nvsSize d ≤ off ∨ (d = 0 ∧ 0x10800 ≤ off ∧ off < 0x11000) then (s, 0)
  else (s.nvsTouch d off (width / 8), leNat (s.nvsBytes d off (width / 8)))

/-- NVS_READ: a read of NVS.MEM. -/
def execNvsRead (e d off width : Nat) (s : State) : Out :=
  if 2 ^ 20 ≤ off then .fault .absentInstance
  else if 0x80000 ≤ off then .next s
  else arriveRead e (mkFa d B.NVS 0 off) width s fun s => s.nvsGet d off width

/-! ## Points (R430) -/

/-- Bytes of a point's content from its byte `off` of R430 on. -/
def CalPoint.bytes (p : CalPoint) (off n : Nat) : List Byte := (p.body.drop (off - 2)).take n

/-- Bytes and width of item `i` in a point, and whether it is signed. -/
def itemAt (i : Nat) : Nat × Nat × Bool :=
  if i < 1056 then (16 + 2 * i, 2, false)
  else if i < 1824 then (2128 + (i - 1056), 1, true)
  else if i < 1872 then (2896 + 2 * (i - 1824), 2, true)
  else if i < 1908 then (2992 + 2 * (i - 1872), 2, false)
  else (3064 + 2 * (i - 1908), 2, true)

/-- Item `i` of a point. -/
def CalPoint.item (p : CalPoint) (i : Nat) : Int :=
  let a := itemAt i
  let n := leNat (p.bytes a.1 a.2.1)
  if a.2.2 then toSigned (8 * a.2.1) n else Int.ofNat n

/-- The bytes of a point in a bank. -/
def CalPoint.stored (p : CalPoint) : List Byte :=
  bytesLE 2 (ofSigned 16 p.temp) ++ (p.body ++ List.replicate 3582 0).take 3582

/-- The points nearest in temperature. -/
def nearest (t : Int) (l : List CalPoint) : List CalPoint :=
  l.filter fun p => l.all fun q => decide (absDiff t p.temp ≤ absDiff t q.temp)

/-- One of the points nearest in temperature; which of two, where the spec does not say, is free. -/
def State.nearPoint (s : State) (t : Int) (l : List CalPoint) : Option CalPoint × State :=
  match nearest t l with
  | [] => (none, s)
  | [p] => (some p, s)
  | ps => (ps[s.draw.1.toNat % ps.length]?, s.draw.2)

/-- A point put in its place by ascending temperature. -/
def insertPoint (p : CalPoint) : List CalPoint → List CalPoint
  | [] => [p]
  | q :: r => if p.temp < q.temp then p :: q :: r else q :: insertPoint p r

/-! ## Banks (R435, R437) -/

/-- The byte offset of bank 1 (A) or 2 (B). -/
def bankOff (b : Nat) : Nat := if b = 1 then 0 else 0x7040

/-- A bank's points, from its bytes. -/
def bankPoints (l : List Byte) (n : Nat) : List CalPoint :=
  (List.range n).map fun j =>
    let x := (l.drop (64 + 3584 * j)).take 3584
    ⟨toSigned 16 (leNat (x.take 2)), x.drop 2⟩

/-- The points stand in ascending order of temperature. -/
def ascending : List CalPoint → Bool
  | p :: q :: r => decide (p.temp < q.temp) && ascending (q :: r)
  | _ => true

/-- A bank is valid: its sequence number and points (R437). -/
def bankJudge (d : Nat) (l : List Byte) : Option (Nat × List CalPoint) :=
  let npts := (l.getD 7 0).toNat
  let pts := bankPoints l npts
  if l.take 4 = [0x58, 0x43, 0x41, 0x4C] ∧ leNat ((l.drop 4).take 2) = 1 ∧ (l.getD 6 0).toNat = d ∧ npts ≤ 8 ∧
      leNat ((l.drop 16).take 4) = 28736 ∧
      leNat ((l.drop 56).take 4) = (crc32 (l.take 56 ++ l.drop 64)).toNat ∧ ascending pts = true then
    some (leNat ((l.drop 8).take 8), pts)
  else none

/-- A bank of the store judged. -/
def State.bank (s : State) (d b : Nat) : Option (Nat × List CalPoint) := bankJudge d (s.nvsBytes d (bankOff b) 28736)

/-- The newest valid bank: at equal SEQ, A (R437). -/
def State.newest (s : State) (d : Nat) : Option (Nat × Nat × List CalPoint) :=
  match s.bank d 1, s.bank d 2 with
  | some a, some b => if a.1 < b.1 then some (2, b) else some (1, a)
  | some a, none => some (1, a)
  | none, some b => some (2, b)
  | none, none => none

/-- The 28,736 bytes of a bank for a set (R435). -/
def bankBytes (d seq : Nat) (pts : List CalPoint) : List Byte :=
  let head : List Byte := [0x58, 0x43, 0x41, 0x4C, 1, 0, BitVec.ofNat 8 d, BitVec.ofNat 8 pts.length] ++ bytesLE 8 seq ++
    bytesLE 4 28736 ++ List.replicate 36 0
  let body := ((pts.flatMap CalPoint.stored) ++ List.replicate 28672 0).take 28672
  head ++ bytesLE 4 (crc32 (head ++ body)).toNat ++ List.replicate 4 0 ++ body

/-- The words of a store in their order of R436. -/
def storeWords (b : Nat) (l : List Byte) : List (Nat × Nat) :=
  ((List.range 3584).map (· + 8) ++ List.range 8).map fun w => (bankOff b / 8 + w, leNat ((l.drop (8 * w)).take 8))

/-- SET_SEQ, NPTS and PT_j show the working set. -/
def State.showSet (s : State) (d seq : Nat) (pts : List CalPoint) : State :=
  let s1 := ((s.setCal d { s.cal d with points := pts }).wf F.CAL.SET_SEQ_SEQ d 0 seq).wf F.CAL.STATUS_NPTS d 0 pts.length
  (List.range 8).foldl (fun s j => s.wf (F.CAL.PT_TEMP j) d 0
    (match pts[j]? with
     | some p => ofSigned 16 p.temp
     | none => 0x8000)) s1

/-- T_LAST is written (R423). -/
def State.setTLast (s : State) (d v : Nat) : State := ((s.wf F.TEMP.T_LAST_TEMP d 0 v).refreshDt d).refreshCovered d

/-- An invalid bank that is not blank is marked. -/
def State.markBank (s : State) (d b : Nat) : State :=
  if (s.bank d b).isNone && (s.nvsBytes d (bankOff b) 28736).any (· != 0) then
    s.setFlag (if b = 1 then F.CAL.ERR_BANK_BAD_A else F.CAL.ERR_BANK_BAD_B) d 0
  else s

/-! ## Runs -/

/-- The lanes' counts of qualifying report intervals (R426). -/
def State.laneQuals (s : State) (d : Nat) : List Nat := (List.range 24).map fun i => (s.lane (24 * d + i)).quals

/-- A GO (R425, R431). -/
def State.wrCalRun (s : State) (d data : Nat) : State :=
  if !bitSet data 30 then s
  else if s.flag F.CAL.RUN_BUSY d 0 then s.setFlag F.CAL.ERR_RUN_BUSY d 0
  else if !s.inRun d B.CAL 0 then s.wf F.CAL.RUN_STATUS d 0 3
  else (s.setCal d { s.cal d with goTemp := s.tRef d, goTick := s.tick d, skipped := [], piFrom := s.laneQuals d }).setFlag F.CAL.RUN_BUSY d 0

/-- CAL_RUN_GO: an engine writes CAL.RUN. -/
def execCalRunGo (e d : Nat) (s : State) : Out :=
  arriveWrite e (mkFa d B.CAL 0 4) 32 0x40000000 s fun s => s.wrCalRun d 0x40000000

/-- The run's count on the interpolator of lane `i` is complete: 2^22 qualifying intervals since GO (R426). -/
def State.piDone (s : State) (d i : Nat) : Bool :=
  decide ((s.cal d).piFrom.getD i 0 + 2 ^ 22 ≤ (s.lane (24 * d + i)).quals)

/-- CAL_PI_TIMEOUT: 100 ms after GO a lane's interpolator count is incomplete (R426). -/
def execCalPiTimeout (d i : Nat) (s : State) : Out :=
  onInst d B.LANE i s fun s =>
    let c := s.cal d
    if s.flag F.CAL.RUN_BUSY d 0 && bitSet (s.rfF F.CAL.CFG_SCOPE d 0) 1 &&
        decide (c.goTick + 62500000 ≤ s.tick d) && !c.skipped.contains i && !s.piDone d i then
      (s.setCal d { c with skipped := i :: c.skipped }).setFlag F.CAL.ERR_PI_SKIPPED d 0
    else s

/-- A run ends with a status. -/
def State.runEnds (s : State) (d status : Nat) : State :=
  ((s.putFlag F.CAL.RUN_BUSY d 0 false).wf F.CAL.RUN_STATUS d 0 status).raise d B.CAL 0 0

/-- SCOPE's item that byte `off` of a point belongs to. -/
def scopeOf (off : Nat) : Nat :=
  if off < 2128 then 0 else if off < 2896 then 1 else if off < 2992 then 2 else if off < 3064 then 3 else 4

/-- The die lacks what byte `off` of a point measures: zero (R430). -/
def lacksItem (p : Part) (d off : Nat) : Bool :=
  (decide (2064 ≤ off) && decide (off < 2128) && d != 0) ||
    (decide (3050 ≤ off) && decide (off < 3064) &&
      (let k := (off - 3050) / 2
       let peer := if k < d then k else k + 1
       decide (Config.nDies p ≤ peer)))

/-- Byte `off` of a run's point was measured by the run (R425, R426). -/
def State.measured (s : State) (d off : Nat) : Bool :=
  bitSet (s.rfF F.CAL.CFG_SCOPE d 0) (scopeOf off) &&
    !(scopeOf off == 1 && (s.cal d).skipped.contains ((off - 2128) / 32))

/-- Free bytes. -/
def State.drawBytes (s : State) (n : Nat) : List Byte × State :=
  ((List.range n).map fun i => (Config.freeValue (s.free + i)).truncate 8, { s with free := s.free + n })

/-- The point of a run, with `meas` the bytes measured at 16 to 3,095: what was not measured is copied from the nearest
point, free where there is none (R427, R430). -/
def State.runPoint (s : State) (d : Nat) (t : Int) (seq : Nat) (meas : List Byte) (old : Option CalPoint) :
    CalPoint × State :=
  let r := match old with
    | some p => (p.bytes 16 3080, s)
    | none => s.drawBytes 3080
  let pick (j : Nat) : Byte :=
    if lacksItem s.part d (16 + j) then 0
    else if s.measured d (16 + j) then meas.getD j 0
    else r.1.getD j 0
  (⟨t, bytesLE 2 (s.rfF F.CAL.CFG_SCOPE d 0) ++ List.replicate 4 0 ++ bytesLE 8 seq ++ (List.range 3080).map pick ++
    List.replicate 488 0⟩, r.2)

/-- The working set with a run's point (R427). -/
def State.placePoint (s : State) (d : Nat) (p : CalPoint) (old : Option CalPoint) : List CalPoint :=
  let pts := (s.cal d).points
  match old with
  | none => [p]
  | some q =>
    if 2 * absDiff p.temp q.temp ≤ s.calDt d ∨ 8 ≤ pts.length then insertPoint p (pts.filter fun x => x.temp != q.temp)
    else insertPoint p pts

/-- The store of the working set begins (R436), or fails at once with NVS not in RUN (R438). -/
def State.storeBegin (s : State) (d : Nat) : State :=
  if s.inRun d B.NVS 0 then
    let b := match s.newest d with
      | some (1, _) => 2
      | _ => 1
    let words := storeWords b (bankBytes d (s.rf F.CAL.SET_SEQ_SEQ d 0) (s.cal d).points)
    (s.setCal d { s.cal d with store := words, target := b, cut := false }).setFlag F.CAL.STATUS_STORING d 0 |>.nvsBegin d
  else s.storeFail d

/-- The set's next sequence number (R427). -/
def State.nextSeq (s : State) (d : Nat) : Nat :=
  let banks := [s.bank d 1, s.bank d 2].filterMap fun b => b.map (·.1)
  (banks.foldl max (s.rf F.CAL.SET_SEQ_SEQ d 0) + 1) % 2 ^ 64

/-- The tick at which the count on the delay lines is complete (R425): 2^(HITS + 16) hits, one per 2^RATE_DIV periods. -/
def State.hitsEnd (s : State) (d : Nat) : Nat :=
  let hits := 2 ^ (s.rfF F.CAL.CFG_HITS d 0 + 16 + s.rfF F.CAL.CFG_RATE_DIV d 0)
  if bitSet (s.rfF F.CAL.CFG_SCOPE d 0) 0 then (s.cal d).goTick + hits else 0

/-- The counts of the run are complete: on the delay lines (R425), and on each lane's interpolator but those skipped (R426). -/
def State.runCounted (s : State) (d : Nat) : Bool :=
  decide (s.hitsEnd d ≤ s.tick d) && (!bitSet (s.rfF F.CAL.CFG_SCOPE d 0) 1 ||
    (List.range 24).all fun i => (s.cal d).skipped.contains i || s.piDone d i)

/-- CAL_RUN_END: the measurements of a run are complete (R427); `meas` holds the bytes measured, from byte 16 of R430. -/
def execCalRunEnd (d : Nat) (meas : List Byte) (s : State) : Out :=
  onDie d s fun s =>
    if !s.flag F.CAL.RUN_BUSY d 0 || !s.runCounted d then s
    else
      let c := s.cal d
      if 16 < absDiff (s.tRef d) c.goTemp then (s.setFlag F.CAL.ERR_RUN_UNSTABLE d 0).runEnds d 2
      else
        let t := s.quot (c.goTemp + s.tRef d) 2
        let near := t.2.nearPoint t.1 c.points
        let seq := near.2.nextSeq d
        let p := near.2.runPoint d t.1 seq meas near.1
        let s1 := p.2.showSet d seq (p.2.placePoint d p.1 near.1)
        let s2 := s1.wf F.CAL.LAST_RUN_TIME d 0 (xtOfUnits (s1.now d)).toNat
        ((s2.setTLast d (ofSigned 16 t.1)).runEnds d 0).storeBegin d

/-- CAL_STORE_END: the last word of a store has been written (R436). -/
def execCalStoreEnd (d : Nat) (s : State) : Out :=
  onDie d s fun s =>
    if s.flag F.CAL.STATUS_STORING d 0 && (s.cal d).store == [] then
      ((s.putFlag F.CAL.STATUS_STORING d 0 false).wf F.CAL.STATUS_BANK d 0 (s.cal d).target).raise d B.CAL 0 1
    else s

/-! ## Interpolation (R428) -/

/-- The two points that bracket T_REF, or the end point twice. -/
def bracket (t : Int) (l : List CalPoint) : Option (CalPoint × CalPoint) :=
  match (l.filter fun p => decide (p.temp ≤ t)).getLast?, (l.filter fun p => decide (t < p.temp)).head? with
  | some a, some b => some (a, b)
  | some a, none => some (a, a)
  | none, some b => some (b, b)
  | none, none => none

/-- Item `i` at T_REF between two points. -/
def State.between (s : State) (t : Int) (a b : CalPoint) (i : Nat) : Int × State :=
  if a.temp = b.temp then (a.item i, s)
  else
    let r := s.quot ((b.item i - a.item i) * (t - a.temp)) (b.temp - a.temp)
    (a.item i + r.1, r.2)

/-- Every item at T_REF, with the state after what it draws. -/
def State.allItems (s : State) (t : Int) (a b : CalPoint) : List Int × State :=
  (List.range 1924).foldl (fun x i =>
    let r := x.2.between t a b i
    (x.1 ++ [r.1], r.2)) ([], s)

/-- The registers that show coefficients in force: TSU.DLY of each lane, EVT.CAL of each channel (R247, R317, R330). -/
def State.showCoeffs (s : State) (d : Nat) : State :=
  let co (i : Nat) : Int := (s.coeff d i).getD 0
  let s1 := (List.range 24).foldl (fun s i =>
    (s.wf F.TSU.DLY_TX_CAL d i (ofSigned 32 (co (1824 + 2 * i)))).wf F.TSU.DLY_RX_CAL d i
      (ofSigned 32 (co (1825 + 2 * i)))) s
  (List.range 8).foldl (fun s k =>
    let bin := s.quot (125 * co (32 * (24 + k) + 31)) 640
    ((bin.2.wf F.EVT.CAL_IN_CAL_R d k (ofSigned 16 (co (1908 + 2 * k)))).wf F.EVT.CAL_IN_CAL_F d k
      (ofSigned 16 (co (1909 + 2 * k)))).wf F.EVT.CAL_BIN d k bin.1.toNat) s1

/-- CAL_INTERPOLATE: every coefficient is computed at T_REF and applied on one ridge tick. -/
def execCalInterpolate (d : Nat) (s : State) : Out :=
  onDie d s fun s =>
    if s.active d B.CAL 0 && pace (s.cal d).interpAt 6250000 (s.tick d) then
      match bracket (s.tRef d) (s.cal d).points with
      | some (a, b) =>
        let r := s.allItems (s.tRef d) a b
        (r.2.setCal d { r.2.cal d with applied := true, coeffs := Store.putList 0 [] 0 r.1, interpAt := some (s.tick d) }).showCoeffs d
      | none => s
    else s

/-! ## Run state -/

/-- The lowest failing code of CAL's FN.START. -/
def State.calStartErr (s : State) (d : Nat) : Nat :=
  let h := s.rf F.CAL.CFG_HITS d 0
  let r := s.rf F.CAL.CFG_RATE_DIV d 0
  if h < 2 ∨ 6 < h then 0x10
  else if r < 2 ∨ 6 < r then 0x11
  else if s.rf F.CAL.CFG_SCOPE d 0 = 0 then 0x12
  else 0

/-- CAL enters RUN: both banks are judged and the newest valid one loaded (R437). -/
def State.calStarted (s : State) (d : Nat) : State :=
  let s0 := ((s.nvsTouch d 0 0xE080).markBank d 1).markBank d 2
  match s0.newest d with
  | some (b, seq, pts) =>
    let s1 := (s0.showSet d seq pts).wf F.CAL.STATUS_BANK d 0 b
    let near := s1.nearPoint (s1.tRef d) pts
    near.2.setTLast d (match near.1 with
      | some p => ofSigned 16 p.temp
      | none => 0x8000)
  | none =>
    (((s0.showSet d 0 []).wf F.CAL.STATUS_BANK d 0 0).setFlag F.CAL.ERR_NO_SET d 0).setTLast d 0x8000

/-- CAL leaves RUN: a run is abandoned (R431); a store completes. -/
def State.calStopping (s : State) (d : Nat) : State := if s.flag F.CAL.RUN_BUSY d 0 then s.runEnds d 1 else s

/-- CAL ends what its drain leaves: a store unfinished fails, after the word in the array (R432). -/
def State.calForced (s : State) (d : Nat) : State :=
  if (s.cal d).store = [] then s
  else if s.calWord d then s.setCal d { s.cal d with store := (s.cal d).store.take 1, cut := true }
  else s.storeDrop d

/-- CAL's drain is complete: no store is in progress. -/
def State.calDrained (s : State) (d : Nat) : Bool := !s.flag F.CAL.STATUS_STORING d 0

end Sys2Proof.Machine
end

