-- ==== Sys2Proof/Machine/Run.lean ====
section
/-!
DEFINITION. Run states (R78 to R84): requests to start and stop an instance, drains and their limits, entry to FAULT, and
the start checks of PERF and HIST (R446, R457). What a block does at each transition is its chapter's.
-/
namespace Sys2Proof.Machine

/-! ## PERF and HIST -/

/-- A listed source: 1 an event source, 2 a level source, 0 none (R444). -/
def perfKind (src : Nat) : Nat :=
  if [1, 2, 3, 4, 5, 6, 7, 0x10, 0x11, 0x12, 0x18, 0x20, 0x21, 0x22].contains src then 1
  else if [0x30, 0x31, 0x32, 0x33, 0x34].contains src then 2
  else 0

/-- INDEX is in range for its source (R444). -/
def perfIndexOk (p : Part) (d src idx : Nat) : Bool :=
  match src with
  | 0x10 | 0x11 | 0x12 | 0x32 => idx == 0
  | 0x18 => decide (idx < Config.nDies p) && idx != d
  | 0x20 | 0x21 | 0x22 | 0x34 => decide (idx < 4)
  | 0x30 => decide (idx < 384)
  | 0x33 => decide (idx < 25)
  | _ => decide (idx < 24)

/-- The lowest failing code of PERF's FN.START (R446). -/
def State.perfStartErr (s : State) (d : Nat) : Nat :=
  let cs := List.range 8
  let mode (c : Nat) := s.rf (F.PERF.SEL_MODE c) d 0
  let src (c : Nat) := s.rf (F.PERF.SEL_SRC c) d 0
  let idx (c : Nat) := s.rf (F.PERF.SEL_INDEX c) d 0
  let win := s.rf F.PERF.BW_CFG_WINDOW d 0
  if cs.any fun c => decide (5 ≤ mode c) || perfKind (src c) == 0 then 0x10
  else if cs.any fun c => (mode c == 1 && perfKind (src c) == 2) || (decide (2 ≤ mode c) && perfKind (src c) == 1) then 0x11
  else if cs.any fun c => !perfIndexOk s.part d (src c) (idx c) then 0x12
  else if win = 0 ∨ 1000000 < win then 0x13
  else if 24 < s.rf F.PERF.TAG_CFG_FR_LOG2 d 0 ∨ 24 < s.rf F.PERF.TAG_CFG_IN_LOG2 d 0 ∨ s.rf F.PERF.TAG_SEED_SEED d 0 = 0 then
    0x14
  else 0

/-- PERF enters RUN: both LFSRs are loaded and window counting begins (R448, R449). -/
def State.perfStarted (s : State) (d : Nat) : State :=
  let seed := s.rfF F.PERF.TAG_SEED_SEED d 0
  s.setPerf d { s.perf d with lfsrF := seed, lfsrI := seed, window := s.tick d, bytes := [] }

/-- PERF leaves RUN: the window in progress is discarded, items in flight are abandoned and counted (R448, R452). -/
def State.perfStopping (s : State) (d : Nat) : State :=
  let p := s.perf d
  let n := p.frame.toList.length + p.instr.toList.length
  let s1 := ((s.setPerf d { p with frame := none, instr := none, bytes := [] }).putFlag F.PERF.TAG_STAT_FR_BUSY d 0
    false).putFlag F.PERF.TAG_STAT_IN_BUSY d 0 false
  s1.addSat F.PERF.TAG_LOST_COUNT d 0 n

/-- The port or channel that a HIST unit names (R457): its owner, where its source names one. -/
def State.histNamed (s : State) (d src idx : Nat) : Option Nat :=
  if src = 1 ∧ idx = 0x1FF then none
  else if src = 6 then some (s.owner d B.EVT idx)
  else if src = 2 then some (s.owner d B.QUE (idx / 16))
  else some (s.owner d B.QUE idx)

/-- The lowest failing code of a HIST unit's FN.START (R457). -/
def State.histStartErr (s : State) (d i : Nat) : Nat :=
  let src := s.rf F.HIST.CFG_SRC d i
  let idx := s.rf F.HIST.CFG_INDEX d i
  let edge (k : Nat) : Int := toSigned 48 (s.rf (F.HIST.EDGE_EDGE k) d i)
  let top := if src = 2 then 384 else if src = 6 then 8 else 24
  let owner := s.owner d B.HIST i
  let foreign := match s.histNamed d src idx with
    | some o => owner != 0 && o != owner
    | none => false
  if src = 0 ∨ 6 < src then 0x10
  else if top ≤ idx ∧ ¬(src = 1 ∧ idx = 0x1FF) then 0x11
  else if foreign then 0x12
  else if (List.range 30).any fun k => decide (edge (k + 1) ≤ edge k) then 0x13
  else if (src = 2 ∨ src = 3) ∧ 20 < s.rf F.HIST.CFG_SPER d i then 0x14
  else 0

/-! ## What each block does at a transition -/

/-- The consistency rules of a block's chapter: the lowest failing code, 0 for none (R80). -/
def State.blockStartErr (s : State) (die blk inst : Nat) : Nat :=
  match blk with
  | 0x08 => s.laneStartErr die inst
  | 0x09 => s.pcsStartErr die inst
  | 0x0A => s.pllStartErr die
  | 0x0C => s.ridgeStartErr die
  | 0x0E => s.linkStartErr die inst
  | 0x0F => s.summitStartErr
  | 0x10 => s.gnssStartErr
  | 0x11 => s.evtStartErr die inst
  | 0x12 => s.fieldStartErr die
  | 0x18 => s.queStartErr die inst
  | 0x19 => s.gateStartErr die inst
  | 0x1A => s.mirrStartErr die
  | 0x1B => s.prpStartErr die inst
  | 0x20 => s.perfStartErr die
  | 0x21 => s.histStartErr die inst
  | 0x22 => s.calStartErr die
  | _ => 0

/-- What a block does on entry to RUN. -/
def State.blockStarted (s : State) (die blk inst : Nat) : State :=
  match blk with
  | 0x01 => s.engStarted (4 * die + inst)
  | 0x08 => s.laneStarted (24 * die + inst)
  | 0x09 => (s.pcsStarted (24 * die + inst)).maxfCheck (24 * die + inst)
  | 0x0A => s.pllStarted die
  | 0x0C => s.ridgeStarted die
  | 0x0E => s.linkStarted (24 * die + inst)
  | 0x0F => s.summitStarted
  | 0x10 => s.gnssStarted
  | 0x11 => s.evStarted (8 * die + inst)
  | 0x12 => s.fieldStarted die
  | 0x14 => s.l2Started die
  | 0x15 | 0x16 => s.tblStarted die blk
  | 0x18 => s.queStarted (24 * die + inst)
  | 0x19 => s.gateStarted (24 * die + inst)
  | 0x1C => s.meshStarted die inst
  | 0x20 => s.perfStarted die
  | 0x22 => s.calStarted die
  | 0x23 => s.refreshDt die
  | _ => s

/-- What a block does as it leaves RUN, for STOPPING or FAULT (R84). -/
def State.blockLeaves (s : State) (die blk inst : Nat) : State :=
  match blk with
  | 0x03 => s.nvsCut die
  | 0x08 => (s.refreshLanes (24 * die + inst)).followRefs
  | 0x09 => s.pcsStopping (24 * die + inst) (s.lanesOf (24 * die + inst))
  | 0x0A => s.pllStopped die
  | 0x0C => s.ridgeStopped die
  | 0x0D => s.tsuStopping (24 * die + inst)
  | 0x0E => s.linkStopped (24 * die + inst)
  | 0x10 => s.gnssStopped
  | 0x11 => s.evtLeaveRun (8 * die + inst)
  | 0x12 => s.fieldStopped die
  | 0x14 => s.l2Stopped die
  | 0x15 | 0x16 => s.tblStopped die blk
  | 0x1B => s.prpStopped die inst
  | 0x20 => s.perfStopping die
  | 0x22 => s.calStopping die
  | _ => s

/-- The STOPPING action of R84 is complete. -/
def State.blockDrained (s : State) (die blk inst : Nat) : Bool :=
  match blk with
  | 0x01 => s.engDrained (4 * die + inst)
  | 0x02 => match Config.dieHost s.part die with
    | some h => (List.range 16).all fun k => (s.ring h k).txJob == none
    | none => true
  | 0x03 => s.nvsDrained die
  | 0x09 => (s.port (24 * die + inst)).tx == none
  | 0x14 => (s.l2t die).scan == none
  | 0x15 | 0x16 => s.tblDrained die blk
  | 0x18 => s.queDrained (24 * die + inst)
  | 0x1C => s.meshDrained die inst
  | 0x22 => s.calDrained die
  | _ => true

/-- A descriptor in progress is discarded and its frame counted in the ring's DROPS, HOST's own counter (R81; DESIGN CHOICE,
log entry 79). -/
def State.txAbandon (s : State) (h k : Nat) : State :=
  let r := s.ring h k
  if r.txJob.isSome then (s.setRing h k { r with txJob := none, txOld := false }).ringDrop h k else s

/-- The frames of the cells in flight from die `a` to die `b`, discarded with them and counted at the sender (R81; DESIGN
CHOICE, log entry 79). -/
def State.flightCut (s : State) (a b : Nat) : State :=
  let n := (((s.onWay a b).map fun c => c.frame.id).eraseDups).length
  (s.cellsCut a b).addSat F.MESH.STG_DROP_COUNT a b n

/-- What remains undone at the drain limit is discarded and counted (R81, R84). -/
def State.blockForced (s : State) (die blk inst : Nat) : State :=
  match blk with
  | 0x02 => match Config.dieHost s.part die with
    | some h => (List.range 16).foldl (fun s k => s.txAbandon h k) s
    | none => s
  | 0x09 => s.txCutOff (24 * die + inst)
  | 0x14 => s.l2ScanCut die
  | 0x15 | 0x16 => s.tblForced die blk
  | 0x18 => s.queFlush (24 * die + inst)
  | 0x1C => (s.flightCut die inst).flightCut inst die
  | 0x22 => s.calForced die
  | _ => s

/-- What a block's stopped behaviour is on entry to STOPPED or FAULT (R84). -/
def State.blockStopped (s : State) (die blk inst : Nat) : State :=
  match blk with
  | 0x02 => match Config.dieHost s.part die with
    | some h => s.ringsDrop h
    | none => s
  | 0x08 => s.laneStopped (24 * die + inst)
  | 0x09 => s.refreshLanes (24 * die + inst)
  | 0x12 => s.fieldStopped die
  | 0x18 => s.poolShow die
  | 0x19 => s.gateStopped (24 * die + inst)
  | 0x1C => s.meshStopped die inst
  | _ => s

/-! ## Requests -/

/-- Why an FN.START of an instance that is not in RUN is refused, 0 for none: the run state, a change of owner, a loader,
then the block's own rules (R71, R80, R81, R141). -/
def State.startErr (s : State) (die blk inst : Nat) : Nat :=
  match s.run die blk inst with
  | 3 => 0x02
  | 2 => 0x01
  | _ =>
    if s.ownHeld die blk inst then 0x03
    else if blk = B.ENG ∧ s.loaderHolds (4 * die + inst) = true then 0x10
    else s.blockStartErr die blk inst

/-- A refused start (R80). -/
def State.startRefused (s : State) (die blk inst code : Nat) : State :=
  (s.setFlag (F.BLOCK.CFLAGS_START_REFUSED blk) die inst).wf (F.BLOCK.FSTATE_START_ERR blk) die inst code

/-- An FN.START reaches its instance; `by_` is the engine that waits, if any. The leader's RIDGE answers at its apply tick
(R236); SYS and SEC do nothing (R78, R169). -/
def State.startRequest (s : State) (by_ : Option Nat) (die blk inst : Nat) : State :=
  let reply (s : State) (code : Nat) : State := s.startReply by_.toList die blk inst code
  if s.inRun die blk inst then reply (s.wf (F.BLOCK.FSTATE_START_ERR blk) die inst 0) 0
  else if blk = B.SYS ∨ blk = B.SEC then reply s (s.rf (F.BLOCK.FSTATE_START_ERR blk) die inst)
  else
    match blk, (s.ridge die).pendStart with
    | 0x0C, some p => s.setRidge die { s.ridge die with pendStart := some { p with by_ := p.by_ ++ by_.toList } }
    | _, _ =>
      let c := s.startErr die blk inst
      if c ≠ 0 then reply (s.startRefused die blk inst c) c
      else if blk = B.RIDGE ∧ die = s.leader then s.ridgePend die by_.toList
      else reply ((s.enterRun die blk inst).blockStarted die blk inst) 0

/-- An FN.STOP reaches its instance (R81). -/
def State.stopRequest (s : State) (die blk inst : Nat) : State :=
  if blk = B.SYS ∨ blk = B.SEC then s
  else
    match s.run die blk inst with
    | 1 =>
      if blk = B.ENG then s.engStop (4 * die + inst)
      else (s.setRun die blk inst 2).blockLeaves die blk inst
    | 3 => s.setRun die blk inst 0
    | 0 => if blk = B.RIDGE then s.ridgeCancel die else s
    | _ => s

/-- RUN_STATE_REQUEST_ARRIVE: a request of an engine, judged by R63 where it arrives, or of the boot sequence. -/
def execRunStateRequestArrive (by_ : Option Nat) (die blk inst : Nat) (req : RunReq) (s : State) : Out :=
  match by_, req with
  | none, .start => onInst die blk inst s fun s => s.startRequest none die blk inst
  | none, .stop => onInst die blk inst s fun s => s.stopRequest die blk inst
  | some e, .stop =>
    if !s.has die blk inst then .fault .absentInstance
    else arriveWrite e (mkFa die blk inst 0) 0 0 s fun s => s.stopRequest die blk inst
  | some e, .start =>
    if Config.nEngines s.part ≤ e then .next s
    else if !s.has die blk inst then .fault .absentInstance
    else if s.resets.asserted || s.behind e (mkFa die blk inst 0) then .next s
    else
      let c := s.accessCause e (mkFa die blk inst 0) 0 false
      if c = 0 then .next ((s.tagTarget e die false).startRequest (some e) die blk inst) else .next (s.answer e (mkFa die blk inst 0) c 0)

/-! ## Drains and FAULT -/

/-- The drain limit of a block, in ridge ticks (R84). -/
def drainLimit (blk : Nat) : Nat :=
  match blk with
  | 0x01 => 1250
  | 0x02 => 12500
  | 0x09 => 125000
  | 0x18 => 6250000
  | 0x1C => 6250
  | 0x22 => 3125000
  | _ => 625

/-- The instance enters STOPPED. -/
def State.enterStopped (s : State) (die blk inst : Nat) : State :=
  if blk = B.ENG then s.engStopped (4 * die + inst)
  else (s.setRun die blk inst 0).blockStopped die blk inst

/-- DRAIN_COMPLETE: a drain is complete (R81). -/
def execDrainComplete (die blk inst : Nat) (s : State) : Out :=
  onInst die blk inst s fun s =>
    if s.run die blk inst = 2 ∧ s.blockDrained die blk inst = true then s.enterStopped die blk inst else s

/-- DRAIN_LIMIT_EXPIRE: the limit has passed; a drain complete by then counts as complete (R81). -/
def execDrainLimitExpire (die blk inst : Nat) (s : State) : Out :=
  onInst die blk inst s fun s =>
    if s.run die blk inst ≠ 2 ∨ s.tick die + 1 < Store.get 0 s.stopAt (instKey die blk inst) + drainLimit blk then s
    else if s.blockDrained die blk inst then s.enterStopped die blk inst
    else ((s.blockForced die blk inst).setFlag (F.BLOCK.CFLAGS_DRAIN_FORCED blk) die inst).enterStopped die blk inst

/-- What an entry to FAULT from STOPPING or STOPPED does beside: a PCS breaks its lanes' continuity (R191). -/
def State.faultAnyway (s : State) (die blk inst : Nat) : State :=
  if blk = B.PCS then (s.lanesOf (24 * die + inst)).foldl (fun s l => s.ptGen l) s else s

/-- A HOST instance in FAULT ends its load (R141). -/
def State.hostFault (s : State) (die : Nat) : State :=
  match Config.dieHost s.part die with
  | some h => s.loadFault h
  | none => s

/-- ENTER_FAULT: an uncorrectable error in a block's structural state, or a failed internal check (R81). SYS never enters
FAULT, and SEC does at its self-test alone (R84, R169). -/
def execEnterFault (die blk inst code : Nat) (s : State) : Out :=
  onInst die blk inst s fun s =>
    if s.run die blk inst = 3 ∨ blk = B.SYS ∨ blk = B.SEC then s
    else if blk = B.ENG then s.engFault (4 * die + inst) code
    else
      let s0 := if blk = B.RIDGE then s.ridgeCancel die else s
      let s1 := s0.recordFault die blk inst code
      let s2 := if s.inRun die blk inst then s1.blockLeaves die blk inst else s1.faultAnyway die blk inst
      let s3 := if s.active die blk inst then s2.blockForced die blk inst else s2
      let s4 := s3.blockStopped die blk inst
      if blk = B.HOST then s4.hostFault die else s4

end Sys2Proof.Machine
end

