-- ==== Sys2Proof/Machine/Sec.lean ====
section
/-!
DEFINITION. SEC's registers and commands: lifecycle, keys, debug secret, owner password, rollback counter, the lock of the
debug port, and flash accesses by programs (R169, R171 to R177, R180, R181).
-/
namespace Sys2Proof.Machine

/-- An event of SEC. -/
def State.secEvent (s : State) (ev : Nat) : State := s.raise 0 B.SEC 0 ev

/-- The state of a key slot as KEY_STATE.SLOTS shows it. -/
def slotCode : KeySlot → Nat
  | .empty => 0
  | .enrolled _ => 1
  | .revoked _ => 2

/-- The public key that a slot holds, revoked or not. -/
def slotKey : KeySlot → Option (List Byte)
  | .empty => none
  | .enrolled pub => some pub
  | .revoked pub => some pub

/-- Key slot `k`. -/
def State.slot (s : State) (k : Nat) : KeySlot := Store.get .empty s.otp.keys k

/-- Slots enrolled and not revoked. -/
def State.liveSlots (s : State) : List Nat := [0, 1, 2, 3].filter fun k => slotCode (s.slot k) == 1

/-- A field of SEC as a read finds it: fuses and the SEC area of NVS are read where they are kept; a command's key fields
read as zero. -/
def State.secVal (s : State) (f : Fld) (die inst : Nat) : Nat :=
  match f.off, f.lo with
  | 0x00, 0 => s.otp.lifecycle
  | 0x14, 9 => ofBool s.secNvs.password.isSome
  | 0x14, 8 => ofBool s.otp.secret.isSome
  | 0x14, _ => slotCode (s.slot 0) + 4 * slotCode (s.slot 1) + 16 * slotCode (s.slot 2) + 64 * slotCode (s.slot 3)
  | 0x20, _ => ((slotKey (s.slot 0)).map keyIdOf).getD 0
  | 0x28, _ => ((slotKey (s.slot 1)).map keyIdOf).getD 0
  | 0x30, _ => ((slotKey (s.slot 2)).map keyIdOf).getD 0
  | 0x38, _ => ((slotKey (s.slot 3)).map keyIdOf).getD 0
  | 0x40, 0 => s.otp.rollback
  | 0x48, 6 => ofBool s.secNvs.lockout
  | 0x48, 5 => ofBool s.secNvs.allowPwd
  | 0x48, 4 => ofBool s.secNvs.allowChal
  | 0x48, 0 => s.secNvs.fails
  | _, _ => s.rf f die inst

/-- One of several failing codes: the only one, or a free choice where the spec ranks them nowhere. -/
def State.pickCode (s : State) (l : List Nat) : Nat × State :=
  match l with
  | [] => (0, s)
  | [c] => (c, s)
  | c :: r => ((c :: r).getD (s.draw.1.toNat % (r.length + 1)) c, s.draw.2)

/-- The SEC area of D0's NVS is written, with valid contents from then on (R180). -/
def State.setSecNvs (s : State) (n : SecNvs) : State := { s with secNvs := { n with ok := true } }

/-! ## Lifecycle (R173, R174) -/

/-- The port closes: engines it halted run on. -/
def State.dbgClose (s : State) : State :=
  { s with sec := { s.sec with dbgHalted := [], dbgStep := none } }.putFlag F.SEC.DBG_OPEN 0 0 false

/-- What forbids an advance to `target` with `confirm`. -/
def State.lcRefusals (s : State) (target confirm : Nat) : List Nat :=
  (if target = s.otp.lifecycle + 1 ∧ target ≤ 3 then [] else [1]) ++
    (if target = 2 ∧ s.liveSlots = [] then [2] else []) ++ (if confirm = 0xA5 then [] else [3])

/-- SEC.LC written. -/
def State.wrLc (s : State) (data : Nat) : State :=
  let target := bitsOf data 8 4
  if s.secFault then s.wf F.SEC.LC_ADV_STATUS 0 0 4
  else
    match s.lcRefusals target (bitsOf data 16 8) with
    | [] =>
      ({ s with otp := { s.otp with lifecycle := target } }.wf F.SEC.LC_ADV_STATUS 0 0 0).dbgClose.secEvent 4
    | l =>
      let c := s.pickCode l
      c.2.wf F.SEC.LC_ADV_STATUS 0 0 c.1

/-- LC_ADVANCE. -/
def execLcAdvance (e target confirm : Nat) (s : State) : Out :=
  let data := confirm % 256 * 2 ^ 16 + target % 16 * 2 ^ 8
  arriveWrite e (mkFa 0 B.SEC 0 0x00) 32 data s fun s => s.wrLc data

/-! ## Keys, debug secret and password (R174, R175, R177) -/

/-- Bytes of the staging window. -/
def State.staged_ (s : State) (n : Nat) : List Byte := Store.getList 0 s.sec.staging 0 n

/-- A KEY_CMD ends: STATUS, an empty staging window and event 3. -/
def State.keyEnd (s : State) (status : Nat) : State :=
  (({ s with sec := { s.sec with key := none, staging := [] } }.putFlag F.SEC.KEY_CMD_BUSY 0 0 false).wf
    F.SEC.KEY_CMD_STATUS 0 0 status).secEvent 3

/-- What forbids a key command, beside a FAULT of SEC. -/
def State.keyRefusals (s : State) (op slot len : Nat) : List Nat :=
  let retired := if s.otp.lifecycle = 3 then [4] else []
  let pub := s.staged_ 96
  match op with
  | 1 =>
    let taken := [0, 1, 2, 3].any fun k => k != slot && ((slotKey (s.slot k)).map keyIdOf) == some (keyIdOf pub)
    retired ++ (if slotCode (s.slot slot) = 0 then [] else [1]) ++
      (if Config.onCurve pub = false ∨ taken = true then [5] else [])
  | 2 =>
    retired ++ (if slotCode (s.slot slot) = 1 then [] else [2]) ++
      (if s.otp.lifecycle = 2 ∧ s.liveSlots = [slot] then [3] else [])
  | 3 => retired ++ (if s.otp.secret.isSome then [1] else [])
  | _ => retired ++ (if 64 < len then [5] else [])

/-- SEC.KEY_CMD written. -/
def State.wrKeyCmd (s : State) (data : Nat) : State :=
  if s.flag F.SEC.KEY_CMD_BUSY 0 0 then s
  else
    let op := bitsOf data 28 3
    let slot := bitsOf data 26 2
    let len := bitsOf data 0 7
    let s1 := ((s.wf F.SEC.KEY_CMD_OP 0 0 op).wf F.SEC.KEY_CMD_SLOT 0 0 slot).wf F.SEC.KEY_CMD_LEN 0 0 len
    if op = 0 ∨ 4 < op then s1
    else if s1.secFault then s1.keyEnd 7
    else
      match s1.keyRefusals op slot len with
      | [] =>
        let n := match op with
          | 1 => 96
          | 2 => 0
          | 3 => 32
          | _ => len
        { s1 with sec := { s1.sec with key := some ⟨op, slot, 0, s1.staged_ n⟩ } }.setFlag F.SEC.KEY_CMD_BUSY 0 0
      | l =>
        let c := s1.pickCode l
        c.2.keyEnd c.1

/-- A KEY_CMD of one operation by engine `e`. -/
def arriveKey (e op slot len : Nat) (s : State) : Out :=
  let data := op * 2 ^ 28 + slot % 4 * 2 ^ 26 + len % 128
  arriveWrite e (mkFa 0 B.SEC 0 0x10) 32 data s fun s => s.wrKeyCmd data

/-- KEY_ENROL. -/
def execKeyEnrol (e slot : Nat) (s : State) : Out := arriveKey e 1 slot 0 s

/-- KEY_REVOKE. -/
def execKeyRevoke (e slot : Nat) (s : State) : Out := arriveKey e 2 slot 0 s

/-- DEBUG_SECRET_ENROL. -/
def execDebugSecretEnrol (e : Nat) (s : State) : Out := arriveKey e 3 0 0 s

/-- OWNER_PASSWORD_SET; length 0 removes the password. -/
def execOwnerPasswordSet (e len : Nat) (s : State) : Out := arriveKey e 4 0 len s

/-- A slot's contents replaced. -/
def State.setSlot (s : State) (k : Nat) (x : KeySlot) : State :=
  { s with otp := { s.otp with keys := Store.put .empty s.otp.keys k x } }

/-- A fresh salt of 16 bytes, which the spec leaves to the part. -/
def State.salt (s : State) : List Byte × State :=
  (bytesBE 8 (Config.freeValue s.free).toNat ++ bytesBE 8 (Config.freeValue (s.free + 1)).toNat, { s with free := s.free + 2 })

/-- What a key command does. -/
def State.keyEffect (s : State) (j : KeyJob) : State :=
  match j.op with
  | 1 => s.setSlot j.slot (.enrolled j.data)
  | 2 =>
    match slotKey (s.slot j.slot) with
    | some pub => s.setSlot j.slot (.revoked pub)
    | none => s
  | 3 => { s with otp := { s.otp with secret := some j.data } }
  | _ =>
    if j.data = [] then s.setSecNvs { s.secNvs with password := none }
    else
      let a := s.salt
      a.2.setSecNvs { a.2.secNvs with password := some (a.1, Config.saltedDigest a.1 j.data) }

/-- KEY_CMD_DONE: the command completes, or a fuse write fails; with SEC in FAULT by then no fuse is blown (R169). DESIGN CHOICE
(log entry 104): the lifecycle and the last key are judged at the write alone, so a command accepted before an advance of the
lifecycle has its effect after it. -/
def execKeyCmdDone (fuseErr : Bool) (s : State) : Out :=
  match s.sec.key with
  | none => .next s
  | some j =>
    if s.secFault then .next (s.keyEnd 7)
    else if fuseErr ∧ j.op ≠ 4 then .next (s.keyEnd 6) else .next ((s.keyEffect j).keyEnd 0)

/-! ## Rollback counter (R176) -/

/-- An advance ends: STATUS and event 3. -/
def State.rollEnd (s : State) (status : Nat) : State :=
  (({ s with sec := { s.sec with rollTo := none } }.putFlag F.SEC.ROLLBACK_BUSY 0 0 false).wf F.SEC.ROLLBACK_STATUS 0 0
    status).secEvent 3

/-- SEC.ROLLBACK written. -/
def State.wrRollback (s : State) (data : Nat) : State :=
  let n := bitsOf data 16 9
  if s.flag F.SEC.ROLLBACK_BUSY 0 0 then s
  else
    let s1 := s.wf F.SEC.ROLLBACK_NEW 0 0 n
    if s.secFault then s1.rollEnd 4
    else if n < s.otp.rollback then s1.rollEnd 1
    else if 256 < n then s1.rollEnd 2
    else { s1 with sec := { s1.sec with rollTo := some n } }.setFlag F.SEC.ROLLBACK_BUSY 0 0

/-- ROLLBACK_ADVANCE. -/
def execRollbackAdvance (e new : Nat) (s : State) : Out :=
  let data := new % 512 * 2 ^ 16
  arriveWrite e (mkFa 0 B.SEC 0 0x40) 32 data s fun s => s.wrRollback data

/-- ROLLBACK_DONE: the fuses are blown up to NEW, or a fuse write failed after `blown` of them; with SEC in FAULT by then no fuse
is blown (R169). -/
def execRollbackDone (fuseErr : Bool) (blown : Nat) (s : State) : Out :=
  match s.sec.rollTo with
  | none => .next s
  | some n =>
    if s.secFault then .next (s.rollEnd 4)
    else
    let reach := if fuseErr then min (s.otp.rollback + blown) n else n
    .next ({ s with otp := { s.otp with rollback := reach } }.rollEnd (if fuseErr then 3 else 0))

/-! ## The lock of the debug port (R180, R181) -/

/-- SEC.DBG written. -/
def State.wrDbg (s : State) (data : Nat) : State :=
  let s1 := s.setSecNvs { s.secNvs with allowPwd := bitSet data 5, allowChal := bitSet data 4 }
  let s2 := if bitSet data 8 then s1.setSecNvs { s1.secNvs with fails := 0, lockout := false } else s1
  if bitSet data 9 then s2.dbgClose else s2

/-- The policy bits of a SEC.DBG write. -/
def allowBits (pwd chal : Bool) : Nat := ofBool pwd * 2 ^ 5 + ofBool chal * 2 ^ 4

/-- DBG_RELOCK. -/
def execDbgRelock (e : Nat) (pwd chal : Bool) (s : State) : Out :=
  let data := 2 ^ 9 + allowBits pwd chal
  arriveWrite e (mkFa 0 B.SEC 0 0x48) 32 data s fun s => s.wrDbg data

/-- DBG_FAILS_CLR. -/
def execDbgFailsClr (e : Nat) (pwd chal : Bool) (s : State) : Out :=
  let data := 2 ^ 8 + allowBits pwd chal
  arriveWrite e (mkFa 0 B.SEC 0 0x48) 32 data s fun s => s.wrDbg data

/-! ## Flash accesses (R171, R172) -/

/-- A load of H_0 is reading the flash. -/
def State.flashBusy (s : State) : Bool :=
  match (s.host 0).load with
  | some l => l.spi && l.phase == .staging
  | none => false

/-- SEC.SPI_CMD written. -/
def State.wrSpiCmd (s : State) (data : Nat) : State :=
  let go := bitSet data 30
  let len := bitsOf data 0 9
  if s.flag F.SEC.SPI_CMD_BUSY 0 0 then s
  else if go ∧ (256 < len ∨ bitsOf data 24 2 = 3) then s.setFlag F.SEC.ERR_SPI_ARG 0 0
  else
    let s1 := ((s.wf F.SEC.SPI_CMD_WP_REL 0 0 (bitsOf data 29 1)).wf F.SEC.SPI_CMD_DIR 0 0 (bitsOf data 26 1)).wf
      F.SEC.SPI_CMD_ADDR_BYTES 0 0 (bitsOf data 24 2)
    let s2 := (s1.wf F.SEC.SPI_CMD_OPCODE 0 0 (bitsOf data 16 8)).wf F.SEC.SPI_CMD_LEN 0 0 len
    if go then
      { s2 with sec := { s2.sec with spiWaiting := s2.flashBusy, spiActive := !s2.flashBusy } }.setFlag F.SEC.SPI_CMD_BUSY 0 0
    else s2

/-- The level of output pin SPI_WP_N: low except while WP_REL is one (R172). -/
def State.spiWpN (s : State) : Bool := s.flag F.SEC.SPI_CMD_WP_REL 0 0

/-- SPI_GO: SPI_CMD written with GO. -/
def execSpiGo (e : Nat) (wpRel dir : Bool) (addrBytes opcode len : Nat) (s : State) : Out :=
  let data := 2 ^ 30 + ofBool wpRel * 2 ^ 29 + ofBool dir * 2 ^ 26 + addrBytes % 4 * 2 ^ 24 + opcode % 256 * 2 ^ 16 + len % 512
  arriveWrite e (mkFa 0 B.SEC 0 0x50) 32 data s fun s => s.wrSpiCmd data

/-- SPI_ACCESS_DONE: the access in progress ends; the flash's bytes fill the window from its start. -/
def execSpiAccessDone (bytes : List Byte) (s : State) : Out :=
  if !s.sec.spiActive then .next s
  else
    let n := s.rf F.SEC.SPI_CMD_LEN 0 0
    if s.flag F.SEC.SPI_CMD_DIR 0 0 = false ∧ bytes.length ≠ n then .next s
    else
      let win := if s.flag F.SEC.SPI_CMD_DIR 0 0 then s.sec.spiWin else Store.putList 0 s.sec.spiWin 0 bytes
      .next (({ s with sec := { s.sec with spiActive := false, spiWin := win } }.putFlag F.SEC.SPI_CMD_BUSY 0 0
        false).secEvent 2)

end Sys2Proof.Machine
end

