-- ==== Sys2Proof/Machine/Access.lean ====
section
/-!
DEFINITION. Reads and writes of registers by address (R19 to R21, R60 to R62, R498): values as a read finds them, access
types, the registers whose write starts something, the windows onto memories, and the counter window (R152 to R154).
-/
namespace Sys2Proof.Machine

/-! ## Live values -/

/-- ALL_APPLIED (R351): the lowest APPLIED, in sequence order, of the replicas in RUN that D0 reaches. -/
def State.allApplied (s : State) : Nat :=
  let live := (List.range (Config.nDies s.part)).filter fun d => s.inRun d B.L2T 0 && s.linkUp 0 d
  let vals := live.map fun d => s.rf F.L2T.APPLIED_SEQ d 0
  match vals with
  | [] => s.rf F.L2T.APPLIED_SEQ 0 0
  | v :: r => r.foldl (fun m x => if seqAfter m x then x else m) v

/-- A field as a read finds it: those that follow other state are computed (R62 for an absent field). -/
def State.fieldVal (s : State) (f : Fld) (die inst : Nat) : Nat :=
  if f.off = 0xFFF00 ∧ f.lo = 2 then s.owner die f.blk inst
  else
    match f.blk, f.off with
    | 0x04, _ => s.secVal f die inst
    | 0x0C, 0x0C => s.stepSumNs die
    | 0x0D, 0x30 => if f.lo = 32 then (s.fixed (24 * die + inst)).1 else s.rf f die inst
    | 0x0D, 0x38 => if f.lo = 32 then (s.fixed (24 * die + inst)).2 else s.rf f die inst
    | 0x0F, 0x2C => if f.lo = 4 then ofBool s.leaseLive else s.rf f die inst
    | 0x10, 0x40 => bitsOf s.modelWord f.lo f.w
    | 0x14, 0x18 => s.allApplied
    | _, _ => s.rf f die inst

/-- A field's place in an access of `n` bytes at offset `o`. -/
def Fld.placed (f : Fld) (o v : Nat) : Nat :=
  let at_ := 8 * f.off + f.lo
  if 8 * o ≤ at_ then v * 2 ^ (at_ - 8 * o) else v / 2 ^ (8 * o - at_)

/-! ## Reads -/

/-- The read that removes the head of a queue (R252, R333, R400, R452, R143 to R145), by register: the state after it and
the word. -/
def State.headTake (s : State) (die blk inst off : Nat) : Option (State × Nat) :=
  match blk, off with
  | 0x0D, 0x10 => some (s.tsTake (24 * die + inst))
  | 0x11, 0x40 => some (s.evtHead (8 * die + inst))
  | 0x1A, 0x20 => some (s.mirrTake die)
  | 0x20, 0x120 => some (s.tagHead die)
  | 0x02, 0x10 => some (s.mbiTake die)
  | 0x02, 0x20 => some s.svcTake
  | 0xFE, 0x28 => some (s.mboTake die)
  | _, _ => none

/-- An RC field read: cleared to the value of nothing counted. -/
def State.rcClear (s : State) (f : Fld) (die inst : Nat) : State :=
  if f.acc = .rc then s.wf f die inst (f.rst s.part die inst) else s

/-- A register's part in a read of `n` bytes at offset `o`: the state after it, and what it adds to the value. Only a read
of all of it removes a queue's head or clears an RC field (R498). -/
def State.readReg (s : State) (die blk inst off : Nat) (fs : List Fld) (o n : Nat) : State × Nat :=
  let whole := fs.all fun f => decide (o ≤ off) && decide (off + f.regw / 8 ≤ o + n)
  let here (w : Nat) : Nat := if o ≤ off then w * 2 ^ (8 * (off - o)) else w / 2 ^ (8 * (o - off))
  match s.headTake die blk inst off with
  | some r => (if whole then r.1 else s, here r.2)
  | none =>
    let v := (fs.map fun f => f.placed o (s.fieldVal f die inst)).foldl (· + ·) 0
    (if whole then fs.foldl (fun s f => s.rcClear f die inst) s else s, v)

/-- A read of `n` bytes of an instance's registers. -/
def State.readRegs (s : State) (die blk inst o n : Nat) : State × Nat :=
  let fs := fieldsAt s.part die blk inst o n
  let offs := (fs.map (·.off)).eraseDups
  let r := offs.foldl (fun x off =>
    let y := x.1.readReg die blk inst off (fs.filter fun f => f.off == off) o n
    (y.1, x.2 + y.2)) (s, 0)
  (r.1, r.2 % 2 ^ (8 * n))

/-- `n` bytes of a list from an offset, as a number; bytes it does not hold read as zero. -/
def listNat (l : List Byte) (o n : Nat) : Nat := leNat ((l.drop o).take n)

/-- An EVMAP entry as its register shows it. -/
def EvEntry.word (q : EvEntry) : Nat :=
  ofBool q.en * 2 ^ 31 + q.die % 8 * 2 ^ 28 + q.blk % 256 * 2 ^ 20 + q.inst % 512 * 2 ^ 11 + q.event % 64 * 2 ^ 5

/-- The counter window (R152 to R154): the 8-byte value at an offset of a die's slice, as partition `p` sees it through
endpoint `p`, by its die's copies of the ownership and the grants; partition 0 sees all of it through any endpoint. -/
def State.windowWord (s : State) (p die o : Nat) : Nat :=
  let own (blk inst : Nat) : Bool := p == 0 || s.ownerAt (s.hDie p) die blk inst == p
  let grant (lo : Nat) : Bool := p == 0 || bitSet (s.host p).grants (lo + die)
  let ports := grant 8
  let i := o / 0x100 % 0x20
  if !s.hasDie die then 0
  else if o < 0x48 then
    if !grant 0 then 0
    else if o = 0 then s.rf F.PERF.CYCLE_COUNT die 0
    else s.rf (F.PERF.CNT_COUNT (o / 8 - 1)) die 0 + s.rf (F.PERF.CNT_OVF (o / 8 - 1)) die 0 * 2 ^ 63
  else if 0x1000 ≤ o ∧ o < 0x5000 then
    let u := (o - 0x1000) / 0x200
    let x := o % 0x200
    if !(own B.HIST u || grant 16) then 0
    else if x < 0x100 then s.rf (F.HIST.BIN_COUNT (x / 8)) die u + s.rf (F.HIST.BIN_OVF (x / 8)) die u * 2 ^ 63
    else if x = 0x100 then s.rf F.HIST.MIN_VALUE die u
    else if x = 0x108 then s.rf F.HIST.MAX_VALUE die u
    else 0
  else if 0x6000 ≤ o ∧ o < 0x7800 then
    if own B.QUE i || ports then (if o % 0x100 < 0x60 then Store.get 0 (s.port (24 * die + i)).counts (o % 0x100 / 8) else 0)
    else 0
  else if 0x8000 ≤ o ∧ o < 0x9800 then
    if own B.QUE i || ports then Store.get 0 (s.port (24 * die + i)).counts (16 + o % 0x100 / 8) else 0
  else if 0xA000 ≤ o ∧ o < 0xA020 then
    let k := (o - 0xA000) / 8
    if own B.ENG k || ports then (s.eng (4 * die + k)).rxDrops else 0
  else if 0xA100 ≤ o ∧ o < 0xA180 then
    if (Config.dieHost s.part die).isSome && (own B.HOST 0 || ports) then
      s.rf (F.HOST.RING_DROPS_COUNT ((o - 0xA100) / 8)) die 0
    else 0
  else 0

/-- A read of the counter window at an offset of BAR2. -/
def State.windowRead (s : State) (p off n : Nat) : Nat :=
  let w := s.windowWord p (off / 0x10000) (off % 0x10000 / 8 * 8)
  w / 2 ^ (8 * (off % 8)) % 2 ^ (8 * n)

/-- A read of `n` bytes of a window onto a memory by an access of partition `q`. -/
def State.readWindow (s : State) (q die blk inst o n : Nat) : State × Nat :=
  match blk with
  | 0x01 =>
    let e := 4 * die + inst
    let g := s.eng e
    if o < 0x1E0 then
      (s, (List.range (n / 4)).foldl (fun x j => x + (Store.get {} g.evmap ((o - 0x100) / 4 + j)).word * 2 ^ (32 * j)) 0)
    else if o < 0x20000 then (s, leNat (Store.getList 0 g.imem (o - 0x10000) n))
    else (s.dmemTouch e (o - 0x20000) n, g.dmemRead (o - 0x20000) n)
  | 0x02 =>
    let h := s.hostAt die
    if o < 0x11000 then (s, leNat (Store.getList 0 (s.host h).mbi (o - 0x10000) n))
    else if o < 0x80000 then (s, leNat (Store.getList 0 (s.host h).svc (o - 0x11000) n))
    else (s, s.windowRead q (o - 0x80000) n)
  | 0x03 => s.nvsGet die o (8 * n)
  | 0x04 => if o < 0x200 then (s, 0) else (s, leNat (Store.getList 0 s.sec.spiWin (o - 0x200) n))
  | 0x10 => (s, listNat s.gnss.msg (o - 0xC0) n)
  | 0x11 => (s, listNat (s.evt (8 * die + inst)).record (o - 0x100) n)
  | 0x15 | 0x16 => (s, leNat (Store.getList 0 (s.tbl die blk).blk (o - 0x40) n))
  | 0x1A => (s, listNat (s.die die).mirr.record (o - 0x100) n)
  | 0x20 => (s, listNat (s.perf die).record (o - 0x140) n)
  | _ => (s, 0)

/-- A read of `n` bytes at an offset of an instance by an access of partition `q`. -/
def State.readAt (s : State) (q die blk inst o n : Nat) : State × Nat :=
  if inWindow die blk o then s.readWindow q die blk inst o n else s.readRegs die blk inst o n

/-- Everything that the read touches is read-only (R69): at an offset that no register occupies nothing is. DESIGN CHOICE (log
entry 76): R69 gives the right by field; a read that also touches a field of another access type is refused as a whole. -/
def readOnly (p : Part) (addr width : Nat) : Bool :=
  let o := faOff addr
  let blk := faBlk addr
  if inWindow (faDie addr) blk o then [0x02, 0x10, 0x11, 0x1A, 0x20].contains blk
  else
    let fs := fieldsAt p (faDie addr) blk (faInst addr) o (width / 8)
    !fs.isEmpty && fs.all fun f => f.acc == .ro

/-! ## Writes -/

/-- EVMAP entry `k` written (R76): judged where it sets EN. -/
def State.wrEvmap (s : State) (e k data : Nat) : State :=
  let q : EvEntry := { en := bitSet data 31, die := bitsOf data 28 3, blk := bitsOf data 20 8, inst := bitsOf data 11 9,
                       event := bitsOf data 5 6 }
  if q.en && !(s.has q.die q.blk q.inst && s.ownerAt (e / 4) q.die q.blk q.inst == s.engPart e) then
    s.setFlag F.ENG.ERR_EVMAP_REF (e / 4) (e % 4)
  else s.setEng e { s.eng e with evmap := Store.put {} (s.eng e).evmap k q }

/-- ENG.SIGNAL written: line 62 (R77). -/
def State.wrSignal (s : State) (e data : Nat) : State :=
  (s.wf F.ENG.SIGNAL_WORD (e / 4) (e % 4) data).setLine e 62

/-- The registers whose write starts something or is bounded: `data` is the register's value with what was written, and
`hi` says that its upper 32 bits were written. `none` for every other register. -/
def State.wrTrigger (s : State) (by_ : Option Nat) (die blk inst off data : Nat) (hi : Bool) : Option State :=
  let p := 24 * die + inst
  match blk, off with
  | 0x00, 0x10 => some (s.wrOwnCmd data)
  | 0x00, 0x14 => some (s.wrPolicy none data)
  | 0x01, 0x0C => some (s.wrSignal (4 * die + inst) data)
  | 0x02, 0x14 => some (s.wrMbiFree die data)
  | 0x02, 0x28 => if hi then some (s.wrSvcReply data) else none
  | 0x02, 0x104 => some (s.wrGrant 1 data)
  | 0x02, 0x108 => some (s.wrGrant 2 data)
  | 0x02, 0x10C => some (s.wrGrant 3 data)
  | 0x02, _ => if 0x1000 ≤ off ∧ off < 0x1400 ∧ off % 0x40 = 0x10 then some (s.wrRingCfg die ((off - 0x1000) / 0x40) data) else none
  | 0x04, 0x00 => some (s.wrLc data)
  | 0x04, 0x10 => some (s.wrKeyCmd data)
  | 0x04, 0x40 => some (s.wrRollback data)
  | 0x04, 0x48 => some (s.wrDbg data)
  | 0x04, 0x50 => some (s.wrSpiCmd data)
  | 0x08, 0x0C => some (s.wrSleep p data)
  | 0x0A, 0x10 => some (s.wrSel data)
  | 0x0A, 0x18 => some (s.wrSteer data)
  | 0x0A, 0x40 => some (s.wrOutUpd data)
  | 0x0A, 0x100 => some (s.wrRamp data)
  | 0x0C, 0x10 => some (s.wrRate by_ die data)
  | 0x0C, 0x18 => some (s.wrStep die data)
  | 0x0E, 0x04 => some (s.wrAsym p data)
  | 0x0E, 0x68 => some (s.wrCommit p data)
  | 0x0F, 0x28 => some (s.wrSummitCmd data)
  | 0x10, 0x20 => some (s.wrGnssCtrl data)
  | 0x11, 0x04 => some (s.wrThresh (8 * die + inst) (data % 2 ^ 12))
  | 0x12, 0x110 => some (s.wrTrigArm die 0 (bitSet data 0))
  | 0x12, 0x150 => some (s.wrTrigArm die 1 (bitSet data 0))
  | 0x12, 0x190 => some (s.wrTrigArm die 2 (bitSet data 0))
  | 0x12, 0x1D0 => some (s.wrTrigArm die 3 (bitSet data 0))
  | 0x14, 0x20 => some (s.wrAge data)
  | 0x14, 0x68 => some (s.wrUpdCmd data)
  | 0x14, 0x78 => some (s.wrRehash data)
  | 0x15, 0x00 => some (s.wrTblCmd die blk data)
  | 0x16, 0x00 => some (s.wrTblCmd die blk data)
  | 0x21, 0x04 => some (s.wrHistCtrl die inst data)
  | 0x22, 0x04 => some (s.wrCalRun die data)
  | 0x23, 0x00 => some (s.wrTempCfg die data)
  | 0xFE, 0x10 => if bitSet data 31 then some (s.wrLoadGo die (bitSet data 30)) else none
  | 0xFE, 0x20 => some (s.wrMbiPost die data)
  | 0xFE, 0x2C => some (s.wrMboFree die data)
  | 0xFE, _ =>
    if 0x100 ≤ off ∧ off < 0x180 then
      some (if off % 8 = 0 then s.wrDbTx die ((off - 0x100) / 8) data else s.wrDbRx die ((off - 0x100) / 8) data)
    else none
  | _, _ => none

/-- A field of a register written (R21): `w` holds the register's bits written, `m` marks them. -/
def State.wrField (s : State) (die inst w m : Nat) (f : Fld) : State :=
  let fm := bitsOf m f.lo f.w
  let fw := bitsOf w f.lo f.w &&& fm
  let old := s.rf f die inst
  if fm = 0 then s
  else
    match f.acc with
    | .rwL => s.wf f die inst (old - (old &&& fm) + fw)
    | .rwS =>
      if s.run die f.blk inst = 0 then s.wf f die inst (old - (old &&& fm) + fw)
      else s.setFlag (F.BLOCK.CFLAGS_SWR_IGN f.blk) die inst
    | .w1c => s.wf f die inst (old - (old &&& fw))
    | _ => s

/-- One register's part of a write: `w` and `m` are its bits written and their mark. A write of the leader's OFFSET or BASE
in STOPPED is noted for its next start (R236). -/
def State.wrReg (s : State) (by_ : Option Nat) (die blk inst off : Nat) (fs : List Fld) (w m : Nat) : State :=
  let kept := (fs.map fun f => if f.acc = .rwL then s.rf f die inst * 2 ^ f.lo else 0).foldl (· + ·) 0
  let data := kept - (kept &&& m) + (w &&& m)
  match s.wrTrigger by_ die blk inst off data (decide (2 ^ 32 ≤ m)) with
  | some t => t
  | none =>
    let s1 := fs.foldl (fun s f => s.wrField die inst w m f) s
    if blk = B.RIDGE ∧ fs.any (fun f => f.acc == .rwS && (f.off == F.RIDGE.OFFSET_OFFSET.off || f.off == F.RIDGE.BASE_BASE.off)) ∧
        s.run die blk inst = 0 then
      s1.setRidge die { s1.ridge die with written := true }
    else s1

/-- A write of `n` bytes to an instance's registers. -/
def State.writeRegs (s : State) (by_ : Option Nat) (die blk inst o n data : Nat) : State :=
  let fs := fieldsAt s.part die blk inst o n
  let offs := (fs.map (·.off)).eraseDups
  offs.foldl (fun s off =>
    let mine := fs.filter fun f => f.off == off
    let bits := (mine.map (·.regw)).foldl max 0
    let at_ (x : Nat) : Nat := (if o ≤ off then x / 2 ^ (8 * (off - o)) else x * 2 ^ (8 * (o - off))) % 2 ^ bits
    s.wrReg by_ die blk inst off mine (at_ data) (at_ (2 ^ (8 * n) - 1))) s

/-- A write of `n` bytes to a window onto a memory. -/
def State.writeWindow (s : State) (die blk inst o n data : Nat) : State :=
  match blk with
  | 0x01 =>
    let e := 4 * die + inst
    let g := s.eng e
    if o < 0x1E0 then
      (List.range (n / 4)).foldl (fun s j => s.wrEvmap e ((o - 0x100) / 4 + j) (data / 2 ^ (32 * j) % 2 ^ 32)) s
    else if o < 0x20000 then
      if s.run die blk inst = 0 then
        (if o < 0x1C000 then s.romReplaced e else s).setEng e (g.imemWrite (o - 0x10000) (bytesLE n data))
      else s.setFlag (F.BLOCK.CFLAGS_SWR_IGN B.ENG) die inst
    else
      let s1 := s.dmemPart e (o - 0x20000) n
      s1.setEng e ((s1.eng e).dmemWrite (o - 0x20000) (bytesLE n data))
  | 0x04 =>
    if o < 0x200 then { s with sec := { s.sec with staging := Store.putList 0 s.sec.staging (o - 0x100) (bytesLE n data) } }
    else { s with sec := { s.sec with spiWin := Store.putList 0 s.sec.spiWin (o - 0x200) (bytesLE n data) } }
  | 0x15 | 0x16 =>
    let x := s.tbl die blk
    s.setTbl die blk { x with blk := Store.putList 0 x.blk (o - 0x40) (bytesLE n data) }
  | _ => s

/-- A write of `n` bytes at an offset of an instance. -/
def State.writeAt (s : State) (by_ : Option Nat) (die blk inst o n data : Nat) : State :=
  if inWindow die blk o then s.writeWindow die blk inst o n data else s.writeRegs by_ die blk inst o n data

/-! ## By a host (R136, R137) -/

/-- A byte of the MSI-X table. -/
def HostEp.msixByte (x : HostEp) (o : Nat) : Byte := Store.get 0 x.msix o ^^^ msixReset o

/-- Bytes written to the MSI-X table; a vector unmasked is pending no more. -/
def HostEp.msixWrite (x : HostEp) (o : Nat) (l : List Byte) : HostEp :=
  let y := { x with msix := Store.putList 0 x.msix o (l.zipIdx.map fun (p : Byte × Nat) => p.1 ^^^ msixReset (o + p.2)) }
  { y with pba := ((List.range 32).filter fun v => bitSet x.pba v && y.masked v).foldl (fun n v => n + 2 ^ v) 0 }

/-- A host reads `n` bytes of BAR0, or of BAR2 at 0x8_0000 above. -/
def State.hostRead (s : State) (h o n : Nat) : State × Nat :=
  if 0x80000 ≤ o then (s, if s.served h then s.windowRead h (o - 0x80000) n else 0)
  else if o < 8 then s.readRegs h 0xFE 0 o n
  else if !s.served h then (s, 0)
  else if 0x1000 ≤ o ∧ o < 0x2000 then (s, leNat (Store.getList 0 (s.host h).mbi (o - 0x1000) n))
  else if 0x2000 ≤ o ∧ o < 0x3000 then (s, leNat (Store.getList 0 (s.host h).mbo (o - 0x2000) n))
  else if 0x8000 ≤ o ∧ o < 0x8200 then (s, leNat ((List.range n).map fun k => (s.host h).msixByte (o - 0x8000 + k)))
  else if 0x9000 ≤ o ∧ o < 0x9008 then (s, (s.host h).pba / 2 ^ (8 * (o - 0x9000)) % 2 ^ (8 * n))
  else s.readRegs h 0xFE 0 o n

/-- A host writes `n` bytes of BAR0. -/
def State.hostWrite (s : State) (h o n data : Nat) : State :=
  if 0x1000 ≤ o ∧ o < 0x2000 then
    let x := s.host h
    s.setHost h { x with mbi := Store.putList 0 x.mbi (o - 0x1000) (bytesLE n data) }
  else if 0x8000 ≤ o ∧ o < 0x8200 then s.setHost h ((s.host h).msixWrite (o - 0x8000) (bytesLE n data))
  else s.writeRegs none h 0xFE 0 o n data

/-! ## The commands -/

/-- REGISTER_WRITE: the store's words and POLICY, which are acknowledged later, by their own rules. -/
def execRegisterWrite (by_ : Requester) (addr width data : Nat) (s : State) : Out :=
  match by_ with
  | .engine e =>
    let die := faDie addr
    let blk := faBlk addr
    let o := faOff addr
    if blk = B.NVS ∧ inWindow die blk o = true then execNvsWrite e die o width data s
    else if die = 0 ∧ blk = B.SYS ∧ o ≤ 0x14 ∧ 0x14 < o + width / 8 then
      arrivePolicy e addr width data s fun s =>
        (if o = 0x10 then s.wrOwnCmd (data % 2 ^ 32) else s).wrPolicy (some ⟨e, addr, width, data⟩) (data / 2 ^ (8 * (0x14 - o)))
    else arriveWrite e addr width data s fun s => s.writeAt (some e) die blk (faInst addr) o (width / 8) data
  | .host h => onHost h s fun s => s.hostWrite h addr (width / 8) data

/-- READ_CLEAR: a read, with what it clears or removes; a host's is kept as the endpoint's read data. -/
def execReadClear (by_ : Requester) (addr width : Nat) (s : State) : Out :=
  match by_ with
  | .engine e => arriveRead e addr width s fun s =>
      s.readAt (s.engPart e) (faDie addr) (faBlk addr) (faInst addr) (faOff addr) (width / 8)
  | .host h =>
    if Config.nHosts s.part ≤ h then .fault .absentEndpoint
    else if s.resets.asserted || !(s.host h).perstN then .next s
    else
      let r := s.hostRead h addr (width / 8)
      .next (r.1.setHost h { r.1.host h with rdata := r.2 })

/-- EVMAP_WRITE by engine `by_` to an entry of engine `e`. -/
def execEvmapWrite (by_ e k : Nat) (data : Word32) (s : State) : Out :=
  if 56 ≤ k then .fault .absentInstance
  else arriveWrite by_ (mkFa (e / 4) B.ENG (e % 4) (0x100 + 4 * k)) 32 data.toNat s fun s => s.wrEvmap e k data.toNat

/-- ENG_SIGNAL_WRITE. -/
def execEngSignalWrite (by_ e : Nat) (data : Word32) (s : State) : Out :=
  arriveWrite by_ (mkFa (e / 4) B.ENG (e % 4) 0x0C) 32 data.toNat s fun s => s.wrSignal e data.toNat

end Sys2Proof.Machine
end

