-- ==== Sys2Proof/Machine/Boot.lean ====
section
/-!
DEFINITION. Power and reset pins, the internal reset, the boot sequence (R159 to R170), and the thermal and clock-supply
pins (R476, R480).
-/
namespace Sys2Proof.Machine

/-! ## The internal reset (R160 to R164) -/

/-- What NVS holds when reset is asserted: the word write in progress completes, the rest is abandoned (R161). -/
def State.nvsKept (s : State) : Store NvsState :=
  let s1 := (List.range (Config.nDies s.part)).foldl (fun s d => s.nvsWordDone d) s
  s1.nvs.map fun p => (p.1, { p.2 with queue := [], calTurn := false, word := none })

/-- The entries of NVS that are not empty. -/
def nvsCanon (m : Store NvsState) : Store NvsState := m.filter fun p => p.2 != {}

/-- FVDD_OK of every die: the bank's supply is independent of reset (R158). -/
def State.fvddKept (s s0 : State) : State :=
  (List.range (Config.nDies s.part)).foldl
    (fun t d => t.wf F.FIELD.STATUS_FVDD_OK d 0 (s.rf F.FIELD.STATUS_FVDD_OK d 0)) s0

/-- Fuses that an advance in progress has blown when it is abandoned: the spec does not say how many. -/
def State.rollCut (s : State) : Nat :=
  match s.sec.rollTo with
  | some n => s.otp.rollback + s.draw.1.toNat % (n - s.otp.rollback + 1)
  | none => s.otp.rollback

/-- The endpoints whose PERST_N is low: the level of a pin, which no reset of the part changes (R489). -/
def perstKept (m : Store HostEp) : Store HostEp :=
  (m.filter fun p => !p.2.perstN).map fun p => (p.1, { perstN := false })

/-- Every die in reset (R161, R163, R164): what is kept is the fuses, NVS, the pins, the TAP, the sensors, the field and
receiver inputs; everything else is at its reset value. -/
def State.assertReset (s : State) : State :=
  let kept : State :=
    { State.reset with
      part := s.part
      pins := s.pins
      resets := { s.resets with asserted := true, releasing := false }
      otp := { s.otp with rollback := s.rollCut }
      secNvs := s.secNvs
      sec := { tap := s.sec.tap }
      hosts := perstKept s.hosts
      nvs := nvsCanon s.nvsKept
      gnss := { clkLost := s.gnss.clkLost }
      therm := s.therm
      free := s.free + (if s.sec.rollTo.isSome then 1 else 0)
      pending := s.pending }
  (s.fvddKept kept).putFlag F.SEC.DBG_OPEN 0 0 false

/-- PWRGOOD_FALL: reset is asserted, and the TAP is reset (R160, R163). -/
def execPwrgoodFall (s : State) : Out :=
  if !s.pins.pwrgood then .next s
  else .next { s with pins := { s.pins with pwrgood := false }, sec := { s.sec with tap := {} } }.assertReset

/-- PWRGOOD_RISE: the release delay starts, once RESET_N is high. -/
def execPwrgoodRise (s : State) : Out :=
  if s.pins.pwrgood then .next s
  else
    .next { s with pins := { s.pins with pwrgood := true },
                   resets := { s.resets with releasing := s.resets.asserted && (s.pins.resetN || s.resets.filtering) } }

/-- RESET_N_FALL: the glitch filter starts. -/
def execResetNFall (s : State) : Out :=
  if !s.pins.resetN then .next s
  else .next { s with pins := { s.pins with resetN := false }, resets := { s.resets with filtering := true } }

/-- RESET_N_FILTERED: the low level has passed the filter. -/
def execResetNFiltered (s : State) : Out :=
  if !s.resets.filtering then .next s
  else if s.resets.asserted then .next { s with resets := { s.resets with filtering := false, releasing := false } }
  else .next { s with resets := { s.resets with filtering := false } }.assertReset

/-- RESET_N_RISE: a low level that the filter still held is ignored; else the release delay starts, once PWRGOOD is high. -/
def execResetNRise (s : State) : Out :=
  if s.pins.resetN then .next s
  else if s.resets.filtering then
    .next { s with pins := { s.pins with resetN := true }, resets := { s.resets with filtering := false } }
  else
    .next { s with pins := { s.pins with resetN := true },
                   resets := { s.resets with releasing := s.resets.asserted && s.pins.pwrgood } }

/-- The SEC area of D0's NVS as the release finds it; `bad` says that it fails its CRC (the SEC map). -/
def State.secArea (s : State) (bad : Bool) : State :=
  if bad || !s.secNvs.ok then
    { s with secNvs := { ok := false, password := none, allowPwd := true, allowChal := true, fails := 8, lockout := true } }.setFlag
      F.SEC.ERR_NVS_SEC_CRC 0 0
  else s

/-- RESET_RELEASE: the straps are latched, step 1 of the boot sequence is done, step 2 begins (R162, R164, R167). -/
def execResetRelease (secAreaBad : Bool) (s : State) : Out :=
  if !(s.resets.asserted && s.resets.releasing && s.pins.pwrgood && (s.pins.resetN || s.resets.filtering)) then .next s
  else
    let s1 := { s with resets := { s.resets with asserted := false, releasing := false },
                       sec := { s.sec with phase := .selfTest } }.secArea secAreaBad
    .next ((s1.wf F.SEC.BOOT_BOOT_SEL 0 0 s1.pins.bootSel.toNat).putFlag F.SEC.DBG_OPEN 0 0 (s1.otp.lifecycle == 1))

/-- TAP_RESET: TRST_N takes a level; low resets the TAP (R163). -/
def execTapReset (low : Bool) (s : State) : Out :=
  .next { s with pins := { s.pins with trstN := !low }, sec := { s.sec with tap := if low then {} else s.sec.tap } }

/-! ## The boot sequence (R167) -/

/-- FN.START of the same block on every die. -/
def State.startAll (s : State) (blk : Nat) : State :=
  (List.range (Config.nDies s.part)).foldl (fun s d => s.startRequest none d blk 0) s

/-- SEC_SELF_TEST_END: step 2 ends; step 3 starts NVS and TEMP of every die, HOST of H_0 and D0's PLL. -/
def execSecSelfTestEnd (ok : Bool) (s : State) : Out :=
  if s.resets.asserted || s.sec.phase != .selfTest then .next s
  else
    let s1 := if ok then s else s.recordFault 0 B.SEC 0 0x10
    let s2 := ((s1.startAll B.NVS).startAll B.TEMP).startRequest none 0 B.HOST 0
    let s3 := s2.startRequest none 0 B.PLL 0
    .next { s3 with sec := { s3.sec with phase := .waitD0 } }

/-- Every MESH instance of every die is started. -/
def State.startMesh (s : State) : State :=
  let ds := List.range (Config.nDies s.part)
  ds.foldl (fun s a => (ds.filter (· != a)).foldl (fun s b => s.startRequest none a B.MESH b) s) s

/-- BOOT_D0_LOCKED: D0's ridge PLL reports lock. -/
def execBootD0Locked (s : State) : Out :=
  if s.sec.phase ≠ .waitD0 ∨ s.pllMode 0 ≠ 1 then .next s
  else
    let s1 := (s.startRequest none 0 B.RIDGE 0).startMesh
    .next { s1 with sec := { s1.sec with phase := .waitFollowers ((List.range (Config.nDies s.part)).filter (· != 0)) } }

/-- The bytes of a ROM program below the extension region that are not zero (R86). -/
def romStore (f : Nat → Byte) (n : Nat) : Store Byte :=
  (List.range n).filterMap fun a => if f a = 0 then none else some (a, f a)

/-- The servo's parameters as its ROM program comes with them (R277). -/
def servoDefaults : List Byte :=
  bytesLE 4 0 ++ bytesLE 4 8 ++ bytesLE 4 0 ++ bytesLE 4 0 ++ bytesLE 4 100 ++ bytesLE 4 100 ++ bytesLE 4 20 ++ bytesLE 4 15 ++
    bytesLE 4 2000

/-- The ROM program of a die's local engine copied in, and its entry set (R85, R167); the program starts afresh. -/
def State.romCopy (s : State) (d k : Nat) : State :=
  let e := 4 * d + k
  let g := { s.eng e with imem := romStore (Config.romImem d k) 0xC000, dmem := romStore (Config.romDmem d k) 0xE000 }
  let s1 := s.setEng e (if e = 2 then g.dmemWrite 0xD800 servoDefaults else g)
  { s1 with rom := { s1.rom with progs := e :: s1.rom.progs.filter (· != e) } }.wf F.ENG.CTRL_START_PC d k
    (Config.romEntry d k).toNat

/-- The engines of R85: local engines 0 and 1 of every die, 2 and 3 of D0. -/
def romEngines (p : Part) : List (Nat × Nat) :=
  (List.range (Config.nDies p)).flatMap fun d => if d = 0 then [(0, 0), (0, 1), (0, 2), (0, 3)] else [(d, 0), (d, 1)]

/-- Steps 4 and 5. -/
def State.bootPrograms (s : State) : State :=
  let s1 := (romEngines s.part).foldl (fun s x => s.romCopy x.1 x.2) s
  let s2 := (romEngines s.part).foldl (fun s x => s.startRequest none x.1 B.ENG x.2) s1
  (s2.startAll B.CAL).bootStep5

/-- BOOT_FOLLOWER_LOCKED: the saddle link from D0 carries the clock to die `d`, and SEC starts its PLL; once that has
locked to D0, its RIDGE; after the last die, steps 4 and 5. -/
def execBootFollowerLocked (d : Nat) (s : State) : Out :=
  onDie d s fun s =>
    match s.sec.phase with
    | .waitFollowers left =>
      if !left.contains d then s
      else if !s.inRun d B.PLL 0 then
        if s.flag F.MESH.STATUS_RX_UP d 0 && s.flag F.MESH.STATUS_FWD_CLK_OK d 0 then s.startRequest none d B.PLL 0 else s
      else if s.pllMode d ≠ 1 then s
      else
        let s1 := s.startRequest none d B.RIDGE 0
        let rest := left.filter (· != d)
        let s2 := { s1 with sec := { s1.sec with phase := .waitFollowers rest } }
        if rest = [] then s2.bootPrograms else s2
    | _ => s

/-! ## Thermal and clock-supply pins -/

/-- THERM_ASSERT: a sensor is at or above 120 °C (R480); the comparators work in reset too. -/
def execThermAssert (d k : Nat) (s : State) : Out :=
  if !s.hasDie d then .fault .absentDie
  else if 4 ≤ k then .fault .absentInstance
  else
    let hot := if s.therm.hot.contains (d, k) then s.therm.hot else s.therm.hot ++ [(d, k)]
    .next { s with therm := { s.therm with hot := hot }, pins := { s.pins with thermLow := true } }

/-- THERM_RELEASE: every sensor of every die is below 115 °C. -/
def execThermRelease (s : State) : Out :=
  .next { s with therm := { s.therm with hot := [] }, pins := { s.pins with thermLow := false } }

/-- CLKO_SUPPLY_CHANGE: VDD_CLKO crosses 3.0 V (R476). -/
def execClkoSupplyChange (low : Bool) (s : State) : Out := .next { s with pins := { s.pins with clkoLow := low } }

/-- What stands on a pin of CLKOUT_k. -/
inductive ClkPin where
  | disabled
  | highZ
  /-- driven in a format, at 10 GHz over the divider -/
  | clock (fmt div : Nat)
  deriving DecidableEq, Repr

/-- CLKOUT_k_P and CLKOUT_k_N (R161, R227, R476, R492): VDD_CLKO supplies LVDS, HCSL, LVCMOS 3.3 V and CML; in the LVCMOS
formats _P carries the clock alone. -/
def State.clkOut (s : State) (k : Nat) : ClkPin × ClkPin :=
  let fmt := s.rfF (F.PLL.CLKOUT_FMT k) 0 0
  if s.resets.asserted ∨ fmt = 0 then (.disabled, .disabled)
  else if s.pins.clkoLow && [1, 2, 3, 5].contains fmt then (.highZ, .highZ)
  else
    let c : ClkPin := .clock fmt (s.rf (F.PLL.CLKOUT_DIV k) 0 0)
    (c, if fmt = 3 ∨ fmt = 4 then .highZ else c)

end Sys2Proof.Machine
end

