-- ==== Sys2Proof/Machine/Control.lean ====
section
/-!
DEFINITION. Control flow, flags, WAIT, TRAP, FENCE and HALT (R95, R115 to R120, R126 to R128), and the acknowledgement
of posted accesses with its imprecise trap (R105, R128, R131, R502).
-/
namespace Sys2Proof.Machine

/-- ILLEGAL: a word the instruction set does not assign raises the trap and has no other effect (R95, R96). -/
def execIllegal (e : Nat) (w : Word32) (s : State) : Out :=
  issue e s fun s => if (decodeUmmus e w).isSome then .next s else .next (s.trapAt e 0x01)

/-- The target of B and CALL (R115), modulo 0x1_0000. -/
def relTarget (pc : BitVec 16) (imm : Imm16) : BitVec 16 := pc + 4 + imm * 4

/-- PC + 4 as rd takes it. -/
def linkVal (pc : BitVec 16) : Word := BitVec.ofNat 64 (pc.toNat + 4)

/-- B.cc (R115, R116). -/
def execB (e : Nat) (cc : Cond) (imm : Imm16) (s : State) : Out :=
  issue e s fun s =>
    let g := s.eng e
    if g.flags.holds cc then .next (s.completeTo e (relTarget g.pc imm)) else .next (s.complete e)

/-- CALL (R115). -/
def execCall (e : Nat) (rd : Reg) (imm : Imm16) (s : State) : Out :=
  issue e s fun s =>
    let g := s.eng e
    .next ((s.setEng e (g.wv rd (linkVal g.pc))).completeTo e (relTarget g.pc imm))

/-- JALR (R115): rs1 is read before rd is written. -/
def execJalr (e : Nat) (rd rs1 : Reg) (imm : Imm16) (s : State) : Out :=
  issue e s fun s =>
    let g := s.eng e
    let target := ((g.rv rs1 + sext imm) &&& 0xFFFC#64).truncate 16
    .next ((s.setEng e (g.wv rd (linkVal g.pc))).completeTo e target)

/-- RDF (R117). -/
def execRdf (e : Nat) (rd : Reg) (s : State) : Out :=
  issue e s fun s =>
    let g := s.eng e
    .next (s.doneWith e (g.wv rd (BitVec.ofNat 64 g.flags.word)))

/-- WRF (R117). -/
def execWrf (e : Nat) (rs1 : Reg) (s : State) : Out :=
  issue e s fun s =>
    let g := s.eng e
    .next (s.doneWith e { g with flags := Flags.ofWord (g.rv rs1) })

/-- CLF (R117). -/
def execClf (e : Nat) (mask : BitVec 6) (s : State) : Out :=
  issue e s fun s =>
    let g := s.eng e
    .next (s.doneWith e { g with flags := g.flags.clear mask })

/-! ## WAIT -/

/-- WAIT returns the selected pending lines, clears exactly those bits and TO (R74, R119). -/
def State.waitReturn (s : State) (e : Nat) (rd : Reg) (mask : Word) : State :=
  let g := s.eng e
  let hit := g.pending &&& mask
  (s.issues e).doneWith e { g.wv rd hit with pending := g.pending &&& ~~~hit, flags := g.flags.setTmo false }

/-- WAIT's deadline is reached: rd is zero and TO is set (R119). -/
def State.waitExpire (s : State) (e : Nat) (rd : Reg) : State :=
  let g := s.eng e
  (s.issues e).doneWith e { g.wv rd 0 with flags := g.flags.setTmo true }

/-- The ticks of a relative timeout: ⌈ns × 5 / 8⌉ (R118). -/
def waitTicks (ns : Nat) : Nat := (ns * 5 + 7) / 8

/-- A WAIT is issued: the EVMAP entries written before it take effect (R75). -/
def State.waitIssued (s : State) (e : Nat) : State := s.setEng e { s.eng e with evLive := (s.eng e).evmap }

/-- One evaluation of R119 at issue. -/
def State.waitFirst (s : State) (e : Nat) (rd : Reg) (mask : Word) (due : Bool) (h : Hold) : State :=
  if (s.eng e).pending &&& mask ≠ 0 then s.waitReturn e rd mask
  else if due then s.waitExpire e rd
  else s.setEng e { s.eng e with hold := h }

/-- WAIT (R118): a zero timeout polls, all ones never ends. -/
def execWait (e : Nat) (rd rs1 rs2 : Reg) (s : State) : Out :=
  issueQuiet e s fun s =>
    let s := s.waitIssued e
    let g := s.eng e
    let ns := (g.rv rs2).toNat
    let mask := g.rv rs1
    if ns = 2 ^ 64 - 1 then .next (s.waitFirst e rd mask false (.waitTick rd mask none))
    else .next (s.waitFirst e rd mask (ns == 0) (.waitTick rd mask (some (s.tick (e / 4) + waitTicks ns))))

/-- WAIT.T (R118): the deadline is the instant in ts2. -/
def execWaitT (e : Nat) (rd rs1 : Reg) (ts2 : TReg) (s : State) : Out :=
  issueQuiet e s fun s =>
    let s := s.waitIssued e
    let g := s.eng e
    let dl := XT.units (g.rt ts2)
    let mask := g.rv rs1
    .next (s.waitFirst e rd mask (decide (dl ≤ s.now (e / 4))) (.waitTime rd mask dl))

/-- The WAIT in progress on an engine: its destination, mask, and whether its deadline is reached. -/
def State.waiting (s : State) (e : Nat) : Option (Reg × Word × Bool) :=
  match (s.eng e).hold with
  | .waitTick rd mask none => some (rd, mask, false)
  | .waitTick rd mask (some d) => some (rd, mask, decide (d ≤ s.tick (e / 4)))
  | .waitTime rd mask d => some (rd, mask, decide (d ≤ s.now (e / 4)))
  | _ => none

/-- A selected line is pending: WAIT returns it (R119). -/
def execWaitHit (e : Nat) (s : State) : Out :=
  if Config.nEngines s.part ≤ e then .next s
  else match s.waiting e with
    | some (rd, mask, _) => if (s.eng e).pending &&& mask ≠ 0 then .next (s.waitReturn e rd mask) else .next s
    | none => .next s

/-- The deadline is reached; a line that is pending by then is returned instead (R119). -/
def execWaitTimeout (e : Nat) (s : State) : Out :=
  if Config.nEngines s.part ≤ e then .next s
  else match s.waiting e with
    | some (rd, mask, due) =>
      if (s.eng e).pending &&& mask ≠ 0 then .next (s.waitReturn e rd mask)
      else if due then .next (s.waitExpire e rd) else .next s
    | none => .next s

/-! ## TRAP, FENCE, HALT -/

/-- TRAP n (R126). -/
def execTrap (e : Nat) (n : BitVec 6) (s : State) : Out :=
  issue e s fun s => .next (s.trapAt e (0xC0 + n.toNat))

/-- HALT completes: STOPPING, then STOPPED, LAST_PC the address of the HALT (R128); held failures are recorded alone. -/
def State.haltNow (s : State) (e : Nat) : State :=
  let s0 := (s.dropHeld e).issues e
  let g := s0.eng e
  let s1 := (s0.setEng e { g with hold := .none, lastDone := g.pc }).setRun (e / 4) B.ENG (e % 4) 2
  ((s1.perfEvent (e / 4) 0x20 (e % 4) 1).lastPc e g.pc).setRun (e / 4) B.ENG (e % 4) 0

/-- FENCE (R127). -/
def execFence (e : Nat) (s : State) : Out :=
  issue e s fun s =>
    let g := s.eng e
    if g.posted = [] then .next (s.complete e) else .next (s.setEng e { g with hold := .fence })

/-- HALT (R128). -/
def execHalt (e : Nat) (s : State) : Out :=
  issueQuiet e s fun s =>
    let g := s.eng e
    if g.posted = [] then .next (s.haltNow e) else .next (s.setEng e { g with hold := .halt })

/-- With every posted access acknowledged, a FENCE or HALT that waits completes. -/
def State.fenceCheck (s : State) (e : Nat) : State :=
  let g := s.eng e
  if g.posted = [] then
    match g.hold with
    | .fence => s.complete e
    | .halt => s.haltNow e
    | _ => s
  else s

/-- A posted access has failed with `cause`: the imprecise trap is taken or held (R128, R130, R131), or, in STOPPING and
STOPPED, recorded alone (R502). A WAIT, FENCE or HALT outside the trap region gives way to it at once, also while an earlier
failure is held for the end of the first instruction there. DESIGN CHOICE (log entry 104): PV is set here, also where the trap
is held. -/
def State.postedFailed (s : State) (e cause : Nat) (pc : BitVec 16) : State :=
  if s.run (e / 4) B.ENG (e % 4) = 3 then s
  else if !s.inRun (e / 4) B.ENG (e % 4) then (s.trapCause e cause).fenceCheck e
  else
    let s1 := if cause = 0x0A then s.setPv e else s
    let g := s1.eng e
    let h : HeldTrap := ⟨cause, pc⟩
    let later := s1.setEng e { g with held := g.held ++ [h] }
    if inTrapRegion g.pc then later.fenceCheck e
    else
      match g.hold with
      | .access _ _ _ => later
      | .send _ _ => later
      | _ => s1.takeHeld e h

/-- The acknowledgement of the `k`-th posted access returns, once its target has judged it and every earlier access to
that instance has been acknowledged (R54, R105). -/
def execPostedAckArrive (e k : Nat) (s : State) : Out :=
  if Config.nEngines s.part ≤ e then .next s
  else
    let g := s.eng e
    match g.posted[k]? with
    | some p =>
      match p.result with
      | some cause =>
        if (g.posted.take k).any (fun q => sameInstance q.addr p.addr) then .next s
        else
          let s1 := s.setEng e { g with posted := g.posted.eraseIdx k }
          if cause = 0 then .next (s1.fenceCheck e) else .next (s1.postedFailed e cause p.pc)
      | none => .next s
    | none => .next s

end Sys2Proof.Machine
end

