-- ==== Sys2Proof/Machine/Func.lean ====
section
/-!
DEFINITION. Function-space, table and run-state instructions (R100, R104, R105, R109 to R113) with the responses to
blocking ones, and the occurrences and messages that set event lines (R73, R77, R500).
-/
namespace Sys2Proof.Machine

/-! ## Issue -/

/-- A posted access issued: it is held until acknowledged, and execution goes on (R100); offered to a link that is down it
has failed at once (R43). -/
def State.pushPosted (s : State) (e addr width data : Nat) : State :=
  let g := s.eng e
  let result := if s.linkUp (e / 4) (faDie addr) then none else some 0x09
  let s1 := s.setEng e { g with posted := g.posted ++ [⟨g.pc, addr, width, data, result⟩] }
  (s1.tagAccess e 2 (faDie addr != e / 4)).complete e

/-- A posted instruction: with eight outstanding it stalls at issue; rows 1 and 2 of R63 are checked here (R100, R105). -/
def issuePosted (e : Nat) (s : State) (addr : Engine → Nat) (f : State → Nat → Out) : Out :=
  if 8 ≤ (s.eng e).posted.length then .next s
  else
    issue e s fun s =>
      let a := addr (s.eng e)
      if s.absentCause a ≠ 0 then .next (s.trapAt e 0x08) else f s a

/-- A write of `width` bits, posted. -/
def storeFun (e : Nat) (rs1 : Reg) (imm : Imm16) (width : Nat) (val : Engine → Nat) (s : State) : Out :=
  issuePosted e s (fun g => funAddr g rs1 imm) fun s a => .next (s.pushPosted e a width (val (s.eng e) % 2 ^ width))

/-- A blocking access begins: the engine waits for its response (R100), which is there at once where the link to the target
die is down (R43). -/
def State.await (s : State) (e : Nat) (op : BlockOp) (addr : Nat) : State :=
  let resp := if s.linkUp (e / 4) (faDie addr) then none else some ⟨0x09, 0⟩
  (s.setEng e { s.eng e with hold := .access op addr resp, calls := (s.eng e).calls + 1 }).tagAccess e 2 (faDie addr != e / 4)

/-- A blocking instruction: rows 1 and 2 of R63 here, where a failing load writes zero (R63, R105). -/
def issueBlocking (e : Nat) (s : State) (addr : Engine → Nat) (zero : Engine → Engine) (f : State → Nat → Out) : Out :=
  issue e s fun s =>
    let a := addr (s.eng e)
    if s.absentCause a ≠ 0 then .next ((s.setEng e (zero (s.eng e))).trapAt e 0x08) else f s a

/-- A read of `width` bits. -/
def loadFun (e : Nat) (rs1 : Reg) (imm : Imm16) (op : BlockOp) (zero : Engine → Engine) (s : State) : Out :=
  issueBlocking e s (fun g => funAddr g rs1 imm) zero fun s a => .next (s.await e op a)

/-- FLD32. -/
def execFld32 (e : Nat) (rd rs1 : Reg) (imm : Imm16) (s : State) : Out := loadFun e rs1 imm (.fld 32 rd) (fun g => g.wv rd 0) s
/-- FLD64. -/
def execFld64 (e : Nat) (rd rs1 : Reg) (imm : Imm16) (s : State) : Out := loadFun e rs1 imm (.fld 64 rd) (fun g => g.wv rd 0) s
/-- FLDT. -/
def execFldt (e : Nat) (td : TReg) (rs1 : Reg) (imm : Imm16) (s : State) : Out := loadFun e rs1 imm (.fldt td) (fun g => g.wt td 0) s
/-- FST32. -/
def execFst32 (e : Nat) (rd rs1 : Reg) (imm : Imm16) (s : State) : Out := storeFun e rs1 imm 32 (fun g => (g.rv rd).toNat) s
/-- FST64. -/
def execFst64 (e : Nat) (rd rs1 : Reg) (imm : Imm16) (s : State) : Out := storeFun e rs1 imm 64 (fun g => (g.rv rd).toNat) s
/-- FSTT. -/
def execFstt (e : Nat) (ts : TReg) (rs1 : Reg) (imm : Imm16) (s : State) : Out :=
  storeFun e rs1 imm 128 (fun g => (g.rt ts).toNat) s

/-! ## Run-state instructions (R112, R113) -/

/-- The instance that a register names, at offset 0. -/
def instAddr (g : Engine) (rs1 : Reg) : Nat := (g.rv rs1).toNat % 2 ^ 40 / 2 ^ 20 * 2 ^ 20

/-- The engine that last issued FN.STOP or FN.START to the instance (R77). -/
def State.noteFn (s : State) (e a : Nat) : State :=
  { s with lastFn := Store.put 0 s.lastFn (instKey (faDie a) (faBlk a) (faInst a)) (e + 1) }

/-- The engine's own ENG instance. -/
def ownEng (e a : Nat) : Bool := faDie a == e / 4 && faBlk a == B.ENG && faInst a == e % 4

/-- FN.STOP: posted; to the engine's own instance it behaves as HALT (R113). -/
def execFnStop (e : Nat) (rs1 : Reg) (s : State) : Out :=
  if ownEng e (instAddr (s.eng e) rs1) then execHalt e (if s.ready e then s.noteFn e (instAddr (s.eng e) rs1) else s)
  else issuePosted e s (fun g => instAddr g rs1) fun s a => .next ((s.noteFn e a).pushPosted e a 0 0)

/-- FN.START: blocking. -/
def execFnStart (e : Nat) (rd rs1 : Reg) (s : State) : Out :=
  issueBlocking e s (fun g => instAddr g rs1) id fun s a => .next ((s.noteFn e a).await e (.fnStart rd) a)

/-- FN.STAT: blocking. -/
def execFnStat (e : Nat) (rd rs1 : Reg) (s : State) : Out :=
  issueBlocking e s (fun g => instAddr g rs1) id fun s a => .next (s.await e (.fnStat rd) a)

/-! ## Table instructions (R109 to R111) -/

/-- Rows 1 and 2 of R63, then the operand rule: TBL_ARG is 0x11. -/
def issueTbl (e : Nat) (rs1 : Reg) (ok : State → Engine → Nat → Bool) (f : State → Nat → Out) (s : State) : Out :=
  issueBlocking e s (fun g => instAddr g rs1) id fun s a =>
    if ok s (s.eng e) a then f s a else .next (s.trapAt e 0x11)

/-- TBL.SRCH. -/
def execTblSrch (e : Nat) (rd rs1 rs2 : Reg) (s : State) : Out :=
  issueTbl e rs1 (fun _ g a => faBlk a == B.L2T && decide ((g.rv rs2).toNat < 2 ^ 60))
    (fun s a => .next (s.await e (.srch rd ((s.eng e).rv rs2)) a)) s

/-- TBL.NEXT: rd is one of v4, v8, …, v28. -/
def execTblNext (e : Nat) (rd rs1 rs2 : Reg) (s : State) : Out :=
  issueTbl e rs1 (fun _ g a => faBlk a == B.L2T && rd.toNat % 4 == 0 && rd != 0 && decide ((g.rv rs2).toNat ≤ 262143))
    (fun s a => .next (s.await e (.tnext rd ((s.eng e).rv rs2)) a)) s

/-- The request of a table instruction reaches its target, behind the engine's posted accesses to that instance. -/
def State.reach (s : State) (e a : Nat) (f : State → State) : State :=
  let c := s.accessCause e a 0 false
  if c = 0 then f (s.tagTarget e (faDie a) false) else s.answer e a c 0

/-- TBL.FLUSH of a port that is present (R44, R45): the request goes to the order point on D0; where D0 cannot be reached the
number reads as zero (R353). -/
def execTblFlush (e : Nat) (rd rs1 rs2 : Reg) (s : State) : Out :=
  if s.behind e (instAddr (s.eng e) rs1) then .next s
  else
    issueTbl e rs1
      (fun s g a => faBlk a == B.L2T && decide ((g.rv rs2).toNat < 2 ^ 9) && s.portExists ((g.rv rs2).toNat % 256))
      (fun s a =>
        let arg := (s.eng e).rv rs2
        let h : L2Held := ⟨faDie a, some (e, (s.eng e).calls + 1), .flush (arg.toNat % 256) (bitSet arg.toNat 8)⟩
        .next ((s.await e (.flush rd arg) a).reach e a fun s =>
          if s.linkUp (faDie a) 0 then s.post (faDie a) 0 (.l2Req h) else s.answer e a 0 0)) s

/-- The 64-byte command block at a DMEM address. -/
def blockOk (a : Nat) : Bool := decide (a ≤ 0x10000 - 64) && a % 16 == 0

/-- TBL.CMD: the command block goes to the command register; BUSY there answers 0xFF (R110). -/
def execTblCmd (e : Nat) (rd rs1 rs2 : Reg) (s : State) : Out :=
  if s.behind e (instAddr (s.eng e) rs1) then .next s
  else
    issueTbl e rs1 (fun _ g a => isTbl (faBlk a) && blockOk (g.rv rs2).toNat)
      (fun s a =>
        let m := ((s.eng e).rv rs2).toNat
        if (s.eng e).dmemDouble m 64 then .next (s.trapAt e 0x04)
        else
          let d := faDie a
          let blk := faBlk a
          .next (((s.dmemTouch e m 64).await e (.tcmd rd m) a).reach e a fun s =>
            if s.flag (fCmdBusy blk) d 0 then s.answer e a 0 0xFF
            else
              let fill := s.setTbl d blk { s.tbl d blk with blk := Store.putList 0 (s.tbl d blk).blk 0 ((s.eng e).dmemBytes m 64) }
              fill.tblGo d blk (some (e, (s.eng e).calls)))) s

/-! ## Responses (R105) -/

/-- The first occupied slot at or above a cursor: slot, key, word. -/
def L2Bank.nextUsed (b : L2Bank) (cursor : Nat) : Option (Nat × Nat × Nat) :=
  (b.find? fun p => decide (cursor ≤ p.1) && p.2.2 != 0).map fun p => (p.1, p.2.1, p.2.2)

/-- The result of a blocking access written, and the instruction complete. -/
def State.accept (s : State) (e addr : Nat) (op : BlockOp) (v : Nat) : State :=
  let g := s.eng e
  match op with
  | .fld _ rd => s.doneWith e (g.wv rd (BitVec.ofNat 64 v))
  | .fldt td => s.doneWith e (g.wt td (BitVec.ofNat 128 v))
  | .fnStart rd => s.doneWith e { g.wv rd (BitVec.ofNat 64 v) with flags := g.flags.setZ (v == 0) }
  | .fnStat rd => s.doneWith e (g.wv rd (BitVec.ofNat 64 v))
  | .srch rd _ => s.doneWith e { g.wv rd (BitVec.ofNat 64 v) with flags := g.flags.setZ (v == 0) }
  | .tnext rd cursor =>
    match (s.l2Bank (faDie addr)).nextUsed cursor.toNat with
    | some (slot, key, word) =>
      let g1 := ((g.wv rd (BitVec.ofNat 64 key)).wv (rd + 1) (BitVec.ofNat 64 word)).wv (rd + 2) (BitVec.ofNat 64 slot)
      s.doneWith e { g1 with flags := g.flags.setZ false }
    | none =>
      let g1 := ((g.wv rd 0).wv (rd + 1) 0).wv (rd + 2) 262144
      s.doneWith e { g1 with flags := g.flags.setZ true }
  | .flush rd _ => s.doneWith e (g.wv rd (BitVec.ofNat 64 v))
  | .tcmd rd m =>
    let g1 := if v = 0xFF then g
      else g.dmemWrite m g.block
    s.doneWith e { g1.wv rd (BitVec.ofNat 64 v) with flags := g.flags.setZ (v == 0) }

/-- A load that fails writes zero (R63). -/
def BlockOp.zero (op : BlockOp) (g : Engine) : Engine :=
  match op with
  | .fld _ rd => g.wv rd 0
  | .fldt td => g.wt td 0
  | _ => g

/-- The response to a blocking access: its result, or a precise trap. -/
def State.respond (s : State) (e addr : Nat) (op : BlockOp) (r : Resp) : State :=
  let s1 := if r.cause = 0x09 then s else s.tagAccess e 5 (faDie addr != e / 4)
  if r.cause = 0 then s1.accept e addr op r.value
  else (s1.setEng e (op.zero (s1.eng e))).failAt e r.cause

/-- The access made at its target where no other command has made it: a read, a search, a look at FSTATE. -/
def State.serve (s : State) (e addr : Nat) (op : BlockOp) : Option (State × Resp) :=
  let die := faDie addr
  let blk := faBlk addr
  let read (n : Nat) : State × Resp :=
    let c := s.accessCause e addr (8 * n) (readOnly s.part addr (8 * n))
    if c = 0 then
      let r := s.readAt (s.engPart e) die blk (faInst addr) (faOff addr) n
      (r.1, ⟨0, r.2⟩)
    else (s, ⟨c, 0⟩)
  match op with
  | .fld w _ => some (read (w / 8))
  | .fldt _ => some (read 16)
  | .fnStat _ =>
    let c := s.accessCause e addr 0 true
    some (s, ⟨c, (s.readAt (s.engPart e) die blk (faInst addr) 0xFFF00 4).2⟩)
  | .srch _ key => some (s, ⟨s.accessCause e addr 0 false, s.l2Lookup die key.toNat⟩)
  | .tnext _ _ => some (s, ⟨s.accessCause e addr 0 false, 0⟩)
  | _ => none

/-- FUNCTION_RESPONSE_ARRIVE: the response to the access that engine `e` waits for, once its target has answered and every
earlier posted access to that instance has arrived (R54). What no other command has served is served now, and the stages at
its target carry this tick (DESIGN CHOICE, log entry 103). -/
def execFunctionResponseArrive (e : Nat) (s : State) : Out :=
  if Config.nEngines s.part ≤ e then .next s
  else
    match (s.eng e).hold with
    | .access op addr (some r) => .next (s.respond e addr op r)
    | .access op addr none =>
      if s.behind e addr then .next s
      else
        match s.serve e addr op with
        | some r => .next ((r.1.tagTarget e (faDie addr) true).respond e addr op r.2)
        | none => .next s
    | _ => .next s

/-! ## Event lines -/

/-- EVENT_OCCURRENCE: an event of an instance, or of a fixed source (R73, R77). -/
def execEventOccurrence (src : EvSource) (s : State) : Out :=
  match src with
  | .block die blk inst ev => onInst die blk inst s fun s => if ev < 64 then s.raise die blk inst ev else s
  | .line e line =>
    if Config.nEngines s.part ≤ e then .next s
    else if 58 ≤ line ∧ line < 64 ∧ s.resets.asserted = false then .next (s.setLine e line) else .next s

/-- EVENT_MESSAGE_ARRIVE: an occurrence from another die sets the pending bit (R500). -/
def execEventMessageArrive (e line : Nat) (s : State) : Out :=
  if Config.nEngines s.part ≤ e then .next s
  else
    match takeMsg (fun m => m.dst == e / 4 && m.body == .event e line) s.msgs with
    | some (_, r) => .next ({ s with msgs := r }.setLine e line)
    | none => .next s

end Sys2Proof.Machine
end

