-- ==== Sys2Proof/Machine/Debug.lean ====
section
/-!
DEFINITION. The debug port (R163, R178 to R181): the IEEE 1149.1 instructions, the unlock attempts, accesses and engine
control through the port.
-/
namespace Sys2Proof.Machine

/-- The TAP takes instructions: PWRGOOD is high and TRST_N is high (R163). -/
def State.tapLive (s : State) : Bool := s.pins.pwrgood && s.pins.trstN

/-- An instruction with its code and the value it shifts out; pins go back to the core. -/
def State.tapSet (s : State) (ir out : Nat) : State :=
  { s with sec := { s.sec with tap := { s.sec.tap with ir := ir, shiftOut := out, driving := false, highz := false } } }

/-- The level of TDO with the TAP at bit `k` of the Shift-DR of its instruction, and outside Shift-DR and Shift-IR, where it is at
high impedance (R483). A row of the TAP is a whole scan, so between rows it is outside; what Shift-IR shows is IEEE 1149.1's. -/
def State.tdo (s : State) (shift : Option Nat) : Option Bool :=
  match shift with
  | some k => if s.tapLive then some (bitSet s.sec.tap.shiftOut k) else none
  | none => none

/-- An instruction of the TAP, which reset holds only by TRST_N and PWRGOOD. -/
def onTap (s : State) (f : State → State) : Out := if s.tapLive then .next (f s) else .next s

/-- The number that bits spell, the first lowest. -/
def bitsNat : List Bool → Nat
  | [] => 0
  | b :: r => ofBool b + 2 * bitsNat r

/-- IDCODE of the part (the debug port's bits 31:0). -/
def idcode (p : Part) : Nat :=
  (Config.stepping.toNat + 256 - 65) % 16 * 2 ^ 28 + Config.partId p * 2 ^ 12 + 0x2D5 * 2 + 1

/-! ## IEEE 1149.1 -/

/-- IDCODE. -/
def execIdcode (s : State) : Out := onTap s fun s => s.tapSet 0x01 (idcode s.part)

/-- SAMPLE/PRELOAD: the pins' levels are captured, the boundary register is preloaded. -/
def execSamplePreload (pins preload : List Bool) (s : State) : Out :=
  onTap s fun s =>
    let t := s.tapSet 0x02 (bitsNat pins)
    { t with sec := { t.sec with tap := { t.sec.tap with boundary := preload } } }

/-- EXTEST: the boundary register drives the pins, whose levels are captured. -/
def execExtest (pins drive : List Bool) (s : State) : Out :=
  onTap s fun s =>
    let t := s.tapSet 0x03 (bitsNat pins)
    { t with sec := { t.sec with tap := { t.sec.tap with boundary := drive, driving := true } } }

/-- CLAMP: the boundary register as it stands drives the pins; the bypass register is selected. -/
def execClamp (s : State) : Out :=
  onTap s fun s =>
    let t := s.tapSet 0x04 0
    { t with sec := { t.sec with tap := { t.sec.tap with driving := true } } }

/-- HIGHZ: every pin at high impedance; the bypass register is selected. -/
def execHighz (s : State) : Out :=
  onTap s fun s =>
    let t := s.tapSet 0x05 0
    { t with sec := { t.sec with tap := { t.sec.tap with highz := true } } }

/-- BYPASS. -/
def execBypass (s : State) : Out := onTap s fun s => s.tapSet 0xFF 0

/-! ## Unlocking (R179, R180) -/

/-- Ridge ticks of D0 in 1 s and in 60 s. -/
def holdSpan : Nat := 625000000
def nonceSpan : Nat := 37500000000

/-- DBG_CHAL: a fresh nonce; in reset none is kept. -/
def execDbgChal (s : State) : Out :=
  onTap s fun s =>
    let n : BitVec 128 := BitVec.ofNat 128 ((Config.freeValue s.free).toNat + 2 ^ 64 * (Config.freeValue (s.free + 1)).toNat)
    let t := { s with free := s.free + 2 }.tapSet 0x10 n.toNat
    { t with sec := { t.sec with nonce := if s.resets.asserted then none else some (n, s.tick 0) } }

/-- SEC compares no attempt now (R168, R174, R180). -/
def State.dbgRefuses (s : State) (allowed : Bool) : Bool :=
  s.resets.asserted || s.sec.hold.isSome || !allowed || s.secFault || s.secNvs.lockout || s.otp.lifecycle != 2

/-- A counted attempt: FAILS is stored first, then a match opens the port, or a mismatch starts HOLD (R180). DESIGN CHOICE (log
entry 85): LOCKOUT is judged after the comparison, so an attempt that takes FAILS to 8 and matches opens the port; every match
raises event 0, also where the port is open already. -/
def State.dbgAttempt (s : State) (matches_ : Bool) : State :=
  let n := s.secNvs.fails + 1
  if matches_ then
    ((s.setSecNvs { s.secNvs with fails := 0 }).setFlag F.SEC.DBG_OPEN 0 0).secEvent 0
  else
    let s1 := s.setSecNvs { s.secNvs with fails := n, lockout := decide (8 ≤ n) }
    ({ s1 with sec := { s1.sec with hold := some (s.tick 0) } }).secEvent 1

/-- The bytes that a challenge response covers: nonce, DEVICE_ID, IDCODE, each big-endian (R179). -/
def chalBytes (p : Part) (n : BitVec 128) : List Byte :=
  bytesBE 16 n.toNat ++ bytesBE 8 Config.deviceId.toNat ++ bytesBE 4 (idcode p)

/-- DBG_RESP: the nonce serves this one response. DESIGN CHOICE (log entry 86): without an enrolled secret it is a mismatch and is
counted. -/
def execDbgResp (resp : BitVec 256) (s : State) : Out :=
  onTap s fun s =>
    let t := (s.tapSet 0x11 0)
    let u := { t with sec := { t.sec with nonce := none } }
    match s.sec.nonce with
    | some (n, _) =>
      if s.dbgRefuses s.secNvs.allowChal then u
      else u.dbgAttempt (match s.otp.secret with
        | some k => Config.hmacSha256 k (chalBytes s.part n) == resp
        | none => false)
    | none => u

/-- DBG_PWD: a length and 64 password bytes. DESIGN CHOICE (log entry 86): without a password set, or with a length above 64, it is
a mismatch and is counted. -/
def execDbgPwd (len : Nat) (bytes : List Byte) (s : State) : Out :=
  onTap s fun s =>
    let t := s.tapSet 0x12 0
    if s.dbgRefuses s.secNvs.allowPwd then t
    else t.dbgAttempt (match s.secNvs.password with
      | some (salt, d) => decide (len ≤ 64) && Config.saltedDigest salt (bytes.take len) == d
      | none => false)

/-- DBG_STATUS: READY, whose rule the spec does not give, is free. -/
def execDbgStatus (s : State) : Out :=
  onTap s fun s =>
    let ready := s.draw.1.toNat % 2
    s.draw.2.tapSet 0x13 (ready + 2 * s.rf F.SEC.DBG_OPEN 0 0 + 4 * ofBool s.sec.hold.isSome + 8 * ofBool s.secNvs.lockout +
      16 * s.otp.lifecycle)

/-- DBG_HOLD_EXPIRE: 1 s after a failed attempt. -/
def execDbgHoldExpire (s : State) : Out :=
  match s.sec.hold with
  | some t => if t + holdSpan ≤ s.tick 0 then .next { s with sec := { s.sec with hold := none } } else .next s
  | none => .next s

/-- NONCE_EXPIRE: 60 s after its capture. -/
def execNonceExpire (s : State) : Out :=
  match s.sec.nonce with
  | some (_, t) => if t + nonceSpan ≤ s.tick 0 then .next { s with sec := { s.sec with nonce := none } } else .next s
  | none => .next s

/-! ## Accesses and engine control (R178) -/

/-- The port is open. -/
def State.dbgOpen (s : State) : Bool := s.flag F.SEC.DBG_OPEN 0 0 && !s.resets.asserted

/-- Every check of R63 for the port's 64-bit access, made as an engine of partition 0 on D0. -/
def State.dbgCause (s : State) (addr : Nat) (write : Bool) : Nat :=
  if s.absentCause addr ≠ 0 then 0x08 else s.causeFrom 0 0 addr 64 (!write && readOnly s.part addr 64)

/-- DBG_ACCESS: the status and the data read are shifted out; in a locked state it behaves as BYPASS. -/
def execDbgAccess (addr : BitVec 40) (write : Bool) (data : Word) (s : State) : Out :=
  onTap s fun s =>
    let a := addr.toNat
    let die := faDie a
    let blk := faBlk a
    let o := faOff a
    if !s.dbgOpen then s.tapSet 0x20 0
    else
      let c := s.dbgCause a write
      if c ≠ 0 then s.tapSet 0x20 (c % 16)
      else if write then
        let t := if blk = B.NVS ∧ inWindow die blk o = true then (s.nvsPost none die o 64 data.toNat).1
          else s.writeAt none die blk (faInst a) o 8 data.toNat
        t.tapSet 0x20 0
      else
        let r := s.readAt 0 die blk (faInst a) o 8
        r.1.tapSet 0x20 (16 * r.2)

/-- DBG_ENG on engine `e`: halt, one step of a halted engine, or a register shifted out; an absent engine gives zero. -/
def execDbgEng (e : Nat) (op : DbgOp) (s : State) : Out :=
    onTap s fun s =>
      if !s.dbgOpen || decide (Config.nEngines s.part ≤ e) then s.tapSet 0x21 0
      else
        let g := s.eng e
        match op with
        | .halt =>
          let t := s.tapSet 0x21 0
          { t with sec := { t.sec with dbgHalted := if t.sec.dbgHalted.contains e then t.sec.dbgHalted else t.sec.dbgHalted ++ [e] } }
        | .step =>
          let t := s.tapSet 0x21 0
          if t.sec.dbgHalted.contains e then { t with sec := { t.sec with dbgStep := some e } } else t
        | .readV r => s.tapSet 0x21 (g.rv r).toNat
        | .readT r => s.tapSet 0x21 (g.rt r).toNat
        | .readPc => s.tapSet 0x21 g.pc.toNat
        | .readFlags => s.tapSet 0x21 g.flags.word

end Sys2Proof.Machine
end

