-- ==== Sys2Proof/Machine/Mem.lean ====
section
/-!
DEFINITION. Local memory instructions (R103), with the ECC of R59: a failed check touches nothing; a double-bit error
completes the load with zero and traps.
-/
namespace Sys2Proof.Machine

/-- A load of `n` bytes into what `put` names. -/
def loadFrom (e : Nat) (rs1 : Reg) (imm : Imm16) (n : Nat) (put : Engine → Nat → Engine) (s : State) : Out :=
  issue e s fun s =>
    let g := s.eng e
    let a := effAddr g rs1 imm
    match dmemCheck a n with
    | 0 =>
      if g.dmemDouble a n then .next ((s.setEng e (put g 0)).trapAt e 0x04)
      else
        let s1 := s.dmemTouch e a n
        .next (s1.doneWith e (put (s1.eng e) (g.dmemRead a n)))
    | c => .next (s.trapAt e c)

/-- A store of the `n` low bytes of what `val` names: one of less than a word corrects and flags a single-bit error of its word. -/
def storeTo (e : Nat) (rs1 : Reg) (imm : Imm16) (n : Nat) (val : Engine → Nat) (s : State) : Out :=
  issue e s fun s =>
    let g := s.eng e
    let a := effAddr g rs1 imm
    match dmemCheck a n with
    | 0 =>
      let s1 := s.dmemPart e a n
      .next (s1.doneWith e ((s1.eng e).dmemWrite a (bytesLE n (val g))))
    | c => .next (s.trapAt e c)

/-- rd written with the zero-extended value. -/
def putU (rd : Reg) (g : Engine) (x : Nat) : Engine := g.wv rd (BitVec.ofNat 64 x)

/-- rd written with the value of `w` bits sign-extended. -/
def putS (rd : Reg) (w : Nat) (g : Engine) (x : Nat) : Engine := g.wv rd ((BitVec.ofNat w x).signExtend 64)

/-- LD8U (R103). -/
def execLd8u (e : Nat) (rd rs1 : Reg) (imm : Imm16) (s : State) : Out := loadFrom e rs1 imm 1 (putU rd) s
/-- LD16U (R103). -/
def execLd16u (e : Nat) (rd rs1 : Reg) (imm : Imm16) (s : State) : Out := loadFrom e rs1 imm 2 (putU rd) s
/-- LD32U (R103). -/
def execLd32u (e : Nat) (rd rs1 : Reg) (imm : Imm16) (s : State) : Out := loadFrom e rs1 imm 4 (putU rd) s
/-- LD64 (R103). -/
def execLd64 (e : Nat) (rd rs1 : Reg) (imm : Imm16) (s : State) : Out := loadFrom e rs1 imm 8 (putU rd) s
/-- LD8S (R103). -/
def execLd8s (e : Nat) (rd rs1 : Reg) (imm : Imm16) (s : State) : Out := loadFrom e rs1 imm 1 (putS rd 8) s
/-- LD16S (R103). -/
def execLd16s (e : Nat) (rd rs1 : Reg) (imm : Imm16) (s : State) : Out := loadFrom e rs1 imm 2 (putS rd 16) s
/-- LD32S (R103). -/
def execLd32s (e : Nat) (rd rs1 : Reg) (imm : Imm16) (s : State) : Out := loadFrom e rs1 imm 4 (putS rd 32) s
/-- ST8 (R103). -/
def execSt8 (e : Nat) (rd rs1 : Reg) (imm : Imm16) (s : State) : Out :=
  storeTo e rs1 imm 1 (fun g => (g.rv rd).toNat) s
/-- ST16 (R103). -/
def execSt16 (e : Nat) (rd rs1 : Reg) (imm : Imm16) (s : State) : Out :=
  storeTo e rs1 imm 2 (fun g => (g.rv rd).toNat) s
/-- ST32 (R103). -/
def execSt32 (e : Nat) (rd rs1 : Reg) (imm : Imm16) (s : State) : Out :=
  storeTo e rs1 imm 4 (fun g => (g.rv rd).toNat) s
/-- ST64 (R103). -/
def execSt64 (e : Nat) (rd rs1 : Reg) (imm : Imm16) (s : State) : Out :=
  storeTo e rs1 imm 8 (fun g => (g.rv rd).toNat) s
/-- LDT (R103). -/
def execLdt (e : Nat) (td : TReg) (rs1 : Reg) (imm : Imm16) (s : State) : Out :=
  loadFrom e rs1 imm 16 (fun g x => g.wt td (BitVec.ofNat 128 x)) s
/-- STT (R103). -/
def execStt (e : Nat) (ts : TReg) (rs1 : Reg) (imm : Imm16) (s : State) : Out :=
  storeTo e rs1 imm 16 (fun g => (g.rt ts).toNat) s

end Sys2Proof.Machine
end

