-- ==== Sys2Proof/Machine/TimeInstr.lean ====
section
/-!
DEFINITION. The time instructions (R106 to R108).
-/
namespace Sys2Proof.Machine

/-- A time register and the V flag written. -/
def timeOp (e : Nat) (td : TReg) (val : Engine → XT × Bool) (s : State) : Out :=
  issue e s fun s =>
    let g := s.eng e
    let r := val g
    .next (s.doneWith e { g.wt td r.1 with flags := g.flags.setV r.2 })

/-- Saturation of an exact sum to 0 … UMAX (R107). -/
def satUnits (x : Int) : XT × Bool :=
  if x < 0 then (xtOfUnits 0, true)
  else if Int.ofNat unitsMax < x then (xtOfUnits unitsMax, true)
  else (xtOfUnits x.toNat, false)

/-- The floored difference of two instants in 2^-16 ns, saturated to 64 bits (R107). -/
def tsubVal (x y : XT) : Int × Bool :=
  let q := (Int.ofNat (XT.units x) - Int.ofNat (XT.units y)) / 2 ^ 16
  if q < -(2 ^ 63) then (-(2 ^ 63), true)
  else if 2 ^ 63 - 1 < q then (2 ^ 63 - 1, true)
  else (q, false)

/-- TCVT.PACK: normalised, saturating (R107). -/
def packVal (a b : Word) : XT × Bool :=
  let nanos := b.toNat / 2 ^ 32
  let secs := a.toNat + nanos / 10 ^ 9
  if 2 ^ 64 - 1 < secs then (xtOfUnits unitsMax, true)
  else (xtOf secs (nanos % 10 ^ 9) (b.toNat % 2 ^ 32), false)

/-- TNOW: the replica's time at the most recent ridge tick; V when not timing-grade (R106, R108). -/
def execTnow (e : Nat) (td : TReg) (s : State) : Out :=
  timeOp e td (fun _ => (xtOfUnits (s.now (e / 4)), !s.tg (e / 4))) s

/-- TNOW.TK (R106). -/
def execTnowTk (e : Nat) (rd : Reg) (s : State) : Out :=
  issue e s fun s => .next (s.doneWith e ((s.eng e).wv rd (BitVec.ofNat 64 (s.tick (e / 4)))))

/-- TADD (R107). -/
def execTadd (e : Nat) (td ts1 : TReg) (rs2 : Reg) (s : State) : Out :=
  timeOp e td (fun g => satUnits (Int.ofNat (XT.units (g.rt ts1)) + (g.rv rs2).toInt * 2 ^ 16)) s

/-- TSUB (R107). -/
def execTsub (e : Nat) (rd : Reg) (ts1 ts2 : TReg) (s : State) : Out :=
  issue e s fun s =>
    let g := s.eng e
    let q := tsubVal (g.rt ts1) (g.rt ts2)
    let r := BitVec.ofInt 64 q.1
    .next (s.doneWith e { g.wv rd r with flags := g.flags.ofTsub r q.2 })

/-- TCMP (R106). -/
def execTcmp (e : Nat) (ts1 ts2 : TReg) (s : State) : Out :=
  issue e s fun s =>
    let g := s.eng e
    .next (s.doneWith e { g with flags := g.flags.ofTcmp (XT.units (g.rt ts1)) (XT.units (g.rt ts2)) })

/-- TCVT.PACK (R107). -/
def execTcvtPack (e : Nat) (td : TReg) (rs1 rs2 : Reg) (s : State) : Out :=
  timeOp e td (fun g => packVal (g.rv rs1) (g.rv rs2)) s

/-- TCVT.SEC (R106). -/
def execTcvtSec (e : Nat) (rd : Reg) (ts1 : TReg) (s : State) : Out :=
  issue e s fun s =>
    let g := s.eng e
    .next (s.doneWith e (g.wv rd (BitVec.ofNat 64 (XT.secs (g.rt ts1)))))

/-- TCVT.LO (R106). -/
def execTcvtLo (e : Nat) (rd : Reg) (ts1 : TReg) (s : State) : Out :=
  issue e s fun s =>
    let g := s.eng e
    .next (s.doneWith e (g.wv rd (BitVec.ofNat 64 ((g.rt ts1).toNat % 2 ^ 64))))

/-- TCVT.MOV (R106). -/
def execTcvtMov (e : Nat) (td ts1 : TReg) (s : State) : Out :=
  issue e s fun s =>
    let g := s.eng e
    .next (s.doneWith e (g.wt td (g.rt ts1)))

end Sys2Proof.Machine
end

