-- ==== Sys2Proof/Machine/Dispatch.lean ====
section
/-!
DEFINITION. The meaning of every command: one direct call for each constructor of Instr.
-/
namespace Sys2Proof.Machine

/-- A command's effect on everything but the queue. -/
def exec (i : Instr) (s : State) : Host.Outcome State Fault Refusal :=
  match i with
  | .nop e => Sys2Proof.Machine.execNop e s
  | .illegal e w => Sys2Proof.Machine.execIllegal e w s
  | .add e rd rs1 rs2 => Sys2Proof.Machine.execAdd e rd rs1 rs2 s
  | .sub e rd rs1 rs2 => Sys2Proof.Machine.execSub e rd rs1 rs2 s
  | .and e rd rs1 rs2 => Sys2Proof.Machine.execAnd e rd rs1 rs2 s
  | .or e rd rs1 rs2 => Sys2Proof.Machine.execOr e rd rs1 rs2 s
  | .xor e rd rs1 rs2 => Sys2Proof.Machine.execXor e rd rs1 rs2 s
  | .sll e rd rs1 rs2 => Sys2Proof.Machine.execSll e rd rs1 rs2 s
  | .srl e rd rs1 rs2 => Sys2Proof.Machine.execSrl e rd rs1 rs2 s
  | .sra e rd rs1 rs2 => Sys2Proof.Machine.execSra e rd rs1 rs2 s
  | .mul e rd rs1 rs2 => Sys2Proof.Machine.execMul e rd rs1 rs2 s
  | .mulhu e rd rs1 rs2 => Sys2Proof.Machine.execMulhu e rd rs1 rs2 s
  | .mulhs e rd rs1 rs2 => Sys2Proof.Machine.execMulhs e rd rs1 rs2 s
  | .divu e rd rs1 rs2 => Sys2Proof.Machine.execDivu e rd rs1 rs2 s
  | .remu e rd rs1 rs2 => Sys2Proof.Machine.execRemu e rd rs1 rs2 s
  | .clz e rd rs1 => Sys2Proof.Machine.execClz e rd rs1 s
  | .popc e rd rs1 => Sys2Proof.Machine.execPopc e rd rs1 s
  | .addi e rd rs1 imm => Sys2Proof.Machine.execAddi e rd rs1 imm s
  | .andi e rd rs1 imm => Sys2Proof.Machine.execAndi e rd rs1 imm s
  | .ori e rd rs1 imm => Sys2Proof.Machine.execOri e rd rs1 imm s
  | .xori e rd rs1 imm => Sys2Proof.Machine.execXori e rd rs1 imm s
  | .shi e rd rs1 op sh => Sys2Proof.Machine.execShi e rd rs1 op sh s
  | .cmpi e rs1 imm => Sys2Proof.Machine.execCmpi e rs1 imm s
  | .movz e rd imm k => Sys2Proof.Machine.execMovz e rd imm k s
  | .movk e rd imm k => Sys2Proof.Machine.execMovk e rd imm k s
  | .ld8u e rd rs1 imm => Sys2Proof.Machine.execLd8u e rd rs1 imm s
  | .ld16u e rd rs1 imm => Sys2Proof.Machine.execLd16u e rd rs1 imm s
  | .ld32u e rd rs1 imm => Sys2Proof.Machine.execLd32u e rd rs1 imm s
  | .ld64 e rd rs1 imm => Sys2Proof.Machine.execLd64 e rd rs1 imm s
  | .ld8s e rd rs1 imm => Sys2Proof.Machine.execLd8s e rd rs1 imm s
  | .ld16s e rd rs1 imm => Sys2Proof.Machine.execLd16s e rd rs1 imm s
  | .ld32s e rd rs1 imm => Sys2Proof.Machine.execLd32s e rd rs1 imm s
  | .st8 e rd rs1 imm => Sys2Proof.Machine.execSt8 e rd rs1 imm s
  | .st16 e rd rs1 imm => Sys2Proof.Machine.execSt16 e rd rs1 imm s
  | .st32 e rd rs1 imm => Sys2Proof.Machine.execSt32 e rd rs1 imm s
  | .st64 e rd rs1 imm => Sys2Proof.Machine.execSt64 e rd rs1 imm s
  | .ldt e td rs1 imm => Sys2Proof.Machine.execLdt e td rs1 imm s
  | .stt e ts rs1 imm => Sys2Proof.Machine.execStt e ts rs1 imm s
  | .fld32 e rd rs1 imm => Sys2Proof.Machine.execFld32 e rd rs1 imm s
  | .fld64 e rd rs1 imm => Sys2Proof.Machine.execFld64 e rd rs1 imm s
  | .fst32 e rd rs1 imm => Sys2Proof.Machine.execFst32 e rd rs1 imm s
  | .fst64 e rd rs1 imm => Sys2Proof.Machine.execFst64 e rd rs1 imm s
  | .fldt e td rs1 imm => Sys2Proof.Machine.execFldt e td rs1 imm s
  | .fstt e ts rs1 imm => Sys2Proof.Machine.execFstt e ts rs1 imm s
  | .functionResponseArrive e => Sys2Proof.Machine.execFunctionResponseArrive e s
  | .postedAckArrive e k => Sys2Proof.Machine.execPostedAckArrive e k s
  | .tnow e td => Sys2Proof.Machine.execTnow e td s
  | .tnowTk e rd => Sys2Proof.Machine.execTnowTk e rd s
  | .tadd e td ts1 rs2 => Sys2Proof.Machine.execTadd e td ts1 rs2 s
  | .tsub e rd ts1 ts2 => Sys2Proof.Machine.execTsub e rd ts1 ts2 s
  | .tcmp e ts1 ts2 => Sys2Proof.Machine.execTcmp e ts1 ts2 s
  | .tcvtPack e td rs1 rs2 => Sys2Proof.Machine.execTcvtPack e td rs1 rs2 s
  | .tcvtSec e rd ts1 => Sys2Proof.Machine.execTcvtSec e rd ts1 s
  | .tcvtLo e rd ts1 => Sys2Proof.Machine.execTcvtLo e rd ts1 s
  | .tcvtMov e td ts1 => Sys2Proof.Machine.execTcvtMov e td ts1 s
  | .tblSrch e rd rs1 rs2 => Sys2Proof.Machine.execTblSrch e rd rs1 rs2 s
  | .tblNext e rd rs1 rs2 => Sys2Proof.Machine.execTblNext e rd rs1 rs2 s
  | .tblFlush e rd rs1 rs2 => Sys2Proof.Machine.execTblFlush e rd rs1 rs2 s
  | .tblCmd e rd rs1 rs2 => Sys2Proof.Machine.execTblCmd e rd rs1 rs2 s
  | .fnStop e rs1 => Sys2Proof.Machine.execFnStop e rs1 s
  | .fnStart e rd rs1 => Sys2Proof.Machine.execFnStart e rd rs1 s
  | .fnStat e rd rs1 => Sys2Proof.Machine.execFnStat e rd rs1 s
  | .runStateRequestArrive by_ die blk inst req => Sys2Proof.Machine.execRunStateRequestArrive by_ die blk inst req s
  | .drainComplete die blk inst => Sys2Proof.Machine.execDrainComplete die blk inst s
  | .drainLimitExpire die blk inst => Sys2Proof.Machine.execDrainLimitExpire die blk inst s
  | .enterFault die blk inst code => Sys2Proof.Machine.execEnterFault die blk inst code s
  | .b e cc imm => Sys2Proof.Machine.execB e cc imm s
  | .call e rd imm => Sys2Proof.Machine.execCall e rd imm s
  | .jalr e rd rs1 imm => Sys2Proof.Machine.execJalr e rd rs1 imm s
  | .rdf e rd => Sys2Proof.Machine.execRdf e rd s
  | .wrf e rs1 => Sys2Proof.Machine.execWrf e rs1 s
  | .clf e mask => Sys2Proof.Machine.execClf e mask s
  | .wait e rd rs1 rs2 => Sys2Proof.Machine.execWait e rd rs1 rs2 s
  | .waitT e rd rs1 ts2 => Sys2Proof.Machine.execWaitT e rd rs1 ts2 s
  | .waitHit e => Sys2Proof.Machine.execWaitHit e s
  | .waitTimeout e => Sys2Proof.Machine.execWaitTimeout e s
  | .send e rs1 rs2 => Sys2Proof.Machine.execSend e rs1 rs2 s
  | .recv e rd rs1 rs2 => Sys2Proof.Machine.execRecv e rd rs1 rs2 s
  | .mbx e rd rs1 imm => Sys2Proof.Machine.execMbx e rd rs1 imm s
  | .trap e n => Sys2Proof.Machine.execTrap e n s
  | .fence e => Sys2Proof.Machine.execFence e s
  | .halt e => Sys2Proof.Machine.execHalt e s
  | .eventOccurrence src => Sys2Proof.Machine.execEventOccurrence src s
  | .eventMessageArrive e line => Sys2Proof.Machine.execEventMessageArrive e line s
  | .evmapWrite by_ e k data => Sys2Proof.Machine.execEvmapWrite by_ e k data s
  | .engSignalWrite by_ e data => Sys2Proof.Machine.execEngSignalWrite by_ e data s
  | .registerWrite by_ addr width data => Sys2Proof.Machine.execRegisterWrite by_ addr width data s
  | .readClear by_ addr width => Sys2Proof.Machine.execReadClear by_ addr width s
  | .ownCmdSet e die blk inst part => Sys2Proof.Machine.execOwnCmdSet e die blk inst part s
  | .ownCmdQuery e die blk inst => Sys2Proof.Machine.execOwnCmdQuery e die blk inst s
  | .ownHoldRequest d => Sys2Proof.Machine.execOwnHoldRequest d s
  | .ownHoldReply => Sys2Proof.Machine.execOwnHoldReply s
  | .ownEntriesApply d => Sys2Proof.Machine.execOwnEntriesApply d s
  | .ownCmdComplete => Sys2Proof.Machine.execOwnCmdComplete s
  | .ownResync d => Sys2Proof.Machine.execOwnResync d s
  | .policyWrite e data => Sys2Proof.Machine.execPolicyWrite e data s
  | .policyCopyApply d => Sys2Proof.Machine.execPolicyCopyApply d s
  | .loadGo h spi => Sys2Proof.Machine.execLoadGo h spi s
  | .loadStaged h bytes failed => Sys2Proof.Machine.execLoadStaged h bytes failed s
  | .signatureCheckDone => Sys2Proof.Machine.execSignatureCheckDone s
  | .loadEnd h => Sys2Proof.Machine.execLoadEnd h s
  | .mbiPost h slot len => Sys2Proof.Machine.execMbiPost h slot len s
  | .svcPost h slot len => Sys2Proof.Machine.execSvcPost h slot len s
  | .mbiTake e d => Sys2Proof.Machine.execMbiTake e d s
  | .mbiFree e d slot => Sys2Proof.Machine.execMbiFree e d slot s
  | .mboTake h => Sys2Proof.Machine.execMboTake h s
  | .mboFree h slot => Sys2Proof.Machine.execMboFree h slot s
  | .svcTake e => Sys2Proof.Machine.execSvcTake e s
  | .svcReply e data => Sys2Proof.Machine.execSvcReply e data s
  | .ringCfgWrite e d k data => Sys2Proof.Machine.execRingCfgWrite e d k data s
  | .dbTx h k prod => Sys2Proof.Machine.execDbTx h k prod s
  | .dbRx h k prod => Sys2Proof.Machine.execDbRx h k prod s
  | .txDescriptorFetched h k addr length kind queue dest flags tsId => Sys2Proof.Machine.execTxDescriptorFetched h k addr length kind queue dest flags tsId s
  | .txFrameRead h k bytes failed => Sys2Proof.Machine.execTxFrameRead h k bytes failed s
  | .injectionServe d spare => Sys2Proof.Machine.execInjectionServe d spare s
  | .rxRingDeliver h k bufLen => Sys2Proof.Machine.execRxRingDeliver h k bufLen s
  | .msixHoldoffExpire h k => Sys2Proof.Machine.execMsixHoldoffExpire h k s
  | .hostLinkReset h cause => Sys2Proof.Machine.execHostLinkReset h cause s
  | .hostLinkUp h speed width => Sys2Proof.Machine.execHostLinkUp h speed width s
  | .grantWrite e p data => Sys2Proof.Machine.execGrantWrite e p data s
  | .pwrgoodFall => Sys2Proof.Machine.execPwrgoodFall s
  | .pwrgoodRise => Sys2Proof.Machine.execPwrgoodRise s
  | .resetNFall => Sys2Proof.Machine.execResetNFall s
  | .resetNFiltered => Sys2Proof.Machine.execResetNFiltered s
  | .resetNRise => Sys2Proof.Machine.execResetNRise s
  | .resetRelease secAreaBad => Sys2Proof.Machine.execResetRelease secAreaBad s
  | .tapReset low => Sys2Proof.Machine.execTapReset low s
  | .secSelfTestEnd ok => Sys2Proof.Machine.execSecSelfTestEnd ok s
  | .bootD0Locked => Sys2Proof.Machine.execBootD0Locked s
  | .bootFollowerLocked d => Sys2Proof.Machine.execBootFollowerLocked d s
  | .lcAdvance e target confirm => Sys2Proof.Machine.execLcAdvance e target confirm s
  | .keyEnrol e slot => Sys2Proof.Machine.execKeyEnrol e slot s
  | .keyRevoke e slot => Sys2Proof.Machine.execKeyRevoke e slot s
  | .debugSecretEnrol e => Sys2Proof.Machine.execDebugSecretEnrol e s
  | .ownerPasswordSet e len => Sys2Proof.Machine.execOwnerPasswordSet e len s
  | .keyCmdDone fuseErr => Sys2Proof.Machine.execKeyCmdDone fuseErr s
  | .rollbackAdvance e new => Sys2Proof.Machine.execRollbackAdvance e new s
  | .rollbackDone fuseErr blown => Sys2Proof.Machine.execRollbackDone fuseErr blown s
  | .dbgRelock e pwd chal => Sys2Proof.Machine.execDbgRelock e pwd chal s
  | .dbgFailsClr e pwd chal => Sys2Proof.Machine.execDbgFailsClr e pwd chal s
  | .spiGo e wpRel dir addrBytes opcode len => Sys2Proof.Machine.execSpiGo e wpRel dir addrBytes opcode len s
  | .spiAccessDone bytes => Sys2Proof.Machine.execSpiAccessDone bytes s
  | .idcode => Sys2Proof.Machine.execIdcode s
  | .samplePreload pins preload => Sys2Proof.Machine.execSamplePreload pins preload s
  | .extest pins drive => Sys2Proof.Machine.execExtest pins drive s
  | .clamp => Sys2Proof.Machine.execClamp s
  | .highz => Sys2Proof.Machine.execHighz s
  | .dbgChal => Sys2Proof.Machine.execDbgChal s
  | .dbgResp resp => Sys2Proof.Machine.execDbgResp resp s
  | .dbgPwd len bytes => Sys2Proof.Machine.execDbgPwd len bytes s
  | .dbgStatus => Sys2Proof.Machine.execDbgStatus s
  | .dbgAccess addr write data => Sys2Proof.Machine.execDbgAccess addr write data s
  | .dbgEng e op => Sys2Proof.Machine.execDbgEng e op s
  | .bypass => Sys2Proof.Machine.execBypass s
  | .dbgHoldExpire => Sys2Proof.Machine.execDbgHoldExpire s
  | .nonceExpire => Sys2Proof.Machine.execNonceExpire s
  | .phaseReport l move sub => Sys2Proof.Machine.execPhaseReport l move sub s
  | .trackerLock l ppb => Sys2Proof.Machine.execTrackerLock l ppb s
  | .trackerUnlock l signal => Sys2Proof.Machine.execTrackerUnlock l signal s
  | .freqWindowEnd l rate => Sys2Proof.Machine.execFreqWindowEnd l rate s
  | .blockLockAcquire h => Sys2Proof.Machine.execBlockLockAcquire h s
  | .blockLockLoss h => Sys2Proof.Machine.execBlockLockLoss h s
  | .alignLockChange p lock skew => Sys2Proof.Machine.execAlignLockChange p lock skew s
  | .hiBerChange p hi => Sys2Proof.Machine.execHiBerChange p hi s
  | .faultOrderedSetReceive p localFault => Sys2Proof.Machine.execFaultOrderedSetReceive p localFault s
  | .pcsLinkUp p => Sys2Proof.Machine.execPcsLinkUp p s
  | .uncorrectableCodeword p blocks corrected symbols => Sys2Proof.Machine.execUncorrectableCodeword p blocks corrected symbols s
  | .ctleAdaptStep l up => Sys2Proof.Machine.execCtleAdaptStep l up s
  | .adaptFreeze l g => Sys2Proof.Machine.execAdaptFreeze l g s
  | .laneSleepRequest e l idle => Sys2Proof.Machine.execLaneSleepRequest e l idle s
  | .laneWakeRequest e l idle => Sys2Proof.Machine.execLaneWakeRequest e l idle s
  | .txIdleExpire p => Sys2Proof.Machine.execTxIdleExpire p s
  | .txWakeDone p => Sys2Proof.Machine.execTxWakeDone p s
  | .rxSleepEnter l => Sys2Proof.Machine.execRxSleepEnter l s
  | .rxWake l bad => Sys2Proof.Machine.execRxWake l bad s
  | .prbsLock b => Sys2Proof.Machine.execPrbsLock b s
  | .prbsLoss l x => Sys2Proof.Machine.execPrbsLoss l x s
  | .pllSelect e src port => Sys2Proof.Machine.execPllSelect e src port s
  | .pllSelectBoundary => Sys2Proof.Machine.execPllSelectBoundary s
  | .refValidityChange ref ppb => Sys2Proof.Machine.execRefValidityChange ref ppb s
  | .pllLockAchieved d err freq => Sys2Proof.Machine.execPllLockAchieved d err freq s
  | .pllLockLoss d err => Sys2Proof.Machine.execPllLockLoss d err s
  | .pllRefQualified d => Sys2Proof.Machine.execPllRefQualified d s
  | .histOkSet d => Sys2Proof.Machine.execHistOkSet d s
  | .handoverTimeout d => Sys2Proof.Machine.execHandoverTimeout d s
  | .steerWrite e data => Sys2Proof.Machine.execSteerWrite e data s
  | .steerStep => Sys2Proof.Machine.execSteerStep s
  | .rampGo e nseg => Sys2Proof.Machine.execRampGo e nseg s
  | .rampStart => Sys2Proof.Machine.execRampStart s
  | .rampSegmentEnd => Sys2Proof.Machine.execRampSegmentEnd s
  | .outUpdGo e => Sys2Proof.Machine.execOutUpdGo e s
  | .outUpdApply => Sys2Proof.Machine.execOutUpdApply s
  | .deltaMeasureBegin d => Sys2Proof.Machine.execDeltaMeasureBegin d s
  | .deltaMeasureEnd d delta => Sys2Proof.Machine.execDeltaMeasureEnd d delta s
  | .rateWrite e d data => Sys2Proof.Machine.execRateWrite e d data s
  | .stepWrite e d data => Sys2Proof.Machine.execStepWrite e d data s
  | .changeApply d => Sys2Proof.Machine.execChangeApply d s
  | .alignMessageArrive d skew => Sys2Proof.Machine.execAlignMessageArrive d skew s
  | .skewStale d => Sys2Proof.Machine.execSkewStale d s
  | .replicaCheck d bad => Sys2Proof.Machine.execReplicaCheck d bad s
  | .millisecondBoundary d => Sys2Proof.Machine.execMillisecondBoundary d s
  | .secondBoundary d => Sys2Proof.Machine.execSecondBoundary d s
  | .txqMetaRead e p => Sys2Proof.Machine.execTxqMetaRead e p s
  | .linkWindowEnd p => Sys2Proof.Machine.execLinkWindowEnd p s
  | .linkCommit e p => Sys2Proof.Machine.execLinkCommit e p s
  | .beaconSend => Sys2Proof.Machine.execBeaconSend s
  | .beaconReceive => Sys2Proof.Machine.execBeaconReceive s
  | .summitEligible => Sys2Proof.Machine.execSummitEligible s
  | .summitTake e => Sys2Proof.Machine.execSummitTake e s
  | .summitRenew e => Sys2Proof.Machine.execSummitRenew e s
  | .summitRelease e => Sys2Proof.Machine.execSummitRelease e s
  | .leaseLapse => Sys2Proof.Machine.execLeaseLapse s
  | .pathTimeout k => Sys2Proof.Machine.execPathTimeout k s
  | .gnssAcquisitionDwell m visible bin => Sys2Proof.Machine.execGnssAcquisitionDwell m visible bin s
  | .gnssSolution at_ tow est pos chans => Sys2Proof.Machine.execGnssSolution at_ tow est pos chans s
  | .gnssEpochMissed => Sys2Proof.Machine.execGnssEpochMissed s
  | .gnssSlewUpdate => Sys2Proof.Machine.execGnssSlewUpdate s
  | .surveyDone => Sys2Proof.Machine.execSurveyDone s
  | .sparseBurst => Sys2Proof.Machine.execSparseBurst s
  | .gnssClkLost => Sys2Proof.Machine.execGnssClkLost s
  | .ppsSchedule => Sys2Proof.Machine.execPpsSchedule s
  | .ppsEdge => Sys2Proof.Machine.execPpsEdge s
  | .gnssAck e => Sys2Proof.Machine.execGnssAck e s
  | .eventCrossing ch rising taps => Sys2Proof.Machine.execEventCrossing ch rising taps s
  | .threshWrite e ch code => Sys2Proof.Machine.execThreshWrite e ch code s
  | .threshSettled ch => Sys2Proof.Machine.execThreshSettled ch s
  | .armWrite e ch arm => Sys2Proof.Machine.execArmWrite e ch arm s
  | .trainWindowClose ch => Sys2Proof.Machine.execTrainWindowClose ch s
  | .pairedWindowClose ch => Sys2Proof.Machine.execPairedWindowClose ch s
  | .gatedTimeout ch => Sys2Proof.Machine.execGatedTimeout ch s
  | .evtRecHeadRead e ch => Sys2Proof.Machine.execEvtRecHeadRead e ch s
  | .eventFrameDeliver ch => Sys2Proof.Machine.execEventFrameDeliver ch s
  | .frameReceiveStart p bytes k spare => Sys2Proof.Machine.execFrameReceiveStart p bytes k spare s
  | .frameCellReceive p => Sys2Proof.Machine.execFrameCellReceive p s
  | .frameReceiveEnd p bad => Sys2Proof.Machine.execFrameReceiveEnd p bad s
  | .cellSend d dest => Sys2Proof.Machine.execCellSend d dest s
  | .cellArrive d src hdrOk => Sys2Proof.Machine.execCellArrive d src hdrOk s
  | .ctlMessageReceive a b crcOk => Sys2Proof.Machine.execCtlMessageReceive a b crcOk s
  | .frameTransmitStart p k => Sys2Proof.Machine.execFrameTransmitStart p k s
  | .frameTransmitEnd p => Sys2Proof.Machine.execFrameTransmitEnd p s
  | .stoppedPortDiscard p q => Sys2Proof.Machine.execStoppedPortDiscard p q s
  | .gateEntryStart p => Sys2Proof.Machine.execGateEntryStart p s
  | .mirrRecHeadRead e d => Sys2Proof.Machine.execMirrRecHeadRead e d s
  | .saddleDirectionDown a b clk => Sys2Proof.Machine.execSaddleDirectionDown a b clk s
  | .saddleTrainingEnd a b failed clk => Sys2Proof.Machine.execSaddleTrainingEnd a b failed clk s
  | .orderPointArrive src => Sys2Proof.Machine.execOrderPointArrive src s
  | .agePeriodExpire => Sys2Proof.Machine.execAgePeriodExpire s
  | .l2ChangeArrive d => Sys2Proof.Machine.execL2ChangeArrive d s
  | .applyLearn d => Sys2Proof.Machine.execApplyLearn d s
  | .applyAge d upTo => Sys2Proof.Machine.execApplyAge d upTo s
  | .applyFlush d upTo => Sys2Proof.Machine.execApplyFlush d upTo s
  | .tableScanEnd d => Sys2Proof.Machine.execTableScanEnd d s
  | .l2UpdWrite e => Sys2Proof.Machine.execL2UpdWrite e s
  | .l2UpdDelete e => Sys2Proof.Machine.execL2UpdDelete e s
  | .applyUpd d => Sys2Proof.Machine.execApplyUpd d s
  | .rehashGo e => Sys2Proof.Machine.execRehashGo e s
  | .applyRehash d => Sys2Proof.Machine.execApplyRehash d s
  | .rehashResult => Sys2Proof.Machine.execRehashResult s
  | .tableSwitchApply d blk => Sys2Proof.Machine.execTableSwitchApply d blk s
  | .bankDrainEnd d blk => Sys2Proof.Machine.execBankDrainEnd d blk s
  | .l2ResyncStart d => Sys2Proof.Machine.execL2ResyncStart d s
  | .l2ResyncEnd d => Sys2Proof.Machine.execL2ResyncEnd d s
  | .tableCmdGo e d blk => Sys2Proof.Machine.execTableCmdGo e d blk s
  | .insert d blk => Sys2Proof.Machine.execInsert d blk s
  | .delete d blk => Sys2Proof.Machine.execDelete d blk s
  | .read d blk => Sys2Proof.Machine.execRead d blk s
  | .rebuildBegin d blk => Sys2Proof.Machine.execRebuildBegin d blk s
  | .shadowInsert d blk => Sys2Proof.Machine.execShadowInsert d blk s
  | .shadowDelete d blk => Sys2Proof.Machine.execShadowDelete d blk s
  | .commit d blk => Sys2Proof.Machine.execCommit d blk s
  | .abort d blk => Sys2Proof.Machine.execAbort d blk s
  | .tableReplicaWrite d blk => Sys2Proof.Machine.execTableReplicaWrite d blk s
  | .tableAcksComplete blk => Sys2Proof.Machine.execTableAcksComplete blk s
  | .tableSyncEnd blk => Sys2Proof.Machine.execTableSyncEnd blk s
  | .tableResyncStart d blk => Sys2Proof.Machine.execTableResyncStart d blk s
  | .tableResyncEnd d blk => Sys2Proof.Machine.execTableResyncEnd d blk s
  | .prpForget d n src => Sys2Proof.Machine.execPrpForget d n src s
  | .lanOkExpire d n onB => Sys2Proof.Machine.execLanOkExpire d n onB s
  | .tempSample d t0 t1 t2 t3 => Sys2Proof.Machine.execTempSample d t0 t1 t2 t3 s
  | .calRunGo e d => Sys2Proof.Machine.execCalRunGo e d s
  | .calPiTimeout d n => Sys2Proof.Machine.execCalPiTimeout d n s
  | .calRunEnd d meas => Sys2Proof.Machine.execCalRunEnd d meas s
  | .calInterpolate d => Sys2Proof.Machine.execCalInterpolate d s
  | .calStoreEnd d => Sys2Proof.Machine.execCalStoreEnd d s
  | .nvsWrite e d off width data => Sys2Proof.Machine.execNvsWrite e d off width data s
  | .nvsWordWriteDone d => Sys2Proof.Machine.execNvsWordWriteDone d s
  | .nvsRead e d off width => Sys2Proof.Machine.execNvsRead e d off width s
  | .perfCompareReached d c amount => Sys2Proof.Machine.execPerfCompareReached d c amount s
  | .perfCounterWrap d c amount => Sys2Proof.Machine.execPerfCounterWrap d c amount s
  | .bwWindowEnd d => Sys2Proof.Machine.execBwWindowEnd d s
  | .tagStageReport d => Sys2Proof.Machine.execTagStageReport d s
  | .tagHeadRead e d => Sys2Proof.Machine.execTagHeadRead e d s
  | .histLevelSample d n => Sys2Proof.Machine.execHistLevelSample d n s
  | .histClear e d n hold => Sys2Proof.Machine.execHistClear e d n hold s
  | .histHold e d n hold => Sys2Proof.Machine.execHistHold e d n hold s
  | .fvddLoss d => Sys2Proof.Machine.execFvddLoss d s
  | .fvddRestore d => Sys2Proof.Machine.execFvddRestore d s
  | .outputEdgeSchedule d k => Sys2Proof.Machine.execOutputEdgeSchedule d k s
  | .outputEdge d k => Sys2Proof.Machine.execOutputEdge d k s
  | .outputPulseEnd d k => Sys2Proof.Machine.execOutputPulseEnd d k s
  | .triggerArm e d k => Sys2Proof.Machine.execTriggerArm e d k s
  | .thermAssert d k => Sys2Proof.Machine.execThermAssert d k s
  | .thermRelease => Sys2Proof.Machine.execThermRelease s
  | .clkoSupplyChange low => Sys2Proof.Machine.execClkoSupplyChange low s
  | .gnssClkRestored => Sys2Proof.Machine.execGnssClkRestored s
  | .channelPullInEnd k cn0 elev => Sys2Proof.Machine.execChannelPullInEnd k cn0 elev s
  | .channelSignalLost k => Sys2Proof.Machine.execChannelSignalLost k s
  | .ephemerisDecoded k nav utc => Sys2Proof.Machine.execEphemerisDecoded k nav utc s

end Sys2Proof.Machine
end

