-- ==== Sys2Proof/Machine/Ptp.lean ====
section
/-!
DEFINITION. PTP messages as the port timing handler reads and writes them (R268, R290). PRESUMED (log entry 98): the layout is
that of IEEE 1588, which the spec names and does not restate.
-/
namespace Sys2Proof.Machine

/-! ## What is listed (R290) -/

/-- The TLVs of a message from one offset to another: each type, with where it stands. -/
def tlvsOf (l : List Byte) (fin : Nat) : Nat → Nat → List (Nat × Nat)
  | 0, _ => []
  | n + 1, o => if fin < o + 4 then [] else (be l o 2, o) :: tlvsOf l fin n (o + 4 + be l (o + 2) 2)

/-- The bytes of a message before its TLVs, by its type; none for a type that R290 does not list. -/
def ptpBody (t : Nat) : Option Nat :=
  match t with
  | 0 | 1 | 8 => some 44
  | 2 | 3 | 9 | 0xA => some 54
  | 0xB => some 64
  | 0xC => some 44
  | _ => none

/-- A TLV that R290 lists for a message type: L1_SYNC in its basic format on a Signaling message, IEEE_C37_238 and
ALTERNATE_TIME_OFFSET_INDICATOR on an Announce. -/
def tlvListed (l : List Byte) (t : Nat) (x : Nat × Nat) : Bool :=
  (t == 0xC && x.1 == 0x8001 && be l (x.2 + 2) 2 == 2 && be l (x.2 + 4) 1 / 8 % 2 == 0) ||
    (t == 0xB && ((x.1 == 0x0003 && be l (x.2 + 4) 3 == 0x1C129D) || x.1 == 0x0009))

/-- The message is one of those listed: version 2, the node's domain, a type of R290, none of the flags of alternate masters,
unicast and security, and no TLV but those listed; a Signaling message carries one. -/
def ptpListed (l : List Byte) (h : Nat) : Bool :=
  let t := be l h 1 % 16
  let flags := be l (h + 6) 2
  match ptpBody t with
  | some n =>
    let tlvs := tlvsOf l (h + be l (h + 2) 2) 64 (h + n)
    be l (h + 1) 1 % 16 == 2 && be l (h + 4) 1 == Config.ptpDomain.toNat && !bitSet flags 8 && !bitSet flags 10 &&
      !bitSet flags 15 && tlvs.all (tlvListed l t) && (t != 0xC || tlvs != [])
  | none => false

/-! ## Peer delay over Ethernet (R268) -/

/-- The ten bytes of an instant in 2^-32 ns: seconds and nanoseconds. -/
def ts80 (u : Nat) : List Byte := bytesBE 6 (u / unitsPerSec) ++ bytesBE 4 (u % unitsPerSec / 2 ^ 32)

/-- The instant that ten bytes name. -/
def readTs80 (l : List Byte) (o : Nat) : Int := Int.ofNat ((be l o 6 * 10 ^ 9 + be l (o + 6) 4) * 2 ^ 32)

/-- A port's identity: the node's number and the port, counted from one. -/
def ptpIdentity (device p : Nat) : List Byte := bytesBE 8 device ++ bytesBE 2 (p + 1)

/-- A peer-delay message of 54 bytes from a port: its type, flags, correctionField in 2^-16 ns, sequenceId, and the last 20
bytes. -/
def pdMessage (mac : BitVec 48) (device p t flags : Nat) (corr : Int) (seq : Nat) (body : List Byte) : List Byte :=
  bytesBE 6 0x0180C200000E ++ bytesBE 6 mac.toNat ++ bytesBE 2 0x88F7 ++ bytesBE 1 t ++ [2] ++ bytesBE 2 54 ++
    bytesBE 1 Config.ptpDomain.toNat ++ [0] ++ bytesBE 2 flags ++ bytesBE 8 (ofSigned 64 corr) ++ bytesBE 4 0 ++
    ptpIdentity device p ++ bytesBE 2 seq ++ [5, 0x7F] ++ body

/-- Sequence number, correctionField and the sender's port identity of a message. -/
def pdSeqOf (l : List Byte) (h : Nat) : Nat := be l (h + 30) 2
def pdCorr (l : List Byte) (h : Nat) : Int := toSigned 64 (be l (h + 8) 8)
def pdSender (l : List Byte) (h : Nat) : List Byte := (l.drop (h + 20)).take 10

/-- The port identity that a response repeats is this port's. -/
def pdMine (l : List Byte) (h device p : Nat) : Bool := (l.drop (h + 44)).take 10 == ptpIdentity device p

/-- t2 of a two-step response, and t3 of its follow-up, with what their correctionFields carry of them. -/
def pdReceived (l : List Byte) (h : Nat) : Nat := (xtOfInt (readTs80 l (h + 34) - pdCorr l h * 2 ^ 16)).toNat
def pdSent (l : List Byte) (h : Nat) : Nat := (xtOfInt (readTs80 l (h + 34) + pdCorr l h * 2 ^ 16)).toNat

end Sys2Proof.Machine
end

