-- ==== Sys2Proof/Machine/Rom.lean ====
section
/-!
DEFINITION. The ROM-resident programs (R85 to R88): the port timing handlers (R260 to R263, R290, R291), the calibration
sequencers (R424), the time servo (R258, R259, R274 to R279, R439, R440) and the summit lease program (R280). They act at the
idle ticks of the block (log entry 96); what they write goes the way of every register write. A hook is called as a routine:
the rows of instructions run it, and the program goes on at the first tick at which it has returned.
-/
namespace Sys2Proof.Machine

/-! ## Programs, hooks and accesses -/

/-- The engine runs its ROM-resident program. -/
def State.romRuns (s : State) (e : Nat) : Bool :=
  s.rom.progs.contains e && s.inRun (e / 4) B.ENG (e % 4) && !s.sec.dbgHalted.contains e

/-- The hook that runs on an engine. -/
def State.hookOf (s : State) (e : Nat) : Option HookCall := Store.get none s.rom.calls e

/-- The program can take its next step: no hook of it runs, nothing holds the engine, and every posted access of it has been
judged at its target, so that what it does now follows them (R54). -/
def State.romFree (s : State) (e : Nat) : Bool :=
  s.romRuns e && (s.hookOf e).isNone && (s.eng e).hold == .none && (s.eng e).posted.all fun p => p.result.isSome

/-- The entry of hook `k` in the hook table (R87); none where it is absent. -/
def State.hookAt (s : State) (e k : Nat) : Option Nat :=
  let w := (s.eng e).dmemRead (0xFF00 + 8 * k) 8
  if w = 0 then none else some (w % 2 ^ 16)

/-- Where the program has a hook return to: an instruction below 0xC000. -/
def hookRet (k : Nat) : BitVec 16 := BitVec.ofNat 16 (4 * ((Config.hookReturn k).toNat % 0x3000))

/-- Where it lays out for the hook what the hook reads in DMEM. -/
def hookArea (k : Nat) : Nat := 16 * ((Config.hookBuffer k).toNat % 0xA00)

/-- The arguments in v1 onwards, the return address in v31, and the engine at the hook's entry (R87). -/
def Engine.callHook (g : Engine) (k entry : Nat) (args : List Nat) : Engine :=
  let g1 := (args.zipIdx 1).foldl (fun g x => g.wv (BitVec.ofNat 5 x.2) (BitVec.ofNat 64 x.1)) g
  { g1.wv 31 ((hookRet k).setWidth 64) with pc := BitVec.ofNat 16 entry }

/-- A call of hook `k`: the program waits for its return. -/
def State.hookCall (s : State) (e k entry : Nat) (args : List Nat) (wait : HookWait) : State :=
  let s1 := s.setEng e ((s.eng e).callHook k entry args)
  { s1 with rom := { s1.rom with calls := Store.put none s1.rom.calls e (some ⟨hookRet k, wait⟩) } }

/-- What waits for a hook that has returned by now. -/
def State.hookBack (s : State) (e : Nat) : Option HookWait :=
  match s.hookOf e with
  | some c => if s.romRuns e && (s.eng e).pc == c.ret && (s.eng e).hold == .none then some c.wait else none
  | none => none

/-- A program's write, judged as any engine's (R63); one that fails has no effect. -/
def State.romWrite (s : State) (e addr width data : Nat) : State :=
  if s.accessCause e addr width false = 0 then
    s.writeAt (some e) (faDie addr) (faBlk addr) (faInst addr) (faOff addr) (width / 8) data
  else s

/-- A program's SEND of a frame to a port (R121, R122), while the die's injection FIFO has taken the frames before it. -/
def State.romSend (s : State) (e p : Nat) (ts : Option Nat) (l : List Byte) : State :=
  if (s.die (e / 4)).inj.isNone && s.sendThere 0 p && s.sendOwned (e / 4) (s.engPart e) 0 p then
    s.injectTo (e / 4) (.engine e) (s.engPart e) 0 p Config.romQueue.toNat ts l
  else s

/-! ## The servo as the other programs see it -/

/-- In HOLDOVER the estimate grows with the ticks `n` since entry (R278), 625,000,000 of them a second. -/
def holdGrowth (p : ServoParams) (n : Nat) : Nat :=
  (p.f0 * n * 172800 * 625000000 + p.age * n ^ 2) / (172800 * 625000000 ^ 2)

/-- The servo's estimated error, ps. A pending restart keeps the node in holdover (R275). -/
def State.servoErr (s : State) : Nat :=
  let v := s.rom.servo
  if v.state = 3 ∨ v.state = 4 then v.e0 + holdGrowth v.par (s.tick 0 - v.holdAt) else v.err

/-- The node holds the summit role. -/
def State.isSummit (s : State) : Bool := s.rf F.SUMMIT.STATUS_ROLE 0 0 == 2

/-! ## The port timing handler: frames of the link exchange (R260, R261, R263) -/

def State.exch (s : State) (p : Nat) : Exchange := Store.get {} s.rom.exch p
def State.setExch (s : State) (p : Nat) (x : Exchange) : State :=
  { s with rom := { s.rom with exch := Store.put {} s.rom.exch p x } }
def State.handler (s : State) (d : Nat) : HandlerState := Store.get {} s.rom.handlers d
def State.setHandler (s : State) (d : Nat) (x : HandlerState) : State :=
  { s with rom := { s.rom with handlers := Store.put {} s.rom.handlers d x } }

/-- The engine that LINK.CFG.HANDLER names. -/
def State.handlerOf (s : State) (p : Nat) : Nat := s.rfF F.LINK.CFG_HANDLER (p / 24) (p % 24)

/-- A port timing handler serves the port: its LINK runs, with LINK_UP set (R260). -/
def State.handled (s : State) (p : Nat) : Bool :=
  s.portExists p && s.inRun (p / 24) B.LINK (p % 24) && s.portUp p && s.handlerOf p % 4 == 0 && s.romRuns (s.handlerOf p)

/-- The mean that the sender gives, with its window: the newest of the last four windows under the present PT_GEN; none in
TS_ONLY, DOWN or FROZEN, or with CFG.TS_ONLY set (R263). -/
def State.sentMean (s : State) (p : Nat) : Option (Int × Nat) :=
  let d := p / 24
  let i := p % 24
  let l := s.link p
  let st := s.lstate p
  if st = 0 ∨ 4 ≤ st ∨ s.rfF F.LINK.CFG_TS_ONLY d i = 1 then none
  else
    let good (m : LinkMean) : Bool :=
      m.gen == s.rf F.LANE.STATUS_PT_GEN d i && decide ((l.win + 2 ^ 32 - m.win) % 2 ^ 32 ≤ 4)
    (l.means.find? good).map fun m =>
      (if st = 3 then m.raw + s.uiCount p (s.rfS F.LINK.M_IN_M_IN d i) else m.raw, m.win)

/-- FLAGS of a link exchange frame. -/
def State.linkFlags (s : State) (p : Nat) : Nat :=
  let d := p / 24
  let i := p % 24
  let st := s.lstate p
  let cap := decide (1 ≤ st) && decide (st ≤ 3) && s.rfF F.LINK.CFG_TS_ONLY d i == 0
  let hold := s.rom.servo.state == 3 || s.rom.servo.state == 4
  ofBool cap + 2 * ofBool (s.flag F.LINK.STATUS_PORT_TG d i) + 4 * ofBool hold + 8 * ofBool s.isSummit +
    16 * ofBool (s.sentMean p).isSome + 32 * ofBool (st == 3)

/-- ERR_EST of a frame. -/
def State.sentErr (s : State) : Nat := if s.servoErr < 2 ^ 32 then s.servoErr else (Config.errBeyond s.servoErr).toNat

/-- A link exchange frame of 72 bytes, without FCS (R261). -/
def State.linkFrame (s : State) (p subtype seq time : Nat) : List Byte :=
  let d := p / 24
  let i := p % 24
  let m := (s.sentMean p).getD (0, 0)
  bytesBE 6 0x0180C200000E ++ bytesBE 6 (Config.portMac p).toNat ++ bytesBE 2 0x88B5 ++ bytesBE 1 subtype ++ bytesBE 1 1 ++
    bytesBE 2 seq ++ bytesBE 8 (s.rf F.SUMMIT.DEV_ID_DEVICE_ID 0 0) ++ bytesBE 1 p ++ bytesBE 1 (s.linkFlags p) ++
    bytesBE 2 (s.rf F.LANE.STATUS_PT_GEN d i) ++ bytesBE 2 s.rom.servo.hops ++ bytesBE 16 time ++
    bytesBE 8 (ofSigned 64 m.1) ++ bytesBE 4 m.2 ++ bytesBE 4 s.sentErr ++ bytesBE 8 (s.rf F.LINK.TX_REF_TX_REF d i)

/-- TS_ID of a frame that asks for its transmit timestamp: a request 0b00, a PTP message 0b01, a response 0b10 above 14 bits. -/
def tsId (kind n : Nat) : Nat := kind * 2 ^ 14 + n % 2 ^ 14

/-- A link exchange frame sent from a port. -/
def State.linkSend (s : State) (p subtype seq time : Nat) (ts : Option Nat) : State :=
  s.romSend (s.handlerOf p) p ts (s.linkFrame p subtype seq time)

/-- The commit of an exchange (R263, R265): the four instants, and what the peer said. -/
def State.linkWrite (s : State) (p t1 t2 t3 t4 eout info txref : Nat) : State :=
  let w (s : State) (off width data : Nat) : State := s.romWrite (s.handlerOf p) (mkFa (p / 24) B.LINK (p % 24) off) width data
  let s1 := w (w (w (w s 0x10 128 t1) 0x20 128 t2) 0x30 128 t3) 0x40 128 t4
  w (w (w (w s1 0x50 64 eout) 0x58 64 info) 0x60 64 txref) 0x68 32 (2 ^ 31)

/-! ## PTP (R268, R290, R291) -/

/-- meanLinkDelay and the master offset in use on a port: D_IN and THETA of its LINK in PHASE (R291). -/
def State.ptpLink (s : State) (p : Nat) : Int × Int :=
  if s.lstate p = 3 then
    (s.rfS F.LINK.DELAY_W_D_IN (p / 24) (p % 24), s.rfS F.LINK.THETA_W_THETA (p / 24) (p % 24))
  else ((s.exch p).delay, (s.exch p).offset)

/-- The standards act for a port with one message, one transmit timestamp, or neither at the end of a window. -/
def State.ptpServe (s : State) (p : Nat) (message : Option (List Byte × Nat)) (sent : Option (Nat × Nat)) : State :=
  let d := p / 24
  let i := p % 24
  let e := s.handlerOf p
  let h := s.handler (e / 4)
  let phase := s.lstate p == 3
  let m := s.ptpLink p
  let r := Config.ptpStep
    { data := h.ptp, port := p, now := s.now (e / 4), message := message, sent := sent, phase := phase, delay := m.1,
      offset := m.2, asym := s.rfS F.LINK.ASYM_ASYM d i, err := s.servoErr, summit := s.isSummit }
  let n := if phase then m else (r.delay, r.offset)
  let s1 := (s.setHandler (e / 4) { h with ptp := r.data }).setExch p { s.exch p with delay := n.1, offset := n.2 }
  r.frames.foldl (fun s f => s.romSend e p (f.2.map (tsId 1)) f.1) s1

/-- The node's number, in every message it sends. -/
def State.device (s : State) : Nat := s.rf F.SUMMIT.DEV_ID_DEVICE_ID 0 0

/-- A peer-delay message sent from a port; `ts` asks for its transmit timestamp. -/
def State.pdSend (s : State) (p t flags : Nat) (corr : Int) (seq : Nat) (body : List Byte) (ts : Option Nat) : State :=
  s.romSend (s.handlerOf p) p ts (pdMessage (Config.portMac p) s.device p t flags corr seq body)

/-- A peer-delay message over Ethernet (R268): a request is answered; a response of two steps and its follow-up complete the
exchange, which is committed with X_INFO.FLAGS zero where the peer sends no link exchange. -/
def State.pdTake (s : State) (p h : Nat) (f : RxFrame) : State :=
  let l := f.bytes
  let x := s.exch p
  let seq := pdSeqOf l h
  let mine := pdMine l h s.device p && seq == x.pdSeq
  match be l h 1 % 16 with
  | 2 =>
    let u := XT.units (BitVec.ofNat 128 f.time)
    (s.setExch p { x with pdOwed := x.pdOwed ++ [(seq, pdSender l h, be l (h + 8) 8)] }).pdSend p 3 0x0200
      (-Int.ofNat (u % 2 ^ 32 / 2 ^ 16)) seq (ts80 u ++ pdSender l h) (some (tsId 3 (2 * seq + 1)))
  | 3 =>
    if mine && bitSet (be l (h + 6) 2) 9 then s.setExch p { x with pd2 := some (pdReceived l h), pd4 := some f.time } else s
  | _ =>
    match x.pd1, x.pd2, x.pd4 with
    | some t1, some t2, some t4 =>
      if !mine then s
      else
        let s1 := s.setExch p { x with pd1 := none, pd2 := none, pd4 := none }
        if x.peer.isSome then s1 else s1.linkWrite p t1 t2 (pdSent l h) t4 0 0 0
    | _, _, _ => s

/-! ## What the handler receives (R260, R262, R263) -/

/-- A link exchange frame drops out (R262). -/
def State.linkDropped (s : State) (d : Nat) : State :=
  s.setHandler d { s.handler d with linkDrops := (s.handler d).linkDrops + 1 }

/-- A link exchange frame for a port: a request is answered, a response completes t2 and t4, its follow-up t3 and the
exchange; `o` is the place of its SUBTYPE. -/
def State.linkTake (s : State) (p o : Nat) (f : RxFrame) : State :=
  let l := f.bytes
  let seq := be l (o + 2) 2
  let time := be l (o + 18) 16
  let x := s.exch p
  let peer : PeerNode := ⟨be l (o + 13) 1, be l (o + 16) 2, be l (o + 46) 4,
    Config.namesUpstream l (BitVec.ofNat 64 (s.rf F.SUMMIT.DEV_ID_DEVICE_ID 0 0))⟩
  let y := { x with peer := some peer }
  match be l o 1 with
  | 1 => (s.setExch p { y with owed := y.owed ++ [seq] }).linkSend p 2 seq f.time (some (tsId 2 seq))
  | 2 => s.setExch p (if seq = x.seq then { y with t2 := some time, t4 := some f.time } else y)
  | 3 =>
    match x.t1, x.t2, x.t4 with
    | some t1, some t2, some t4 =>
      if seq ≠ x.seq then s.setExch p y
      else
        (s.setExch p { y with t1 := none, t2 := none, t4 := none }).linkWrite p t1 t2 time t4 (be l (o + 34) 8)
          (be l (o + 42) 4 * 2 ^ 32 + be l (o + 14) 2 * 2 ^ 16 + be l (o + 13) 1 * 2 ^ 8) (be l (o + 50) 8)
    | _, _, _ => s.setExch p y
  | _ => s.linkDropped (s.handlerOf p / 4)

/-- The handler acts on a frame of its receive queue: link exchange, PTP, or another, which it drops and counts (R290). -/
def State.handlerTake (s : State) (d : Nat) (f : RxFrame) : State :=
  let l := f.bytes
  let p := f.ingress
  let o := typeOff l + 2
  let other (s : State) : State := s.setHandler d { s.handler d with unlisted := (s.handler d).unlisted + 1 }
  if dstMac l = 0x0180C200000E ∧ etherType l = 0x88B5 then
    if be l (o + 1) 1 ≠ 1 ∨ f.fcsBad ∨ l.length < o + 62 then s.linkDropped d
    else if s.handled p && s.handlerOf p == 4 * d then s.linkTake p o f
    else s
  else
    match ptpOf l with
    | some (_, _, h) =>
      if ptpListed l h && !f.fcsBad && s.handled p && s.handlerOf p == 4 * d then
        if etherType l == 0x88F7 && [2, 3, 0xA].contains (be l h 1 % 16) then s.pdTake p h f
        else s.ptpServe p (some (l, f.time)) none
      else other s
    | none => other s

/-- The kind of a frame as the message filter is told it (R88 entry 0). -/
def frameKind (l : List Byte) : Nat :=
  if dstMac l = 0x0180C200000E ∧ etherType l = 0x88B5 then 1 else if (ptpOf l).isSome then 0 else 2

/-- The message filter has answered. -/
def State.filterDone (s : State) (d v : Nat) (f : RxFrame) : State :=
  if v = 1 then s.setHandler d { s.handler d with filtered := (s.handler d).filtered + 1 }
  else if v = 2 then s
  else s.handlerTake d f

/-- The handler takes the head of its receive queue, through the message filter (R88 entry 0): the filter reads the header and
the frame in the handler's DMEM. -/
def State.handlerTick (s : State) (d : Nat) : State :=
  let e := 4 * d
  let g := s.eng e
  match g.rxq with
  | [] => s
  | f :: r =>
    if !s.romFree e || (s.die d).inj.isSome then s
    else
      match s.hookAt e 0 with
      | none => (s.setEng e { g with rxq := r }).handlerTake d f
      | some entry =>
        let a := hookArea 0
        let g1 := { g with rxq := r }.dmemWrite a ((rxHeader f false ++ f.bytes).take (0xE000 - a))
        (s.setEng e g1).hookCall e 0 entry [a, f.bytes.length, f.ingress, frameKind f.bytes] (.frame f)

/-! ## What the handler does for each port (R85, R88, R260) -/

/-- The handler can work for a port and send now. -/
def State.portFree (s : State) (p : Nat) : Bool := s.romFree (s.handlerOf p) && (s.die (s.handlerOf p / 4)).inj.isNone

/-- A transmit timestamp of a peer-delay message: t1 of a request; t3 of a response, whose follow-up is sent. -/
def State.pdStamp (s : State) (p : Nat) (t : TsEntry) : State :=
  let x := s.exch p
  let u := XT.units t.time
  match x.pdOwed.find? fun q => tsId 3 (2 * q.1 + 1) == t.id with
  | some q =>
    let s1 := s.setExch p { x with pdOwed := x.pdOwed.erase q }
    if t.dropped then s1
    else s1.pdSend p 0xA 0 (toSigned 64 q.2.2 + Int.ofNat (u % 2 ^ 32 / 2 ^ 16)) q.1 (ts80 u ++ q.2.1) none
  | none =>
    if !t.dropped && tsId 3 (2 * x.pdSeq) == t.id && x.pdAsked.isSome then s.setExch p { x with pd1 := some t.time.toNat } else s

/-- Service of the port's TX timestamp queue: t1 of a request; t3 of a response, whose follow-up is sent; else a PTP message's. -/
def State.portStamp (s : State) (p : Nat) : State :=
  let d := p / 24
  match (s.port p).tsq with
  | [] => s
  | t :: _ =>
    if !s.portFree p || s.accessCause (s.handlerOf p) (mkFa d B.TSU (p % 24) 0x10) 64 false != 0 then s
    else
      let s1 := (s.tsTake p).1
      let x := s1.exch p
      match x.owed.find? fun q => tsId 2 q == t.id with
      | some q =>
        let s2 := s1.setExch p { x with owed := x.owed.erase q }
        if t.dropped then s2 else s2.linkSend p 3 q t.time.toNat none
      | none =>
        if t.id / 2 ^ 14 = 3 then s1.pdStamp p t
        else if t.dropped then s1
        else if tsId 0 x.seq = t.id ∧ x.asked.isSome then s1.setExch p { x with t1 := some t.time.toNat }
        else s1.ptpServe p none (some (t.id, t.time.toNat))

/-- One request in each window (R260), which begins an exchange. -/
def State.portAsk (s : State) (p : Nat) : State :=
  let x := s.exch p
  let w := s.linkWin p
  if x.asked = some w ∨ !s.portFree p then s
  else
    let q := (x.seq + 1) % 2 ^ 16
    (s.setExch p { x with asked := some w, seq := q, t1 := none, t2 := none, t4 := none }).linkSend p 1 q 0 (some (tsId 0 q))

/-- One peer-delay request in each window, while the peer sends no link exchange (R268). -/
def State.portPeer (s : State) (p : Nat) : State :=
  let x := s.exch p
  let w := s.linkWin p
  if x.peer.isSome || x.pdAsked == some w || !s.portFree p then s
  else
    let q := (x.pdSeq + 1) % 2 ^ 16
    (s.setExch p { x with pdAsked := some w, pdSeq := q, pd1 := none, pd2 := none, pd4 := none }).pdSend p 2 0 0 q
      (List.replicate 20 0) (some (tsId 3 (2 * q)))

/-- The asymmetry source has answered; the standards have their own pace after it. -/
def State.asymDone (s : State) (p v : Nat) : State :=
  let s1 := if v = 2 ^ 63 ∨ v = ofSigned 64 (s.rfS F.LINK.ASYM_ASYM (p / 24) (p % 24)) then s
    else s.romWrite (s.handlerOf p) (mkFa (p / 24) B.LINK (p % 24) 0x04) 32 (v % 2 ^ 32)
  s1.ptpServe p none none

/-- The work of a window's end: the asymmetry source (R88 entry 1), and the standards' own pace. -/
def State.portWindow (s : State) (p : Nat) : State :=
  let x := s.exch p
  let w := s.linkWin p
  let e := s.handlerOf p
  if x.win = some w ∨ !s.portFree p then s
  else
    let s1 := s.setExch p { x with win := some w }
    let entry := if x.win.isSome && (s.lstate p == 3 || s.lstate p == 4) then s1.hookAt e 1 else none
    match entry with
    | some a => s1.hookCall e 1 a [p, ofSigned 64 (s.rfS F.LINK.ASYM_ASYM (p / 24) (p % 24))] (.asym p)
    | none => s1.ptpServe p none none

/-- One port at one tick; a port that is not served keeps its sequence numbers alone. -/
def State.portTick (s : State) (p : Nat) : State :=
  if !s.handled p then s.setExch p { seq := (s.exch p).seq, pdSeq := (s.exch p).pdSeq }
  else (((s.portWindow p).portStamp p).portAsk p).portPeer p

/-! ## The calibration sequencer (R424) -/

/-- A run may start, or not for a second yet, as the hook has answered. -/
def State.runDone (s : State) (d v : Nat) : State :=
  let c := Store.get {} s.rom.cals d
  if v = 0 then s.setCalSeq d { c with due := some (s.tick d + 625000000) }
  else (s.setCalSeq d { c with due := none }).romWrite (4 * d + 1) (mkFa d B.CAL 0 0x04) 32 (2 ^ 30)

/-- One tick of a die's sequencer: TEMP event 0 asks for a run, which the hook may defer by a second (R88 entry 2); a run in
progress is waited for. -/
def State.calSeqTick (s : State) (d : Nat) : State :=
  let e := 4 * d + 1
  let c := Store.get {} s.rom.cals d
  if !s.romFree e then s
  else
    let due := if c.asked then some (s.tick d) else c.due
    match due with
    | some t =>
      if s.tick d < t ∨ s.flag F.CAL.RUN_BUSY d 0 then s.setCalSeq d ⟨false, due⟩
      else
        let s1 := s.setCalSeq d ⟨false, due⟩
        match s.hookAt e 2 with
        | some entry => s1.hookCall e 2 entry [ofSigned 64 (s.tRef d)] .run
        | none => s1.runDone d 1
    | none => s

/-! ## The time servo: sources (R258, R276) -/

/-- The port of a SOURCE. -/
def sourcePort (w : Nat) : Nat := w / 256

/-- A port is eligible (R270). -/
def State.portAble (s : State) (p : Nat) : Bool :=
  s.portExists p && ((s.lstate p == 3 && s.flag F.LINK.STATUS_PORT_TG (p / 24) (p % 24)) || s.lstate p == 4)

/-- A port as a candidate, its estimate the peer's and that of the hop. -/
def State.portCandidate (s : State) (p : Nat) : Candidate :=
  let v := s.rom.servo.par
  let far := match (s.exch p).peer with
    | some q => (q.err, q.hops, q.loop)
    | none => ((Config.unknownPeer p).1, (Config.unknownPeer p).2, false)
  ⟨2 + 256 * p, s.lstate p, far.2.1, far.1 + (if s.lstate p = 3 then v.hopPh else v.hopTs), far.2.2⟩

/-- The eligible sources: at the summit the GNSS reference while it follows satellites, elsewhere the upstream ports (R258). -/
def State.candidates (s : State) : List Candidate :=
  if s.isSummit then
    if s.inRun 0 B.GNSS 0 && (s.gstate == 1 || s.gstate == 3) then [⟨1, 0, 0, s.errEst, false⟩] else []
  else ((List.range (Config.nPorts s.part)).filter s.portAble).map s.portCandidate

/-- Lower estimate, then fewer hops, then the lower port (R276). -/
def Candidate.before (a b : Candidate) : Bool :=
  decide (a.est < b.est) || (a.est == b.est && (decide (a.hops < b.hops) || (a.hops == b.hops && decide (a.source ≤ b.source))))

/-- The servo's own order: the source changes only for one that is better by more than the margin; none that names this node
as its upstream. -/
def ownChoice (margin : Nat) (cur : Option Candidate) (l : List Candidate) : Option Candidate :=
  let best := (l.filter fun c => !c.loop).foldl (fun b c => match b with
    | some x => if c.before x then some c else b
    | none => some c) none
  match best, cur with
  | some b, some c => if c.loop || decide (b.est + margin < c.est) then some b else some c
  | b, _ => b

/-- The candidate list as the reference-ranking hook reads it (R88 entry 3): 16 bytes a candidate. -/
def Candidate.bytes (c : Candidate) : List Byte :=
  bytesLE 2 (c.source % 256) ++ bytesLE 1 (sourcePort c.source) ++ bytesLE 1 c.lstate ++ bytesLE 4 c.hops ++ bytesLE 8 c.est

/-- The index of the current source in the list, or 0xFFFF. -/
def candIndex (source : Nat) (l : List Candidate) : Nat := (l.findIdx? fun c => c.source == source).getD 0xFFFF

/-- The source that the servo's own order gives, and the one that an index of the hook gives: a candidate whose peer names this
node as its upstream leaves the current source. -/
def State.ownSource (s : State) (l : List Candidate) : Option Candidate :=
  ownChoice s.rom.servo.par.margin (l.find? fun c => c.source == s.rom.servo.source) l
def State.hookSource (s : State) (l : List Candidate) (k : Nat) : Option Candidate :=
  match l[k]? with
  | some c => if c.loop then l.find? fun c => c.source == s.rom.servo.source else some c
  | none => s.ownSource l

/-! ## The time servo: state -/

def State.setServo (s : State) (v : ServoState) : State := { s with rom := { s.rom with servo := v } }

/-- The parameters as DMEM holds them, taken up where SEQ has changed (R277). -/
def State.servoParams (s : State) (first : Bool) : State :=
  let at_ (a : Nat) : Nat := (s.eng 2).dmemRead a 4
  let v := s.rom.servo
  if !first && at_ 0xD800 == v.par.seq then s
  else
    s.setServo { v with par := ⟨at_ 0xD800, at_ 0xD804, at_ 0xD808, at_ 0xD810, at_ 0xD814, at_ 0xD818, at_ 0xD81C, at_ 0xD820⟩ }

/-- The status beside them; the last word is written in part (R59). -/
def State.servoPublish (s : State) : State :=
  let v := s.rom.servo
  let s1 := s.dmemPart 2 0xD898 4
  s1.setEng 2 ((s1.eng 2).dmemWrite 0xD880 (bytesLE 4 v.state ++ bytesLE 4 v.source ++ bytesLE 8 (ofSigned 64 v.theta) ++
    bytesLE 8 s.servoErr ++ bytesLE 4 v.hops))

/-- Entry to a state in which the node is in holdover (R275, R278); SOURCE and HOPS stand as the caller sets them. -/
def State.servoHold (s : State) (st source hops : Nat) : State :=
  let v := s.rom.servo
  let e0 := s.servoErr
  if v.state = 3 ∨ v.state = 4 then s.setServo { v with state := st, source := source, hops := hops }
  else s.setServo { v with state := st, source := source, hops := hops, e0 := e0, holdAt := s.tick 0 }

/-- PLL.SEL written by the servo: the source code and the port (R215). -/
def State.servoSel (s : State) (src port : Nat) : State :=
  s.romWrite 2 (mkFa 0 B.PLL 0 0x10) 32 (2 ^ 30 + src * 2 ^ 24 + port * 2 ^ 16)

/-- The node leaves the port that it has followed for its own XO, or for a GNSS reference that does not clock it: the package
reference becomes the XO (R258; DESIGN CHOICE, log entry 97). -/
def State.servoXo (s : State) (source : Nat) : State := if source % 256 = 2 then s.servoSel 0 0 else s

/-- The node follows a source from now on: an upstream port is selected with PLL.SEL (R259). A selection in progress is
waited for. -/
def State.servoFollow (s : State) (c : Candidate) : State :=
  let v := s.rom.servo
  let hops := if c.source = 1 then 0 else min 0xFFFF (c.hops + 1)
  if c.source = v.source then s.setServo { v with err := c.est, hops := hops }
  else if s.flag F.PLL.SEL_BUSY 0 0 then s.setServo { v with again := true }
  else
    let s1 := s.setServo { v with
      state := 1, source := c.source, err := c.est, hops := hops, fresh := true, told := false, restart := .none, measure := none }
    if c.source = 1 then s1.servoXo v.source else s1.servoSel 3 (sourcePort c.source)

/-- The outcome of a ranking (R276); with no source the node is in holdover, the summit on its own XO (R258, R278). A node that
does not hold the role and has had no source stays UNSET. -/
def State.servoUse (s : State) (c : Option Candidate) : State :=
  let v := s.rom.servo
  match c with
  | some c => s.servoFollow c
  | none =>
    if s.isSummit then
      if v.source % 256 = 2 ∧ s.flag F.PLL.SEL_BUSY 0 0 then s.setServo { v with again := true }
      else (s.servoHold 3 3 0).servoXo v.source
    else if v.state = 0 then s
    else s.servoHold 3 0 0xFFFF

/-! ## The time servo: steering (R274, R275) -/

/-- The message of a pending restart, once the host takes it (R275, R125). -/
def State.servoTell (s : State) : State :=
  let v := s.rom.servo
  if v.told || !s.hostServes 0 0 || (s.host 0).mboFree.isEmpty then s
  else (s.mboPut 0 (bytesLE 2 9 ++ bytesLE 2 1 ++ bytesLE 4 0) false).setServo { v with told := true }

/-- The leader's RIDGE is stopped, the first act of the restart path (R236). -/
def State.servoStop (s : State) : State :=
  let l := s.leader
  let v := s.rom.servo
  if s.linkUp 0 l && s.owner l B.RIDGE 0 == s.engPart 2 then
    (s.stopRequest l B.RIDGE 0).setServo { v with state := 1, restart := .stopping, fresh := false, told := false }
  else s

/-- The restart path goes on as the leader's RIDGE does: in STOPPED the scale is set by THETA and the RIDGE started. -/
def State.servoRestart (s : State) : State :=
  let v := s.rom.servo
  let l := s.leader
  match v.restart with
  | .none => s
  | .stopping =>
    if s.run l B.RIDGE 0 ≠ 0 then s
    else
      let u := Int.ofNat (XT.units (BitVec.ofNat 128 (s.rf F.RIDGE.OFFSET_OFFSET l 0))) + from16 v.theta
      let s1 := s.romWrite 2 (mkFa l B.RIDGE 0 0x30) 128 (xtOfInt u).toNat
      let s2 := s1.romWrite 2 (mkFa l B.RIDGE 0 0x20) 64 (s1.rf F.RIDGE.BASE_BASE l 0)
      (s2.setServo { v with restart := .starting }).startRequest none l B.RIDGE 0
  | .starting =>
    if s.inRun l B.RIDGE 0 then s.setServo { v with restart := .none }
    else if (s.ridge l).pendStart.isSome then s
    else s.setServo { v with restart := .none, fresh := true }

/-- The step for an offset (R274): a sixteenth of GAIN of it, floored, as far as check 4 of R234 lets it pass. -/
def State.servoStep (s : State) (theta : Int) : Int × Bool :=
  let l := s.leader
  let room := Int.ofNat (s.rfF F.RIDGE.JUMP_LIMIT_LIMIT l 0 * 65536) - Int.ofNat ((s.ridge l).stepSum (s.applyTick l))
  let want := theta * Int.ofNat s.rom.servo.par.gain / 16
  let step := max (-(max room 0)) (min (max room 0) want)
  (step, step == want)

/-- The rate of an XO-led summit after a measurement of at least 100 s, as in the worked example of the scale: what the offset
has moved, the steps put aside, over the time measured. -/
def State.servoRate (s : State) (theta step : Int) : State :=
  let v := s.rom.servo
  let l := s.leader
  let now := s.tick 0
  let on (s : State) (m : Option (Nat × Int × Int)) : State := s.setServo { s.rom.servo with measure := m }
  if v.source ≠ 1 ∨ s.rf F.PLL.STATUS_SRC l 0 ≠ 0 then s
  else
    match v.measure with
    | none => on s (some (now, theta, step))
    | some (from_, th0, steps) =>
      let n := now - from_
      if n < 62500000000 then on s (some (from_, th0, steps + step))
      else
        let r := Int.ofNat (s.ridge l).rate
        let num := r * (theta - th0 + steps) * 5
        let den := 65536 * 8 * Int.ofNat n
        let trim := (2 * num + den) / (2 * den)
        (on s (some (now, theta, step))).romWrite 2 (mkFa l B.RIDGE 0 0x10) 64 (r + trim).toNat

/-- One result of the source followed (R274, R275). -/
def State.servoResult (s : State) (theta : Int) : State :=
  let v := s.rom.servo
  let l := s.leader
  let s0 := s.setServo { v with theta := theta }
  if v.restart ≠ .none then s0
  else if (v.fresh ∨ v.state = 4) ∧ s.rfF F.RIDGE.JUMP_LIMIT_LIMIT l 0 * 65536 < theta.natAbs then
    if v.par.restart = 1 then s0.servoStop else s0.servoHold 4 v.source v.hops
  else
    let x := s0.servoStep theta
    let s1 := s0.setServo { s0.rom.servo with state := if x.2 then 2 else 1, fresh := false, told := false }
    let s2 := if v.source ≠ 1 ∧ (s.ridge l).rate ≠ 0x1999999999A then s1.romWrite 2 (mkFa l B.RIDGE 0 0x10) 64 0x1999999999A
      else s1.servoRate theta x.1
    s2.romWrite 2 (mkFa l B.RIDGE 0 0x18) 64 (ofSigned 64 x.1)

/-- A pending restart: the host is told, and ACK, which the servo clears, lets it begin (R275, R277). -/
def State.servoPending (s : State) : State :=
  let s1 := s.servoTell
  let g := s1.eng 2
  if g.dmemRead 0xD80C 4 = 1 then
    let s2 := s1.dmemPart 2 0xD80C 4
    (s2.setEng 2 ((s2.eng 2).dmemWrite 0xD80C (bytesLE 4 0))).servoStop
  else s1

/-! ## Checkpoints (R279, R439, R440) -/

/-- A slot's count, where its CRC is correct. -/
def slotCount (l : List Byte) : Option Nat :=
  if leNat (l.drop 60) = (crc32 (l.take 60)).toNat then some (leNat (l.take 8)) else none

/-- A read of a 64-bit word of D0's store by the servo, as any of its reads (R63, R433). -/
def State.servoRead (s : State) (off : Nat) : State × List Byte :=
  if s.accessCause 2 (mkFa 0 B.NVS 0 off) 64 false = 0 then
    let r := s.nvsGet 0 off 64
    (r.1, bytesLE 8 r.2)
  else (s, bytesLE 8 0)

/-- The words of a slot, read in order. -/
def State.readSlot (s : State) (k : Nat) : State × List Byte :=
  (List.range 8).foldl (fun a w =>
    let r := a.1.servoRead (0x10000 + 64 * k + 8 * w)
    (r.1, a.2 ++ r.2)) (s, [])

/-- The newest valid slot: its count and its PLL.FREQ (R440). -/
def State.newestSlot (s : State) : State × Option (Nat × Nat) :=
  (List.range 32).foldl (fun a k =>
    let r := a.1.readSlot k
    (r.1, match slotCount r.2, a.2 with
      | some c, some x => if x.1 < c then some (c, leNat ((r.2.drop 8).take 8)) else a.2
      | some c, none => some (c, leNat ((r.2.drop 8).take 8))
      | none, _ => a.2)) (s, none)

/-- The 64 bytes of a checkpoint. -/
def State.slotBytes (s : State) : List Byte :=
  let v := s.rom.servo
  let l := bytesLE 8 (v.base + v.count) ++ bytesLE 8 (s.rf F.PLL.FREQ_OFFSET s.leader 0) ++ bytesLE 8 s.servoErr ++
    bytesLE 4 v.state ++ bytesLE 4 v.source ++ bytesLE 16 (xtOf (s.ridge 0).lastSec 0 0).toNat ++
    bytesLE 8 (s.rf F.SUMMIT.HOLDER_HOLDER 0 0) ++ bytesLE 4 (s.rf F.SUMMIT.EPOCH_EPOCH 0 0)
  l ++ bytesLE 4 (crc32 l).toNat

/-- The FENCE after a checkpoint (R439): a write of it has not been acknowledged yet. -/
def State.servoFenced (s : State) : Bool := (s.nvsOf 0).queue.any fun w => w.writer == some 2

/-- A checkpoint: eight word writes to its slot, word 7 last. -/
def State.servoCheckpoint (s : State) : State :=
  let v := s.rom.servo
  let l := s.slotBytes
  let word (s : State) (w : Nat) : State :=
    let off := 0x10000 + 64 * (v.count % 32) + 8 * w
    if s.accessCause 2 (mkFa 0 B.NVS 0 off) 64 false = 0 then (s.nvsPost (some 2) 0 off 64 (leNat ((l.drop (8 * w)).take 8))).1
    else s
  let s1 := (List.range 8).foldl word s
  s1.setServo { s1.rom.servo with count := v.count + 1 }

/-- The servo's start: its parameters, the newest checkpoint, and an initial STEER for an XO-led node. What it has published as
its estimate stands until the first source. -/
def State.servoStart (s : State) : State :=
  let s1 := (s.setServo { started := true, err := (s.eng 2).dmemRead 0xD890 8, second := (s.ridge 0).lastSec }).servoParams true
  let n := s1.newestSlot
  match n.2 with
  | none => n.1
  | some (c, freq) =>
    let s2 := n.1.setServo { n.1.rom.servo with base := c }
    if s2.rf F.PLL.STATUS_SRC s2.leader 0 = 0 then s2.romWrite 2 (mkFa 0 B.PLL 0 0x18) 64 freq else s2

/-! ## The time servo: one tick -/

/-- THETA of the source followed, where it has a new result: an upstream port's, or at a GNSS solution MODEL. -/
def State.servoNews (s : State) (ports : List Nat) (sol : Bool) : Option Int :=
  let w := s.rom.servo.source
  if w = 1 then (if sol then some (s.model / 1000) else none)
  else if w % 256 = 2 ∧ ports.contains (sourcePort w) then
    some (s.rfS F.LINK.THETA_W_THETA (sourcePort w / 24) (sourcePort w % 24))
  else none

/-- What follows the ranking within a tick: the source's result is used, a restart goes on, a second's checkpoint is written, and
the status published. -/
def State.servoRest (s : State) (ranked : Bool) (news : List Nat) (sol second : Bool) : State :=
  let s1 := match s.servoNews news sol with
    | some theta => s.servoResult theta
    | none => s
  let s2 := (if s1.rom.servo.state = 4 then s1.servoPending else s1).servoRestart
  let s3 := if second then (s2.servoParams false).servoCheckpoint else s2
  if ranked || second then s3.servoPublish else s3

/-- A ranking (R276): the reference-ranking hook is called where there is one and there are candidates (R88 entry 3). -/
def State.servoRank (s : State) (news : List Nat) (sol second : Bool) : State :=
  let l := s.candidates
  match s.hookAt 2 3 with
  | some entry =>
    if l = [] then (s.servoUse none).servoRest true news sol second
    else
      let a := hookArea 3
      (s.setEng 2 ((s.eng 2).dmemWrite a (l.flatMap Candidate.bytes))).hookCall 2 3 entry
        [a, l.length, candIndex s.rom.servo.source l] (.rank l news sol second)
  | none => (s.servoUse (s.ownSource l)).servoRest true news sol second

/-- One tick of the servo: at a result of an eligible port, a GNSS solution, a change of eligibility or of the summit role the
sources are ranked and the source's result used; at each second of line 59 a checkpoint is written, which is waited for. -/
def State.servoTick (s : State) : State :=
  if !s.romFree 2 || s.servoFenced then s
  else
    let s0 := if s.rom.servo.started then s else s.servoStart
    let v := s0.rom.servo
    let able := s0.candidates.map (·.source)
    let ports := (able.filter fun w => w % 256 == 2).map sourcePort
    let news := ports.filter fun p => (s0.link p).results != Store.get 0 v.results p
    let sol := s0.rf F.GNSS.FIX_SOL_SEQ 0 0
    let second := (s0.ridge 0).lastSec
    let role := s0.isSummit
    let ranks := !news.isEmpty || sol != v.sol || able != v.able || role != v.summit || (role && v.state == 0) || v.again
    let seen := news.foldl (fun m p => Store.put 0 m p (s0.link p).results) v.results
    let s1 := s0.setServo { v with
      able := able, results := seen, sol := sol, second := second, summit := role, again := false }
    let fresh := decide (v.second < second)
    if ranks then (s1.servoParams false).servoRank news (sol != v.sol) fresh else s1.servoRest false news (sol != v.sol) fresh

/-! ## The summit lease program (R280, R88 entry 4) -/

/-- A write of SUMMIT.CMD. -/
def State.leaseCmd (s : State) (op : Nat) : State := s.romWrite 3 (mkFa 0 B.SUMMIT 0 0x28) 32 (op * 2 ^ 26)

/-- The decision on a TAKE or a RENEW: 1 issues it, 2 issues RELEASE in place of a RENEW, and nothing else is issued. -/
def State.leaseDone (s : State) (renew : Bool) (v : Nat) : State :=
  if v = 1 then s.leaseCmd (if renew then 2 else 1) else if v = 2 ∧ renew then s.leaseCmd 3 else s

/-- A TAKE or a RENEW, through the lease decision. -/
def State.leaseAsk (s : State) (renew : Bool) : State :=
  match s.hookAt 3 4 with
  | some entry =>
    s.hookCall 3 4 entry [ofBool renew, s.rf F.SUMMIT.QUALITY_QUALITY 0 0, s.rom.servo.state, s.servoErr] (.lease renew)
  | none => s.leaseDone renew 1

/-- One tick: TAKE when ELIGIBLE sets; at a holder RENEW, every half term. -/
def State.leaseTick (s : State) : State :=
  if !s.romFree 3 then s
  else
    let able := s.flag F.SUMMIT.STATUS_ELIGIBLE 0 0
    let v := s.rom.lease
    let half := msUnits (s.rfF F.SUMMIT.CFG_TERM 0 0) / 2
    let put (s : State) (after : Nat) : State := { s with rom := { s.rom with lease := ⟨able, after⟩ } }
    if able && !v.seen then (put s v.after).leaseAsk false
    else if s.isSummit && decide (s.sTime F.SUMMIT.RENEWED_TIME + half ≤ s.sNow) && decide (v.after ≤ s.sNow) then
      (put s (s.sNow + half)).leaseAsk true
    else put s v.after

/-! ## The return of a hook -/

/-- A hook that has returned gives its result in v1 (R87), and its program goes on. A frame whose handling may send waits for the
injection path. -/
def State.hookTick (s : State) (e : Nat) : State :=
  match s.hookBack e with
  | none => s
  | some w =>
    let v := ((s.eng e).rv 1).toNat
    let s1 := s.hookDone e
    match w with
    | .frame f => if (s.die (e / 4)).inj.isSome then s else s1.filterDone (e / 4) v f
    | .asym p => if (s.die (e / 4)).inj.isSome then s else s1.asymDone p v
    | .run => s1.runDone (e / 4) v
    | .rank l news sol second => (s1.servoUse (s1.hookSource l v)).servoRest true news sol second
    | .lease renew => s1.leaseDone renew v

/-! ## One tick of all of them -/

/-- The ROM-resident programs at one tick. -/
def State.romTick (s : State) : State :=
  if s.rom.progs = [] then s
  else
    let dies := List.range (Config.nDies s.part)
    let s0 := (List.range (Config.nEngines s.part)).foldl (fun s e => s.hookTick e) s
    let s1 := dies.foldl (fun s d => s.handlerTick d) s0
    let s2 := (List.range (Config.nPorts s.part)).foldl (fun s p => s.portTick p) s1
    (dies.foldl (fun s d => s.calSeqTick d) s2).servoTick.leaseTick

end Sys2Proof.Machine
end

