-- ==== Sys2Proof/Machine/Idle.lean ====
section
/-!
DEFINITION. The passing of time: what the block does on an empty queue is one ridge tick, 1.6 ns, of every die (R27,
R229). Everything that falls due at a tick or an instant and has a command of its own waits for that command.
-/
namespace Sys2Proof.Machine

/-- The port's queues have been empty only since now, unless they are empty (R204). -/
def State.idleTick (s : State) (p : Nat) : State :=
  if s.queuesEmpty p then s else s.setLane p { s.lane p with idleFrom := s.tick (p / 24) }

/-- The `n` engine cycles of a tick: those that no issue has filled count as occurrences of source 0x21 (R444). -/
def State.issueCycles (s : State) (d n : Nat) : State :=
  let count (s : State) (k : Nat) : State :=
    let idle := n - Store.get 0 (s.perf d).issued k
    if Config.nEngines s.part ≤ 4 * d + k || idle == 0 then s else s.perfEvent d 0x21 k idle
  let s1 := [0, 1, 2, 3].foldl count s
  let p := s1.perf d
  s1.setPerf d { p with issued := Store.putList 0 [] 0 ([0, 1, 2, 3].map fun k => Store.get 0 p.issued k - n) }

/-- The pipeline cycles of one tick, 8 in 5 ticks, and its engine cycles, 32 in 25 ticks (R27), with what they advance (R442 to
R444). -/
def State.cycleTick (s : State) (d : Nat) : State :=
  let p := s.perf d
  ((s.setPerf d { p with fifths := (p.fifths + 8) % 5, engParts := (p.engParts + 32) % 25 }).perfCycles d
    ((p.fifths + 8) / 5)).issueCycles d ((p.engParts + 32) / 25)

/-- One ridge tick of a die: its counter, its cycles, its channels' gates (R322), its injected frame (R40), its ports' idle times. -/
def State.dieTick (s : State) (d : Nat) : State :=
  let s1 := s.setRidge d { s.ridge d with tick := (s.tick d + 1) % 2 ^ 64 }
  let s2 := (List.range 8).foldl (fun s k => s.evTick (8 * d + k)) (s1.cycleTick d)
  (List.range 24).foldl (fun s i => s.idleTick (24 * d + i)) (s2.injFill d 64)

/-- One ridge tick of the package, and what the ROM-resident programs do then (DESIGN CHOICE, log entry 96); the internal reset
holds everything. -/
def State.idle (s : State) : State :=
  if s.resets.asserted then s
  else ((List.range (Config.nDies s.part)).foldl (fun s d => s.dieTick d) s).pllTick.romTick

end Sys2Proof.Machine
end

