-- ==== Sys2Proof/Safety.lean ====
section
/-!
DEFINITION. The terms that claims use: what an event may change, what the monitoring of an instruction may change besides
its own effect, what an engine's program computes with, which commands reach what, and the rule of the fuses.
-/
namespace Sys2Proof.Machine

/-! ## Frames -/

/-- The block ID in a register key. -/
def keyBlk (k : Nat) : Nat := k / 2 ^ 36 % 2 ^ 8

/-- An engine but for its event lines. -/
def Engine.still (g : Engine) : Engine := { g with pending := 0 }

/-- A die's data plane but for PERF's own state. -/
def DieState.still (x : DieState) : DieState := { x with perf := {} }

/-- What an event leaves alone (R73, R500): everything but engines' event lines, messages on their way between dies, and
MESH.ERR.EVT_LOST_SEEN. -/
structure EventOnly (s t : State) : Prop where
  rest : t = { s with engs := t.engs, regs := t.regs, msgs := t.msgs }
  engs : ∀ e, (t.eng e).still = (s.eng e).still
  regs : ∀ k, (∀ a b, F.MESH.ERR_EVT_LOST_SEEN.key a b ≠ k) → ∀ d, Store.get d t.regs k = Store.get d s.regs k

/-- A change of some registers' fields, listed with their die and instance, with the events that go with it: everything
besides is left alone. -/
structure RegsOnly (fs : List (Fld × Nat × Nat)) (s t : State) : Prop where
  rest : t = { s with engs := t.engs, regs := t.regs, msgs := t.msgs }
  engs : ∀ e, (t.eng e).still = (s.eng e).still
  regs : ∀ k, (∀ x ∈ fs, x.1.key x.2.1 x.2.2 ≠ k) → (∀ a b, F.MESH.ERR_EVT_LOST_SEEN.key a b ≠ k) →
    ∀ d, Store.get d t.regs k = Store.get d s.regs k

/-- What the monitoring that accompanies an instruction leaves alone (R73, R443 to R452): everything but engines' event
lines, messages on their way, registers of PERF and MESH, PERF's own state and the count of free values. -/
structure MonitorOnly (s t : State) : Prop where
  rest : t = { s with engs := t.engs, regs := t.regs, msgs := t.msgs, dies := t.dies, free := t.free }
  engs : ∀ e, (t.eng e).still = (s.eng e).still
  regs : ∀ k, keyBlk k ≠ B.PERF → keyBlk k ≠ B.MESH → ∀ d, Store.get d t.regs k = Store.get d s.regs k
  dies : ∀ d, (t.die d).still = (s.die d).still

/-- Engine `e` has executed the instruction at its PC: `g` is what the instruction made of the engine, and execution goes
on at `next` (R100, R114). -/
def State.retired (s : State) (e : Nat) (g : Engine) (next : BitVec 16) : State :=
  s.setEng e { g with lastDone := (s.eng e).pc, pc := next, hold := .none }

/-- The engine executes its instruction with no failed posted access held back (R130): the hypothesis of the statements that
say what an instruction leaves behind. -/
def State.calm (s : State) (e : Nat) : Bool := s.ready e && (s.eng e).held == []

/-- An access of engine `e` at a function address passes the checks of R63 outside the internal reset. -/
def State.passes (s : State) (e addr width : Nat) : Bool :=
  decide (e < Config.nEngines s.part) && decide (addr < 2 ^ 40) && s.has (faDie addr) (faBlk addr) (faInst addr) &&
    !s.resets.asserted && s.accessCause e addr width false == 0

/-- A read passes them and has no earlier posted access to the instance before it (R54): the hypothesis of the statements on rows
that an engine's read starts. -/
def State.grants (s : State) (e addr width : Nat) : Bool := s.passes e addr width && !s.behind e addr

/-- A write passes them and is the next of the engine's posted accesses to the instance (R28, R54): the hypothesis of the
statements on rows that an engine's write starts. -/
def State.grantsWrite (s : State) (e addr width data : Nat) : Bool := s.passes e addr width && !s.early e addr width data

/-- Engine `e`, with the contents `g`, has taken a precise trap on the instruction at its PC (R129): the trap word in v30, the
PC at 0x0004, and TRAP_CAUSE and LAST_PC written. -/
def State.trapped (s : State) (e : Nat) (g : Engine) (cause : Nat) : State :=
  let w : Word := BitVec.ofNat 64 (g.pc.toNat * 2 ^ 32 + cause * 2 ^ 16 + g.pc.toNat)
  ((s.setEng e { g.wv 30 w with pc := 4, hold := .none }).wf F.ENG.STATUS_TRAP_CAUSE (e / 4) (e % 4) cause).wf
    F.ENG.STATUS_LAST_PC (e / 4) (e % 4) g.pc.toNat

/-- What an engine's program computes with: registers, PC, flags, memories and their ECC, and the last instruction
completed; not its event lines, accesses in flight, receive queue and EVMAP. -/
def Engine.core (g : Engine) : Engine :=
  { g with pending := 0, posted := [], hold := .none, calls := 0, block := [], held := [], rxq := [], rxDrops := 0, evmap := [], evLive := [] }

/-- The programs' state of every engine. -/
def State.cores (s : State) (e : Nat) : Engine := (s.eng e).core

/-! ## Fuses (R164, R173 to R176) -/

/-- Contents of a key slot that may follow others: an enrolled key stays or is revoked, a revoked one stays. -/
def KeySlot.le : KeySlot → KeySlot → Prop
  | .empty, _ => True
  | .enrolled p, x => x = .enrolled p ∨ x = .revoked p
  | .revoked p, x => x = .revoked p

/-- Fuses that may follow others: nothing blown is undone. -/
structure Otp.le (a b : Otp) : Prop where
  lifecycle : a.lifecycle ≤ b.lifecycle
  rollback : a.rollback ≤ b.rollback
  secret : ∀ k, a.secret = some k → b.secret = some k
  keys : ∀ i, KeySlot.le (Store.get .empty a.keys i) (Store.get .empty b.keys i)

/-- The rule of the fuses, from the fuses `o` on: nothing of `o` is undone, the lifecycle is one of the three, the rollback
counter at most 256, and a key or rollback command in progress blows nothing that is blown. -/
structure FuseInv (o : Otp) (s : State) : Prop where
  kept : Otp.le o s.otp
  lifecycle : 1 ≤ s.otp.lifecycle ∧ s.otp.lifecycle ≤ 3
  rollback : s.otp.rollback ≤ 256
  enrol : ∀ j, s.sec.key = some j → j.op = 1 → s.slot j.slot = .empty
  secret : ∀ j, s.sec.key = some j → j.op = 3 → s.otp.secret = none
  advance : ∀ n, s.sec.rollTo = some n → s.otp.rollback ≤ n ∧ n ≤ 256

/-! ## What only some commands reach -/

/-- The part of the state that few commands reach: the part itself, the fuses with a key or rollback command in progress, the
pins, the internal reset, the temperature sensors' alarm, and the commands that wait. -/
structure Vault where
  part : Part
  otp : Otp
  key : Option KeyJob
  rollTo : Option Nat
  pins : Pins
  resets : ResetState
  therm : ThermState
  pending : List Instr

/-- The vault of a state. -/
def State.vault (s : State) : Vault :=
  ⟨s.part, s.otp, s.sec.key, s.sec.rollTo, s.pins, s.resets, s.therm, s.pending⟩

end Sys2Proof.Machine

namespace Sys2Proof

/-- The commands that may change the vault: power, reset and the pins, the temperature sensors, the lifecycle, key, password
and rollback commands, and the accesses that may write their registers. -/
def Instr.reachesVault : Instr → Bool
  | .registerWrite .. | .dbgAccess .. => true
  | .pwrgoodFall | .pwrgoodRise | .resetNFall | .resetNFiltered | .resetNRise | .resetRelease .. => true
  | .tapReset .. | .clkoSupplyChange .. | .thermAssert .. | .thermRelease .. => true
  | .lcAdvance .. | .keyEnrol .. | .keyRevoke .. | .debugSecretEnrol .. | .ownerPasswordSet .. | .keyCmdDone .. => true
  | .rollbackAdvance .. | .rollbackDone .. => true
  | _ => false

/-- The commands that may change what an engine's program computes with: the engine's own instructions and the ends of those
that wait, changes of run state, accesses that may write its memories, loads, boot and reset. -/
def Instr.reachesPrograms : Instr → Bool
  | .illegal .. | .functionResponseArrive .. | .postedAckArrive .. | .waitHit .. | .waitTimeout .. => true
  | .injectionServe .. | .runStateRequestArrive .. | .drainComplete .. | .drainLimitExpire .. | .enterFault .. => true
  | .registerWrite .. | .readClear .. | .dbgAccess .. | .signatureCheckDone .. | .loadEnd .. => true
  | .pwrgoodFall | .resetNFiltered | .secSelfTestEnd .. | .bootD0Locked .. | .bootFollowerLocked .. => true
  | c => (encodeUmmus c).isSome

end Sys2Proof
end

