-- ==== Sys2Proof/Certificates/Slice0/Obligations.lean ====
section
/-!
DEFINITION. The statements about this model that are left to be proved, one `def Obligations.<Name> : Prop` each.
-/
section SliceStatements
open Sys2Proof Sys2Proof.Machine

/-! ## The queue of commands -/

/-- Model's choice (log entry 1: the part is modelled as a block, whose queue and whose step that takes its front are the model's
own): a step runs the command at the front of the queue on the state with the queue's rest. -/
def Obligations.StepRunsFrontCommand : Prop :=
  ∀ (s : State) (c : Instr) (rest : List Instr), s.pending = c :: rest → step s = exec c { s with pending := rest }

/-! ## Cairn instructions (R96, R101, R102, R106, R107, R115 to R117) -/

/-- R96, R101, R117: NOP and the register-register instructions complete with their result in rd (nothing in v0), their flags,
TO and PV kept, the PC at the next word; besides, only what monitoring changes. RDF reads the flag word, WRF and CLF change
flags alone, TO and PV among them. R58: after a write of register rd, v0 reads as zero, rd as the value and every other
register as before. -/
def Obligations.RegisterInstructions : Prop :=
  (∀ (s : State) (e : Nat) (rd a b : Reg) (m : BitVec 6), s.calm e = true →
     let g := s.eng e
     let x := g.rv a
     let y := g.rv b
     let sh := y.toNat % 64
     let done (r : Word) (n c v : Bool) (o : Out) : Prop :=
       ∃ t, o = .next t ∧ MonitorOnly
         (s.retired e { g.wv rd r with flags := { g.flags with z := r == 0, n := n, c := c, v := v } } (g.pc + 4)) t
     (∃ t, exec (.nop e) s = .next t ∧ MonitorOnly (s.retired e g (g.pc + 4)) t) ∧
     done (x + y) (x + y).msb (decide (2 ^ 64 ≤ x.toNat + y.toNat)) (decide (x.toInt + y.toInt ≠ (x + y).toInt))
       (exec (.add e rd a b) s) ∧
     done (x - y) (x - y).msb (decide (y.toNat ≤ x.toNat)) (decide (x.toInt - y.toInt ≠ (x - y).toInt))
       (exec (.sub e rd a b) s) ∧
     done (x &&& y) (x &&& y).msb false false (exec (.and e rd a b) s) ∧
     done (x ||| y) (x ||| y).msb false false (exec (.or e rd a b) s) ∧
     done (x ^^^ y) (x ^^^ y).msb false false (exec (.xor e rd a b) s) ∧
     done (x <<< sh) (x <<< sh).msb false false (exec (.sll e rd a b) s) ∧
     done (x >>> sh) (x >>> sh).msb false false (exec (.srl e rd a b) s) ∧
     done (x.sshiftRight sh) (x.sshiftRight sh).msb false false (exec (.sra e rd a b) s) ∧
     done (x * y) (x * y).msb false (decide (x.toInt * y.toInt ≠ (x * y).toInt)) (exec (.mul e rd a b) s) ∧
     (∀ r : Word, r.toNat = x.toNat * y.toNat / 2 ^ 64 → done r r.msb false false (exec (.mulhu e rd a b) s)) ∧
     (∀ r : Word, r.toInt = x.toInt * y.toInt / 2 ^ 64 → done r r.msb false false (exec (.mulhs e rd a b) s)) ∧
     (y ≠ 0 → done (x / y) (x / y).msb false false (exec (.divu e rd a b) s) ∧
       done (x % y) (x % y).msb false false (exec (.remu e rd a b) s)) ∧
     (y = 0 → done (BitVec.allOnes 64) true false true (exec (.divu e rd a b) s) ∧
       done x x.msb false true (exec (.remu e rd a b) s)) ∧
     (∀ k : Nat, k ≤ 64 → (k < 64 → x.getLsbD (63 - k) = true) → (∀ i, 64 - k ≤ i → i < 64 → x.getLsbD i = false) →
       done (BitVec.ofNat 64 k) false false false (exec (.clz e rd a) s)) ∧
     done (BitVec.ofNat 64 ((List.range 64).filter fun i => x.getLsbD i).length) false false false (exec (.popc e rd a) s) ∧
     (let f := g.flags
      let leaves (h : Engine) (o : Out) : Prop := ∃ t, o = .next t ∧ MonitorOnly (s.retired e h (g.pc + 4)) t
      leaves (g.wv rd (BitVec.ofNat 64 (ofBool f.z + 2 * ofBool f.n + 4 * ofBool f.c + 8 * ofBool f.v + 16 * ofBool f.tmo +
        32 * ofBool f.pv))) (exec (.rdf e rd) s) ∧
      leaves { g with flags := ⟨x.getLsbD 0, x.getLsbD 1, x.getLsbD 2, x.getLsbD 3, x.getLsbD 4, x.getLsbD 5⟩ } (exec (.wrf e a) s) ∧
      leaves { g with flags := ⟨f.z && !m.getLsbD 0, f.n && !m.getLsbD 1, f.c && !m.getLsbD 2, f.v && !m.getLsbD 3,
        f.tmo && !m.getLsbD 4, f.pv && !m.getLsbD 5⟩ } (exec (.clf e m) s))) ∧
  (∀ (g : Engine) (rd q : Reg) (x : Word),
     (g.wv rd x).rv q = if q = 0 then 0 else if rd = q then x else g.rv q)

/-- R102, R115: the immediate instructions; CALL and JALR, which change no flag. That their link is PC + 4 without a wrap at 2^16 is
the model's reading (log entry 13). -/
def Obligations.ImmediateInstructions : Prop :=
  ∀ (s : State) (e : Nat) (rd a : Reg) (imm : Imm16) (sh : BitVec 6) (k : BitVec 2), s.calm e = true →
    let g := s.eng e
    let x := g.rv a
    let i := imm.signExtend 64
    let u := imm.zeroExtend 64
    let kept (r : Word) : Engine := g.wv rd r
    let done (h : Engine) (o : Out) : Prop := ∃ t, o = .next t ∧ MonitorOnly (s.retired e h (g.pc + 4)) t
    let zn (r : Word) (c v : Bool) : Flags := { g.flags with z := r == 0, n := r.msb, c := c, v := v }
    done { kept (x + i) with
      flags := zn (x + i) (decide (2 ^ 64 ≤ x.toNat + i.toNat)) (decide (x.toInt + i.toInt ≠ (x + i).toInt)) }
      (exec (.addi e rd a imm) s) ∧
    done { kept (x &&& u) with flags := zn (x &&& u) false false } (exec (.andi e rd a imm) s) ∧
    done { kept (x ||| u) with flags := zn (x ||| u) false false } (exec (.ori e rd a imm) s) ∧
    done { kept (x ^^^ u) with flags := zn (x ^^^ u) false false } (exec (.xori e rd a imm) s) ∧
    done { kept (x <<< sh.toNat) with flags := zn (x <<< sh.toNat) false false } (exec (.shi e rd a .sll sh) s) ∧
    done { kept (x >>> sh.toNat) with flags := zn (x >>> sh.toNat) false false } (exec (.shi e rd a .srl sh) s) ∧
    done { kept (x.sshiftRight sh.toNat) with flags := zn (x.sshiftRight sh.toNat) false false }
      (exec (.shi e rd a .sra sh) s) ∧
    done { g with
      flags := zn (x - i) (decide (i.toNat ≤ x.toNat)) (decide (x.toInt - i.toInt ≠ (x - i).toInt)) }
      (exec (.cmpi e a imm) s) ∧
    done (kept (u <<< (16 * k.toNat))) (exec (.movz e rd imm k) s) ∧
    (∀ r : Word, (∀ j : Nat, j < 64 → r.getLsbD j =
        if 16 * k.toNat ≤ j ∧ j < 16 * k.toNat + 16 then imm.getLsbD (j - 16 * k.toNat) else (g.rv rd).getLsbD j) →
      done (kept r) (exec (.movk e rd imm k) s)) ∧
    (let link : Word := BitVec.ofNat 64 (g.pc.toNat + 4)
     let goesTo (pc : BitVec 16) (o : Out) : Prop := ∃ t, o = .next t ∧ MonitorOnly (s.retired e (g.wv rd link) pc) t
     goesTo (g.pc + 4 + imm * 4) (exec (.call e rd imm) s) ∧
     goesTo ((x + i &&& 0xFFFC#64).truncate 16) (exec (.jalr e rd a imm) s))

/-- R116: the condition of a branch holds by the flags as the table of condition codes lists it; a branch word with code 0 to 18 is
the branch on that condition, and one with a code of 19 or above is no instruction. A branch changes the PC alone: to the next
word, or where its condition holds to the word that lies as many words behind that as its offset says. -/
def Obligations.ControlInstructions : Prop :=
  ∀ (s : State) (e : Nat) (cc : Cond) (imm : Imm16), s.calm e = true →
    let g := s.eng e
    let f := g.flags
    (∃ t, exec (.b e cc imm) s = .next t ∧ MonitorOnly (s.retired e g (if (match cc with
        | .al => true | .eq => f.z | .ne => !f.z | .lt => f.n != f.v | .ge => f.n == f.v | .gt => !f.z && f.n == f.v
        | .le => f.z || f.n != f.v | .lo => !f.c | .hs => f.c | .hi => f.c && !f.z | .ls => !f.c || f.z | .mi => f.n
        | .pl => !f.n | .vs => f.v | .vc => !f.v | .tmo => f.tmo | .nto => !f.tmo | .pv => f.pv | .npv => !f.pv) = true
      then g.pc + 4 + imm * 4 else g.pc + 4)) t) ∧
    (∀ code : Reg, decodeUmmus e (0x30#6 ++ code ++ 0#5 ++ imm) =
      ([Cond.al, .eq, .ne, .lt, .ge, .gt, .le, .lo, .hs, .hi, .ls, .mi, .pl, .vs, .vc, .tmo, .nto, .pv, .npv][code.toNat]?).map
        fun c => Instr.b e c imm)

/-- R106, R107, R108: the time instructions on the counts of 2^-32 ns units that instants denote. -/
def Obligations.TimeInstructions : Prop :=
  ∀ (s : State) (e : Nat) (rd a b : Reg) (td x y : TReg), s.calm e = true →
    let g := s.eng e
    let f := g.flags
    let ux := XT.units (g.rt x)
    let uy := XT.units (g.rt y)
    let done (h : Engine) (o : Out) : Prop := ∃ t, o = .next t ∧ MonitorOnly (s.retired e h (g.pc + 4)) t
    let at_ (u : Nat) : XT := xtOf (u / (10 ^ 9 * 2 ^ 32)) (u % (10 ^ 9 * 2 ^ 32) / 2 ^ 32) (u % 2 ^ 32)
    let uMax : Nat := ((2 ^ 64 - 1) * 10 ^ 9 + 999999999) * 2 ^ 32 + (2 ^ 32 - 1)
    let sum : Int := ux + (g.rv b).toInt * 2 ^ 16
    let q : Int := ((ux : Int) - uy) / 2 ^ 16
    let dif (i : Int) (v : Bool) (o : Out) : Prop :=
      done { g.wv rd (BitVec.ofInt 64 i) with
        flags := { f with z := BitVec.ofInt 64 i == 0, n := (BitVec.ofInt 64 i).msb, c := false, v := v } } o
    let secs := (g.rv a).toNat + (g.rv b).toNat / 2 ^ 32 / 10 ^ 9
    done { g.wt td (at_ (s.now (e / 4))) with flags := { f with v := !s.tg (e / 4) } } (exec (.tnow e td) s) ∧
    done (g.wv rd (BitVec.ofNat 64 (s.tick (e / 4)))) (exec (.tnowTk e rd) s) ∧
    (sum < 0 → done { g.wt td (at_ 0) with flags := { f with v := true } } (exec (.tadd e td x b) s)) ∧
    (0 ≤ sum → sum ≤ uMax → done { g.wt td (at_ sum.toNat) with flags := { f with v := false } } (exec (.tadd e td x b) s)) ∧
    (uMax < sum → done { g.wt td (at_ uMax) with flags := { f with v := true } } (exec (.tadd e td x b) s)) ∧
    (q < -2 ^ 63 → dif (-2 ^ 63) true (exec (.tsub e rd x y) s)) ∧
    (-2 ^ 63 ≤ q → q < 2 ^ 63 → dif q false (exec (.tsub e rd x y) s)) ∧
    (2 ^ 63 ≤ q → dif (2 ^ 63 - 1) true (exec (.tsub e rd x y) s)) ∧
    done { g with flags := { f with z := ux == uy, n := decide (ux < uy), c := decide (uy ≤ ux), v := false } }
      (exec (.tcmp e x y) s) ∧
    (secs < 2 ^ 64 → done { g.wt td (xtOf secs ((g.rv b).toNat / 2 ^ 32 % 10 ^ 9) ((g.rv b).toNat % 2 ^ 32)) with
      flags := { f with v := false } } (exec (.tcvtPack e td a b) s)) ∧
    (2 ^ 64 ≤ secs → done { g.wt td (at_ uMax) with flags := { f with v := true } } (exec (.tcvtPack e td a b) s)) ∧
    done (g.wv rd (BitVec.ofNat 64 ((g.rt x).toNat / 2 ^ 64))) (exec (.tcvtSec e rd x) s) ∧
    done (g.wv rd (BitVec.ofNat 64 ((g.rt x).toNat % 2 ^ 64))) (exec (.tcvtLo e rd x) s) ∧
    done (g.wt td (g.rt x)) (exec (.tcvtMov e td x) s)

/-! ## Local memory (R59, R103) -/

/-- R103: a load that passes its checks, in words without an ECC error, writes the bytes at EA, lowest first, to rd or td. R59,
R103: a store that passes its checks writes the low bytes of its source at EA, lowest first; a single-bit error of a word
that it fills in part is corrected and flagged, and a word that it fills is good and reads nothing (the model's reading, log
entry 104); every other byte of DMEM and everything else the engine holds stay as they were. -/
def Obligations.LoadsAndStores : Prop :=
  (∀ (s : State) (e : Nat) (rd a : Reg) (td : TReg) (imm : Imm16), s.calm e = true →
     let g := s.eng e
     let ea := (g.rv a + imm.signExtend 64).toNat
     let ok (n : Nat) : Prop := ea ≤ 0x10000 - n ∧ ea % n = 0 ∧ g.dmemDouble ea n = false ∧ g.dmemSingle ea n = false
     let val (n : Nat) : Nat := leNat ((List.range n).map fun i => Store.get 0 g.dmem (ea + i))
     let done (h : Engine) (o : Out) : Prop := ∃ t, o = .next t ∧ MonitorOnly (s.retired e h (g.pc + 4)) t
     (ok 1 → done (g.wv rd (BitVec.ofNat 64 (val 1))) (exec (.ld8u e rd a imm) s)) ∧
     (ok 2 → done (g.wv rd (BitVec.ofNat 64 (val 2))) (exec (.ld16u e rd a imm) s)) ∧
     (ok 4 → done (g.wv rd (BitVec.ofNat 64 (val 4))) (exec (.ld32u e rd a imm) s)) ∧
     (ok 8 → done (g.wv rd (BitVec.ofNat 64 (val 8))) (exec (.ld64 e rd a imm) s)) ∧
     (ok 1 → done (g.wv rd ((BitVec.ofNat 8 (val 1)).signExtend 64)) (exec (.ld8s e rd a imm) s)) ∧
     (ok 2 → done (g.wv rd ((BitVec.ofNat 16 (val 2)).signExtend 64)) (exec (.ld16s e rd a imm) s)) ∧
     (ok 4 → done (g.wv rd ((BitVec.ofNat 32 (val 4)).signExtend 64)) (exec (.ld32s e rd a imm) s)) ∧
     (ok 16 → done (g.wt td (BitVec.ofNat 128 (val 16))) (exec (.ldt e td a imm) s))) ∧
  (∀ (s : State) (e : Nat) (rd a : Reg) (ts : TReg) (imm : Imm16), s.calm e = true →
     let g := s.eng e
     let ea := (g.rv a + imm.signExtend 64).toNat
     let ok (n : Nat) : Prop := ea ≤ 0x10000 - n ∧ ea % n = 0
     let part (n : Nat) : Bool := decide (n < 8) && g.dmemSingle ea n
     let flagged (n : Nat) : State := if part n = true then s.setFlag F.ENG.ERR_DMEM_ECC_CORR (e / 4) (e % 4) else s
     let done (n v : Nat) (o : Out) : Prop :=
       ∃ t, o = .next t ∧
         MonitorOnly ((flagged n).retired e { g with dmem := (t.eng e).dmem, dmemEcc := (t.eng e).dmemEcc } (g.pc + 4)) t ∧
         (∀ i, Store.get 0 (t.eng e).dmem i =
           if ea ≤ i ∧ i < ea + n then BitVec.ofNat 8 (v / 256 ^ (i - ea)) else Store.get 0 g.dmem i) ∧
         (∀ w, Store.get .good (t.eng e).dmemEcc w =
           if (ea ≤ 8 * w ∧ 8 * w + 8 ≤ ea + n) ∨ (w = ea / 8 ∧ part n = true) then .good else Store.get .good g.dmemEcc w)
     (ok 1 → done 1 (g.rv rd).toNat (exec (.st8 e rd a imm) s)) ∧
     (ok 2 → done 2 (g.rv rd).toNat (exec (.st16 e rd a imm) s)) ∧
     (ok 4 → done 4 (g.rv rd).toNat (exec (.st32 e rd a imm) s)) ∧
     (ok 8 → done 8 (g.rv rd).toNat (exec (.st64 e rd a imm) s)) ∧
     (ok 16 → done 16 (g.rt ts).toNat (exec (.stt e ts a imm) s)))

/-- R59, R103: where the checks of a local memory instruction fail, it takes the trap DMEM_RANGE, else DMEM_ALIGN, and touches
nothing; a load that finds a double-bit error takes DMEM_ECC with its destination zero. R59: a single-bit error that a load
finds is corrected in place and flagged, and the load completes; an uncorrectable one on a fetch puts the engine in FAULT
with code 0x01, and a correctable one is corrected and flagged. -/
def Obligations.LocalMemoryTrapsAndEcc : Prop :=
  (∀ (s : State) (e : Nat) (rd a : Reg) (tr : TReg) (imm : Imm16), s.ready e = true → inTrapRegion (s.eng e).pc = false →
     let g := s.eng e
     let ea := (g.rv a + imm.signExtend 64).toNat
     let traps (h : Engine) (cause : Nat) (o : Out) : Prop := ∃ t, o = .next t ∧ MonitorOnly (s.trapped e h cause) t
     ∀ (n : Nat) (c : Instr) (load : Bool) (z : Engine),
       ((n, c, load, z) ∈ [(1, .ld8u e rd a imm, true, g.wv rd 0), (2, .ld16u e rd a imm, true, g.wv rd 0),
         (4, .ld32u e rd a imm, true, g.wv rd 0), (8, .ld64 e rd a imm, true, g.wv rd 0),
         (1, .ld8s e rd a imm, true, g.wv rd 0), (2, .ld16s e rd a imm, true, g.wv rd 0),
         (4, .ld32s e rd a imm, true, g.wv rd 0), (16, .ldt e tr a imm, true, g.wt tr 0),
         (1, .st8 e rd a imm, false, g), (2, .st16 e rd a imm, false, g), (4, .st32 e rd a imm, false, g),
         (8, .st64 e rd a imm, false, g), (16, .stt e tr a imm, false, g)]) →
       (0x10000 - n < ea → traps g 0x02 (exec c s)) ∧
       (ea ≤ 0x10000 - n → ea % n ≠ 0 → traps g 0x03 (exec c s)) ∧
       (ea ≤ 0x10000 - n → ea % n = 0 → load = true → g.dmemDouble ea n = true → traps z 0x04 (exec c s))) ∧
  ((∀ (s : State) (e : Nat) (rd a : Reg) (imm : Imm16), s.calm e = true →
     let g := s.eng e
     let ea := (g.rv a + imm.signExtend 64).toNat
     ea ≤ 0x10000 - 8 → ea % 8 = 0 → g.dmemDouble ea 8 = false → g.dmemSingle ea 8 = true →
       ∃ t, exec (.ld64 e rd a imm) s = .next t ∧ t.flag F.ENG.ERR_DMEM_ECC_CORR (e / 4) (e % 4) = true ∧
         Store.get .good (t.eng e).dmemEcc (ea / 8) = .good ∧
         (t.eng e).rv rd = (if rd = 0 then 0 else BitVec.ofNat 64 (leNat (g.dmemBytes ea 8)))) ∧
   (∀ (s : State) (e : Nat), e < Config.nEngines s.part → s.canIssue e = true → s.sec.dbgStep ≠ some e →
     ((s.eng e).imemMark (s.eng e).pc.toNat = .double →
       ∃ t, exec (.nop e) s = .next t ∧ t.run (e / 4) B.ENG (e % 4) = 3 ∧
         t.rf (F.BLOCK.FSTATE_FAULT_CODE B.ENG) (e / 4) (e % 4) = 0x01) ∧
     ((s.eng e).imemMark (s.eng e).pc.toNat = .single → (s.eng e).held = [] →
       ∃ t, exec (.nop e) s = .next t ∧ t.flag F.ENG.ERR_IMEM_ECC_CORR (e / 4) (e % 4) = true ∧
         (t.eng e).imemMark (s.eng e).pc.toNat = .good ∧ (t.eng e).pc = (s.eng e).pc + 4)))

/-! ## Traps (R95, R126, R129 to R131) -/

/-- R95, R126, R129: TRAP n and an illegal word trap precisely: the cause in TRAP_CAUSE, the instruction's address in LAST_PC,
the trap word in v30, the PC at 0x0004; besides, only what monitoring changes. R130: a precise trap raised in the trap
region puts the engine in FAULT with code 0x10 and touches no register (the model's reading, log entry 15). R130, R131: a
failed posted access held back is taken when the first instruction outside the trap region completes: the trap word names
the access, is marked imprecise and resumes at the next instruction; one trap at a time. -/
def Obligations.TrapsOfAnEngine : Prop :=
  (∀ (s : State) (e : Nat) (n : BitVec 6) (w : Word32), s.ready e = true → inTrapRegion (s.eng e).pc = false →
     let g := s.eng e
     let enters (cause : Nat) (o : Out) : Prop :=
       ∃ t, o = .next t ∧ t.rf F.ENG.STATUS_TRAP_CAUSE (e / 4) (e % 4) = cause ∧
         t.rf F.ENG.STATUS_LAST_PC (e / 4) (e % 4) = g.pc.toNat ∧
         (t.eng e).rv 30 = BitVec.ofNat 64 (g.pc.toNat * 2 ^ 32 + cause * 2 ^ 16 + g.pc.toNat) ∧ (t.eng e).pc = 4 ∧
         MonitorOnly (s.trapped e g cause) t
     enters (0xC0 + n.toNat) (exec (.trap e n) s) ∧ (decodeUmmus e w = none → enters 0x01 (exec (.illegal e w) s))) ∧
  (∀ (s : State) (e : Nat) (n : BitVec 6), s.ready e = true → 4 ≤ (s.eng e).pc.toNat → (s.eng e).pc.toNat ≤ 0xFF →
     ∃ t, exec (.trap e n) s = .next t ∧ t.run (e / 4) B.ENG (e % 4) = 3 ∧
       t.rf (F.BLOCK.FSTATE_FAULT_CODE B.ENG) (e / 4) (e % 4) = 0x10 ∧
       t.flag (F.BLOCK.CFLAGS_FAULT_SEEN B.ENG) (e / 4) (e % 4) = true ∧ (t.eng e).core = (s.eng e).core) ∧
  (∀ (s : State) (e : Nat) (h : HeldTrap) (r : List HeldTrap), s.ready e = true → inTrapRegion (s.eng e).pc = false →
     (s.eng e).held = h :: r →
     ∃ t, exec (.nop e) s = .next t ∧ (t.eng e).held = r ∧ (t.eng e).pc = 4 ∧
       (t.eng e).rv 30 = BitVec.ofNat 64
         (((s.eng e).pc + 4).toNat * 2 ^ 32 + 2 ^ 24 + h.cause % 256 * 2 ^ 16 + h.pc.toNat) ∧
       t.rf F.ENG.STATUS_TRAP_CAUSE (e / 4) (e % 4) = h.cause % 256 ∧
       t.rf F.ENG.STATUS_LAST_PC (e / 4) (e % 4) = (s.eng e).pc.toNat)

/-! ## WAIT (R74, R118, R119) -/

/-- R75, R118, R119: WAIT and WAIT.T put the EVMAP entries written before them in force, return pending lines of their mask at
once and clear them and TO; with the deadline reached and no line they write zero and set TO; else they wait, until the
occurrence or the deadline ends the wait the same way. R119: a WAIT in progress ends with a selected line, which clears it
and TO, or at its deadline with TO set; a line that is pending when the deadline is reached is returned. -/
def Obligations.WaitInstructions : Prop :=
  (∀ (s : State) (e : Nat) (rd a b : Reg) (tb : TReg), s.calm e = true →
     let g := s.eng e
     let mask := g.rv a
     let ns := (g.rv b).toNat
     let returns (o : Out) : Prop :=
       ∃ t, o = .next t ∧ MonitorOnly (s.retired e
         { g.wv rd (g.pending &&& mask) with
           pending := g.pending &&& ~~~mask, flags := { g.flags with tmo := false }, evLive := g.evmap } (g.pc + 4)) t ∧
         (s.inRun (e / 4) B.PERF 0 = false → (s.perf (e / 4)).instr = none → (t.eng e).pending = g.pending &&& ~~~mask)
     let expires (o : Out) : Prop :=
       ∃ t, o = .next t ∧ MonitorOnly (s.retired e
         { g.wv rd 0 with flags := { g.flags with tmo := true }, evLive := g.evmap } (g.pc + 4)) t
     let waits (h : Hold) (o : Out) : Prop := o = .next (s.setEng e { g with hold := h, evLive := g.evmap })
     (g.pending &&& mask ≠ 0 → returns (exec (.wait e rd a b) s) ∧ returns (exec (.waitT e rd a tb) s)) ∧
     (g.pending &&& mask = 0 →
       (ns = 0 → expires (exec (.wait e rd a b) s)) ∧
       (XT.units (g.rt tb) ≤ s.now (e / 4) → expires (exec (.waitT e rd a tb) s)) ∧
       (ns = 2 ^ 64 - 1 → waits (.waitTick rd mask none) (exec (.wait e rd a b) s)) ∧
       (0 < ns → ns < 2 ^ 64 - 1 →
         waits (.waitTick rd mask (some (s.tick (e / 4) + (ns * 5 + 7) / 8))) (exec (.wait e rd a b) s)) ∧
       (s.now (e / 4) < XT.units (g.rt tb) →
         waits (.waitTime rd mask (XT.units (g.rt tb))) (exec (.waitT e rd a tb) s)))) ∧
  (∀ (s : State) (e : Nat) (rd : Reg) (mask : Word) (dl : Nat), e < Config.nEngines s.part → (s.eng e).held = [] →
     ((s.eng e).hold = .waitTick rd mask (some dl) ∨ (s.eng e).hold = .waitTime rd mask dl) →
     let g := s.eng e
     let hit (o : Out) : Prop :=
       ∃ t, o = .next t ∧ MonitorOnly (s.retired e
         { g.wv rd (g.pending &&& mask) with pending := g.pending &&& ~~~mask, flags := { g.flags with tmo := false } }
         (g.pc + 4)) t
     let late : Prop := if g.hold = .waitTick rd mask (some dl) then dl ≤ s.tick (e / 4) else dl ≤ s.now (e / 4)
     (g.pending &&& mask ≠ 0 → hit (exec (.waitHit e) s) ∧ hit (exec (.waitTimeout e) s)) ∧
     (g.pending &&& mask = 0 → late →
       ∃ t, exec (.waitTimeout e) s = .next t ∧
         MonitorOnly (s.retired e { g.wv rd 0 with flags := { g.flags with tmo := true } } (g.pc + 4)) t))

/-! ## Posted and blocking accesses (R100, R104, R105, R112, R127, R128) -/

/-- R43, R77, R100, R104, R112: a function-space store and FN.STOP to another instance post their access and complete, and with
eight outstanding stay where they are (log entry 16); a load and the blocking instructions hold the engine until the response
arrives. An access offered to a link that is down has failed with FN_UNREACH at once. That FN.START and FN.STOP are noted for
R77 at issue is the model's reading (log entry 17). -/
def Obligations.AccessesIssue : Prop :=
  ∀ (s : State) (e : Nat) (rd a b : Reg) (td : TReg) (imm : Imm16), s.calm e = true →
    let g := s.eng e
    let fa := (g.rv a + imm.signExtend 64).toNat % 2 ^ 40
    let ia := (g.rv a).toNat % 2 ^ 40 / 2 ^ 20 * 2 ^ 20
    let there (x : Nat) : Prop := s.has (faDie x) (faBlk x) (faInst x) = true
    let up (x : Nat) : Bool := s.linkUp (e / 4) (faDie x)
    let posts (u : State) (x width data : Nat) (o : Out) : Prop :=
      ∃ t, o = .next t ∧
        MonitorOnly (u.retired e { g with posted := g.posted ++ [⟨g.pc, x, width, data, if up x then none else some 0x09⟩] } (g.pc + 4)) t
    let holds (u : State) (op : BlockOp) (x : Nat) (o : Out) : Prop :=
      ∃ t, o = .next t ∧ MonitorOnly
        (u.setEng e { g with hold := .access op x (if up x then none else some ⟨0x09, 0⟩), calls := g.calls + 1 }) t
    let noted (x : Nat) : State :=
      { s with lastFn := Store.put 0 s.lastFn (instKey (faDie x) (faBlk x) (faInst x)) (e + 1) }
    (there fa → g.posted.length < 8 →
      posts s fa 32 ((g.rv rd).toNat % 2 ^ 32) (exec (.fst32 e rd a imm) s) ∧
      posts s fa 64 (g.rv rd).toNat (exec (.fst64 e rd a imm) s) ∧
      posts s fa 128 (g.rt td).toNat (exec (.fstt e td a imm) s)) ∧
    (there fa →
      holds s (.fld 32 rd) fa (exec (.fld32 e rd a imm) s) ∧ holds s (.fld 64 rd) fa (exec (.fld64 e rd a imm) s) ∧
      holds s (.fldt td) fa (exec (.fldt e td a imm) s)) ∧
    (there ia → g.posted.length < 8 → ¬ (faDie ia = e / 4 ∧ faBlk ia = B.ENG ∧ faInst ia = e % 4) →
      posts (noted ia) ia 0 0 (exec (.fnStop e a) s)) ∧
    (there ia → holds (noted ia) (.fnStart rd) ia (exec (.fnStart e rd a) s) ∧
      holds s (.fnStat rd) ia (exec (.fnStat e rd a) s)) ∧
    (there ia → faBlk ia = B.L2T → (g.rv b).toNat < 2 ^ 60 →
      holds s (.srch rd (g.rv b)) ia (exec (.tblSrch e rd a b) s)) ∧
    (there ia → faBlk ia = B.L2T → rd.toNat % 4 = 0 → rd ≠ 0 → (g.rv b).toNat ≤ 262143 →
      holds s (.tnext rd (g.rv b)) ia (exec (.tblNext e rd a b) s)) ∧
    (8 ≤ g.posted.length →
      exec (.fst32 e rd a imm) s = .next s ∧ exec (.fst64 e rd a imm) s = .next s ∧ exec (.fstt e td a imm) s = .next s ∧
      (¬ (faDie ia = e / 4 ∧ faBlk ia = B.ENG ∧ faInst ia = e % 4) → exec (.fnStop e a) s = .next s))

/-- R63, R105: an access to an absent instance traps precisely with FN_ABSENT, and a load writes zero, which other instructions
leave alone (the model's reading, log entry 18). Rows 3 to 6 rank FN_UNREACH, PV, FN_ALIGN and FN_WIDTH at the target (which
reads row 4 lets partition 0 make is log entry 76), and a load that fails there writes zero and traps precisely, with PV set
in row 4. R109, R122, R124, R125, R132: operands of SEND, RECV, MBX and the table instructions that their rules forbid trap
precisely with the cause the rules give, SEND to a destination of another partition with PV set. That RECV judges range,
alignment and rs2 in this order is the model's reading (log entry 22). -/
def Obligations.OperandAndAbsenceTraps : Prop :=
  (∀ (s : State) (e : Nat) (rd a b : Reg) (td : TReg) (imm : Imm16), s.ready e = true → inTrapRegion (s.eng e).pc = false →
     let g := s.eng e
     let fa := (g.rv a + imm.signExtend 64).toNat % 2 ^ 40
     let ia := (g.rv a).toNat % 2 ^ 40 / 2 ^ 20 * 2 ^ 20
     let gone (x : Nat) : Prop := s.has (faDie x) (faBlk x) (faInst x) = false
     let traps (h : Engine) (o : Out) : Prop := ∃ t, o = .next t ∧ MonitorOnly (s.trapped e h 0x08) t
     (gone fa → traps (g.wv rd 0) (exec (.fld32 e rd a imm) s) ∧ traps (g.wv rd 0) (exec (.fld64 e rd a imm) s) ∧
       traps (g.wt td 0) (exec (.fldt e td a imm) s)) ∧
     (gone fa → g.posted.length < 8 → traps g (exec (.fst32 e rd a imm) s) ∧ traps g (exec (.fst64 e rd a imm) s) ∧
       traps g (exec (.fstt e td a imm) s)) ∧
     (gone ia → traps g (exec (.fnStart e rd a) s) ∧ traps g (exec (.fnStat e rd a) s) ∧
       traps g (exec (.tblSrch e rd a b) s) ∧ traps g (exec (.tblNext e rd a b) s)) ∧
     (gone ia → g.posted.length < 8 → traps g (exec (.fnStop e a) s)) ∧
     (gone ia → s.behind e ia = false → traps g (exec (.tblFlush e rd a b) s) ∧ traps g (exec (.tblCmd e rd a b) s)) ∧
     (∀ (e x width : Nat) (ro : Bool), s.accessCause e x width ro =
       if s.linkUp (e / 4) (faDie x) = false then 0x09
       else if s.owner (faDie x) (faBlk x) (faInst x) ≠ s.engPart e ∧ ¬ (ro = true ∧ s.engPart e = 0) then 0x0A
       else if faOff x % (width / 8) ≠ 0 then 0x0B
       else if widthBad s.part x width = true then 0x0C else 0) ∧
     (∀ (x : Nat) (op : BlockOp), op ∈ [.fld 32 rd, .fld 64 rd, .fldt td] →
       let u := s.setEng e { g with hold := .access op x none }
       let n := if op = .fld 32 rd then 32 else if op = .fld 64 rd then 64 else 128
       let z := if op = .fldt td then g.wt td 0 else g.wv rd 0
       let c := u.accessCause e x n (readOnly s.part x n)
       let h : Engine := if c = 0x0A then { z with flags := { z.flags with pv := true } } else z
       s.behind e x = false → c ≠ 0 → ∃ t, exec (.functionResponseArrive e) u = .next t ∧ MonitorOnly (u.trapped e h c) t)) ∧
  (∀ (s : State) (e : Nat) (rd a b : Reg) (imm : Imm16), s.calm e = true → inTrapRegion (s.eng e).pc = false →
     let g := s.eng e
     let m := (g.rv a).toNat
     let w := g.rv b
     let n := imm.toNat
     let len := w.toNat % 2 ^ 14
     let ia := (g.rv a).toNat % 2 ^ 40 / 2 ^ 20 * 2 ^ 20
     let traps (cause : Nat) (o : Out) : Prop := ∃ t, o = .next t ∧ MonitorOnly (s.trapped e g cause) t
     (0x10000 < m + len → traps 0x02 (exec (.send e a b) s)) ∧
     (m + len ≤ 0x10000 → m % 8 ≠ 0 → traps 0x03 (exec (.send e a b) s)) ∧
     (m + len ≤ 0x10000 → m % 8 = 0 → len < 60 ∨ 15996 < len ∨ w.toNat / 2 ^ 62 = 3 ∨ w.toNat / 2 ^ 14 % 2 ^ 18 ≠ 0 →
       traps 0x10 (exec (.send e a b) s)) ∧
     (0x10000 < m + w.toNat → traps 0x02 (exec (.recv e rd a b) s)) ∧
     (m + w.toNat ≤ 0x10000 → m % 16 ≠ 0 → traps 0x03 (exec (.recv e rd a b) s)) ∧
     (m + w.toNat ≤ 0x10000 → m % 16 = 0 → w.toNat < 32 → traps 0x10 (exec (.recv e rd a b) s)) ∧
     (0x10000 < m + n → traps 0x02 (exec (.mbx e rd a imm) s)) ∧
     (m + n ≤ 0x10000 → m % 8 ≠ 0 → traps 0x03 (exec (.mbx e rd a imm) s)) ∧
     (m + n ≤ 0x10000 → m % 8 = 0 → n < 8 ∨ 256 < n ∨ n % 8 ≠ 0 → traps 0x10 (exec (.mbx e rd a imm) s)) ∧
     (s.sendCause e m w = 0x0A → ∃ t, exec (.send e a b) s = .next t ∧
       MonitorOnly (s.trapped e { g with flags := { g.flags with pv := true } } 0x0A) t) ∧
     (s.has (faDie ia) (faBlk ia) (faInst ia) = true → faBlk ia ≠ B.L2T ∨ 2 ^ 60 ≤ w.toNat →
       traps 0x11 (exec (.tblSrch e rd a b) s)) ∧
     (s.has (faDie ia) (faBlk ia) (faInst ia) = true → faBlk ia ≠ B.L2T ∨ rd.toNat % 4 ≠ 0 ∨ rd = 0 ∨ 262143 < w.toNat →
       traps 0x11 (exec (.tblNext e rd a b) s)) ∧
     (s.has (faDie ia) (faBlk ia) (faInst ia) = true → s.behind e ia = false →
       faBlk ia ≠ B.L2T ∨ 2 ^ 9 ≤ w.toNat ∨ s.portExists (w.toNat % 256) = false → traps 0x11 (exec (.tblFlush e rd a b) s)) ∧
     (s.has (faDie ia) (faBlk ia) (faInst ia) = true → s.behind e ia = false →
       (faBlk ia ≠ B.LPM ∧ faBlk ia ≠ B.MCG) ∨ 0x10000 - 64 < w.toNat ∨ w.toNat % 16 ≠ 0 →
       traps 0x11 (exec (.tblCmd e rd a b) s)))

/-- R113, R127, R128: FENCE and HALT with nothing outstanding complete at once, HALT by taking the engine to STOPPED with
LAST_PC its own address, as does FN.STOP to the engine's own instance; else they wait. That a HALT that waits has changed nothing
but what it waits for, its cycle being the one in which it ends, is the model's choice (log entry 67). -/
def Obligations.FenceAndHalt : Prop :=
  ∀ (s : State) (e : Nat) (a : Reg), s.calm e = true →
    let g := s.eng e
    let halts (o : Out) : Prop :=
      ∃ t, o = .next t ∧ t.run (e / 4) B.ENG (e % 4) = 0 ∧ t.rf F.ENG.STATUS_LAST_PC (e / 4) (e % 4) = g.pc.toNat ∧
        (t.eng e).core = { g.core with lastDone := g.pc }
    (g.posted = [] → ∃ t, exec (.fence e) s = .next t ∧ MonitorOnly (s.retired e g (g.pc + 4)) t) ∧
    (g.posted ≠ [] → ∃ t, exec (.fence e) s = .next t ∧ MonitorOnly (s.setEng e { g with hold := .fence }) t) ∧
    (g.posted = [] → halts (exec (.halt e) s)) ∧
    (g.posted = [] → faDie (g.rv a).toNat = e / 4 → faBlk (g.rv a).toNat = B.ENG → faInst (g.rv a).toNat = e % 4 →
      halts (exec (.fnStop e a) s)) ∧
    (g.posted ≠ [] → exec (.halt e) s = .next (s.setEng e { g with hold := .halt }))

/-- R100, R105, R127: an acknowledgement frees its posted entry; the last one that a FENCE awaits completes it. R129 to R131,
R502: a failed one is an imprecise trap, taken at once where no access or SEND holds the engine outside the trap region,
else held; with the engine stopped its cause is recorded alone. That PV is set with the acknowledgement is the model's
choice (log entry 104). R105, R109, R110, R112: the response to a blocking access writes the destination and completes the
instruction; a failure is a precise trap, with PV set for cause 0x0A and zero in a load's destination; that other
instructions keep theirs is the model's reading (log entry 18). -/
def Obligations.AcknowledgementsAndResponses : Prop :=
  (∀ (s : State) (e : Nat) (p : Posted) (r : List Posted), e < Config.nEngines s.part → (s.eng e).posted = p :: r →
     p.result = some 0 → (s.eng e).held = [] →
     let g := s.eng e
     (g.hold = .none → exec (.postedAckArrive e 0) s = .next (s.setEng e { g with posted := r })) ∧
     (g.hold = .fence → r ≠ [] → exec (.postedAckArrive e 0) s = .next (s.setEng e { g with posted := r })) ∧
     (g.hold = .fence → r = [] → ∃ t, exec (.postedAckArrive e 0) s = .next t ∧
       MonitorOnly (s.retired e { g with posted := [] } (g.pc + 4)) t) ∧
     (∀ c, 0 < c → c < 256 →
       let u := s.setEng e { g with posted := { p with result := some c } :: r }
       let h : Engine := if c = 0x0A then { g with posted := r, flags := { g.flags with pv := true } } else { g with posted := r }
       let acks (t : State) : Prop := exec (.postedAckArrive e 0) u = .next t
       let pauses : Bool := match g.hold with
         | .access _ _ _ => true | .send _ _ => true | _ => false
       (s.run (e / 4) B.ENG (e % 4) = 1 → inTrapRegion g.pc = false → pauses = false →
         ∃ t, acks t ∧ (t.eng e).rv 30 = BitVec.ofNat 64 (g.pc.toNat * 2 ^ 32 + 2 ^ 24 + c * 2 ^ 16 + p.pc.toNat) ∧
           (t.eng e).pc = 4 ∧ (t.eng e).hold = .none ∧ (t.eng e).flags = h.flags ∧ (t.eng e).posted = r ∧
           t.rf F.ENG.STATUS_TRAP_CAUSE (e / 4) (e % 4) = c ∧ t.rf F.ENG.STATUS_LAST_PC (e / 4) (e % 4) = g.lastDone.toNat) ∧
       (s.run (e / 4) B.ENG (e % 4) = 1 → inTrapRegion g.pc = true ∨ pauses = true → g.hold ≠ .fence → g.hold ≠ .halt →
         ∃ t, acks t ∧ MonitorOnly (s.setEng e { h with held := [⟨c, p.pc⟩] }) t) ∧
       (s.run (e / 4) B.ENG (e % 4) = 0 ∨ s.run (e / 4) B.ENG (e % 4) = 2 → g.hold ≠ .fence → g.hold ≠ .halt →
         ∃ t, acks t ∧ (t.eng e).posted = r ∧ (t.eng e).held = [] ∧ (t.eng e).core = g.core ∧
           t.rf F.ENG.STATUS_TRAP_CAUSE (e / 4) (e % 4) = c))) ∧
  (∀ (s : State) (e addr v c w : Nat) (rd : Reg) (td : TReg), e < Config.nEngines s.part → (s.eng e).held = [] →
     let g := s.eng e
     let arrives : Out := exec (.functionResponseArrive e) s
     let done (h : Engine) : Prop := ∃ t, arrives = .next t ∧ MonitorOnly (s.retired e h (g.pc + 4)) t
     (g.hold = .access (.fld w rd) addr (some ⟨0, v⟩) → done (g.wv rd (BitVec.ofNat 64 v))) ∧
     (g.hold = .access (.fldt td) addr (some ⟨0, v⟩) → done (g.wt td (BitVec.ofNat 128 v))) ∧
     (g.hold = .access (.fnStat rd) addr (some ⟨0, v⟩) → done (g.wv rd (BitVec.ofNat 64 v))) ∧
     (g.hold = .access (.fnStart rd) addr (some ⟨0, v⟩) →
       done { g.wv rd (BitVec.ofNat 64 v) with flags := { g.flags with z := v == 0 } }) ∧
     (∀ key, g.hold = .access (.srch rd key) addr (some ⟨0, v⟩) →
       done { g.wv rd (BitVec.ofNat 64 v) with flags := { g.flags with z := v == 0 } }) ∧
     (∀ cursor : Word, g.hold = .access (.tnext rd cursor) addr (some ⟨0, v⟩) →
       (∀ slot key word, (s.l2Bank (faDie addr)).nextUsed cursor.toNat = some (slot, key, word) →
         done { ((g.wv rd (BitVec.ofNat 64 key)).wv (rd + 1) (BitVec.ofNat 64 word)).wv (rd + 2) (BitVec.ofNat 64 slot) with
           flags := { g.flags with z := false } }) ∧
       ((s.l2Bank (faDie addr)).nextUsed cursor.toNat = none →
         done { ((g.wv rd 0).wv (rd + 1) 0).wv (rd + 2) 262144 with flags := { g.flags with z := true } })) ∧
     (∀ arg, g.hold = .access (.flush rd arg) addr (some ⟨0, v⟩) → done (g.wv rd (BitVec.ofNat 64 v))) ∧
     (∀ m, g.hold = .access (.tcmd rd m) addr (some ⟨0, v⟩) →
       (v = 0xFF → done { g.wv rd 0xFF with flags := { g.flags with z := false } }) ∧
       (v ≠ 0xFF → done { (g.dmemWrite m g.block).wv rd (BitVec.ofNat 64 v) with flags := { g.flags with z := v == 0 } })) ∧
     (∀ op, g.hold = .access op addr (some ⟨c, v⟩) → 0 < c → c < 256 → s.inRun (e / 4) B.ENG (e % 4) = true →
       inTrapRegion g.pc = false →
       let z : Engine := match op with
         | .fld _ r => g.wv r 0 | .fldt r => g.wt r 0 | _ => g
       let h : Engine := if c = 0x0A then { z with flags := { z.flags with pv := true } } else z
       ∃ t, arrives = .next t ∧ MonitorOnly (s.trapped e h c) t))

/-! ## Event lines, registers by address, tables and frames of an engine (R73 to R77, R21, R498, R109 to R111, R121 to R125) -/

/-- R73, R77, R500: an occurrence sets the pending bit of every line of its own die that it drives, goes by message to a die
whose link is up, and is lost with EVT_LOST_SEEN where the link is down; a message sets its line. With no link down no other
line is set. That the line operand stands for the fixed sources of lines 58 to 63 is the model's reading (log entry 21). -/
def Obligations.EventLines : Prop :=
  ∀ (s : State) (e line die blk inst ev : Nat),
    let set (e l : Nat) (s : State) : State :=
      s.setEng e { s.eng e with pending := (s.eng e).pending ||| (1#64 <<< l) }
    let drives (x l : Nat) : Prop := (x, l) ∈ s.drives die blk inst ev
    (e < Config.nEngines s.part → 58 ≤ line → line < 64 → s.resets.asserted = false →
      exec (.eventOccurrence (.line e line)) s = .next (set e line s)) ∧
    (s.has die blk inst = true → s.resets.asserted = false → ev < 64 →
      ∃ t, exec (.eventOccurrence (.block die blk inst ev)) s = .next t ∧ EventOnly s t ∧
        (∀ x l, drives x l → l < 64 → x / 4 = die → (t.eng x).pending.getLsbD l = true) ∧
        (∀ x l, drives x l → x / 4 ≠ die → s.linkUp die (x / 4) = true → ⟨die, x / 4, .event x l⟩ ∈ t.msgs) ∧
        (∀ x l, drives x l → x / 4 ≠ die → s.linkUp die (x / 4) = false →
          t.flag F.MESH.ERR_EVT_LOST_SEEN die (x / 4) = true) ∧
        ((∀ x l, drives x l → s.linkUp die (x / 4) = true) → ∀ x l, l < 64 → (t.eng x).pending.getLsbD l = true →
          (s.eng x).pending.getLsbD l = true ∨ (x / 4 = die ∧ drives x l))) ∧
    (∀ (src : Nat) (a b : List CtlMsg), e < Config.nEngines s.part → s.msgs = a ++ ⟨src, e / 4, .event e line⟩ :: b →
      (∀ m ∈ a, ¬ (m.dst = e / 4 ∧ m.body = .event e line)) →
      exec (.eventMessageArrive e line) s = .next (set e line { s with msgs := a ++ b }))

/-- R76, R77: a write of EVMAP_k is stored, or refused with EVMAP_REF where it enables an absent or foreign source; a write of
SIGNAL stores the word and sets line 62. -/
def Obligations.EngineRegisterWrites : Prop :=
  ∀ (s : State) (b e k : Nat) (data : Word32),
    let a := mkFa (e / 4) B.ENG (e % 4) (0x100 + 4 * k)
    let sig := mkFa (e / 4) B.ENG (e % 4) 0x0C
    let d := data.toNat
    let q : EvEntry := { en := data.getLsbD 31, die := d / 2 ^ 28 % 8, blk := d / 2 ^ 20 % 256, inst := d / 2 ^ 11 % 512, event := d / 2 ^ 5 % 64 }
    let mayMap : Prop := s.has q.die q.blk q.inst = true ∧ s.ownerAt (e / 4) q.die q.blk q.inst = s.engPart e
    let lands (a : Nat) (o : Out) (u : State) : Prop := o = .next (u.judged b a 32 d 0)
    (k < 56 → s.grantsWrite b a 32 d = true → (q.en = true → mayMap) →
      lands a (exec (.evmapWrite b e k data) s)
        (s.setEng e { s.eng e with evmap := Store.put {} (s.eng e).evmap k q })) ∧
    (k < 56 → s.grantsWrite b a 32 d = true → q.en = true → ¬ mayMap →
      lands a (exec (.evmapWrite b e k data) s) (s.setFlag F.ENG.ERR_EVMAP_REF (e / 4) (e % 4))) ∧
    (s.grantsWrite b sig 32 d = true → ∃ u : State, lands sig (exec (.engSignalWrite b e data) s) u ∧
      u.rf F.ENG.SIGNAL_WORD (e / 4) (e % 4) = d ∧
      (u.eng e).pending = (s.eng e).pending ||| (1#64 <<< 62) ∧ RegsOnly [(F.ENG.SIGNAL_WORD, e / 4, e % 4)] s u)

/-- R21, R59, R61: a write of a whole register of 32, 64 or 128 bits without a row of its own acts by the access type of each of
its fields; a write of an RW-S field outside STOPPED is ignored and sets SWR_IGN, as is one to an engine's IMEM window; a
write to its DMEM window is made in any run state. A host's write of its inbound mailbox stores the bytes. That a register's
RW-L fields take a write whose RW-S fields are ignored is the model's reading (log entry 25), and what a write of part of a
DMEM word does to its ECC log entry 104. R21, R59, R498: a read of a whole register of 32, 64 or 128 bits gives its fields'
values to the engine that waits, and clears its RC fields alone; a read of an engine's IMEM or DMEM window gives the bytes,
lowest first, and that of DMEM corrects and flags a single-bit error. A host's read of its outbound mailbox gives the bytes. -/
def Obligations.RegistersByAccessType : Prop :=
  (∀ (s : State) (e a data n : Nat), n = 4 ∨ n = 8 ∨ n = 16 →
     let die := faDie a
     let blk := faBlk a
     let inst := faInst a
     let fs := fieldsAt s.part die blk inst (faOff a) n
     let x := 4 * die + inst
     let o := faOff a
     let out : Out := exec (.registerWrite (.engine e) a (8 * n) data) s
     (s.grantsWrite e a (8 * n) data = true → data < 2 ^ (8 * n) → o < 0xFFF00 → inWindow die blk o = false → fs ≠ [] →
       ¬ (die = 0 ∧ blk = B.SYS ∧ o ≤ 0x14 ∧ 0x14 < o + n) →
       (∀ x hi, s.wrTrigger (some e) die blk inst o x hi = none) →
       (∀ f ∈ fs, f.blk = blk ∧ f.off = o ∧ f.regw = 8 * n ∧ f.lo + f.w ≤ 8 * n) → (fs.map (·.lo)).Nodup →
       ∃ u : State, out = .next (u.judged e a (8 * n) data 0) ∧
         (∀ f ∈ fs, ∀ i, i < f.w → (u.rf f die inst).testBit i =
           match f.acc with
           | .rwL => data.testBit (f.lo + i)
           | .rwS => if s.run die blk inst = 0 then data.testBit (f.lo + i) else (s.rf f die inst).testBit i
           | .w1c => (s.rf f die inst).testBit i && !data.testBit (f.lo + i)
           | _ => (s.rf f die inst).testBit i) ∧
         ((∃ f ∈ fs, f.acc = .rwS) → s.run die blk inst ≠ 0 → u.flag (F.BLOCK.CFLAGS_SWR_IGN blk) die inst = true)) ∧
     (s.grantsWrite e a (8 * n) data = true → blk = B.ENG → 0x10000 ≤ o → o < 0x20000 →
       (s.run die blk inst = 0 → ∃ u : State, out = .next (u.judged e a (8 * n) data 0) ∧
         ∀ i, Store.get 0 (u.eng x).imem i = if o - 0x10000 ≤ i ∧ i < o - 0x10000 + n then
           BitVec.ofNat 8 (data / 256 ^ (i - (o - 0x10000))) else Store.get 0 (s.eng x).imem i) ∧
       (s.run die blk inst ≠ 0 → out = .next ((s.setFlag (F.BLOCK.CFLAGS_SWR_IGN B.ENG) die inst).judged e a (8 * n) data 0))) ∧
     (s.grantsWrite e a (8 * n) data = true → blk = B.ENG → 0x20000 ≤ o → o < 0x30000 →
       ∃ u : State, out = .next (u.judged e a (8 * n) data 0) ∧
         (∀ i, Store.get 0 (u.eng x).dmem i = if o - 0x20000 ≤ i ∧ i < o - 0x20000 + n then
           BitVec.ofNat 8 (data / 256 ^ (i - (o - 0x20000))) else Store.get 0 (s.eng x).dmem i) ∧
         (n = 4 → (s.eng x).dmemSingle (o - 0x20000) 4 = true → u.flag F.ENG.ERR_DMEM_ECC_CORR die inst = true ∧
           Store.get .good (u.eng x).dmemEcc ((o - 0x20000) / 8) = .good)) ∧
     (∀ h i : Nat, h < Config.nHosts s.part → s.served h = true → s.resets.asserted = false → n = 4 ∨ n = 8 →
       i + n ≤ 4096 → ∃ t, exec (.registerWrite (.host h) (0x1000 + i) (8 * n) data) s = .next t ∧
         Store.getList 0 (t.host h).mbi i n = bytesLE n data ∧
         t = s.setHost h { s.host h with mbi := (t.host h).mbi })) ∧
  (∀ (s : State) (e a n : Nat) (op : BlockOp), n = 4 ∨ n = 8 ∨ n = 16 →
     let die := faDie a
     let blk := faBlk a
     let inst := faInst a
     let fs := fieldsAt s.part die blk inst (faOff a) n
     let x := 4 * die + inst
     let o := faOff a
     (s.grants e a (8 * n) = true → inWindow die blk o = false → fs ≠ [] → s.headTake die blk inst o = none →
       (∀ f ∈ fs, f.blk = blk ∧ f.off = o ∧ f.regw = 8 * n ∧ f.lo + f.w ≤ 8 * n) → (fs.map (·.lo)).Nodup →
       (s.eng e).hold = .access op a none →
       ∃ t, exec (.readClear (.engine e) a (8 * n)) s = .next t ∧
         (t.eng e).hold = .access op a (some ⟨0, (fs.map fun f => s.fieldVal f die inst * 2 ^ f.lo).sum % 2 ^ (8 * n)⟩) ∧
         (∀ f ∈ fs, f.acc = .rc → t.rf f die inst = f.rst s.part die inst % 2 ^ f.w) ∧
         (∀ f ∈ fs, f.acc ≠ .rc → t.rf f die inst = s.rf f die inst)) ∧
     (s.grants e a (8 * n) = true → blk = B.ENG → (s.eng e).hold = .access op a none →
       (0x10000 ≤ o → o < 0x20000 → ∃ t, exec (.readClear (.engine e) a (8 * n)) s = .next t ∧ (t.eng e).hold =
         .access op a (some ⟨0, leNat ((List.range n).map fun i => Store.get 0 (s.eng x).imem (o - 0x10000 + i))⟩)) ∧
       (0x20000 ≤ o → o < 0x30000 → ∃ t, exec (.readClear (.engine e) a (8 * n)) s = .next t ∧ (t.eng e).hold =
         .access op a (some ⟨0, leNat ((List.range n).map fun i => Store.get 0 (s.eng x).dmem (o - 0x20000 + i))⟩) ∧
         ((s.eng x).dmemSingle (o - 0x20000) n = true → t.flag F.ENG.ERR_DMEM_ECC_CORR die inst = true ∧
           (t.eng x).dmemSingle (o - 0x20000) n = false))) ∧
     (∀ h i : Nat, h < Config.nHosts s.part → s.served h = true → s.resets.asserted = false → n = 4 ∨ n = 8 →
       i + n ≤ 4096 → exec (.readClear (.host h) (0x2000 + i) (8 * n)) s =
         .next (s.setHost h { s.host h with rdata := leNat (Store.getList 0 (s.host h).mbo i n) })))

/-- R109 to R111, R353, R365: TBL.FLUSH sends its request to the order point on D0; TBL.CMD copies its block and takes the
command register, or is answered 0xFF while BUSY, or 0x01 for an illegal block. That the two wait behind the engine's earlier posted
accesses to the instance is log entry 16, and that 0x01 comes before every other status log entry 59. -/
def Obligations.TableRequests : Prop :=
  ∀ (s : State) (e : Nat) (rd a b : Reg), s.calm e = true →
    let g := s.eng e
    let ia := (g.rv a).toNat % 2 ^ 40 / 2 ^ 20 * 2 ^ 20
    let d := faDie ia
    let blk := faBlk ia
    let arg := g.rv b
    let m := arg.toNat
    let filled : TblState := { s.tbl d blk with blk := Store.putList 0 (s.tbl d blk).blk 0 (g.dmemBytes m 64) }
    let holds (t : State) (op : BlockOp) (r : Option Resp) : Prop := (t.eng e).hold = .access op ia r
    s.has d blk (faInst ia) = true → s.behind e ia = false → s.accessCause e ia 0 false = 0 →
    (blk = B.L2T → m < 2 ^ 9 → s.portExists (m % 256) = true → s.linkUp d 0 = true →
      ∃ t, exec (.tblFlush e rd a b) s = .next t ∧ holds t (.flush rd arg) none ∧
        ⟨d, 0, .l2Req ⟨d, some (e, g.calls + 1), .flush (m % 256) (arg.getLsbD 8)⟩⟩ ∈ t.msgs) ∧
    (blk = B.LPM ∨ blk = B.MCG → m ≤ 0x10000 - 64 → m % 16 = 0 → g.dmemDouble m 64 = false →
      (s.flag (fCmdBusy blk) d 0 = true →
        ∃ t, exec (.tblCmd e rd a b) s = .next t ∧ holds t (.tcmd rd m) (some ⟨0, 0xFF⟩) ∧ t.tbls = s.tbls) ∧
      (s.flag (fCmdBusy blk) d 0 = false → (filled.cmd blk).bad blk = true →
        ∃ t, exec (.tblCmd e rd a b) s = .next t ∧ holds t (.tcmd rd m) (some ⟨0, 0x01⟩) ∧
          t.flag (fCmdBusy blk) d 0 = false ∧ t.rf (fCmdStatus blk) d 0 = 0x01) ∧
      (s.flag (fCmdBusy blk) d 0 = false → (filled.cmd blk).bad blk = false →
        ∃ t, exec (.tblCmd e rd a b) s = .next t ∧ holds t (.tcmd rd m) none ∧ t.flag (fCmdBusy blk) d 0 = true ∧
          t.tbl d blk = { filled with eng := some (e, g.calls + 1), issued := filled.cmd blk } ∧
          (t.tblOrder blk).queue = (s.tblOrder blk).queue ++ (if (filled.cmd blk).op = 0x03 then [] else [d])))

/-- R121 to R125: SEND with good operands waits for its turn of injection; RECV takes the head of the receive queue into DMEM
behind its header, or sets Z on an empty queue; MBX answers 2 without its endpoint, 1 without a free slot, else 0 with the
message in the outbound queue. The model's readings: when RECV and SEND meet an ECC error (log entry 22), what the header shows
of a frame that came from no port (87), and that MBX answers 2 also where HOST is not the partition's or its die is out of reach
(24); which free slot is taken is free (23). -/
def Obligations.EngineMessages : Prop :=
  ∀ (s : State) (e : Nat) (rd a b : Reg) (imm : Imm16), s.calm e = true →
    let g := s.eng e
    let m := (g.rv a).toNat
    let cap := (g.rv b).toNat
    let n := imm.toNat
    let h := s.engPart e
    let answered (t : State) (x : Nat) : Prop :=
      (rd ≠ 0 → (t.eng e).rv rd = BitVec.ofNat 64 x) ∧ (t.eng e).flags = { g.flags with z := x == 0 } ∧
        (t.eng e).pc = g.pc + 4 ∧ (t.eng e).hold = .none
    (s.sendCause e m (g.rv b) = 0 →
      ∃ t, exec (.send e a b) s = .next t ∧ MonitorOnly (s.setEng e { g with hold := .send (g.rv b) m }) t) ∧
    (m + cap ≤ 0x10000 → m % 16 = 0 → 32 ≤ cap → g.rxq = [] →
      ∃ t, exec (.recv e rd a b) s = .next t ∧
        MonitorOnly (s.retired e { g.wv rd 0 with flags := { g.flags with z := true } } (g.pc + 4)) t) ∧
    (∀ (f : RxFrame) (r : List RxFrame), m + cap ≤ 0x10000 → m % 16 = 0 → 32 ≤ cap → g.rxq = f :: r →
      let trunc := decide (cap < 32 + f.bytes.length)
      let l := rxHeader f trunc ++ f.bytes.take (cap - 32)
      g.dmemDouble (m + l.length - l.length % 8) (l.length % 8) = false →
      ∃ t, exec (.recv e rd a b) s = .next t ∧ (t.eng e).dmemBytes m l.length = l ∧ (t.eng e).rxq = r ∧
        (rd ≠ 0 → (t.eng e).rv rd = BitVec.ofNat 64 f.bytes.length) ∧
        (t.eng e).flags = { g.flags with z := false } ∧ (t.eng e).pc = g.pc + 4) ∧
    (m + n ≤ 0x10000 → m % 8 = 0 → 8 ≤ n → n ≤ 256 → n % 8 = 0 → g.dmemDouble m n = false →
      (s.hostServes (e / 4) h = false → ∃ t, exec (.mbx e rd a imm) s = .next t ∧ answered t 2 ∧ t.hosts = s.hosts) ∧
      (s.hostServes (e / 4) h = true → (s.host h).mboFree = [] →
        ∃ t, exec (.mbx e rd a imm) s = .next t ∧ answered t 1 ∧ t.hosts = s.hosts) ∧
      (s.hostServes (e / 4) h = true → (s.host h).mboFree ≠ [] →
        ∃ t slot, exec (.mbx e rd a imm) s = .next t ∧ answered t 0 ∧ slot ∈ (s.host h).mboFree ∧
          (t.host h).mboQ = (s.host h).mboQ ++ [⟨slot, n, false, 0⟩] ∧
          (t.host h).mboUsed = (s.host h).mboUsed ++ [slot] ∧
          Store.getList 0 (t.host h).mbo (256 * slot) n = g.dmemBytes m n ∧ t.flag F.HBAR.IRQ_MBO_NEW h 0 = true))

/-! ## Ownership and policy (R68 to R72, R76) -/

/-- R70, R71: SYS.OWN_CMD from its write to its status: a SET is judged in the order of R70, sent to its target, which holds
what it names or refuses; D0 then changes its map and tells every die it reaches; a QUERY answers at once. STATUS 2 for a
block of a port group named alone, and acknowledgements that count when the entry is applied, are the model's reading (log
entry 29). R71, R72, R76: entries that reach a die become its copy, release its hold and disable EVMAP entries that map what
has changed its owner; a die whose link is up again takes D0's whole map (the first time too, log entry 29); a write of
SYS.POLICY reaches D0's copy at once and the other dies by message. -/
def Obligations.OwnershipOfInstances : Prop :=
  (∀ (s : State) (e d die blk inst part : Nat), die < 8 → blk < 256 → inst < 512 → part < 4 →
     let a := mkFa 0 B.SYS 0 0x10
     let word (op part : Nat) : Nat := op * 2 ^ 29 + die * 2 ^ 26 + blk * 2 ^ 18 + inst * 2 ^ 9 + part * 2 ^ 7
     let may (op part : Nat) : Prop := s.grantsWrite e a 32 (word op part) = true
     let lands (op part : Nat) (o : Out) (u : State) : Prop := o = .next (u.judged e a 32 (word op part) 0)
     let ends (u : State) (status : Nat) : Prop :=
       u.rf F.SYS.OWN_CMD_STATUS 0 0 = status ∧ u.flag F.SYS.OWN_CMD_BUSY 0 0 = false ∧ u.own = { s.own with phase := .idle }
     let code := if Config.nHosts s.part ≤ part then 4 else if s.ownHas die blk inst = false then 3
       else if s.mayGive die blk inst part = false then 2 else if s.linkUp 0 die = false then 5 else 0
     (s.flag F.SYS.OWN_CMD_BUSY 0 0 = false →
       (may 1 part → code = 0 → ∃ u : State, lands 1 part (exec (.ownCmdSet e die blk inst part) s) u ∧
         u.flag F.SYS.OWN_CMD_BUSY 0 0 = true ∧ u.own = { s.own with phase := .sent die blk inst part } ∧
         u.msgs = s.msgs ++ [⟨0, die, .ownHold blk inst part⟩]) ∧
       (may 1 part → code ≠ 0 → ∃ u : State, lands 1 part (exec (.ownCmdSet e die blk inst part) s) u ∧ ends u code ∧ u.msgs = s.msgs) ∧
       (may 2 0 → s.ownHas die blk inst = true → ∃ u : State, lands 2 0 (exec (.ownCmdQuery e die blk inst) s) u ∧ ends u 0 ∧
         u.rf F.SYS.OWN_CMD_PART 0 0 = s.ownOf die blk inst % 4) ∧
       (may 2 0 → s.ownHas die blk inst = false → ∃ u : State, lands 2 0 (exec (.ownCmdQuery e die blk inst) s) u ∧ ends u 3)) ∧
     (∀ (x : Nat) (l r : List CtlMsg), s.hasDie d = true → s.resets.asserted = false → s.own.resync.contains d = false →
       s.msgs = l ++ ⟨x, d, .ownHold blk inst part⟩ :: r → (∀ m ∈ l, ¬ (m.dst = d ∧ m.body.isOwnHold = true)) →
       exec (.ownHoldRequest d) s = .next
         { s with
           msgs := l ++ r ++ [⟨d, 0, .ownReply (s.ownStopped d blk inst)⟩]
           own := { s.own with holds := s.own.holds ++ (if s.ownStopped d blk inst then [⟨d, blk, inst⟩] else []) } }) ∧
     (∀ (x : Nat) (l r : List CtlMsg) (ok : Bool), s.own.phase = .sent die blk inst part →
       s.msgs = l ++ ⟨x, 0, .ownReply ok⟩ :: r → (∀ m ∈ l, ¬ (m.dst = 0 ∧ m.body.isOwnReply = true)) →
       (ok = false → ∃ t, exec .ownHoldReply s = .next t ∧ ends t 1) ∧
       (ok = true → ∃ t, exec .ownHoldReply s = .next t ∧
         (∀ y ∈ ownInsts blk inst, Store.get 0 t.own.map (instKey die y.1 y.2) = part) ∧
         (∀ k, (∀ y ∈ ownInsts blk inst, instKey die y.1 y.2 ≠ k) → Store.get 0 t.own.map k = Store.get 0 s.own.map k) ∧
         (∀ k, k < Config.nDies s.part → s.linkUp 0 k = true → ⟨0, k, .ownEntries die blk inst part⟩ ∈ t.msgs) ∧
         ∃ near missed, t.own.phase = .entries near missed ∧
           (∀ k, k ∈ near ↔ k < Config.nDies s.part ∧ s.linkUp 0 k = true) ∧
           (missed = true ↔ ∃ k, k < Config.nDies s.part ∧ s.linkUp 0 k = false))) ∧
     (∀ missed, s.own.phase = .entries [] missed →
       ∃ t, exec .ownCmdComplete s = .next t ∧ ends t (if missed then 6 else 0))) ∧
  (∀ (s : State) (e d die blk inst part v x : Nat) (data : Word32) (l r : List CtlMsg), s.resets.asserted = false →
     let a := mkFa 0 B.SYS 0 0x14
     let own (y : Nat × Nat) : Nat := instKey die y.1 y.2
     (s.hasDie d = true → s.own.resync.contains d = false →
       s.msgs = l ++ ⟨x, d, .ownEntries die blk inst part⟩ :: r → (∀ m ∈ l, ¬ (m.dst = d ∧ m.body.isOwnEntries = true)) →
       ∃ t, exec (.ownEntriesApply d) s = .next t ∧
         (∀ y ∈ ownInsts blk inst, t.ownerAt d die y.1 y.2 = part) ∧
         (∀ k, (∀ y ∈ ownInsts blk inst, own y ≠ k) →
           Store.get 0 (Store.get [] t.own.copies d) k = Store.get 0 (Store.get [] s.own.copies d) k) ∧
         (∀ e y, e / 4 = d → y ∈ ownInsts blk inst → s.ownerAt d die y.1 y.2 ≠ part →
           ∀ q ∈ (t.eng e).evmap, q.2.en = true → ¬ (q.2.die = die ∧ q.2.blk = y.1 ∧ q.2.inst = y.2)) ∧
         (∀ h ∈ t.own.holds, h ∈ s.own.holds ∧ ¬ (d = die ∧ h = ⟨die, blk, inst⟩)) ∧
         t.own.phase = s.own.phase.drop d false) ∧
     (s.hasDie d = true → s.own.resync.contains d = true → s.linkUp 0 d = true →
       ∃ t, exec (.ownResync d) s = .next t ∧ Store.get [] t.own.copies d = s.own.map ∧
         Store.get 0x8421 t.own.policy d = Store.get 0x8421 s.own.policy 0 ∧ (∀ h ∈ t.own.holds, h.die ≠ d) ∧
         t.own.resync.contains d = false) ∧
     (s.grantsWrite e a 32 data.toNat = true →
       ∃ t, exec (.policyWrite e data) s = .next t ∧ t.rf F.SYS.POLICY_ALLOW 0 0 = data.toNat % 2 ^ 16 ∧
         Store.get 0x8421 t.own.policy 0 = data.toNat % 2 ^ 16 ∧
         (∀ k, 0 < k → k < Config.nDies s.part → s.linkUp 0 k = true → ⟨0, k, .policy (data.toNat % 2 ^ 16)⟩ ∈ t.msgs)) ∧
     (s.hasDie d = true → s.own.resync.contains d = false → s.msgs = l ++ ⟨x, d, .policy v⟩ :: r →
       (∀ m ∈ l, ¬ (m.dst = d ∧ m.body.isPolicy = true)) →
       ∃ t, exec (.policyCopyApply d) s = .next t ∧ Store.get 0x8421 t.own.policy d = v ∧ t.msgs = l ++ r))

/-! ## Run states (R78 to R84) -/

/-- R79 to R81, R112: a start is refused with the lowest failing code, START_REFUSED and START_ERR, and nothing else changes;
an accepted one takes the instance to RUN with its RW-S values in force and its error codes cleared, and does what its
block does then; the leader's RIDGE waits for its apply tick; a start in RUN and a stop in STOPPED change nothing; a stop
takes RUN to STOPPING and FAULT to STOPPED. R210, R227, R237, R312, R337, R383, R392, R446, R457, R470: the rules that a start of each
block checks (those of LINK, SUMMIT, MIRR, PRP and CAL as their chapters list them), the lowest code that fails. The order FAULT,
STOPPING, 0x03, 0x10 and block codes is the model's reading (log entry 30); FMT codes 6 and 7 that pass are log entry 89. -/
def Obligations.RunStateRequests : Prop :=
  ∀ (s : State) (die blk inst : Nat), s.has die blk inst = true → s.resets.asserted = false → blk ≠ B.SYS → blk ≠ B.SEC →
    let start : Out := exec (.runStateRequestArrive none die blk inst .start) s
    let stop : Out := exec (.runStateRequestArrive none die blk inst .stop) s
    let run := s.run die blk inst
    let rf (t : State) (f : Nat → Fld) : Nat := t.rf (f blk) die inst
    let code := if run = 3 then 0x02 else if run = 2 then 0x01 else if s.ownHeld die blk inst = true then 0x03
      else if blk = B.ENG ∧ s.loaderHolds (4 * die + inst) = true then 0x10 else s.blockStartErr die blk inst
    (run = 1 → start = .next (s.wf (F.BLOCK.FSTATE_START_ERR blk) die inst 0)) ∧
    (run ≠ 1 → (blk = B.RIDGE → (s.ridge die).pendStart = none) → code ≠ 0 →
      ∃ t, start = .next t ∧ rf t F.BLOCK.FSTATE_START_ERR = code % 256 ∧ rf t F.BLOCK.CFLAGS_START_REFUSED = 1 ∧
        RegsOnly [(F.BLOCK.FSTATE_START_ERR blk, die, inst), (F.BLOCK.CFLAGS_START_REFUSED blk, die, inst)] s t) ∧
    (run = 0 → ¬ (blk = B.RIDGE ∧ die = s.leader) → (blk = B.RIDGE → (s.ridge die).pendStart = none) → code = 0 →
      ∃ u : State, start = .next (u.blockStarted die blk inst) ∧ rf u F.BLOCK.FSTATE_STATE = 1 ∧
        rf u F.BLOCK.FSTATE_START_ERR = 0 ∧ rf u F.BLOCK.FSTATE_FAULT_CODE = 0 ∧
        ((s.regs.map (·.1)).Nodup → ∀ f : Fld, inInst die blk inst (f.key die inst) = true →
          u.rfF f die inst = s.rf f die inst)) ∧
    (run = 0 → blk = B.RIDGE → die = s.leader → (s.ridge die).pendStart = none → code = 0 →
      ∃ t, start = .next t ∧ (t.ridge die).pendStart = some ⟨(s.pkgTick die + 511) / 256 * 256, []⟩ ∧
        t.flag F.RIDGE.STATUS_PEND die 0 = true ∧ rf t F.BLOCK.FSTATE_STATE = 0) ∧
    (run = 1 → blk ≠ B.ENG → ∃ u : State, stop = .next (u.blockLeaves die blk inst) ∧ rf u F.BLOCK.FSTATE_STATE = 2) ∧
    (run = 1 → blk = B.ENG → ∃ t, stop = .next t ∧ rf t F.BLOCK.FSTATE_STATE = 2) ∧
    (run = 3 → ∃ t, stop = .next t ∧ rf t F.BLOCK.FSTATE_STATE = 0 ∧ rf t F.BLOCK.FSTATE_FAULT_CODE = rf s F.BLOCK.FSTATE_FAULT_CODE) ∧
    (run = 2 ∨ (run = 0 ∧ blk ≠ B.RIDGE) → stop = .next s) ∧
    (∀ (e : Nat) (u : State), s.grantsWrite e (mkFa die blk inst 0) 0 0 = true → stop = .next u →
      exec (.runStateRequestArrive (some e) die blk inst .stop) s = .next (u.judged e (mkFa die blk inst 0) 0 0 0)) ∧
    (∀ (e : Nat) (op : BlockOp), s.grants e (mkFa die blk inst 0) 0 = true →
      (s.eng e).hold = .access op (mkFa die blk inst 0) none → run = 1 ∨ run = 2 ∨ run = 3 →
      ∃ t, exec (.runStateRequestArrive (some e) die blk inst .start) s = .next t ∧
        (blk ≠ B.RIDGE ∨ (s.ridge die).pendStart = none → (t.eng e).hold =
          .access op (mkFa die blk inst 0) (some ⟨0, if run = 1 then 0 else code⟩))) ∧
    (let lowest (l : List (Nat × Bool)) : Nat := ((l.find? (·.2)).map (·.1)).getD 0
    let r (f : Fld) : Nat := s.rf f die inst
    let on (f : Fld) : Bool := s.rf f die inst == 1
    let p := 24 * die + inst
    let fails (b : Nat) (l : List (Nat × Bool)) : Prop := blk = b → s.blockStartErr die blk inst = lowest l
    let mode := r F.PCS.CFG_MODE
    let lanes := if mode = 4 then (List.range 4).map (inst - inst % 4 + ·) else [inst]
    let higher := [inst + 1, inst + 2, inst + 3]
    let ks := List.range 4
    let func (k : Nat) : Nat := r (F.FIELD.OUT_CFG_FUNC k)
    let qs := (List.range 16).filter fun q => (r F.QUE.QEN_EN).testBit q
    let mins := (qs.map fun q => r (F.QUE.QS_MIN q)).foldl (· + ·) 0
    let ivs := (List.range (min (r F.GATE.CFG_LIST_LEN) 256)).map fun k => r (F.GATE.ENTRY_INTERVAL k)
    let own := s.owner die B.EVT inst
    let src := r F.EVT.CFG_START_SRC
    let gate := r F.EVT.CFG_GATE_SRC
    let evMode := r F.EVT.CFG_MODE
    let cs := List.range 8
    let kind (c : Nat) : Nat := perfKind (r (F.PERF.SEL_SRC c))
    let pm (c : Nat) : Nat := r (F.PERF.SEL_MODE c)
    let hs := r F.HIST.CFG_SRC
    let taken (k : Nat) : Bool := k != inst && s.active die B.PRP k && [s.prpA die k, s.prpB die k].any fun x =>
      x == r F.PRP.CFG_PORT_A || x == r F.PRP.CFG_PORT_B
    fails B.LANE [
      (0x10, r F.LANE.CFG_RATE == 0 || decide (4 ≤ r F.LANE.CFG_RATE) || (decide (2 ≤ r F.LANE.CFG_PT_BW) && !on F.LANE.CFG_SSC_TOL)),
      (0x11, decide (63 < r F.LANE.TXEQ_CM1 + r F.LANE.TXEQ_C0 + r F.LANE.TXEQ_CP1) ||
        decide (r F.LANE.TXEQ_C0 < 16 + r F.LANE.TXEQ_CM1 + r F.LANE.TXEQ_CP1)),
      (0x12, r F.LANE.EQ_RX_MODE == 3), (0x13, decide (4 < r F.LANE.TEST_TX_PAT) || decide (4 < r F.LANE.TEST_RX_PAT)),
      (0x14, s.grouped p && r F.LANE.CFG_RATE != 3)] ∧
    fails B.PCS [
      (0x10, mode == 0 || decide (5 ≤ mode)), (0x11, lanes.any fun l => s.run die B.LANE l != 1),
      (0x12, lanes.any fun l => s.rfF F.LANE.CFG_RATE die l != (if mode = 4 then 3 else mode)),
      (0x13, lanes.any fun l => s.rf F.LANE.TEST_TX_PAT die l != 0 || s.rf F.LANE.TEST_RX_PAT die l != 0),
      (0x14, on F.PCS.CFG_FEC && (mode == 1 || mode == 2)),
      (0x15, decide (r F.PCS.CFG_MAX_FRAME < 64) || decide (16000 < r F.PCS.CFG_MAX_FRAME)), (0x16, mode == 4 && inst % 4 != 0),
      (0x17, mode == 4 && higher.any fun l => s.run die B.PCS l != 0),
      (0x18, mode == 4 && higher.any fun l => s.owner die B.LANE l != s.owner die B.LANE inst),
      (0x19, inst % 4 != 0 && s.grouped p)] ∧
    fails B.PLL [
      (0x10, decide (4 < r F.PLL.CFG_BW)), (0x11, decide (5 < r F.PLL.CFG_REFA_FREQ) || decide (5 < r F.PLL.CFG_REFB_FREQ)),
      (0x12, die == 0 && (List.range 8).any fun k =>
        let f := s.rf (F.PLL.CLKOUT_FMT k) 0 0
        decide (1 ≤ f) && decide (f ≤ 5) && decide (fmtMHz f * s.rf (F.PLL.CLKOUT_DIV k) 0 0 < 10000)),
      (0x13, r F.PLL.FSLEW_RATE == 0 || decide (1000 < r F.PLL.FSLEW_RATE)), (0x14, decide (r F.PLL.QUAL_REF_QUAL < 10))] ∧
    (blk = B.RIDGE → inst = 0 → s.blockStartErr die blk inst =
      if die ≠ s.leader then (if (s.ridge die).align = none then 0x14 else 0)
      else lowest [
        (0x10, r F.RIDGE.JUMP_LIMIT_LIMIT == 0 || decide (10 ^ 9 < r F.RIDGE.JUMP_LIMIT_LIMIT)),
        (0x11, !rateInRange (r F.RIDGE.RATE_RATE)),
        (0x12, decide (10 ^ 9 ≤ XT.nanos (BitVec.ofNat 128 (r F.RIDGE.OFFSET_OFFSET)))),
        (0x13, decide (2 ^ 40 ≤ ((r F.RIDGE.BASE_BASE : Int) - s.pkgTick die).natAbs))]) ∧
    fails B.LINK [
      (0x10, decide (7 < r F.LINK.CFG_XCH)), (0x11, r F.LINK.CFG_RES_N == 0 || decide (6 < r F.LINK.CFG_RES_N)),
      (0x12, decide (Config.nEngines s.part ≤ r F.LINK.CFG_HANDLER) || s.engPart (r F.LINK.CFG_HANDLER) != s.portOwner p)] ∧
    (die = 0 → inst = 0 → fails B.SUMMIT [
      (0x10, r F.SUMMIT.CFG_BCN_INT == 0 || decide (100 < r F.SUMMIT.CFG_BCN_INT)),
      (0x11, decide (r F.SUMMIT.CFG_TERM < 100) || decide (10000 < r F.SUMMIT.CFG_TERM)),
      (0x12, decide (r F.SUMMIT.GUARD_GUARD < 2 * r F.SUMMIT.CFG_BCN_INT) || decide (r F.SUMMIT.CFG_TERM < r F.SUMMIT.GUARD_GUARD)),
      (0x13, !isGroup (r F.SUMMIT.BCN_MAC_MAC)),
      (0x14, [0, 1].any fun k => on (F.SUMMIT.PATH_EN k) && !(decide (r (F.SUMMIT.PATH_PORT k) < Config.nPorts s.part) &&
        s.portExists (r (F.SUMMIT.PATH_PORT k))))]) ∧
    (die = 0 → inst = 0 → fails B.GNSS [
      (0x10, decide (r F.GNSS.IF_RATE_RATE < 2046000) || decide (40960000 < r F.GNSS.IF_RATE_RATE)),
      (0x11, decide (r F.GNSS.IF_RATE_RATE < 2 * (s.rfS F.GNSS.IF_FREQ_FREQ 0 0).natAbs)),
      (0x12, decide (1 < r F.GNSS.CFG_RETURN) || r F.GNSS.CFG_POS_MODE == 3 || r F.GNSS.HOLD_AVG == 3),
      (0x13, r F.GNSS.JUMP_LIMIT == 0 || decide (10 ^ 9 < r F.GNSS.JUMP_LIMIT) || r F.GNSS.SLEW_MAX == 0 ||
        decide (1000 < r F.GNSS.SLEW_MAX)),
      (0x14, on F.GNSS.CFG_SPARSE && r F.GNSS.CFG_POS_MODE == 0),
      (0x15, (on F.GNSS.MSG_CFG_EN && (decide (Config.nEngines s.part ≤ r F.GNSS.MSG_CFG_ENG) || s.engPart (r F.GNSS.MSG_CFG_ENG) != 0)) ||
        decide (r F.GNSS.MSG_CFG_LEAD < 2) || decide (500 < r F.GNSS.MSG_CFG_LEAD))]) ∧
    fails B.EVT [
      (0x10, decide (5 ≤ evMode) || r F.EVT.CFG_SLOPE == 0),
      (0x11, (evMode == 2 || evMode == 3) && ((decide (12 ≤ src) && decide (src ≤ 15)) || src == inst)),
      (0x12, gate != 0xF && (gate == inst || decide (6 ≤ inst))),
      (0x13, (decide (src < 8) && s.owner die B.EVT src != own) || (decide (gate < 8) && s.owner die B.EVT gate != own) ||
        (decide (8 ≤ src) && decide (src ≤ 11) && own != 0)),
      (0x14, (evMode == 1 || evMode == 2) && (r F.EVT.WIN_TICKS == 0 || decide (625000 < r F.EVT.WIN_TICKS))),
      (0x15, on F.EVT.FR_CFG_EN && (decide (Config.nEngines s.part ≤ r F.EVT.FR_CFG_ENG) || r F.EVT.FR_CFG_ENG / 4 != die ||
        s.engPart (r F.EVT.FR_CFG_ENG) != own))] ∧
    (inst = 0 → fails B.FIELD [
      (0x10, ks.any fun k => decide (5 ≤ func k)), (0x11, die != 0 && ks.any fun k => func k == 2),
      (0x12, ks.any fun k => (func k == 1 || func k == 2 || func k == 4) &&
        (r (F.FIELD.OUT_CFG_WIDTH k) == 0 || decide (1000000 ≤ r (F.FIELD.OUT_CFG_WIDTH k))))]) ∧
    fails B.QUE [
      (0x10, qs.any fun q => decide (r (F.QUE.QS_MIN q) < s.twoFrames p)),
      (0x11, qs.any fun q => decide (q < 12) && decide (r (F.QUE.QS_QUANTUM q) < 64)),
      (0x12, decide (r F.QUE.PMAX_PMAX < mins) || decide (31744 < r F.QUE.PMAX_PMAX)),
      (0x13, decide (31744 < mins + s.rsvTotal die)), (0x14, !s.portExists p), (0x15, r F.QUE.CFG_EG_TAG == 3)] ∧
    fails B.GATE [
      (0x10, decide (r F.GATE.CYCLE_CYCLE < 63) || decide (625000000 < r F.GATE.CYCLE_CYCLE)),
      (0x11, decide (256 < r F.GATE.CFG_LIST_LEN)), (0x12, ivs.any (· == 0)),
      (0x13, decide (r F.GATE.CYCLE_CYCLE < ivs.foldl (· + ·) 0)),
      (0x14, decide (10 ^ 9 ≤ XT.nanos (BitVec.ofNat 128 (r F.GATE.BASE_BASE)))), (0x15, !s.portExists p)] ∧
    (inst = 0 → fails B.MIRR [(0x10, r F.MIRR.CFG_SNAP % 32 != 0 || decide (r F.MIRR.CFG_SNAP < 64) || decide (256 < r F.MIRR.CFG_SNAP))]) ∧
    fails B.PRP [
      (0x10, decide (1 < r F.PRP.CFG_MODE) || r F.PRP.CFG_WIN == 3),
      (0x11, r F.PRP.CFG_PORT_A == r F.PRP.CFG_PORT_B || decide (23 < r F.PRP.CFG_PORT_A) || decide (23 < r F.PRP.CFG_PORT_B)),
      (0x12, (List.range 12).any taken),
      (0x13, s.portOwner (24 * die + r F.PRP.CFG_PORT_A) != s.owner die B.PRP inst ||
        s.portOwner (24 * die + r F.PRP.CFG_PORT_B) != s.owner die B.PRP inst),
      (0x14, !s.portExists (24 * die + r F.PRP.CFG_PORT_A) || !s.portExists (24 * die + r F.PRP.CFG_PORT_B))] ∧
    (inst = 0 → fails B.PERF [
      (0x10, cs.any fun c => decide (5 ≤ pm c) || kind c == 0),
      (0x11, cs.any fun c => (pm c == 1 && kind c == 2) || (decide (2 ≤ pm c) && kind c == 1)),
      (0x12, cs.any fun c => !perfIndexOk s.part die (r (F.PERF.SEL_SRC c)) (r (F.PERF.SEL_INDEX c))),
      (0x13, r F.PERF.BW_CFG_WINDOW == 0 || decide (1000000 < r F.PERF.BW_CFG_WINDOW)),
      (0x14, decide (24 < r F.PERF.TAG_CFG_FR_LOG2) || decide (24 < r F.PERF.TAG_CFG_IN_LOG2) || r F.PERF.TAG_SEED_SEED == 0)]) ∧
    fails B.HIST [
      (0x10, hs == 0 || decide (6 < hs)),
      (0x11, decide ((if hs = 2 then 384 else if hs = 6 then 8 else 24) ≤ r F.HIST.CFG_INDEX) && !(hs == 1 && r F.HIST.CFG_INDEX == 0x1FF)),
      (0x12, (s.histNamed die hs (r F.HIST.CFG_INDEX)).any fun o => s.owner die B.HIST inst != 0 && o != s.owner die B.HIST inst),
      (0x13, (List.range 30).any fun k =>
        decide (toSigned 48 (r (F.HIST.EDGE_EDGE (k + 1))) ≤ toSigned 48 (r (F.HIST.EDGE_EDGE k)))),
      (0x14, (hs == 2 || hs == 3) && decide (20 < r F.HIST.CFG_SPER))] ∧
    (inst = 0 → fails B.CAL [
      (0x10, decide (r F.CAL.CFG_HITS < 2) || decide (6 < r F.CAL.CFG_HITS)),
      (0x11, decide (r F.CAL.CFG_RATE_DIV < 2) || decide (6 < r F.CAL.CFG_RATE_DIV)), (0x12, r F.CAL.CFG_SCOPE == 0)]) ∧
    (blk ∈ [B.ENG, B.HOST, B.NVS, B.TSU, B.L2T, B.LPM, B.MCG, B.MESH, B.TEMP] → s.blockStartErr die blk inst = 0))

/-- R81, R84: a complete drain takes STOPPING to STOPPED; at its limit an incomplete one is cut with DRAIN_FORCED; an error
takes an instance to FAULT with its code and FAULT_SEEN; an engine that stops holds nothing and shows LAST_PC. That the limits are
counted in the die's ticks, and reached with the limit's last tick, is the model's reading (log entry 31); what a drain that is cut
or a fault discards is the model's choice (log entry 79). -/
def Obligations.DrainsAndFaults : Prop :=
  ∀ (s : State) (die blk inst code : Nat), s.has die blk inst = true → s.resets.asserted = false →
    let e := 4 * die + inst
    let rf (t : State) (f : Nat → Fld) : Nat := t.rf (f blk) die inst
    let halted (t : State) (st : Nat) : Prop :=
      rf t F.BLOCK.FSTATE_STATE = st ∧ (t.eng e).hold = .none ∧ t.rf F.ENG.STATUS_LAST_PC die inst = (s.eng e).lastDone.toNat
    let limit := match blk with
      | 0x01 => 1250 | 0x02 => 12500 | 0x09 => 125000 | 0x18 => 6250000 | 0x1C => 6250 | 0x22 => 3125000 | _ => 625
    let late : Prop := Store.get 0 s.stopAt (instKey die blk inst) + limit ≤ s.tick die + 1
    (s.run die blk inst = 2 → s.blockDrained die blk inst = true → blk ≠ B.ENG →
      ∃ u : State, exec (.drainComplete die blk inst) s = .next (u.blockStopped die blk inst) ∧ rf u F.BLOCK.FSTATE_STATE = 0) ∧
    (s.run die blk inst = 2 → s.blockDrained die blk inst = true → blk = B.ENG →
      ∃ t, exec (.drainComplete die blk inst) s = .next t ∧ halted t 0) ∧
    (s.run die blk inst ≠ 2 ∨ s.blockDrained die blk inst = false → exec (.drainComplete die blk inst) s = .next s) ∧
    (s.run die blk inst = 2 → s.blockDrained die blk inst = false → late →
      ∃ u : State, exec (.drainLimitExpire die blk inst) s = .next (u.enterStopped die blk inst) ∧
        rf u F.BLOCK.CFLAGS_DRAIN_FORCED = 1) ∧
    (s.run die blk inst = 2 → ¬ late → exec (.drainLimitExpire die blk inst) s = .next s) ∧
    (s.run die blk inst ≠ 3 → blk = B.ENG → ∃ t, exec (.enterFault die blk inst code) s = .next t ∧ halted t 3 ∧
      rf t F.BLOCK.FSTATE_FAULT_CODE = code % 256 ∧ rf t F.BLOCK.CFLAGS_FAULT_SEEN = 1 ∧ (t.eng e).held = []) ∧
    (s.run die blk inst ≤ 2 → blk ≠ B.ENG → blk ≠ B.SYS → blk ≠ B.SEC → (blk = B.RIDGE → (s.ridge die).pendStart = none) →
      ∃ u : State, rf u F.BLOCK.FSTATE_STATE = 3 ∧ rf u F.BLOCK.FSTATE_FAULT_CODE = code % 256 ∧
        rf u F.BLOCK.CFLAGS_FAULT_SEEN = 1 ∧ exec (.enterFault die blk inst code) s = .next
          (let v := if s.run die blk inst = 0 then (u.faultAnyway die blk inst).blockStopped die blk inst
            else if s.run die blk inst = 2 then ((u.faultAnyway die blk inst).blockForced die blk inst).blockStopped die blk inst
            else ((u.blockLeaves die blk inst).blockForced die blk inst).blockStopped die blk inst
          if blk = B.HOST then v.hostFault die else v)) ∧
    (s.run die blk inst = 3 → exec (.enterFault die blk inst code) s = .next s)

/-! ## Hosts: mailboxes, rings, loads, links (R133 to R155, R89 to R93, R139 to R142) -/

/-- R143 to R145: inbound, outbound and service messages: a post enters the queue and takes its slot, or is refused with MB_ERR;
a take removes the oldest; a free returns the slot. Which free slot the part takes is free (log entry 23); line 63 is set at
once on the engines that the endpoint's die reaches (the model's reading, log entry 24), and a service post by H_0 or with
its link down is refused (log entry 42). R145: SVC_TAKE removes a pending service request; SVC_REPLY frees its slot and puts
the 8-byte reply into the outbound queue of the partition it is for, in a slot that is free (log entries 23 and 42). -/
def Obligations.HostMessages : Prop :=
  (∀ (s : State) (h e d slot len : Nat) (sl : BitVec 4), h < Config.nHosts s.part → s.resets.asserted = false → slot < 16 → len < 512 →
     let x := s.host h
     let word (m : MboxMsg) : Nat := 2 ^ 31 + m.slot * 2 ^ 16 + m.len
     let lenOk : Prop := 8 ≤ len ∧ len ≤ 256 ∧ len % 8 = 0
     let free (t : State) (k : Nat) : Bool := (t.rf F.HBAR.MBI_FREE_FREE h 0).testBit k
     let take := mkFa d B.HOST 0 0x10
     let give := mkFa d B.HOST 0 0x14
     (s.served h = true → free s slot = true → lenOk → ∃ t, exec (.mbiPost h slot len) s = .next t ∧
       (t.host h).mbiQ = x.mbiQ ++ [⟨slot, len, false, h⟩] ∧ free t slot = false ∧
       (∀ k, k < 16 → k ≠ slot → free t k = free s k) ∧
       ∀ e, e < Config.nEngines s.part → s.engPart e = h → s.linkUp (s.hDie h) (e / 4) = true →
         (t.eng e).pending.getLsbD 63 = true) ∧
     (s.served h = true → free s slot = false ∨ ¬ lenOk → ∃ t, exec (.mbiPost h slot len) s = .next t ∧
       t.flag F.HBAR.IRQ_MB_ERR h 0 = true ∧ (t.host h).mbiQ = x.mbiQ ∧ t.engs = s.engs) ∧
     (s.served h = true → h ≠ 0 → free s slot = true → lenOk → s.linkUp (s.hDie h) 0 = true → s.svcFree h ≠ [] →
       ∃ t k, exec (.svcPost h slot len) s = .next t ∧ k ∈ s.svcFree h ∧
         (t.host 0).svcQ = (s.host 0).svcQ ++ [⟨k, len, true, h⟩] ∧ (t.host 0).svcUsed = (s.host 0).svcUsed ++ [k] ∧
         Store.getList 0 (t.host 0).svc (256 * k) len = Store.getList 0 x.mbi (256 * slot) len ∧ free t slot = true ∧
         t.flag F.HBAR.IRQ_MBI_FREED h 0 = true) ∧
     (∀ (op : BlockOp) (m : MboxMsg) (r : List MboxMsg), Config.dieHost s.part d = some h → s.grants e take 32 = true →
       (s.eng e).hold = .access op take none → x.mbiQ = m :: r →
       ∃ t, exec (.mbiTake e d) s = .next t ∧ MonitorOnly ((s.setHost h { x with mbiQ := r, mbiTaken := x.mbiTaken ++ [m.slot] }).setEng e
         { s.eng e with hold := .access op take (some ⟨0, word m⟩) }) t) ∧
     (∀ op : BlockOp, Config.dieHost s.part d = some h → s.grants e take 32 = true →
       (s.eng e).hold = .access op take none → x.mbiQ = [] →
       ∃ t, exec (.mbiTake e d) s = .next t ∧
         MonitorOnly (s.setEng e { s.eng e with hold := .access op take (some ⟨0, 0⟩) }) t) ∧
     (Config.dieHost s.part d = some h → s.grantsWrite e give 32 sl.toNat = true → x.mbiTaken.contains sl.toNat = true →
       ∃ u : State, exec (.mbiFree e d sl) s = .next (u.judged e give 32 sl.toNat 0) ∧ free u sl.toNat = true ∧
         u.flag F.HBAR.IRQ_MBI_FREED h 0 = true ∧ (u.host h).mbiTaken = x.mbiTaken.filter (· != sl.toNat)) ∧
     (Config.dieHost s.part d = some h → s.grantsWrite e give 32 sl.toNat = true → x.mbiTaken.contains sl.toNat = false →
       ∃ u : State, exec (.mbiFree e d sl) s = .next (u.judged e give 32 sl.toNat 0) ∧
         u.flag F.HOST.ERR_MBI_FREE_BAD d 0 = true ∧ u.hosts = s.hosts ∧ free u sl.toNat = free s sl.toNat) ∧
     (∀ (m : MboxMsg) (r : List MboxMsg), s.served h = true → x.mboQ = m :: r →
       exec (.mboTake h) s = .next (s.setHost h { x with mboQ := r, rdata := word m + ofBool m.svc * 2 ^ 30 })) ∧
     (s.served h = true → x.mboUsed.contains sl.toNat = true → (∀ m ∈ x.mboQ, m.slot ≠ sl.toNat) →
       ∃ t, exec (.mboFree h sl) s = .next t ∧ t.host h = { x with mboUsed := x.mboUsed.filter (· != sl.toNat) } ∧
         RegsOnly [(F.HBAR.MBO_FREE_SLOT, h, 0)] (s.setHost h (t.host h)) t)) ∧
  (∀ (s : State) (e : Nat) (data : Word),
     let a := mkFa 0 B.HOST 0 0x20
     let b := mkFa 0 B.HOST 0 0x28
     let dest := data.toNat / 2 ^ 62
     let slot := data.toNat / 2 ^ 59 % 8
     (∀ (op : BlockOp) (m : MboxMsg) (r : List MboxMsg), s.grants e a 32 = true → (s.eng e).hold = .access op a none →
       (s.host 0).svcQ = m :: r → ∃ t, exec (.svcTake e) s = .next t ∧ t.host 0 = { s.host 0 with svcQ := r } ∧
         (t.eng e).hold = .access op a (some ⟨0, 2 ^ 31 + m.slot * 2 ^ 16 + m.len + m.src * 2 ^ 24⟩)) ∧
     (s.grantsWrite e b 64 data.toNat = true → 0 < dest → dest < Config.nHosts s.part → s.linkUp 0 (s.hDie dest) = true →
       s.ownsHost dest = true → (∀ m ∈ (s.host 0).svcQ, m.slot ≠ slot) → (s.host dest).mboFree ≠ [] →
       ∃ u : State, ∃ k, exec (.svcReply e data) s = .next (u.judged e b 64 data.toNat 0) ∧ k ∈ (s.host dest).mboFree ∧
         (u.host 0).svcUsed = (s.host 0).svcUsed.filter (· != slot) ∧
         (u.host dest).mboQ = (s.host dest).mboQ ++ [⟨k, 8, true, 0⟩] ∧
         Store.getList 0 (u.host dest).mbo (256 * k) 8 = bytesLE 8 (data.toNat % 2 ^ 59) ∧
         u.flag F.HBAR.IRQ_MBO_NEW dest 0 = true))

/-- R146, R147, R150: a ring of either direction is enabled with its base and size and both indexes at zero, or refused with
RING_CFG for its size; a doorbell moves the producer index, or is ignored with DB_ERR and DB_RANGE; a hold-off that ends
raises the vector that waits (a masked one is pending too, log entries 72 and 77). R154, R155, R167, R489: the host link
comes up with its rate and width, but not while PERST_N is low; a reset of the link, a hot or function reset or the fall of
PERST_N disables every ring, empties the mailboxes and marks LINK_RESET; grants are kept as written. The model's choices:
what of the endpoint's work a reset discards (log entry 84), code 0x10 for a staging that it cuts (41), the held internal
reset (32), and the grant copy that crosses to the endpoint's die (82). -/
def Obligations.RingRegistersAndLinks : Prop :=
  (∀ (s : State) (e d h k : Nat) (data : Word32) (prod : BitVec 16), k < 16 → h < Config.nHosts s.part →
     Config.dieHost s.part d = some h → Config.hostDie s.part h = d →
     let a := mkFa d B.HOST 0 (0x1010 + 0x40 * k)
     let v := data.toNat
     let lands (u : State) : Prop := exec (.ringCfgWrite e d k data) s = .next (u.judged e a 32 v 0)
     let size (n : Nat) : Bool := decide (6 ≤ n) && decide (n ≤ 12)
     let fills (cons log2 : Nat) : Prop := (prod.toNat + 2 ^ 16 - cons) % 2 ^ 16 ≤ 2 ^ log2
     let bell : Prop := s.served h = true ∧ s.resets.asserted = false
     let txOk : Prop := s.inRun d B.HOST 0 = true ∧ s.flag (F.HOST.RING_CFG_TX_EN k) d 0 = true ∧
       fills (s.rf (F.HBAR.CONS_TX_CONS k) h 0) (s.ring h k).txLog2
     let rxOk : Prop := s.inRun d B.HOST 0 = true ∧ s.flag (F.HOST.RING_CFG_RX_EN k) d 0 = true ∧
       fills (s.rf (F.HBAR.CONS_RX_CONS k) h 0) (s.ring h k).rxLog2
     let ignored (c : Instr) (f : Fld) : Prop := ∃ t, exec c s = .next t ∧ t.flag F.HBAR.IRQ_DB_ERR h 0 = true ∧
       t.flag F.HOST.ERR_DB_RANGE d 0 = true ∧ t.rf f h 0 = s.rf f h 0
     (s.grantsWrite e a 32 v = true → ∃ u, lands u ∧
       u.rf (F.HOST.RING_CFG_INJ_VID k) d 0 = v % 2 ^ 12 ∧ u.rf (F.HOST.RING_CFG_INJ_PCP k) d 0 = v / 2 ^ 12 % 8 ∧
       (data.getLsbD 31 = false → u.flag (F.HOST.RING_CFG_TX_EN k) d 0 = false) ∧
       (data.getLsbD 30 = false → u.flag (F.HOST.RING_CFG_RX_EN k) d 0 = false) ∧
       (data.getLsbD 31 = true → s.flag (F.HOST.RING_CFG_TX_EN k) d 0 = false → size (v / 2 ^ 20 % 16) = true →
         u.flag (F.HOST.RING_CFG_TX_EN k) d 0 = true ∧ (u.ring h k).txLog2 = v / 2 ^ 20 % 16 ∧
         (u.ring h k).txBase = 32 * s.rf (F.HOST.RING_TXBASE_BASE k) d 0 ∧ u.rf (F.HBAR.DB_TX_PROD k) h 0 = 0 ∧
         u.rf (F.HBAR.CONS_TX_CONS k) h 0 = 0) ∧
       (data.getLsbD 30 = true → s.flag (F.HOST.RING_CFG_RX_EN k) d 0 = false → size (v / 2 ^ 16 % 16) = true →
         u.flag (F.HOST.RING_CFG_RX_EN k) d 0 = true ∧ (u.ring h k).rxLog2 = v / 2 ^ 16 % 16 ∧
         (u.ring h k).rxBase = 32 * s.rf (F.HOST.RING_RXBASE_BASE k) d 0 ∧ u.rf (F.HBAR.DB_RX_PROD k) h 0 = 0 ∧
         u.rf (F.HBAR.CONS_RX_CONS k) h 0 = 0) ∧
       (data.getLsbD 31 = true → s.flag (F.HOST.RING_CFG_TX_EN k) d 0 = false → size (v / 2 ^ 20 % 16) = false →
         u.flag (F.HOST.RING_CFG_TX_EN k) d 0 = false ∧ u.flag F.HOST.ERR_RING_CFG d 0 = true) ∧
       (data.getLsbD 30 = true → s.flag (F.HOST.RING_CFG_RX_EN k) d 0 = false → size (v / 2 ^ 16 % 16) = false →
         u.flag (F.HOST.RING_CFG_RX_EN k) d 0 = false ∧ u.flag F.HOST.ERR_RING_CFG d 0 = true)) ∧
     (bell → txOk → ∃ t, exec (.dbTx h k prod) s = .next t ∧ t.rf (F.HBAR.DB_TX_PROD k) h 0 = prod.toNat ∧
       RegsOnly [(F.HBAR.DB_TX_PROD k, h, 0)] s t) ∧
     (bell → ¬ txOk → ignored (.dbTx h k prod) (F.HBAR.DB_TX_PROD k)) ∧
     (bell → rxOk → ∃ t, exec (.dbRx h k prod) s = .next t ∧ t.rf (F.HBAR.DB_RX_PROD k) h 0 = prod.toNat ∧
       RegsOnly [(F.HBAR.DB_RX_PROD k, h, 0)] s t) ∧
     (bell → ¬ rxOk → ignored (.dbRx h k prod) (F.HBAR.DB_RX_PROD k)) ∧
     ((s.ring h k).holdoff = true → ∃ t, exec (.msixHoldoffExpire h k) s = .next t ∧
       t = s.setHost h (t.host h) ∧ t.ring h k = { s.ring h k with holdoff := (s.ring h k).waiting, waiting := false } ∧
       Store.get 0 (t.host h).vectors (8 + k) = Store.get 0 (s.host h).vectors (8 + k) + ofBool (s.ring h k).waiting)) ∧
  (∀ (s : State) (h e p speed width : Nat) (cause : HostReset) (data : Word32), h < Config.nHosts s.part →
     let d := s.hDie h
     let v := data.toNat
     let a := mkFa 0 B.HOST 0 (0x100 + 4 * p)
     let falls : Prop := cause = .perst false → (s.host h).perstN = true
     let levels (t : State) : Prop := (t.host h).perstN = (if cause = .perst false then false else (s.host h).perstN) ∧
       (cause = .linkDown ∨ cause = .perst false → t.flag F.HOST.LINK_UP d 0 = false)
     (s.resets.asserted = false → s.flag F.HOST.LINK_UP d 0 = false → (s.host h).perstN = true →
       1 ≤ speed → speed ≤ 4 → width ∈ [1, 2, 4, 8] → ∃ t, exec (.hostLinkUp h speed width) s = .next t ∧ t.flag F.HOST.LINK_UP d 0 = true ∧
         t.rf F.HOST.LINK_SPEED d 0 = speed ∧ t.rf F.HOST.LINK_WIDTH d 0 = width ∧
         RegsOnly [(F.HOST.LINK_UP, d, 0), (F.HOST.LINK_SPEED, d, 0), (F.HOST.LINK_WIDTH, d, 0)] s t) ∧
     ((s.host h).perstN = false → exec (.hostLinkUp h speed width) s = .next s ∧ exec (.hostLinkReset h (.perst false)) s = .next s ∧
       s.served h = false) ∧
     (exec (.hostLinkReset h (.perst true)) s = .next (s.setHost h { s.host h with perstN := true })) ∧
     (s.resets.asserted = true → exec (.hostLinkReset h .hotReset) s = .next s ∧ exec (.hostLinkReset h .functionReset) s = .next s) ∧
     (s.resets.asserted = false → cause ≠ .perst true → falls → (s.host h).load = none →
       ∃ t, exec (.hostLinkReset h cause) s = .next t ∧ levels t ∧
       (∀ k, k < 16 → t.flag (F.HOST.RING_CFG_TX_EN k) d 0 = false ∧ t.flag (F.HOST.RING_CFG_RX_EN k) d 0 = false ∧
         (t.ring h k).txJob = none ∧ (t.ring h k).txReady = none) ∧
       (t.host h).mbiQ = [] ∧ (t.host h).mboQ = [] ∧ (t.host h).mbiTaken = [] ∧ (t.host h).mboUsed = [] ∧
       t.rf F.HBAR.MBI_FREE_FREE h 0 = 0xFFFF ∧ t.flag F.HOST.ERR_LINK_RESET d 0 = true) ∧
     (∀ j, s.resets.asserted = false → cause ≠ .perst true → falls → (s.host h).load = some j → j.phase = .staging → j.spi = false →
       h ≠ 0 ∨ s.sec.phase = .done →
       ∃ t, exec (.hostLinkReset h cause) s = .next t ∧ levels t ∧ (t.host h).load = none ∧ t.rf F.HBAR.LOAD_STATUS_CODE h 0 = (if s.run 0 B.SEC 0 = 3 then 0x05 else 0x10) ∧
         t.flag F.HBAR.LOAD_STATUS_BUSY h 0 = false) ∧
     (∀ j, s.resets.asserted = false → cause ≠ .perst true → falls → (s.host h).load = some j → j.phase ≠ .staging ∨ j.spi = true →
       ∃ t, exec (.hostLinkReset h cause) s = .next t ∧ levels t ∧ (t.host h).load = some j) ∧
     (1 ≤ p → p ≤ 3 → s.grantsWrite e a 32 v = true → ∃ u : State, exec (.grantWrite e p data) s = .next (u.judged e a 32 v 0) ∧
       u.rf (F.HOST.GRANT_HIST p) 0 0 = v / 2 ^ 16 % 256 ∧ u.rf (F.HOST.GRANT_PORTS p) 0 0 = v / 2 ^ 8 % 256 ∧
       u.rf (F.HOST.GRANT_PERF p) 0 0 = v % 256 ∧
       RegsOnly [(F.HOST.GRANT_HIST p, 0, 0), (F.HOST.GRANT_PORTS p, 0, 0), (F.HOST.GRANT_PERF p, 0, 0)]
         { s with hosts := u.hosts } u ∧
       (p < Config.nHosts s.part → s.linkUp 0 (Config.hostDie s.part p) = true →
         u.hosts = (s.setHost p { s.host p with grants := v % 2 ^ 24 }).hosts) ∧
       (p < Config.nHosts s.part → s.linkUp 0 (Config.hostDie s.part p) = false → u.hosts = s.hosts)))

/-- R148 to R151: a fetched descriptor is refused with its status, or its frame is read; the frame then waits for its turn of
injection and the descriptor completes; a received frame goes behind its header into the next buffer. The model's choices: the
descriptor completes when its frame has been read (log entry 43), one of an earlier enable moves no index (80), a BUF_LEN out of
range is taken as it stands (81), and the reserved word at 0x1C is ignored (104). -/
def Obligations.RingTransfers : Prop :=
  ∀ (s : State) (h k addr length kind queue dest flags tsId bufLen : Nat) (bytes : List Byte), h < Config.nHosts s.part → k < 16 →
    let d := s.hDie h
    let r := s.ring h k
    let t0 : TxDesc :=
      { addr := addr, length := length, kind := kind, queue := queue, dest := dest, flags := flags, tsId := tsId % 2 ^ 16,
        injVid := s.rf (F.HOST.RING_CFG_INJ_VID k) d 0, injPcp := s.rf (F.HOST.RING_CFG_INJ_PCP k) d 0 }
    let fetch : Out := exec (.txDescriptorFetched h k addr length kind queue dest flags tsId) s
    let advanced (t : State) (status : Nat) : Prop :=
      (t.ring h k).txStatus = 2 ^ 31 + status ∧ (t.ring h k).txJob = none ∧
        t.rf (F.HBAR.CONS_TX_CONS k) h 0 =
          if r.txOld = true then s.rf (F.HBAR.CONS_TX_CONS k) h 0 else (s.rf (F.HBAR.CONS_TX_CONS k) h 0 + 1) % 2 ^ 16
    (s.txFetches h k = true → s.descStatus h t0 = 0 → fetch = .next (s.setRing h k { r with txJob := some t0 })) ∧
    (s.txFetches h k = true → s.descStatus h t0 ≠ 0 → ∃ t, fetch = .next t ∧ advanced t (s.descStatus h t0)) ∧
    (s.txFetches h k = true → length < 60 ∨ 15996 < length ∨ 2 < kind → s.descStatus h t0 = 0x01) ∧
    (∀ j : TxDesc, r.txJob = some j → bytes.length = j.length →
      ∃ t, exec (.txFrameRead h k bytes false) s = .next t ∧ advanced t 0x00 ∧ (t.ring h k).txReady = some (j, bytes)) ∧
    (∀ j : TxDesc, r.txJob = some j →
      ∃ t, exec (.txFrameRead h k bytes true) s = .next t ∧ advanced t 0x03 ∧ (t.ring h k).txReady = r.txReady ∧
        t.flag F.HOST.ERR_DMA_ERR d 0 = true) ∧
    (∀ (f : RingFrame) (l : List RingFrame), s.served h = true → s.run d B.HOST 0 = 1 ∨ s.run d B.HOST 0 = 2 →
      (s.die d).rings = f :: l → f.host = h → f.ring = k →
      let trunc := decide (bufLen < 32 + f.frame.bytes.length)
      let out := (rxHeader f.frame trunc ++ f.frame.bytes).take bufLen
      ∃ t, exec (.rxRingDeliver h k bufLen) s = .next t ∧ (t.die d).rings = l ∧ (t.ring h k).rxOut = out ∧
        (t.ring h k).rxStatus = 2 ^ 31 + ofBool trunc * 2 ^ 16 + out.length ∧
        t.rf (F.HBAR.CONS_RX_CONS k) h 0 = (s.rf (F.HBAR.CONS_RX_CONS k) h 0 + 1) % 2 ^ 16)

/-- R40, R59, R121, R123, R151: with the injection path free, the next ready source in the cyclic order injects its frame, which stands
in the path with its destination, and the pointer moves behind it; an engine's SEND then completes; with nothing ready nothing
happens. That a SEND meets a double-bit error, and traps, when its frame is read out is the model's reading (log entry 22). -/
def Obligations.InjectionServesInOrder : Prop :=
  ∀ (s : State) (d i e : Nat) (spare : Bool), s.hasDie d = true → s.resets.asserted = false → (s.die d).inj = none →
    let p := (s.die d).injPtr
    let next : Prop := i < 20 ∧ s.injReady d i = true ∧
      ∀ k, k < 20 → s.injReady d ((p + k) % 20) = true → (i + 20 - p % 20) % 20 ≤ k
    let served : State := s.setDie d { s.die d with injPtr := (i + 1) % 20 }
    ((∀ k, k < 20 → s.injReady d k = false) → exec (.injectionServe d spare) s = .next s) ∧
    (next → i < 16 → ∀ t b, (s.ring (s.hostAt d) i).txReady = some (t, b) →
      exec (.injectionServe d spare) s = .next (served.injectDesc d (s.hostAt d) i t b spare)) ∧
    (next → 16 ≤ i → e = 4 * d + i - 16 → ∀ w a, (s.eng e).hold = .send w a →
      (s.eng e).dmemDouble a (sendLen w) = true → s.inRun d B.ENG (i - 16) = true → inTrapRegion (s.eng e).pc = false →
      ∃ t, exec (.injectionServe d spare) s = .next t ∧ MonitorOnly (served.trapped e (s.eng e) 0x04) t) ∧
    (next → 16 ≤ i → e = 4 * d + i - 16 → ∀ w a, (s.eng e).hold = .send w a →
      (s.eng e).dmemDouble a (sendLen w) = false → (s.eng e).held = [] →
      let dest := sendDest w
      let kind := sendKind w
      ∃ t r, exec (.injectionServe d spare) s = .next t ∧ (t.die d).injPtr = (i + 1) % 20 ∧ (t.die d).inj = some r ∧
        r.bytes = withFcs ((s.eng e).dmemBytes a (sendLen w)) ∧ r.done = 0 ∧ r.frame.src = .engine e ∧
        r.frame.len = r.bytes.length ∧
        r.dies = [if kind = 0 then dest / 24 else if kind = 1 then Config.hostDie s.part (s.engPart e) else dest / 4] ∧
        r.frame.ports = (if kind = 0 then 2 ^ dest else 0) ∧
        r.frame.ring = (if kind = 1 then some (s.engPart e, dest) else none) ∧
        r.frame.engines = (if 2 ≤ kind then 2 ^ dest else 0) ∧
        (kind = 0 → r.frame.queue = some (sendQueue w) ∧ r.frame.tsId = if sendTsReq w = true then some (sendTsId w) else none) ∧
        (t.eng e).hold = .none ∧ (t.eng e).pc = (s.eng e).pc + 4 ∧ (t.eng e).lastDone = (s.eng e).pc)

/-- R89 to R93, R135, R139 to R142: GO starts a staging; the checks run in the order of R92 and the first that fails gives the code;
an image that passes is held for its signature, its engines are stopped, written and started, and CODE is 0. The model's choices: an
uncorrectable error of the staged copy ends the load with 0x10 (log entry 83), HOST in FAULT comes before the flash named by
another endpoint (41), and a load goes on only while its HOST instance is its partition's, with RUN and START_PC before the load
those at the start of the engine writes (104). -/
def Obligations.ImageLoads : Prop :=
  ∀ (s : State) (h : Nat) (spi : Bool) (bytes : List Byte), h < Config.nHosts s.part →
    let x := s.host h
    let dsa := s.resets.asserted = false ∧ s.served h = true
    let img := bytes.take (imgLength bytes)
    let code := if s.run 0 B.SEC 0 = 3 then 0x05 else if imgHeaderOk bytes = false then 0x01
      else if s.imgFits bytes = false then 0x02 else if s.keyFor (imgKeyId bytes) = none then 0x03
      else if le bytes 0x1C 4 < s.otp.rollback then 0x04 else 0
    let plain : Prop := h ≠ 0 ∨ s.sec.phase = .done
    let ended (t : State) (c : Nat) : Prop := (t.host h).load = none ∧
      t.rf F.HBAR.LOAD_STATUS_CODE h 0 = (if s.run 0 B.SEC 0 = 3 then 0x05 else c) ∧
      t.flag F.HBAR.LOAD_STATUS_BUSY h 0 = false ∧ t.flag F.HBAR.IRQ_LOAD_DONE h 0 = true
    (dsa → s.flag F.HBAR.LOAD_STATUS_BUSY h 0 = true →
      ∃ t, exec (.loadGo h spi) s = .next t ∧ t.flag F.HBAR.IRQ_DB_ERR h 0 = true ∧ (t.host h).load = x.load) ∧
    (dsa → s.flag F.HBAR.LOAD_STATUS_BUSY h 0 = false → s.run (s.hDie h) B.HOST 0 ≠ 3 → (spi = true → h = 0) →
      ∃ t, exec (.loadGo h spi) s = .next t ∧ t.flag F.HBAR.LOAD_STATUS_BUSY h 0 = true ∧
        (t.host h).load = some ⟨spi, 16 * s.rf F.HBAR.LOAD_ADDR_ADDR h 0, .staging, [], [], []⟩) ∧
    (dsa → s.flag F.HBAR.LOAD_STATUS_BUSY h 0 = false → s.run (s.hDie h) B.HOST 0 = 3 →
      ∃ t, exec (.loadGo h spi) s = .next t ∧ ended t 0x12) ∧
    (dsa → s.flag F.HBAR.LOAD_STATUS_BUSY h 0 = false → s.run (s.hDie h) B.HOST 0 ≠ 3 → spi = true → h ≠ 0 →
      ∃ t, exec (.loadGo h spi) s = .next t ∧ ended t 0x11) ∧
    (∀ j : Load, x.load = some j → j.phase = .staging → stagedWhole bytes = true → (j.spi = true → s.sec.spiActive = false) →
      s.ownsHost h = true →
      (code = 0 → ∃ t, exec (.loadStaged h bytes false) s = .next t ∧
        (t.host h).load = some { j with phase := .signature, image := img } ∧ t.sec.sigQueue = s.sec.sigQueue ++ [h]) ∧
      (code ≠ 0 → plain → ∃ t, exec (.loadStaged h bytes false) s = .next t ∧ ended t code) ∧
      (plain → ∃ t, exec (.loadStaged h bytes true) s = .next t ∧ ended t 0x10)) ∧
    (∀ (j : Load) (q : List Nat), s.sec.sigQueue = h :: q → x.load = some j → s.ownsHost h = true →
      let s1 : State := { s with sec := { s.sec with sigQueue := q } }
      let readable : Prop := ∀ p ∈ j.ecc, p.2 ≠ .double
      (plain → ¬ readable → ∃ t, exec .signatureCheckDone s = .next t ∧ ended t 0x10 ∧ t.sec.sigQueue = q) ∧
      (plain → readable → s.run 0 B.SEC 0 = 3 ∨ s.imgSigned j.image = false →
        ∃ t, exec .signatureCheckDone s = .next t ∧ ended t 0x05 ∧ t.sec.sigQueue = q) ∧
      (plain → readable → s.run 0 B.SEC 0 ≠ 3 → s.imgSigned j.image = true → ∀ c i, s1.segChecks h j.image = some (c, i) → c < 256 →
        ∃ t, exec .signatureCheckDone s = .next t ∧ ended t c) ∧
      (readable → s.run 0 B.SEC 0 ≠ 3 → s.imgSigned j.image = true → s1.segChecks h j.image = none →
        ∃ t, exec .signatureCheckDone s = .next t ∧
          (t.host h).load = some { j with phase := .writing, ecc := [], targets := (s.imgEngines j.image).map fun e =>
            (e, if s.inRun (e / 4) B.ENG (e % 4) = true then some (s.rfF F.ENG.CTRL_START_PC (e / 4) (e % 4)) else none) } ∧
          ∀ e ∈ s.imgEngines j.image, (s.run (e / 4) B.ENG (e % 4) = 1 → t.run (e / 4) B.ENG (e % 4) = 2) ∧
            (s.run (e / 4) B.ENG (e % 4) = 3 → t.run (e / 4) B.ENG (e % 4) = 0))) ∧
    (∀ j : Load, x.load = some j → j.phase = .writing → plain → s.ownsHost h = true → s.run 0 B.SEC 0 ≠ 3 → j.ecc = [] → (j.targets.map (·.1)).Nodup →
      (∀ t ∈ j.targets, s.run (t.1 / 4) B.ENG (t.1 % 4) = 0 ∨ s.run (t.1 / 4) B.ENG (t.1 % 4) = 3) →
      ∃ t, exec (.loadEnd h) s = .next t ∧ ended t 0x00 ∧
        ∀ y ∈ j.targets, s.run (y.1 / 4) B.ENG (y.1 % 4) = 0 →
          (t.eng y.1).imem = ((s.eng y.1).loaded j.image y.1).imem ∧ (t.eng y.1).dmem = ((s.eng y.1).loaded j.image y.1).dmem ∧
          (imgExt j.image = true → t.run (y.1 / 4) B.ENG (y.1 % 4) = ofBool y.2.isSome) ∧
          (imgExt j.image = false → t.run (y.1 / 4) B.ENG (y.1 % 4) = ofBool (decide (entriesOf j.image y.1 ≠ [])))) ∧
    (s.ownsHost h = false → exec (.loadStaged h bytes false) s = .next s ∧ exec (.loadEnd h) s = .next s)

/-! ## Pins, reset and boot (R159 to R168, R476, R480) -/

/-- R160 to R163, R476, R480: PWRGOOD low and a RESET_N low that lasts past the filter assert the internal reset; each pin's
rise starts the release delay once the other is high; TRST_N and PWRGOOD low reset the TAP; the thermal and clock-supply
pins follow their sensors. The internal reset takes every register and buffer to its reset value but what R161 keeps and what the
model keeps besides (log entry 33: the pins with PERST_N, the sensors' alarm, FVDD_OK, the waiting commands, a rollback that it cuts);
what it holds is log entry 32. -/
def Obligations.PinsAndReset : Prop :=
  ∀ (s : State) (d k : Nat) (low : Bool),
    let pins (p : Pins) (r : ResetState) : State := { s with pins := p, resets := r }
    let p := s.pins
    let r := s.resets
    let cleared (t : State) : Prop :=
      t.resets.asserted = true ∧ t.part = s.part ∧ t.otp.lifecycle = s.otp.lifecycle ∧ t.otp.keys = s.otp.keys ∧
        t.otp.secret = s.otp.secret ∧ t.secNvs = s.secNvs ∧ t.therm = s.therm ∧ t.pending = s.pending ∧ t.engs = [] ∧
        t.own = {} ∧ t.rom = {} ∧ (∀ h, t.host h = { perstN := (s.host h).perstN }) ∧ t.ridges = [] ∧ t.plls = [] ∧ t.ports = [] ∧ t.dies = [] ∧ t.l2 = [] ∧ t.tbls = [] ∧
        t.msgs = [] ∧ (s.sec.rollTo = none → t.otp = s.otp) ∧
        (∀ f x i, (∀ y, F.FIELD.STATUS_FVDD_OK.key y 0 ≠ f.key x i) → F.SEC.DBG_OPEN.key 0 0 ≠ f.key x i →
          t.rf f x i = f.rst s.part x i) ∧
        t.rf F.SEC.DBG_OPEN 0 0 = 0
    (p.pwrgood = true → ∃ t, exec .pwrgoodFall s = .next t ∧ cleared t ∧ t.pins = { p with pwrgood := false } ∧
      t.sec.tap = {}) ∧
    (p.pwrgood = false → exec .pwrgoodRise s = .next (pins { p with pwrgood := true }
      { r with releasing := r.asserted && (p.resetN || r.filtering) })) ∧
    (p.resetN = true → exec .resetNFall s = .next (pins { p with resetN := false } { r with filtering := true })) ∧
    (r.filtering = true → r.asserted = false → ∃ t, exec .resetNFiltered s = .next t ∧ cleared t ∧ t.pins = p ∧
      t.sec.tap = s.sec.tap) ∧
    (p.resetN = false → r.filtering = true →
      exec .resetNRise s = .next (pins { p with resetN := true } { r with filtering := false })) ∧
    (p.resetN = false → r.filtering = false →
      exec .resetNRise s = .next (pins { p with resetN := true } { r with releasing := r.asserted && p.pwrgood })) ∧
    (∃ t, exec (.tapReset low) s = .next t ∧ t.pins = { p with trstN := !low } ∧
      t.sec = { s.sec with tap := if low then {} else s.sec.tap } ∧ t.regs = s.regs) ∧
    (s.hasDie d = true → k < 4 → ∃ t, exec (.thermAssert d k) s = .next t ∧ t.pins = { p with thermLow := true } ∧
      (d, k) ∈ t.therm.hot) ∧
    (exec .thermRelease s = .next { s with pins := { p with thermLow := false }, therm := { s.therm with hot := [] } }) ∧
    exec (.clkoSupplyChange low) s = .next { s with pins := { p with clkoLow := low } }

/-- R162, R164, R167: the release latches BOOT_SEL, opens the debug port in DEVELOPMENT alone and starts the self-test; an
SEC area that fails its CRC locks the port out; the end of the self-test, a failed one with SEC in FAULT 0x10, leads to the
wait for D0's PLL, whose lock starts D0's RIDGE and MESH and leads to the wait for the other dies. The operand that says whether the
SEC area fails is the model's (log entry 34), as are the two steps of a follower, its PLL and then its RIDGE (7), whose start needs
an alignment message (35). -/
def Obligations.ReleaseAndBoot : Prop :=
  ∀ (s : State) (bad ok : Bool) (d : Nat),
    (s.resets.asserted = true → s.resets.releasing = true → s.pins.pwrgood = true →
      s.pins.resetN = true ∨ s.resets.filtering = true →
      ∃ t, exec (.resetRelease bad) s = .next t ∧ t.resets = { s.resets with asserted := false, releasing := false } ∧
        t.rf F.SEC.BOOT_BOOT_SEL 0 0 = s.pins.bootSel.toNat ∧ t.flag F.SEC.DBG_OPEN 0 0 = (s.otp.lifecycle == 1) ∧
        t.sec.phase = .selfTest ∧ t.otp = s.otp ∧
        (bad = true → t.secNvs.lockout = true ∧ t.secNvs.fails = 8 ∧ t.secNvs.password = none ∧
          t.flag F.SEC.ERR_NVS_SEC_CRC 0 0 = true) ∧
        (bad = false → s.secNvs.ok = true → t.secNvs = s.secNvs)) ∧
    (s.resets.asserted = false → s.sec.phase = .selfTest →
      ∃ u v : State, (if ok then u = s else u.run 0 B.SEC 0 = 3 ∧ u.rf (F.BLOCK.FSTATE_FAULT_CODE B.SEC) 0 0 = 0x10) ∧
        v = ((((u.startAll B.NVS).startAll B.TEMP).startRequest none 0 B.HOST 0).startRequest none 0 B.PLL 0) ∧
        exec (.secSelfTestEnd ok) s = .next { v with sec := { v.sec with phase := .waitD0 } }) ∧
    (s.sec.phase = .waitD0 → s.pllMode 0 = 1 →
      let ds := List.range (Config.nDies s.part)
      let u := ds.foldl (fun x a => (ds.filter (· != a)).foldl (fun x b => x.startRequest none a B.MESH b) x)
        (s.startRequest none 0 B.RIDGE 0)
      ∃ left, exec .bootD0Locked s = .next { u with sec := { u.sec with phase := .waitFollowers left } } ∧
        (∀ k, k ∈ left ↔ 0 < k ∧ k < Config.nDies s.part)) ∧
    (∀ left, s.hasDie d = true → s.resets.asserted = false → s.sec.phase = .waitFollowers left → d ∈ left →
      s.inRun d B.PLL 0 = false → s.flag F.MESH.STATUS_RX_UP d 0 = true → s.flag F.MESH.STATUS_FWD_CLK_OK d 0 = true →
      exec (.bootFollowerLocked d) s = .next (s.startRequest none d B.PLL 0)) ∧
    (∀ left, s.hasDie d = true → s.resets.asserted = false → s.sec.phase = .waitFollowers left → d ∈ left →
      s.inRun d B.PLL 0 = true → s.pllMode d = 1 →
      let u := s.startRequest none d B.RIDGE 0
      let v : State := { u with sec := { u.sec with phase := .waitFollowers (left.filter (· != d)) } }
      exec (.bootFollowerLocked d) s = .next (if left.filter (· != d) = [] then v.bootPrograms else v))

/-! ## SEC: lifecycle, keys, rollback, flash (R169 to R177) -/

/-- R173 to R176: an advance of the lifecycle by one step with CONFIRM 0xA5, to PRODUCTION only with a key, closes the port and
raises event 4; a fault of SEC refuses with 4; a single reason for refusal gives its code; a rollback advance is taken up
between the present value and 256 and blows its fuses when it is done, and none with SEC in FAULT by then. That an advance closes the
debug port is the model's reading (log entry 37). -/
def Obligations.LifecycleAndRollback : Prop :=
  ∀ (s : State) (e target confirm new blown : Nat) (err : Bool), target < 16 → confirm < 256 → new < 512 →
    let lc := mkFa 0 B.SEC 0 0x00
    let rb := mkFa 0 B.SEC 0 0x40
    let lcw := confirm * 2 ^ 16 + target * 2 ^ 8
    let rbw := new * 2 ^ 16
    let lcLands (u : State) : Prop := exec (.lcAdvance e target confirm) s = .next (u.judged e lc 32 lcw 0)
    let rbLands (u : State) : Prop := exec (.rollbackAdvance e new) s = .next (u.judged e rb 32 rbw 0)
    let rbEnds (u : State) (c : Nat) : Prop := u.rf F.SEC.ROLLBACK_STATUS 0 0 = c ∧ u.flag F.SEC.ROLLBACK_BUSY 0 0 = false ∧
      u.sec.rollTo = none
    let step : Prop := target = s.otp.lifecycle + 1 ∧ target ≤ 3
    let keyed : Prop := target = 2 → s.liveSlots ≠ []
    (s.grantsWrite e lc 32 lcw = true → s.secFault = false → step → keyed → confirm = 0xA5 →
      ∃ u, lcLands u ∧ u.otp = { s.otp with lifecycle := target } ∧ u.rf F.SEC.LC_ADV_STATUS 0 0 = 0 ∧
        u.flag F.SEC.DBG_OPEN 0 0 = false ∧ u.sec.dbgHalted = [] ∧
        ∀ x l, (x, l) ∈ s.drives 0 B.SEC 0 4 → x / 4 = 0 → l < 64 → (u.eng x).pending.getLsbD l = true) ∧
    (s.grantsWrite e lc 32 lcw = true → s.secFault = true → ∃ u, lcLands u ∧ u.otp = s.otp ∧ u.rf F.SEC.LC_ADV_STATUS 0 0 = 4) ∧
    (s.grantsWrite e lc 32 lcw = true → s.secFault = false → ¬ step → keyed → confirm = 0xA5 →
      ∃ u, lcLands u ∧ u.otp = s.otp ∧ u.rf F.SEC.LC_ADV_STATUS 0 0 = 1) ∧
    (s.grantsWrite e lc 32 lcw = true → s.secFault = false → step → ¬ keyed → confirm = 0xA5 →
      ∃ u, lcLands u ∧ u.otp = s.otp ∧ u.rf F.SEC.LC_ADV_STATUS 0 0 = 2) ∧
    (s.grantsWrite e lc 32 lcw = true → s.secFault = false → step → keyed → confirm ≠ 0xA5 →
      ∃ u, lcLands u ∧ u.otp = s.otp ∧ u.rf F.SEC.LC_ADV_STATUS 0 0 = 3) ∧
    (s.grantsWrite e rb 32 rbw = true → s.flag F.SEC.ROLLBACK_BUSY 0 0 = false → s.secFault = false →
      (s.otp.rollback ≤ new → new ≤ 256 → ∃ u, rbLands u ∧ u.flag F.SEC.ROLLBACK_BUSY 0 0 = true ∧
        u.sec.rollTo = some new ∧ u.otp = s.otp) ∧
      (new < s.otp.rollback → ∃ u, rbLands u ∧ rbEnds u 1 ∧ u.otp = s.otp) ∧
      (s.otp.rollback ≤ new → 256 < new → ∃ u, rbLands u ∧ rbEnds u 2 ∧ u.otp = s.otp)) ∧
    (s.grantsWrite e rb 32 rbw = true → s.flag F.SEC.ROLLBACK_BUSY 0 0 = false → s.secFault = true →
      ∃ u, rbLands u ∧ rbEnds u 4 ∧ u.otp = s.otp) ∧
    (s.sec.rollTo = some new → s.secFault = true → ∃ t, exec (.rollbackDone err blown) s = .next t ∧ rbEnds t 4 ∧ t.otp = s.otp) ∧
    (s.sec.rollTo = some new → s.secFault = false → ∃ t, exec (.rollbackDone err blown) s = .next t ∧ rbEnds t (if err then 3 else 0) ∧
      t.otp = { s.otp with rollback := if err then min (s.otp.rollback + blown) new else new })

/-- R174, R175, R177: a key command that nothing forbids is taken up, BUSY, with the staged bytes; done, it enrols a key into
its empty slot, revokes a slot, stores the debug secret, or sets or removes the password, and STATUS is 0; a fuse that fails
gives 6, a fault of SEC 7, at the write or by the end, and what forbids the command its code, of several one that is free
(log entry 36). Which KEY_ID bars an enrolment, and that LEN above 64 is code 5, is the model's reading (37); that lifecycle
and last key are judged at the write alone its choice (104). R171, R172: GO starts a flash access, with the level of
SPI_WP_N that it gives, which waits while a load reads the flash (log entry 38); a length above 256 or ADDR_BYTES 3 is
refused with SPI_ARG; its end clears BUSY and fills the window on a read. -/
def Obligations.KeyAndFlashCommands : Prop :=
  (∀ (s : State) (e slot len : Nat) (err : Bool), slot < 4 → len < 128 →
     let a := mkFa 0 B.SEC 0 0x10
     let cmd (op : Nat) : Instr := match op with
       | 1 => .keyEnrol e slot | 2 => .keyRevoke e slot | 3 => .debugSecretEnrol e | _ => .ownerPasswordSet e len
     let at_ (op : Nat) : Nat := if op = 1 ∨ op = 2 then slot else 0
     let n (op : Nat) : Nat := if op = 4 then len else 0
     let w (op : Nat) : Nat := op * 2 ^ 28 + at_ op * 2 ^ 26 + n op
     let size (op : Nat) : Nat := match op with
       | 1 => 96 | 2 => 0 | 3 => 32 | _ => len
     let lands (op : Nat) (u : State) : Prop := exec (cmd op) s = .next (u.judged e a 32 (w op) 0)
     let ended (u : State) (c : Nat) : Prop := u.rf F.SEC.KEY_CMD_STATUS 0 0 = c ∧ u.flag F.SEC.KEY_CMD_BUSY 0 0 = false ∧
       u.sec.key = none ∧ u.sec.staging = []
     (s.flag F.SEC.KEY_CMD_BUSY 0 0 = false → ∀ op, 1 ≤ op → op ≤ 4 → s.grantsWrite e a 32 (w op) = true →
       (s.secFault = true → ∃ u, lands op u ∧ ended u 7 ∧ u.otp = s.otp) ∧
       (s.secFault = false → s.keyRefusals op (at_ op) (n op) = [] → ∃ u, lands op u ∧ u.flag F.SEC.KEY_CMD_BUSY 0 0 = true ∧
         u.sec.key = some ⟨op, at_ op, 0, Store.getList 0 s.sec.staging 0 (size op)⟩ ∧ u.otp = s.otp) ∧
       (s.secFault = false → s.keyRefusals op (at_ op) (n op) ≠ [] →
         ∃ u, ∃ c ∈ s.keyRefusals op (at_ op) (n op), lands op u ∧ ended u c ∧ u.otp = s.otp)) ∧
     (∀ op c, 1 ≤ op → op ≤ 4 → (c ∈ s.keyRefusals op slot len ↔
       (c = 4 ∧ s.otp.lifecycle = 3) ∨ (op = 1 ∧ c = 1 ∧ s.slot slot ≠ .empty) ∨
       (op = 1 ∧ c = 5 ∧ (Config.onCurve (Store.getList 0 s.sec.staging 0 96) = false ∨
         ∃ k pub, k < 4 ∧ k ≠ slot ∧ (s.slot k = .enrolled pub ∨ s.slot k = .revoked pub) ∧
           keyIdOf pub = keyIdOf (Store.getList 0 s.sec.staging 0 96))) ∨
       (op = 2 ∧ c = 2 ∧ ∀ pub, s.slot slot ≠ .enrolled pub) ∨
       (op = 2 ∧ c = 3 ∧ s.otp.lifecycle = 2 ∧ s.liveSlots = [slot]) ∨ (op = 3 ∧ c = 1 ∧ s.otp.secret ≠ none) ∨
       (op = 4 ∧ c = 5 ∧ 64 < len))) ∧
     (∀ j : KeyJob, s.sec.key = some j → s.secFault = true →
       ∃ t, exec (.keyCmdDone err) s = .next t ∧ ended t 7 ∧ t.otp = s.otp ∧ t.secNvs = s.secNvs) ∧
     (∀ j : KeyJob, s.sec.key = some j → s.secFault = false → err = false → ∃ t, exec (.keyCmdDone err) s = .next t ∧ ended t 0 ∧
       (j.op = 1 → t.slot j.slot = .enrolled j.data) ∧
       (j.op = 2 → ∀ pub, s.slot j.slot = .enrolled pub → t.slot j.slot = .revoked pub) ∧
       (j.op = 3 → t.otp.secret = some j.data) ∧
       (j.op = 4 → j.data = [] → t.secNvs.password = none) ∧
       (j.op = 4 → j.data ≠ [] → ∃ salt, t.secNvs.password = some (salt, Config.saltedDigest salt j.data)) ∧
       (j.op ≠ 1 → j.op ≠ 2 → t.otp.keys = s.otp.keys) ∧ (∀ k, k ≠ j.slot → t.slot k = s.slot k) ∧
       t.otp.lifecycle = s.otp.lifecycle ∧ t.otp.rollback = s.otp.rollback) ∧
     (∀ j : KeyJob, s.sec.key = some j → s.secFault = false → err = true → j.op ≠ 4 →
       ∃ t, exec (.keyCmdDone err) s = .next t ∧ ended t 6 ∧ t.otp = s.otp)) ∧
  (∀ (s : State) (e ab opcode len : Nat) (wp dir : Bool) (bytes : List Byte), ab < 4 → opcode < 256 → len < 512 →
     let a := mkFa 0 B.SEC 0 0x50
     let w := 2 ^ 30 + ofBool wp * 2 ^ 29 + ofBool dir * 2 ^ 26 + ab * 2 ^ 24 + opcode * 2 ^ 16 + len
     let lands (u : State) : Prop := exec (.spiGo e wp dir ab opcode len) s = .next (u.judged e a 32 w 0)
     (s.grantsWrite e a 32 w = true → s.flag F.SEC.SPI_CMD_BUSY 0 0 = false →
       (256 < len ∨ ab = 3 → ∃ u, lands u ∧ u.flag F.SEC.ERR_SPI_ARG 0 0 = true ∧ u.sec = s.sec ∧
         RegsOnly [(F.SEC.ERR_SPI_ARG, 0, 0)] s u) ∧
       (len ≤ 256 → ab ≠ 3 → ∃ u, lands u ∧ u.flag F.SEC.SPI_CMD_BUSY 0 0 = true ∧ u.rf F.SEC.SPI_CMD_LEN 0 0 = len ∧
         u.rf F.SEC.SPI_CMD_OPCODE 0 0 = opcode ∧ u.flag F.SEC.SPI_CMD_DIR 0 0 = dir ∧ u.spiWpN = wp ∧
         u.sec = { s.sec with spiWaiting := s.flashBusy, spiActive := !s.flashBusy })) ∧
     (s.sec.spiActive = true → s.flag F.SEC.SPI_CMD_DIR 0 0 = true ∨ bytes.length = s.rf F.SEC.SPI_CMD_LEN 0 0 →
       ∃ t, exec (.spiAccessDone bytes) s = .next t ∧ t.flag F.SEC.SPI_CMD_BUSY 0 0 = false ∧ t.sec.spiActive = false ∧
         (s.flag F.SEC.SPI_CMD_DIR 0 0 = false → Store.getList 0 t.sec.spiWin 0 bytes.length = bytes) ∧
         (s.flag F.SEC.SPI_CMD_DIR 0 0 = true → t.sec.spiWin = s.sec.spiWin)))

/-! ## The debug port (R163, R178 to R181) -/

/-- R178: the TAP's instructions select their registers and drive the pins; an open port reads and halts engines; a closed one
behaves as BYPASS and touches nothing. The places of READY, OPEN, HOLD, LOCKOUT and the lifecycle in what DBG_STATUS shifts out, and
of status and data in DBG_ACCESS's, are the model's choice (log entry 39). -/
def Obligations.TapInstructions : Prop :=
  ∀ (s : State) (e : Nat) (pins bits : List Bool) (addr : BitVec 40) (wr : Bool) (data : Word) (op : DbgOp) (r : Reg),
    s.pins.pwrgood = true → s.pins.trstN = true →
    let tap (ir out : Nat) (b : List Bool) (driving highz : Bool) : State :=
      { s with sec := { s.sec with tap := ⟨ir, out, b, driving, highz⟩ } }
    let old := s.sec.tap.boundary
    let opened : Prop := s.flag F.SEC.DBG_OPEN 0 0 = true ∧ s.resets.asserted = false
    let cause := s.dbgCause addr.toNat wr
    exec .idcode s = .next (tap 0x01 (idcode s.part) old false false) ∧
    exec (.samplePreload pins bits) s = .next (tap 0x02 (bitsNat pins) bits false false) ∧
    exec (.extest pins bits) s = .next (tap 0x03 (bitsNat pins) bits true false) ∧
    exec .clamp s = .next (tap 0x04 0 old true false) ∧
    exec .highz s = .next (tap 0x05 0 old false true) ∧
    exec .bypass s = .next (tap 0xFF 0 old false false) ∧
    (∃ t, exec .dbgStatus s = .next t ∧ t.sec.tap.ir = 0x13 ∧
      t.sec.tap.shiftOut / 2 = s.rf F.SEC.DBG_OPEN 0 0 + 2 * ofBool s.sec.hold.isSome + 4 * ofBool s.secNvs.lockout +
        8 * s.otp.lifecycle ∧ t = { s with sec := t.sec, free := t.free }) ∧
    (¬ opened → exec (.dbgAccess addr wr data) s = .next (tap 0x20 0 old false false)) ∧
    (opened → cause ≠ 0 → exec (.dbgAccess addr wr data) s = .next (tap 0x20 (cause % 16) old false false)) ∧
    (opened → cause = 0 → wr = false → ∃ t, exec (.dbgAccess addr wr data) s = .next t ∧
      t.sec.tap.shiftOut = 16 * (s.readAt 0 (faDie addr.toNat) (faBlk addr.toNat) (faInst addr.toNat) (faOff addr.toNat) 8).2) ∧
    (opened → cause = 0 → wr = true → ∃ t, exec (.dbgAccess addr wr data) s = .next t ∧ t.sec.tap.shiftOut = 0) ∧
    (Config.nEngines s.part ≤ e ∨ ¬ opened → exec (.dbgEng e op) s = .next (tap 0x21 0 old false false)) ∧
    (e < Config.nEngines s.part → opened →
      (∃ t, exec (.dbgEng e .halt) s = .next t ∧ e ∈ t.sec.dbgHalted ∧ t.engs = s.engs) ∧
      (e ∈ s.sec.dbgHalted → ∃ t, exec (.dbgEng e .step) s = .next t ∧ t.sec.dbgStep = some e ∧ t.engs = s.engs) ∧
      exec (.dbgEng e (.readV r)) s = .next (tap 0x21 ((s.eng e).rv r).toNat old false false) ∧
      exec (.dbgEng e .readPc) s = .next (tap 0x21 (s.eng e).pc.toNat old false false))

/-- R179 to R181: a nonce serves one response; a counted attempt outside HOLD, LOCKOUT and FAULT, in PRODUCTION with its method
allowed, opens the port on a match and clears FAILS, else counts, starts HOLD and locks out at the eighth; the timers end; a
relock closes the port and FAILS_CLR clears FAILS and LOCKOUT. The model's choices: an attempt that takes FAILS to 8 is compared
before it locks out (log entry 85), one with no secret or password, or a length above 64, is a mismatch and counts (86), and the
timers run on D0's ticks (40). -/
def Obligations.DebugUnlocking : Prop :=
  ∀ (s : State) (e len : Nat) (resp : BitVec 256) (bytes : List Byte) (pwd chal : Bool) (n : BitVec 128) (at_ : Nat),
    let live : Prop := s.pins.pwrgood = true ∧ s.pins.trstN = true
    let may (allowed : Bool) : Prop := s.resets.asserted = false ∧ s.sec.hold = none ∧ allowed = true ∧ s.secFault = false ∧
      s.secNvs.lockout = false ∧ s.otp.lifecycle = 2
    let opens (o : Out) : Prop := ∃ t, o = .next t ∧ t.flag F.SEC.DBG_OPEN 0 0 = true ∧ t.secNvs = { s.secNvs with ok := true, fails := 0 }
    let fails (o : Out) : Prop := ∃ t, o = .next t ∧ t.flag F.SEC.DBG_OPEN 0 0 = s.flag F.SEC.DBG_OPEN 0 0 ∧
      t.sec.hold = some (s.tick 0) ∧
      t.secNvs = { s.secNvs with ok := true, fails := s.secNvs.fails + 1, lockout := decide (8 ≤ s.secNvs.fails + 1) }
    let kept (o : Out) : Prop := ∃ t, o = .next t ∧ t.flag F.SEC.DBG_OPEN 0 0 = s.flag F.SEC.DBG_OPEN 0 0 ∧ t.secNvs = s.secNvs
    let answer (k : List Byte) : BitVec 256 := Config.hmacSha256 k (chalBytes s.part n)
    let a := mkFa 0 B.SEC 0 0x48
    let bits := ofBool pwd * 2 ^ 5 + ofBool chal * 2 ^ 4
    (live → s.resets.asserted = false → ∃ t x, exec .dbgChal s = .next t ∧ t.sec.nonce = some (x, s.tick 0) ∧
      t.sec.tap.shiftOut = x.toNat) ∧
    (live → s.sec.nonce = some (n, at_) → may s.secNvs.allowChal →
      (∀ k, s.otp.secret = some k → resp = answer k → opens (exec (.dbgResp resp) s)) ∧
      (s.otp.secret = none ∨ (∃ k, s.otp.secret = some k ∧ resp ≠ answer k) → fails (exec (.dbgResp resp) s))) ∧
    (live → s.sec.nonce = none ∨ ¬ may s.secNvs.allowChal → kept (exec (.dbgResp resp) s)) ∧
    (live → ∃ t, exec (.dbgResp resp) s = .next t ∧ t.sec.nonce = none) ∧
    (live → may s.secNvs.allowPwd → ∀ salt digest, s.secNvs.password = some (salt, digest) → len ≤ 64 →
      (Config.saltedDigest salt (bytes.take len) = digest → opens (exec (.dbgPwd len bytes) s)) ∧
      (Config.saltedDigest salt (bytes.take len) ≠ digest → fails (exec (.dbgPwd len bytes) s))) ∧
    (live → may s.secNvs.allowPwd → s.secNvs.password = none ∨ 64 < len → fails (exec (.dbgPwd len bytes) s)) ∧
    (live → ¬ may s.secNvs.allowPwd → kept (exec (.dbgPwd len bytes) s)) ∧
    (∀ t, s.sec.hold = some t → t + 625000000 ≤ s.tick 0 →
      exec .dbgHoldExpire s = .next { s with sec := { s.sec with hold := none } }) ∧
    (∀ x t, s.sec.nonce = some (x, t) → t + 37500000000 ≤ s.tick 0 →
      exec .nonceExpire s = .next { s with sec := { s.sec with nonce := none } }) ∧
    (s.grantsWrite e a 32 (2 ^ 9 + bits) = true → ∃ u : State, exec (.dbgRelock e pwd chal) s = .next (u.judged e a 32 (2 ^ 9 + bits) 0) ∧
      u.flag F.SEC.DBG_OPEN 0 0 = false ∧ u.sec = { s.sec with dbgHalted := [], dbgStep := none } ∧
      u.secNvs = { s.secNvs with ok := true, allowPwd := pwd, allowChal := chal }) ∧
    (s.grantsWrite e a 32 (2 ^ 8 + bits) = true → ∃ u : State, exec (.dbgFailsClr e pwd chal) s = .next (u.judged e a 32 (2 ^ 8 + bits) 0) ∧
      u.secNvs = { s.secNvs with ok := true, allowPwd := pwd, allowChal := chal, fails := 0, lockout := false } ∧
      RegsOnly [] { s with secNvs := u.secNvs } u)

/-! ## Lanes, PCS and PLLs (R182 to R228) -/

/-- R187 to R191, R196 to R203: the phase tracker's reports, locks and windows, the CTLE's steps, the pattern checker, whose loss
counts 64 errors within 1,024 bits over several counts too. What a command carries of what the lane receives is the model's choice
(log entry 100), as are PT_GEN once a ridge tick (45), the first report folded into a unit interval (49), and which reports an invalid
header or an uncorrectable codeword leaves out, with an all-zero stream that fits the recurrence (105). -/
def Obligations.LaneReceivers : Prop :=
  ∀ (s : State) (l sub errors window n t0 : Nat) (move ppb a : Int) (signal up resets : Bool) (bits : List Bool), l < Config.nPorts s.part →
    s.resets.asserted = false →
    let d := l / 24
    let i := l % 24
    let p := s.portOf l
    let on (f : Fld) : Bool := s.flag f d i
    let awake : Prop := s.laneRun l = true ∧ on F.LANE.SLEEP_RX_ASLEEP = false
    let phase : Int := if (s.lane l).reported = true then s.rfS F.LANE.PT_SAMPLE_PHASE d i + move else foldUi (s.rfF F.LANE.CFG_RATE d i) move
    let range := if s.rfF F.LANE.CFG_SSC_TOL d i = 1 then 5200000 else 200000
    let peak := s.rf F.LANE.EQ_NOW_PEAK_NOW d i
    let peak' := if up then min (peak + 1) 31 else peak - 1
    let rate : Int := (s.rfS F.LANE.PT_SAMPLE_PHASE d i - a) * 16384
    let near := ((s.errsNear l).map (·.2)).sum
    let locks : Prop := prbsClean (s.rfF F.LANE.TEST_RX_PAT d i) 64 (bits.map (· != (s.rfF F.LANE.CFG_POL_RX d i == 1))) = true
    (∀ u : State, (u.lane l).genAt ≠ u.tick d + 1 → ∃ v : State, u.ptGen l = (if v.portOf l = l then v.linkGen l else v) ∧
      v.rf F.LANE.STATUS_PT_GEN d i = (u.rf F.LANE.STATUS_PT_GEN d i + 1) % 2 ^ F.LANE.STATUS_PT_GEN.w) ∧
    (awake → on F.LANE.STATUS_PT_LOCK = true → ∃ u : State,
      exec (.phaseReport l move sub) s = .next (if p = l ∧ s.pcsRun p = true then u.linkReport p phase sub else u) ∧
      (u.lane l).reported = true ∧ (u.lane l).unfit = (s.lane l).unfit - 1 ∧
      (u.lane l).qual = (s.lane l).qual + ofBool (s.qualifies l && (s.lane l).unfit == 0) ∧
      (u.lane l).quals = (s.lane l).quals + ofBool (s.qualifies l && (s.lane l).unfit == 0) ∧ u.rf F.LANE.PT_SAMPLE_TICK d i = s.tick d % 2 ^ F.LANE.PT_SAMPLE_TICK.w ∧
      u.rf F.LANE.PT_SAMPLE_PHASE d i = ofSigned 48 phase % 2 ^ F.LANE.PT_SAMPLE_PHASE.w ∧
      u.rf F.LANE.PT_SAMPLE_GEN d i = s.rf F.LANE.STATUS_PT_GEN d i % 2 ^ F.LANE.PT_SAMPLE_GEN.w) ∧
    (awake → on F.LANE.STATUS_PT_LOCK = false → ppb.natAbs ≤ range → ∃ u : State,
      exec (.trackerLock l ppb) s = .next ((u.refreshLane l).followRefs) ∧ u.flag F.LANE.STATUS_PT_LOCK d i = true ∧
      u.flag F.LANE.STATUS_SIG_DET d i = true ∧ (u.lane l).reported = false) ∧
    (awake → on F.LANE.STATUS_PT_LOCK = false → range < ppb.natAbs → ∃ t, exec (.trackerLock l ppb) s = .next t ∧
      t.flag F.LANE.ERR_FREQ_RANGE d i = true ∧
      RegsOnly [(F.LANE.STATUS_SIG_DET, d, i), (F.LANE.ERR_FREQ_RANGE, d, i)] s t) ∧
    (on F.LANE.STATUS_PT_LOCK = true → ∃ u : State,
      exec (.trackerUnlock l signal) s = .next ((((u.ptGen l).refreshFrozen l).refreshLane l).followRefs) ∧
      u.flag F.LANE.STATUS_PT_LOCK d i = false ∧ u.flag F.LANE.STATUS_MESO d i = false ∧
      u.flag F.LANE.ERR_PT_UNLOCK d i = true ∧ u.flag F.LANE.STATUS_SIG_DET d i = signal) ∧
    (on F.LANE.STATUS_PT_LOCK = true → (s.lane l).winAt = some (t0, a) → s.tick d = t0 + 625000 → -2 ^ 63 ≤ rate →
      rate < 2 ^ 63 → ∃ u : State, exec (.freqWindowEnd l rate) s = .next (u.refreshLane l) ∧
      (u.lane l).winAt = some (s.tick d, s.rfS F.LANE.PT_SAMPLE_PHASE d i) ∧ u.rf F.LANE.FREQ_OFFSET d i = ofSigned 64 rate % 2 ^ 64 ∧
      u.flag F.LANE.STATUS_MESO d i = decide (rate.natAbs ≤ 655360)) ∧
    ((s.lane l).winAt = none ∨ (∃ t x, (s.lane l).winAt = some (t, x) ∧ s.tick d < t + 625000) →
      exec (.freqWindowEnd l rate) s = .next s) ∧
    ((s.lane l).winAt = some (t0, a) → phaseRate (s.rfS F.LANE.PT_SAMPLE_PHASE d i - a) (s.tick d - t0) ppb = false →
      exec (.freqWindowEnd l ppb) s = .next s) ∧
    (awake → s.rfF F.LANE.EQ_RX_MODE d i = 0 → s.qualifies l = true → 65536 ≤ (s.lane l).qual →
      (s.lane l).sleepAt ≠ s.tick d + 1 → ∃ t, exec (.ctleAdaptStep l up) s = .next t ∧ (t.lane l).qual = 0 ∧
      t.rf F.LANE.EQ_NOW_PEAK_NOW d i = peak' % 32 ∧ (peak' = 0 ∨ peak' = 31 → t.flag F.LANE.ERR_ADAPT_LIMIT d i = true) ∧
      RegsOnly [(F.LANE.EQ_NOW_PEAK_NOW, d, i), (F.LANE.ERR_ADAPT_LIMIT, d, i)] (s.setLane l (t.lane l)) t) ∧
    ((s.lane l).qual < 65536 → exec (.ctleAdaptStep l up) s = .next s) ∧
    (s.laneRun l = true → s.mode p = 1 → ∃ t, exec (.adaptFreeze l ⟨n, resets⟩) s = .next t ∧
      t.lane l = { s.lane l with sets := if resets then 0 else min 64 ((s.lane l).sets + n) } ∧
      RegsOnly [(F.LANE.STATUS_ADAPT_FROZEN, d, i)] (s.setLane l (t.lane l)) t) ∧
    (s.laneRun l = true → s.rfF F.LANE.TEST_RX_PAT d i ≠ 0 → locks → ∃ t, exec (.prbsLock ⟨l, bits⟩) s = .next t ∧
      t.flag F.LANE.PRBS_STAT_LOCK d i = true ∧ t.lane l = { s.lane l with errs := [] } ∧
      RegsOnly [(F.LANE.PRBS_STAT_LOCK, d, i), (F.LANE.STATUS_ADAPT_FROZEN, d, i)] (s.setLane l (t.lane l)) t) ∧
    (¬ locks → exec (.prbsLock ⟨l, bits⟩) s = .next s) ∧
    (on F.LANE.PRBS_STAT_LOCK = true → ∃ t, exec (.prbsLoss l ⟨errors, window⟩) s = .next t ∧
      t.lane l = { s.lane l with errs := (s.tick d, errors) :: s.errsNear l } ∧
      (64 ≤ window → window ≤ errors + near →
        t.flag F.LANE.PRBS_STAT_LOCK d i = false ∧ t.flag F.LANE.PRBS_STAT_LOST d i = true) ∧
      (window < 64 ∨ errors + near < window → RegsOnly [(F.LANE.PRBS_ERR_COUNT, d, i)] (s.setLane l (t.lane l)) t) ∧
      t.rf F.LANE.PRBS_ERR_COUNT d i =
        min (s.rf F.LANE.PRBS_ERR_COUNT d i + errors) (2 ^ F.LANE.PRBS_ERR_COUNT.w - 1) % 2 ^ F.LANE.PRBS_ERR_COUNT.w)

/-- R184, R191, R193 to R195: locks of the PCS, HI_BER, fault ordered sets and uncorrectable codewords; LINK_UP follows its
conditions and its fall is marked. That a lane of a group that loses its lock takes the alignment with it is the model's reading (log
entry 45), as is the group of four (44); what a command carries (100), and which reports an invalid header and a codeword leave out
(R198, 105), its choice. -/
def Obligations.PcsLocks : Prop :=
  ∀ (s : State) (l slips valid invalid skew blocks corrected symbols : Nat) (hi loc : Bool), l < Config.nPorts s.part → s.resets.asserted = false →
    let p := s.portOf l
    let pd := p / 24
    let pi := p % 24
    let d := l / 24
    let i := l % 24
    let lock (u : State) : Bool := bitSet (u.rf F.PCS.STATUS_BLOCK_LOCK pd pi) (l - p)
    let sat (f : Fld) (n : Nat) : Nat := min (s.rf f d i + n) (2 ^ f.w - 1)
    (∀ u : State, u.portUp l ≠ u.linkHolds l → ∃ v : State, u.refreshLink l = (v.linkUpChange l (u.linkHolds l)).holderPaths ∧
      v.portUp l = u.linkHolds l ∧ (u.linkHolds l = false → v.flag F.PCS.ERR_LINK_DOWN_SEEN d i = true)) ∧
    (∀ u : State, u.portUp l = u.linkHolds l → u.refreshLink l = u) ∧
    (s.laneRun l = true → s.pcsRun p = true → s.byHeaders p = false ∨ 64 ≤ valid → ∃ u : State,
      exec (.blockLockAcquire ⟨l, slips, valid⟩) s = .next (u.refreshLink p) ∧ (l - p < 4 → lock u = true)) ∧
    (s.laneRun l = true → s.pcsRun p = true → s.byHeaders p = true → valid < 64 →
      exec (.blockLockAcquire ⟨l, slips, valid⟩) s = .next (s.setLane l { s.lane l with slip := ((s.lane l).slip + slips) % 66 })) ∧
    (lock s = true → s.byHeaders p = true → invalid < 16 →
      exec (.blockLockLoss ⟨l, invalid⟩) s = .next (if invalid = 0 then s else s.addUnfit [l] 1)) ∧
    (lock s = true → s.byHeaders p = false ∨ 16 ≤ invalid ∧ invalid ≤ 64 → ∃ u : State, exec (.blockLockLoss ⟨l, invalid⟩) s =
        .next (if s.flag F.PCS.STATUS_ALIGN_LOCK pd pi then u.alignLost p else (u.refreshLink p).ptGen l) ∧ lock u = false ∧
      (u.lane p).clean = false) ∧
    (s.mode l = 4 → s.pcsRun l = true → s.blocksLocked l = true → skew ≤ 180000 → ∃ u : State,
      exec (.alignLockChange l true skew) s = .next (u.refreshLink l) ∧ u.flag F.PCS.STATUS_ALIGN_LOCK d i = true ∧
      RegsOnly [(F.PCS.STATUS_ALIGN_LOCK, d, i)] s u) ∧
    (s.mode l = 4 → s.pcsRun l = true → s.flag F.PCS.STATUS_ALIGN_LOCK d i = true → ∃ u : State,
      exec (.alignLockChange l false skew) s =
        .next ([l, l + 1, l + 2, l + 3].foldl (fun s k => s.ptGen k) (u.refreshLink l)) ∧
      u.flag F.PCS.STATUS_ALIGN_LOCK d i = false ∧ u.flag F.PCS.ERR_ALIGN_LOST d i = true) ∧
    (s.pcsRun l = true → s.flag F.PCS.STATUS_HI_BER d i ≠ hi → ∃ u : State,
      exec (.hiBerChange l hi) s = .next (u.refreshLink l) ∧ u.flag F.PCS.STATUS_HI_BER d i = hi ∧
      (hi = true → u.flag F.PCS.ERR_HI_BER_SEEN d i = true)) ∧
    (s.pcsRun l = true → s.mode l ≠ 1 → s.blocksLocked l = true → ∃ u : State,
      exec (.faultOrderedSetReceive l loc) s = .next (u.refreshLink l) ∧
      u.flag F.PCS.STATUS_LF_RX d i = loc ∧ u.flag F.PCS.STATUS_RF_RX d i = !loc ∧ (u.lane l).clean = false) ∧
    (s.pcsRun l = true → s.blocksLocked l = true → ∃ u : State, exec (.pcsLinkUp l) s = .next (u.refreshLink l) ∧
      u.flag F.PCS.STATUS_LF_RX d i = false ∧ u.flag F.PCS.STATUS_RF_RX d i = false ∧ (u.lane l).clean = true) ∧
    (s.pcsRun l = true → s.fec l = true → ∃ t, exec (.uncorrectableCodeword l blocks corrected symbols) s = .next t ∧
      t.flag F.PCS.ERR_FEC_UNCORR_SEEN d i = true ∧ t.rf F.PCS.FEC_UNCORR_COUNT d i = sat F.PCS.FEC_UNCORR_COUNT 1 ∧
      t.rf F.PCS.FEC_CORR_COUNT d i = sat F.PCS.FEC_CORR_COUNT corrected ∧
      t.rf F.PCS.FEC_SYMB_COUNT d i = sat F.PCS.FEC_SYMB_COUNT symbols ∧
      (∀ k, k ∈ s.lanesOf l →
        (t.lane k).unfit = (s.lane k).unfit + (blocks + (s.lanesOf l).length - 1) / (s.lanesOf l).length) ∧
      (s.rfF F.PCS.CFG_FEC_BYP_IND d i = 1 → t.ports = s.ports ∧ t.rf F.PCS.BLOCK_ERR_COUNT d i = s.rf F.PCS.BLOCK_ERR_COUNT d i) ∧
      (s.rfF F.PCS.CFG_FEC_BYP_IND d i ≠ 1 → t.rf F.PCS.BLOCK_ERR_COUNT d i = sat F.PCS.BLOCK_ERR_COUNT blocks ∧
        ∀ r, (s.port l).rx = some r → (t.port l).rx = some { r with bad := true }))

/-- R200, R204 to R206: sleep and waking of the two directions, with the snapshot of the peaking; TX_MODE 2 keeps a transmitter awake
until its queues have been empty for TX_IDLE. PT_LOCK and PT_GEN at an entry are the model's reading (log entry 45), PT_UNLOCK its
choice (105). -/
def Obligations.LaneSleep : Prop :=
  ∀ (s : State) (e l : Nat) (idle : BitVec 16) (bad : Bool), l < Config.nPorts s.part → s.resets.asserted = false →
    let d := l / 24
    let i := l % 24
    let a := mkFa d B.LANE i 0xC
    let w (req : Bool) : Nat := idle.toNat * 2 ^ 16 + 16 + 8 * ofBool req
    let peak := if (s.lane l).stepAt = s.tick d + 1 then (s.lane l).stepFrom % 32 else s.rf F.LANE.EQ_NOW_PEAK_NOW d i
    let runs : Prop := s.laneRun l = true ∧ s.pcsRun l = true ∧ s.canSleep l = true
    let asked (u : State) (req : Bool) : Prop := u.rf F.LANE.SLEEP_TX_IDLE d i = idle.toNat ∧
      u.rf F.LANE.SLEEP_TX_MODE d i = 1 ∧ u.flag F.LANE.SLEEP_TX_REQ d i = req
    (runs → s.flag F.LANE.SLEEP_TX_ASLEEP d i = false → ∃ u : State, s.txSleep l = (u.ptGen l).refreshLane l ∧
      u.flag F.LANE.SLEEP_TX_ASLEEP d i = true ∧ u.flag F.PCS.STATUS_LPI_TX d i = true ∧
      u.rf F.LANE.EQ_NOW_SNAP d i = peak % 2 ^ F.LANE.EQ_NOW_SNAP.w ∧ (u.lane l).snap = true) ∧
    (s.flag F.LANE.SLEEP_TX_ASLEEP d i = true → ∃ u : State, s.txWake l = u.refreshLane l ∧
      u.flag F.LANE.SLEEP_TX_ASLEEP d i = false ∧ u.flag F.PCS.STATUS_LPI_TX d i = false ∧ (u.lane l).waking = true) ∧
    (s.canSleep l = true →
      (s.grantsWrite e a 32 (w true) = true → ∃ u : State, exec (.laneSleepRequest e l idle) s = .next ((u.txSleep l).judged e a 32 (w true) 0) ∧ asked u true) ∧
      (s.grantsWrite e a 32 (w false) = true → ∃ u : State, exec (.laneWakeRequest e l idle) s = .next ((u.txWake l).judged e a 32 (w false) 0) ∧ asked u false)) ∧
    (s.canSleep l = false →
      (s.grantsWrite e a 32 (w true) = true → ∃ u : State, exec (.laneSleepRequest e l idle) s =
        .next (((u.txWake l).setFlag F.LANE.ERR_SLEEP_NA d i).judged e a 32 (w true) 0) ∧ asked u true) ∧
      (s.grantsWrite e a 32 (w false) = true → ∃ u : State, exec (.laneWakeRequest e l idle) s =
        .next (((u.txWake l).setFlag F.LANE.ERR_SLEEP_NA d i).judged e a 32 (w false) 0) ∧ asked u false)) ∧
    (s.rf F.LANE.SLEEP_TX_MODE d i = 2 → s.queuesEmpty l = true →
      (s.lane l).idleFrom + 625 * max 1 (s.rf F.LANE.SLEEP_TX_IDLE d i) < s.tick d →
      exec (.txIdleExpire l) s = .next (s.txSleep l)) ∧
    (s.rf F.LANE.SLEEP_TX_MODE d i = 2 → s.canSleep l = true →
      s.queuesEmpty l = false ∨ s.tick d ≤ (s.lane l).idleFrom + 625 * max 1 (s.rf F.LANE.SLEEP_TX_IDLE d i) →
      s.sleepFollow l = s.txWake l) ∧
    exec (.txWakeDone l) s = .next (s.setLane l { s.lane l with waking := false }) ∧
    (runs → s.flag F.LANE.SLEEP_RX_ASLEEP d i = false → ∃ u : State,
      exec (.rxSleepEnter l) s = .next ((((u.ptGen l).refreshFrozen l).refreshLane l).followRefs) ∧ u.flag F.LANE.SLEEP_RX_ASLEEP d i = true ∧
      u.flag F.PCS.STATUS_LPI_RX d i = true ∧ u.flag F.LANE.STATUS_PT_LOCK d i = false ∧
      u.rf F.LANE.EQ_NOW_SNAP d i = peak % 2 ^ F.LANE.EQ_NOW_SNAP.w ∧
      (s.flag F.LANE.STATUS_PT_LOCK d i = true → u.flag F.LANE.ERR_PT_UNLOCK d i = true)) ∧
    (s.flag F.LANE.SLEEP_RX_ASLEEP d i = true → ∃ u : State, exec (.rxWake l bad) s = .next ((u.refreshLane l).followRefs) ∧
      u.flag F.LANE.SLEEP_RX_ASLEEP d i = false ∧ u.flag F.PCS.STATUS_LPI_RX d i = false ∧
      (bad = false → u.rf F.LANE.EQ_NOW_PEAK_NOW d i =
        (if (s.lane l).snap = true then s.rf F.LANE.EQ_NOW_SNAP d i else s.startPeak l) % 2 ^ F.LANE.EQ_NOW_PEAK_NOW.w) ∧
      (bad = true → u.flag F.LANE.ERR_SNAP_BAD d i = true ∧
        u.rf F.LANE.EQ_NOW_PEAK_NOW d i = s.startPeak l % 2 ^ F.LANE.EQ_NOW_PEAK_NOW.w))

/-- R214 to R224: references, mode changes, selection and the move of leadership: at the boundary LEAD_DIE names the new leader
everywhere, and every other die whose PLL runs takes the saddle link from it and goes to ACQUIRE. In ACQUIRE the control word slews at
FSLEW.RATE, and lock is reached at the frequency where it stands. The model's readings: the order 2, 3, 1, 4 of the refusals, a write
of SEL while BUSY, BYPASS_SEEN at every entry to BYPASS, and that a loss of source in the cycle of a loss of lock, where it decides
for HOLDOVER, leaves nothing of the BYPASS (log entry 46); the frequency of a port's clock is free (105). -/
def Obligations.PllModes : Prop :=
  ∀ (s : State) (e d ref : Nat) (src : BitVec 3) (port : BitVec 8) (ppb : Option Int) (err freq : Int), s.resets.asserted = false →
    let a := mkFa 0 B.PLL 0 0x10
    let w := 2 ^ 30 + src.toNat * 2 ^ 24 + port.toNat * 2 ^ 16
    let lead := if src = 3 then port.toNat / 24 else 0
    let code := if src = 3 ∧ s.portExists port.toNat = false then 2
      else if src = 3 ∧ s.rfF F.LANE.CFG_SSC_TOL (port.toNat / 24) (port.toNat % 24) = 1 then 3
      else if s.refValid src.toNat port.toNat = false then 1 else if s.inRun lead B.PLL 0 = false then 4 else 0
    let goal := s.sourceFreq d
    let step : Int := Int.ofNat (s.rfF F.PLL.FSLEW_RATE d 0) * 65536
    let lands (u : State) : Prop := exec (.pllSelect e src port) s = .next (u.judged e a 32 w 0)
    (∀ (u : State) (k m : Nat) (h : Bool), m < 8 → (u.enterMode k m h).pllMode k = m) ∧
    (s.grantsWrite e a 32 w = true → s.flag F.PLL.SEL_BUSY 0 0 = true → lands s) ∧
    (s.grantsWrite e a 32 w = true → s.flag F.PLL.SEL_BUSY 0 0 = false → code ≠ 0 → ∃ u, lands u ∧ u.rf F.PLL.SEL_STATUS 0 0 = code ∧
      RegsOnly [(F.PLL.SEL_SRC, 0, 0), (F.PLL.SEL_PORT, 0, 0), (F.PLL.SEL_STATUS, 0, 0)] s u) ∧
    (s.grantsWrite e a 32 w = true → s.flag F.PLL.SEL_BUSY 0 0 = false → code = 0 → ∃ u : State,
      lands (if lead = s.leader then (u.switchTo lead src.toNat port.toNat).selectDone
        else u.switchTo lead src.toNat port.toNat) ∧
      u.flag F.PLL.SEL_BUSY 0 0 = true ∧
      (u.pll 0).select = some ⟨src.toNat, port.toNat, lead, (s.tick lead / 625 + 1) * 625⟩) ∧
    (∀ x : PllSelect, (s.pll 0).select = some x → x.boundary ≤ s.tick x.lead → ∃ u : State,
      exec .pllSelectBoundary s = .next u.followRefs ∧ u.flag F.PLL.SEL_BUSY 0 0 = false ∧ u.rf F.PLL.SEL_STATUS 0 0 = 0 ∧
      (u.pll 0).select = none ∧ (x.lead < Config.nDies s.part → ∀ k, k < Config.nDies s.part →
        u.rf F.PLL.STATUS_LEAD_DIE k 0 = x.lead ∧ u.flag F.RIDGE.STATUS_LEADER k 0 = decide (k = x.lead) ∧
        (k ≠ x.lead → s.inRun k B.PLL 0 = true → u.rf F.PLL.STATUS_SRC k 0 = 4 ∧ u.rf F.PLL.STATUS_SRC_PORT k 0 = 0 ∧
          (s.pllMode k ≠ 4 → u.pllMode k = 0)))) ∧
    (ref = 1 ∨ ref = 2 → ∃ u : State, exec (.refValidityChange ref ppb) s = .next u.followRefs ∧
      u = s.setPll 0 (u.pll 0) ∧ u.pll 0 = { s.pll 0 with refSeen := (u.pll 0).refSeen } ∧
      (ppb = none → u.refIn ref = false) ∧
      (∀ x : Int, ppb = some x → u.refIn ref = decide (x.natAbs ≤ 1000 * s.rfF F.PLL.QUAL_REF_TOL 0 0)) ∧
      (∀ k, k ≠ ref → u.refIn k = s.refIn k)) ∧
    (s.hasDie d = true → s.pllMode d = 0 → s.sourceValid d = true → err.natAbs ≤ s.lockWin d →
      (s.pll d).freq / 625000000 = freq →
      (s.pll d).acquireFrom + max 625000 (s.lockTicks d) ≤ s.tick d → ∃ u : State,
      exec (.pllLockAchieved d err freq) s = .next (u.enterMode d 1 false) ∧ u.plls = s.plls ∧
      u.rf F.PLL.PHASE_ERR_ERR d 0 = ofSigned 32 err % 2 ^ 32) ∧
    (((s.slewTick d).pll d).freq =
      (if (s.pll d).freq < goal then min goal ((s.pll d).freq + step) else max goal ((s.pll d).freq - step))) ∧
    (∀ x : LockLoss, (s.sourceLost d).pllMode d = 2 → x.seen = true → (s.lossDecides d x).flag F.PLL.ERR_BYPASS_SEEN d 0 = false) ∧
    (s.hasDie d = true → s.pllMode d = 1 → 4 * s.lockWin d < err.natAbs → ∃ u : State,
      exec (.pllLockLoss d err) s = .next (if s.sourceValid d || s.selecting d then
          let v := u.enterMode d 3 false
          v.setPll d { v.pll d with lol := some ⟨!s.flag F.PLL.ERR_BYPASS_SEEN d 0, u.deltaMarks d⟩ }
        else u.sourceLost d) ∧
      u.flag F.PLL.ERR_LOL_SEEN d 0 = true) ∧
    (∀ t, s.hasDie d = true → s.pllMode d = 2 ∨ s.pllMode d = 3 → (s.pll d).validFrom = some t → s.sourceValid d = true →
      t + s.rfF F.PLL.QUAL_REF_QUAL d 0 * 625000 ≤ s.tick d → exec (.pllRefQualified d) s = .next (s.enterMode d 0 false)) ∧
    (s.hasDie d = true → s.pllMode d = 1 → (s.pll d).lockedFrom + s.holdTicks d ≤ s.tick d →
      exec (.histOkSet d) s = .next (s.setFlag F.PLL.STATUS_HIST_OK d 0)) ∧
    (s.hasDie d = true → s.pllMode d = 0 → s.flag F.PLL.STATUS_HANDOVER d 0 = true →
      (s.pll d).acquireFrom + max 6250000 (s.handTicks d) < s.tick d → ∃ u : State,
      exec (.handoverTimeout d) s = .next (u.refreshTg d) ∧ u.flag F.PLL.STATUS_HANDOVER d 0 = false ∧
      u.flag F.PLL.ERR_HANDOVER_LONG d 0 = true)

/-- R224 to R228: STEER is clipped to 10 ppm and ends a profile; steps of at most 1 ppb go toward it; a profile is armed,
refused, started and ended; the dividers change together at a 1 µs boundary, at least 4. That a running profile takes NSEG, RATE and
DURATION as they stand is the model's choice (log entry 88), as is the offset reached, written to STEER without a clip (105); that GO
is ignored while BUSY, and RAMP_ABORT at a write of STEER, its reading (46). -/
def Obligations.PllSteering : Prop :=
  ∀ (s : State) (e : Nat) (data : Word) (nseg : BitVec 3),
    let sa := mkFa 0 B.PLL 0 0x18
    let ra := mkFa 0 B.PLL 0 0x100
    let oa := mkFa 0 B.PLL 0 0x40
    let x := s.pll 0
    let y : Int := max (-655360000) (min 655360000 data.toInt)
    let n := nseg.toNat
    let rate (k : Nat) : Int := s.rfS (F.PLL.RAMP_SEG_RATE k) 0 0
    let steep : Prop := ∃ k, k ≤ n ∧ s.rfF F.PLL.FSLEW_RATE 0 0 * 1024 < (rate k).natAbs
    let goes (u : State) : Prop := exec (.rampGo e nseg) s = .next (u.judged e ra 32 (2 ^ 30 + n) 0)
    let len (k : Nat) : Nat := s.rf (F.PLL.RAMP_SEG_DURATION k) 0 0 * 625000
    (s.grantsWrite e sa 64 data.toNat = true → ∃ u : State, exec (.steerWrite e data) s = .next (u.judged e sa 64 data.toNat 0) ∧
      u.rf F.PLL.STEER_OFFSET 0 0 = ofSigned 64 y % 2 ^ 64 ∧ (u.pll 0).ramp = none ∧
      (data.toInt ≠ y → u.flag F.PLL.ERR_STEER_CLIP 0 0 = true) ∧ (x.ramp ≠ none → u.flag F.PLL.ERR_RAMP_ABORT 0 0 = true)) ∧
    (s.part ≠ .xu9192 → s.steers = true → x.stepAt + 62500000 ≤ s.tick 0 →
      let goal : Int := 625000000 * s.rfS F.PLL.STEER_OFFSET 0 0
      ∃ t, exec .steerStep s = .next t ∧ (t.pll 0).stepAt = s.tick 0 ∧
        (t.pll 0).freq = (if x.freq < goal then min goal (x.freq + 65536 * 625000000) else max goal (x.freq - 65536 * 625000000))) ∧
    (s.part = .xu9192 → s.grantsWrite e ra 32 (2 ^ 30 + n) = true → s.flag F.PLL.RAMP_CTL_BUSY 0 0 = false →
      (s.steers = false → ∃ u, goes u ∧ u.rf F.PLL.RAMP_CTL_STATUS 0 0 = 1 ∧ u.plls = s.plls) ∧
      (s.steers = true → steep → ∃ u, goes u ∧ u.rf F.PLL.RAMP_CTL_STATUS 0 0 = 2 ∧ u.plls = s.plls) ∧
      (s.steers = true → ¬ steep → ∃ u, goes u ∧ u.rf F.PLL.RAMP_CTL_STATUS 0 0 = 0 ∧ u.flag F.PLL.RAMP_CTL_BUSY 0 0 = true ∧
        (u.pll 0).ramp = some ⟨(s.tick 0 / 625 + 1) * 625, none, 0, 0⟩ ∧ u.rf F.PLL.RAMP_CTL_NSEG 0 0 = n)) ∧
    (∀ r : PllRamp, x.ramp = some r → r.seg = none → r.start ≤ s.tick 0 →
      exec .rampStart s = .next (s.setPll 0 { x with ramp := some { r with seg := some 0, from_ := s.tick 0, base := x.freq } })) ∧
    (∀ (r : PllRamp) (k : Nat), x.ramp = some r → r.seg = some k → r.from_ + len k ≤ s.tick 0 →
      let f : Int := r.base + rate k * 64 * Int.ofNat (len k)
      (k < s.rf F.PLL.RAMP_CTL_NSEG 0 0 → ∃ t, exec .rampSegmentEnd s = .next t ∧ (t.pll 0).freq = f ∧
        (t.pll 0).ramp = some { r with seg := some (k + 1), from_ := r.from_ + len k, base := f }) ∧
      (s.rf F.PLL.RAMP_CTL_NSEG 0 0 ≤ k → ∃ t, exec .rampSegmentEnd s = .next t ∧ (t.pll 0).freq = f ∧ (t.pll 0).ramp = none ∧
        t.flag F.PLL.RAMP_CTL_BUSY 0 0 = false ∧ t.rf F.PLL.STEER_OFFSET 0 0 = t.rf F.PLL.FREQ_OFFSET 0 0)) ∧
    (s.grantsWrite e oa 32 (2 ^ 30) = true → ∃ u : State, exec (.outUpdGo e) s = .next (u.judged e oa 32 (2 ^ 30) 0) ∧
      u.flag F.PLL.OUT_UPD_PENDING 0 0 = true ∧
      (s.inRun 0 B.PLL 0 = true → x.updAt = none → (u.pll 0).updAt = some ((s.tick 0 / 625 + 1) * 625))) ∧
    (∀ t0, x.updAt = some t0 → s.inRun 0 B.PLL 0 = true → t0 ≤ s.tick 0 → ∃ t, exec .outUpdApply s = .next t ∧
      t.flag F.PLL.OUT_UPD_PENDING 0 0 = false ∧ (t.pll 0).updAt = none ∧
      (∀ k, k < 8 → t.rf (F.PLL.CLKOUT_DIV k) 0 0 = max 4 (s.rf (F.PLL.CLKOUT_DIV_NEXT k) 0 0) % 2 ^ (F.PLL.CLKOUT_DIV k).w) ∧
      (∀ k, k < 8 → s.rf (F.PLL.CLKOUT_DIV_NEXT k) 0 0 < 4 → t.flag F.PLL.ERR_DIV_CLIP 0 0 = true))

/-! ## The time scale, timestamps and the link exchange (R230 to R272) -/

/-- R230, R232 to R236, R238, R240, R241, R243, R244: RATE and STEP wait for their apply tick and are announced; what applies
there, with the step's refusals and the leader's start; followers; milliseconds and seconds; DELTA and the replicas. In RUN the RATE
register reads a new value from its apply tick on; while a start waits a RATE is held for the next one. The model's choices: which of
two RATE writes with one apply tick remains (log entry 90), and a RATE whose apply tick a stop forestalls (105). Its readings: what an
alignment message carries, when replicas are compared and a DELTA measurement begins (48). -/
def Obligations.RidgeScale : Prop :=
  ∀ (s : State) (e d : Nat) (data : Word) (skew delta : Int) (bad : Bool), s.hasDie d = true → s.resets.asserted = false →
    let r := s.ridge d
    let n := Config.nDies s.part
    let A := (s.pkgTick d + 256 + 255) / 256 * 256
    let ra := mkFa d B.RIDGE 0 0x10
    let sa := mkFa d B.RIDGE 0 0x18
    let x := data.toNat
    let run : Prop := s.inRun d B.RIDGE 0 = true
    let inRange : Prop := ((x : Int) - 0x1999999999A).natAbs * 1000 ≤ 0x1999999999A
    let rates (u : State) : Prop := exec (.rateWrite e d data) s = .next (u.judged e ra 64 x 0)
    let steps (u : State) : Prop := exec (.stepWrite e d data) s = .next (u.judged e sa 64 x 0)
    let told (u : State) : Prop := u.flag F.RIDGE.STATUS_PEND d 0 = true ∧
      ∀ k, k < n → k ≠ d → s.linkUp d k = true → ∃ a, (⟨d, k, .align A a⟩ : CtlMsg) ∈ u.msgs
    let scale (u : State) (k offset base rate : Nat) : Prop :=
      (u.ridge k).offset = offset ∧ (u.ridge k).base = base ∧ (u.ridge k).rate = rate
    let refused (u : State) (code : Nat) : Prop :=
      u.rf F.RIDGE.STATUS_STEP_STAT d 0 = code ∧ u.flag F.RIDGE.ERR_STEP_REFUSED d 0 = true
    let spread (K : Nat) (u : State) : State :=
      let v := (u.changeSeen d K (s.now d)).refreshPend d
      let a := v.alignOf d
      (List.range n).foldl (fun s k => if k = d then s else s.applyOther k K a) { v with msgs := settleMsgs K a v.msgs }
    let applied (o : State) : Prop := exec (.changeApply d) s = .next o
    (s.grantsWrite e ra 64 x = true → d ≠ s.leader → rates (s.setFlag F.RIDGE.ERR_NOT_LEAD d 0)) ∧
    (s.grantsWrite e ra 64 x = true → d = s.leader → ¬ run → rates (if r.pendStart.isSome then s.setRidge d { r with held := some x }
      else s.wf F.RIDGE.RATE_RATE d 0 x)) ∧
    (s.grantsWrite e ra 64 x = true → d = s.leader → run → ¬ inRange → rates (s.setFlag F.RIDGE.ERR_RATE_RANGE d 0)) ∧
    (s.grantsWrite e ra 64 x = true → d = s.leader → run → inRange →
      (rateYields r.rates A (some e) = true → rates s) ∧
      (rateYields r.rates A (some e) = false → ∃ u, rates u ∧ told u ∧ (A, some e, x) ∈ (u.ridge d).rates ∧
        u.rf F.RIDGE.RATE_RATE d 0 = s.rf F.RIDGE.RATE_RATE d 0 ∧ (u.ridge d).held = none ∧ scale u d r.offset r.base r.rate)) ∧
    (s.grantsWrite e sa 64 x = true → ¬ run → ∃ u, steps u ∧ refused u 1 ∧
      RegsOnly [(F.RIDGE.STEP_STEP, d, 0), (F.RIDGE.STATUS_STEP_STAT, d, 0), (F.RIDGE.ERR_STEP_REFUSED, d, 0)] s u) ∧
    (s.grantsWrite e sa 64 x = true → run → d ≠ s.leader → ∃ u, steps u ∧ refused u 2 ∧ u.flag F.RIDGE.ERR_NOT_LEAD d 0 = true ∧
      RegsOnly [(F.RIDGE.STEP_STEP, d, 0), (F.RIDGE.STATUS_STEP_STAT, d, 0), (F.RIDGE.ERR_STEP_REFUSED, d, 0),
        (F.RIDGE.ERR_NOT_LEAD, d, 0)] s u) ∧
    (s.grantsWrite e sa 64 x = true → run → d = s.leader → ∃ u, steps u ∧ told u ∧
      (u.ridge d).pendSteps = r.pendSteps ++ [(A, data.toInt)] ∧ scale u d r.offset r.base r.rate) ∧
    ((∀ K, r.nextApply = some K → s.pkgTick d < K) → applied s) ∧
    (∀ (K y : Nat) (w : Option Nat), r.rates = [(K, w, y)] → r.pendSteps = [] → r.pendStart = none → K ≤ s.pkgTick d →
      ∃ u, applied (spread K u) ∧ scale u d (s.unitsAt d K) K y ∧ (u.ridge d).rates = [] ∧
        u.rf F.RIDGE.RATE_RATE d 0 = y % 2 ^ F.RIDGE.RATE_RATE.w) ∧
    (∀ (K L : Nat) (i j : Int), r.rates = [] → r.pendSteps = [(K, i), (L, j)] → K < L → r.pendStart = none → K ≤ s.pkgTick d →
      ∃ u : State, applied ((u.withdraw K).refreshPend d) ∧ scale u d r.offset r.base r.rate ∧ refused u 3 ∧
        (u.ridge d).pendSteps = [(L, j)]) ∧
    (∀ (K y : Nat) (w : Option Nat) (i j : Int), (r.rates = [] ∧ y = r.rate) ∨ r.rates = [(K, w, y)] → r.pendStart = none → K ≤ s.pkgTick d →
      let lim := s.rfF F.RIDGE.JUMP_LIMIT_LIMIT d 0 * 65536
      let new : Int := s.unitsAt d K + i * 65536
      (r.pendSteps = [(K, i)] → i.natAbs + r.stepSum K ≤ lim → 0 ≤ new → ∃ u, applied (spread K u) ∧
        scale u d new.toNat K y ∧ u.rf F.RIDGE.STATUS_STEP_STAT d 0 = 0) ∧
      (r.pendSteps = [(K, i), (K, j)] → i.natAbs + r.stepSum K ≤ lim → 0 ≤ new → ∃ u, applied (spread K u) ∧
        scale u d new.toNat K y ∧ refused u 3) ∧
      (r.pendSteps = [(K, i)] → r.rates = [] → lim < i.natAbs + r.stepSum K ∨ new < 0 → ∃ u : State,
        applied ((u.withdraw K).refreshPend d) ∧ scale u d r.offset r.base r.rate ∧
        refused u (if lim < i.natAbs + r.stepSum K then 4 else 5))) ∧
    (∀ p : PendStart, r.pendStart = some p → r.rates = [] → r.pendSteps = [] → p.at_ ≤ s.pkgTick d → ∃ u : State,
      applied (spread p.at_ (u.startReply p.by_ d B.RIDGE 0 0)) ∧ u.inRun d B.RIDGE 0 = true ∧
      scale u d (XT.units (BitVec.ofNat 128 (s.rf F.RIDGE.OFFSET_OFFSET d 0))) (s.rf F.RIDGE.BASE_BASE d 0)
        (s.rf F.RIDGE.RATE_RATE d 0) ∧
      (r.written = true → ∀ k, k < n → u.flag F.RIDGE.STATUS_VALID k 0 = true)) ∧
    (∀ (u : State) (k K : Nat) (a : AlignState), (u.ridge k).armed.contains K = true → u.inRun k B.RIDGE 0 = true →
      ∃ w : State, u.applyOther k K a = w.changeSeen k K (u.now k) ∧ scale w k a.offset a.base a.rate ∧
        w.flag F.RIDGE.STATUS_VALID k 0 = a.valid) ∧
    (s.alignNext d = none → exec (.alignMessageArrive d skew) s = .next s) ∧
    (∀ (K : Nat) (a : AlignState) (rest : List CtlMsg), s.alignNext d = some (K, a, rest) →
      let got (u : State) : Prop := (u.ridge d).align = (if a.running then some a else r.align) ∧
        (u.ridge d).skewFresh = true ∧ (u.ridge d).skewAt = s.tick d ∧
        u.rf F.RIDGE.SKEW_SKEW d 0 = (if d = s.leader then 0 else ofSigned 32 skew) % 2 ^ F.RIDGE.SKEW_SKEW.w
      (s.pkgTick d < K ∨ s.stillWaits K = true → ∃ u, exec (.alignMessageArrive d skew) s = .next u ∧ got u ∧
        (u.ridge d).armed = r.armed ++ [K] ∧ scale u d r.offset r.base r.rate) ∧
      (K ≤ s.pkgTick d → s.stillWaits K = false → run → (s.alignOf d).same a = false → ∃ u : State,
        exec (.alignMessageArrive d skew) s = .next (u.follow d K a) ∧ got u ∧
        u.flag F.RIDGE.ERR_ALIGN_LATE d 0 = true)) ∧
    (s.tick d ≤ r.skewAt + 6250 → exec (.skewStale d) s = .next s) ∧
    (r.skewAt + 6250 < s.tick d → ∃ u : State, exec (.skewStale d) s = .next (u.refreshTg d) ∧ (u.ridge d).skewFresh = false ∧
      (d ≠ s.leader → u.flag F.RIDGE.STATUS_ALIGN_OK d 0 = false)) ∧
    (∀ u : State, (u.refreshTg d).tg d = u.tgHolds d) ∧
    (r.repAt + 65536 ≤ s.tick d → ∃ u : State, exec (.replicaCheck d bad) s = .next (u.refreshTg d) ∧
      u.flag F.RIDGE.STATUS_REP_OK d 0 = !bad ∧ (bad = true → u.flag F.RIDGE.ERR_REP_FAULT d 0 = true)) ∧
    (d ≠ 0 → r.deltaDue = true → run → (s.pllMode d = 1 ∨ s.pllMode d = 2) → (s.pllMode 0 = 1 ∨ s.pllMode 0 = 2) →
      s.pkgTick 0 % 256 = 0 → s.linkUp d 0 = true → exec (.deltaMeasureBegin d) s =
        .next (s.setRidge d { r with deltaDue := false, deltaFrom := some (s.pkgTick 0) })) ∧
    (r.deltaFrom.isSome = true → ∃ u : State, exec (.deltaMeasureEnd d delta) s = .next (u.refreshTg d) ∧
      u.rf F.RIDGE.ALIGN_DELTA d 0 = ofSigned 64 delta % 2 ^ F.RIDGE.ALIGN_DELTA.w ∧
      u.flag F.RIDGE.STATUS_DELTA_OK d 0 = true ∧ (u.ridge d).deltaFrom = none) ∧
    (∀ (c : Instr) (line unit last : Nat), (c, line, unit, last) = (.millisecondBoundary d, 58, 10 ^ 6 * 2 ^ 32, r.lastMs) ∨
        (c, line, unit, last) = (.secondBoundary d, 59, 10 ^ 9 * 2 ^ 32, r.lastSec) →
      ∃ t, exec c s = .next t ∧ (s.now d / unit ≤ last → t.engs = s.engs) ∧
        (last < s.now d / unit → ∀ k, k < 4 → (t.eng (4 * d + k)).pending.getLsbD line = true))

/-- R253, R264 to R267, R269: the TX timestamp queue hands out its oldest entry; a window's mean; a commit is discarded or
processed by LSTATE, with the results of PHASE. That a window whose end has passed closes before a commit is judged is the model's
reading (log entry 50); a quotient that the spec leaves unrounded, and a result that does not fit, are free (11). -/
def Obligations.TimestampsAndLinks : Prop :=
  ∀ (s : State) (e p : Nat), p < Config.nPorts s.part → s.resets.asserted = false →
    let d := p / 24
    let i := p % 24
    let q := mkFa d B.TSU i 0x10
    let a := mkFa d B.LINK i 0x68
    let l := s.link p
    let v := s.linkRoll p
    let y := v.linkPeer p
    let run : Prop := s.inRun d B.LINK i = true
    let commit (u : State) : Prop := exec (.linkCommit e p) s = .next (u.judged e a 32 (2 ^ 31) 0)
    let done (u : State) : Prop := commit ((u.raise d B.LINK i 3).refreshPort p)
    let gen := s.rf F.LANE.STATUS_PT_GEN d i
    let fits (x : Int) : Prop := -2 ^ 63 ≤ x ∧ x < 2 ^ 63
    (s.grants e q 64 = true → (s.port p).tsq = [] → exec (.txqMetaRead e p) s = .next (s.answer e q 0 0)) ∧
    (∀ (t : TsEntry) (r : List TsEntry), s.grants e q 64 = true → (s.port p).tsq = t :: r → ∃ u : State,
      exec (.txqMetaRead e p) s = .next (u.answer e q 0 (2 ^ 63 + ofBool t.tg * 2 ^ 62 + ofBool t.dropped * 2 ^ 61 +
        t.seq % 2 ^ 16 * 2 ^ 32 + t.id % 2 ^ 16)) ∧ u.rf F.TSU.TXQ_TIME_TIME d i = t.time.toNat ∧
      u.rf F.TSU.STATUS_DEPTH d i = r.length % 2 ^ F.TSU.STATUS_DEPTH.w ∧
      RegsOnly [(F.TSU.TXQ_TIME_TIME, d, i), (F.TSU.STATUS_DEPTH, d, i)] (s.setPort p { s.port p with tsq := r }) u) ∧
    (run → s.linkWin p = l.win → exec (.linkWindowEnd p) s = .next s) ∧
    (run → s.linkWin p ≠ l.win → ∃ u : State, exec (.linkWindowEnd p) s = .next (u.refreshPort p) ∧
      (u.link p).win = s.linkWin p ∧ (u.link p).count = 0 ∧ (u.link p).broken = false ∧
      ((u.link p).fresh = false → u.flag F.LINK.ERR_STALE d i = true) ∧
      (l.count = 0 ∨ l.broken = true → RegsOnly [(F.LINK.ERR_STALE, d, i), (F.LINK.TX_REF_TX_REF, d, i)]
        { s.setLink p (u.link p) with free := u.free } u) ∧
      (∀ g, l.count = 0 → l.grid = some g → u.rf F.LINK.TX_REF_TX_REF d i = ofSigned 64 (s.modUi p (g + l.jump +
        quarterPs (s.rfS F.TSU.DLY_TX_CAL d i + s.rfS F.TSU.ADJ_TX_ADJ d i)) / 2 ^ 16)) ∧
      (l.count ≠ 0 → ∃ x : Int, (x * (l.count * 2 ^ 16) - l.txSum).natAbs < l.count * 2 ^ 16 ∧
        u.rf F.LINK.TX_REF_TX_REF d i = ofSigned 64 x) ∧
      (l.count ≠ 0 → l.broken = false → ∃ raw : Int, (raw * (l.count * 2 ^ 16) - l.sum).natAbs < l.count * 2 ^ 16 ∧
        u.rf F.LINK.EIN_W_E_IN d i =
          ofSigned 64 (if s.lstate p = 3 then raw + s.uiCount p (s.rfS F.LINK.M_IN_M_IN d i) else raw) ∧
        u.rf F.LINK.EIN_W_WIN d i = l.win % 2 ^ 32 ∧ u.rf F.LINK.EIN_W_GEN d i = gen % 2 ^ 16 ∧
        u.flag F.LINK.EIN_W_RESOLVED d i = (s.lstate p == 3))) ∧
    (s.grantsWrite e a 32 (2 ^ 31) = true → ¬ run → commit s) ∧
    (s.grantsWrite e a 32 (2 ^ 31) = true → run → v.commitBad p = true → ∃ u, commit u ∧ u.flag F.LINK.ERR_DISCARD d i = true ∧
      RegsOnly [(F.LINK.ERR_DISCARD, d, i)] v u) ∧
    (s.grantsWrite e a 32 (2 ^ 31) = true → run → v.commitBad p = false →
      (y.lstate p = 1 → done ((y.linkResults p (y.cIn p) (y.cOut p)).linkCoarse p)) ∧
      (y.lstate p = 4 → done (y.linkResults p (y.cIn p) (y.cOut p))) ∧
      (∀ m, y.ownMean p = some m → (y.lstate p = 2 → done (y.linkResolve p m.raw)) ∧
        (y.lstate p = 3 → done (y.linkPhase p m.raw)))) ∧
    (∀ (u : State) (ein eout : Int),
      let t := u.linkResults p ein eout
      let w := u.rf F.LINK.X_INFO_WIN d i % 2 ^ 32
      let asym := (ein + eout) * u.rfS F.LINK.ASYM_ASYM d i / 2 ^ 32
      t.rf F.LINK.THETA_W_WIN d i = w ∧ t.rf F.LINK.DELAY_W_WIN d i = w ∧ t.rf F.LINK.RTT_W_WIN d i = w ∧
      (fits (ein + eout) → t.rf F.LINK.RTT_W_D_RT d i = ofSigned 64 (ein + eout)) ∧
      ∃ th dh : Int, (2 * th - (eout - ein)).natAbs ≤ 1 ∧ (2 * dh - (ein + eout)).natAbs ≤ 1 ∧
        (fits (th + asym) → t.rf F.LINK.THETA_W_THETA d i = ofSigned 64 (th + asym)) ∧
        (fits (dh + asym) → t.rf F.LINK.DELAY_W_D_IN d i = ofSigned 64 (dh + asym))) ∧
    (∀ (u : State) (raw : Int),
      let c := (u.link p).collect ++ [u.cIn p - raw]
      let tries := u.rf F.LINK.STATUS_TRIES d i + 1
      2 ^ u.rfF F.LINK.CFG_RES_N d i ≤ c.length →
      (∀ m, resolveM c (u.uiNum p) uiDen = some m → ∃ w : State, u.linkResolve p raw = w.setL p 3 ∧
        w.rf F.LINK.M_IN_M_IN d i = ofSigned 64 m % 2 ^ F.LINK.M_IN_M_IN.w ∧ w.flag F.LINK.EIN_W_RESOLVED d i = true) ∧
      (resolveM c (u.uiNum p) uiDen = none → ∃ w : State, u.linkResolve p raw = (if tries < 8 then w else w.setL p 4) ∧
        w.flag F.LINK.ERR_AMBIG d i = true ∧ (8 ≤ tries → w.flag F.LINK.ERR_RESOLVE_FAIL d i = true))) ∧
    (∀ (u : State) (raw : Int),
      let ein := raw + u.uiCount p (u.rfS F.LINK.M_IN_M_IN d i)
      (u.uiNum p).natAbs < 2 * ((u.cIn p - ein) * uiDen).natAbs → ∃ w : State, u.linkPhase p raw = w.setL p 2 ∧
        w.flag F.LINK.ERR_SLIP d i = true)

/-! ## The summit role, the satellite reference and event capture (R280 to R327) -/

/-- R280, R282 to R284, R286 to R289: eligibility, the lease and its lapse, beacons sent and judged, paths, and the commands
TAKE, RENEW and RELEASE. The model's readings (log entry 52): a lapse that is due comes before a command or a beacon, the order 5, 2,
1, 3 of TAKE's refusals, the sequence numbers of beacons, and that the next beacon falls on the next millisecond. -/
def Obligations.SummitRole : Prop :=
  ∀ (s : State) (e : Nat), s.resets.asserted = false →
    let t := s.sNow
    let ms := 10 ^ 6 * 2 ^ 32
    let a := mkFa 0 B.SUMMIT 0 0x28
    let run : Prop := s.inRun 0 B.SUMMIT 0 = true
    let time (s : State) (f : Fld) : Nat := XT.units (BitVec.ofNat 128 (s.rf f 0 0))
    let stamp (u : Nat) : Nat := (xtOfUnits u).toNat
    let on (u : State) (f : Fld) : Prop := u.flag f 0 0 = true
    let pathOk (k : Nat) : Fld := if k = 0 then F.SUMMIT.STATUS_PATH_A_OK else F.SUMMIT.STATUS_PATH_B_OK
    let ends := time s F.SUMMIT.RENEWED_TIME + s.rfF F.SUMMIT.CFG_TERM 0 0 * ms
    let lapses : Prop := run ∧ s.role = 2 ∧ ends ≤ t
    let lands (c : Instr) (op : Nat) (u : State) : Prop := exec c s = .next (u.judged e a 32 (op * 2 ^ 26) 0)
    let answers (c : Instr) (op code : Nat) : Prop := ∃ u, lands c op u ∧ u.rf F.SUMMIT.CMD_STATUS 0 0 = code ∧
      RegsOnly [(F.SUMMIT.CMD_OP, 0, 0), (F.SUMMIT.CMD_STATUS, 0, 0)] s u
    let code := if ¬ run then 5 else if s.rfF F.SUMMIT.CFG_PRIORITY 0 0 = 0 then 2
      else if s.flag F.SUMMIT.STATUS_ELIGIBLE 0 0 = false then 1 else if s.tg 0 = false then 3 else 0
    (run → s.role = 1 → s.flag F.SUMMIT.STATUS_ELIGIBLE 0 0 = false →
      time s F.SUMMIT.LEASE_EXP_TIME + (s.rfF F.SUMMIT.GUARD_GUARD 0 0 + (255 - s.rfF F.SUMMIT.CFG_PRIORITY 0 0)) * ms ≤ t →
      ∃ u, exec .summitEligible s = .next u ∧ on u F.SUMMIT.STATUS_ELIGIBLE ∧
        RegsOnly [(F.SUMMIT.STATUS_ELIGIBLE, 0, 0)] s u) ∧
    (lapses → ∃ u, exec .leaseLapse s = .next u ∧ u.role = 1 ∧ on u F.SUMMIT.ERR_LAPSED ∧
      RegsOnly [(F.SUMMIT.STATUS_ROLE, 0, 0), (F.SUMMIT.STATUS_PATH_A_OK, 0, 0), (F.SUMMIT.STATUS_PATH_B_OK, 0, 0),
        (F.SUMMIT.ERR_PATH_LOST, 0, 0), (F.SUMMIT.ERR_LAPSED, 0, 0)] s u) ∧
    (¬ lapses → exec .leaseLapse s = .next s) ∧
    (run → s.role = 2 → t < ends → s.summit.nextBeacon ≤ t →
      t < s.summit.nextBeacon + s.rfF F.SUMMIT.CFG_BCN_INT 0 0 * ms → exec .beaconSend s = .next (State.beacons
        { s with summit := { s.summit with nextBeacon := s.summit.nextBeacon + s.rfF F.SUMMIT.CFG_BCN_INT 0 0 * ms } } 0x10)) ∧
    (∀ (u : State) (k sub : Nat), k < 2 → u.rfF (F.SUMMIT.PATH_EN k) 0 0 = 1 →
      u.rfF (F.SUMMIT.PATH_PORT k) 0 0 < Config.nPorts u.part → u.portExists (u.rfF (F.SUMMIT.PATH_PORT k) 0 0) = true →
      ∃ v : State, v = { u with summit := v.summit } ∧ u.beaconOn k sub = v.beaconInject (u.rfF (F.SUMMIT.PATH_PORT k) 0 0)
        (u.rfF (F.SUMMIT.PATH_QUEUE k) 0 0) (u.beaconBytes k sub ((if k = 0 then u.summit.seqA else u.summit.seqB) + 1))) ∧
    (∀ (src : Nat) (l : List Byte) (x y : List CtlMsg), s.msgs = x ++ ⟨src, 0, .beacon l⟩ :: y →
      (∀ m ∈ x, ∀ l, ¬ (m.dst = 0 ∧ m.body = .beacon l)) → run → ¬ lapses → fcsGood l = true →
      let b := beaconOf l
      let good := b.valid (s.rf F.SUMMIT.DEV_ID_DEVICE_ID 0 0)
      let done (u : State) : Prop := exec .beaconReceive s = .next u
      let heard (u : State) : Prop := b.path < 2 → on u (pathOk b.path)
      (good = false → ∃ u, done u ∧ on u F.SUMMIT.ERR_BCN_BAD ∧
        RegsOnly [(F.SUMMIT.ERR_BCN_BAD, 0, 0)] { s with msgs := x ++ y } u) ∧
      (good = true → b.release = true → s.role ≠ 2 → ∃ u, done u ∧ heard u ∧
        u.rf F.SUMMIT.LEASE_EXP_TIME 0 0 = stamp b.issue) ∧
      (good = true → b.release = false → s.role ≠ 2 → time s F.SUMMIT.LEASE_EXP_TIME < b.expiry → ∃ u, done u ∧ heard u ∧
        u.rf F.SUMMIT.LEASE_EXP_TIME 0 0 = stamp b.expiry ∧ u.rf F.SUMMIT.HOLDER_HOLDER 0 0 = b.holder % 2 ^ 64 ∧
        u.rf F.SUMMIT.EPOCH_EPOCH 0 0 = b.epoch % 2 ^ 32) ∧
      (good = true → b.release = false → s.role = 2 → t < b.expiry → ∃ u, done u ∧ on u F.SUMMIT.ERR_FOREIGN ∧
        (s.outranked b = false → u.role = 2) ∧ (s.outranked b = true → u.role = 1 ∧ on u F.SUMMIT.ERR_YIELDED))) ∧
    (∀ k t0, k < 2 → run → s.role ≠ 2 → (if k = 0 then s.summit.lastA else s.summit.lastB) = some t0 →
      t0 + 3 * s.rfF F.SUMMIT.CFG_BCN_INT 0 0 * ms ≤ t → ∃ u, exec (.pathTimeout k) s = .next u ∧
        u.flag (pathOk k) 0 0 = false ∧ (on s (pathOk k) → on u F.SUMMIT.ERR_PATH_LOST) ∧
        RegsOnly [(pathOk k, 0, 0), (F.SUMMIT.ERR_PATH_LOST, 0, 0)] s u) ∧
    (s.grantsWrite e a 32 (1 * 2 ^ 26) = true → ¬ lapses → code ≠ 0 → answers (.summitTake e) 1 code) ∧
    (s.grantsWrite e a 32 (1 * 2 ^ 26) = true → ¬ lapses → code = 0 → ∃ u, lands (.summitTake e) 1 u ∧ u.role = 2 ∧
      u.rf F.SUMMIT.EPOCH_EPOCH 0 0 = (s.rf F.SUMMIT.EPOCH_EPOCH 0 0 + 1) % 2 ^ 32 ∧
      u.rf F.SUMMIT.HOLDER_HOLDER 0 0 = s.rf F.SUMMIT.DEV_ID_DEVICE_ID 0 0 % 2 ^ 64 ∧
      u.rf F.SUMMIT.RENEWED_TIME 0 0 = stamp t ∧ u.summit.nextBeacon = (t / ms + 1) * ms ∧
      u.rf F.SUMMIT.CMD_STATUS 0 0 = 0) ∧
    (¬ lapses → ¬ run ∨ s.role ≠ 2 →
      (s.grantsWrite e a 32 (2 * 2 ^ 26) = true → answers (.summitRenew e) 2 (if run then 4 else 5)) ∧
      (s.grantsWrite e a 32 (3 * 2 ^ 26) = true → answers (.summitRelease e) 3 (if run then 4 else 5))) ∧
    (¬ lapses → run → s.role = 2 →
      (s.grantsWrite e a 32 (2 * 2 ^ 26) = true → ∃ u, lands (.summitRenew e) 2 u ∧ u.rf F.SUMMIT.RENEWED_TIME 0 0 = stamp t ∧ u.rf F.SUMMIT.CMD_STATUS 0 0 = 0 ∧
        RegsOnly [(F.SUMMIT.CMD_OP, 0, 0), (F.SUMMIT.RENEWED_TIME, 0, 0), (F.SUMMIT.CMD_STATUS, 0, 0)] s u) ∧
      (s.grantsWrite e a 32 (3 * 2 ^ 26) = true → ∃ u : State, lands (.summitRelease e) 3 u ∧ u = ((s.wf F.SUMMIT.CMD_OP 0 0 3).beacons 0x11).leaveRole.sumEnd 0 ∧
        u.role = 1 ∧ u.rf F.SUMMIT.CMD_STATUS 0 0 = 0))

/-- R295 to R305, R307 to R309: the clock's measurement, the search, channels, solutions and FIX, the states of MODEL, the
survey, sparse tracking, and the PPS. In FIXED the position is POS; in sparse tracking the channels run for 20 ms of each burst, of
one solution, and nothing is pulled in outside. The model's choices: how the samples' clock, the search and a solution's time are
measured, and an ACK judged at the cycle's start (log entry 91), with the coefficients of the report's tick (105), and quotients left
unrounded (11). Its readings: what WAIT_ACK, missed epochs and changes of scale leave (54), and MODEL at the scheduling of a PPS (92). -/
def Obligations.SatelliteReference : Prop :=
  ∀ (s : State) (e k week tow est cn0 : Nat) (m : SampleSpan) (visible : BitVec 32) (bin : Option Nat) (nav : NavMessage) (utc : Option (BitVec 8))
    (elev : Int) (pos : Int × Int × Int) (chans : List (Nat × Nat × Int)), k < 16 → s.resets.asserted = false →
    let g := s.gnss
    let now : Int := s.now 0
    let ms : Int := 10 ^ 6 * 2 ^ 32
    let sec : Int := 10 ^ 9 * 2 ^ 32
    let run : Prop := s.inRun 0 B.GNSS 0 = true
    let ch (u : State) (f : Nat → Fld) (k : Nat) : Nat := u.rf (f k) 0 0
    let on (u : State) (f : Fld) : Prop := u.flag f 0 0 = true
    let fits (x : Int) : Prop := -2 ^ 63 ≤ x ∧ x < 2 ^ 63
    let put (s : State) (c : Nat × Nat × Int) : State :=
      if c.1 < 16 ∧ 2 ≤ ch s F.GNSS.CH_CSTATE c.1 then
        (s.wf (F.GNSS.CH_CN0 c.1) 0 0 c.2.1).wf (F.GNSS.CH_ELEV c.1) 0 0 (ofSigned 8 c.2.2) else s
    let s0 := s.measureClk m
    let s1 := (chans.foldl put s0).refreshChannels
    let at_ : Int := s1.sampleTime m
    let enough : Prop := (if s1.fixedMode then 1 else 4) ≤ s1.rf F.GNSS.STATUS_NSV_USED 0 0
    let base := s.rfF F.GNSS.WN_BASE_WEEK 0 0
    let full := base + (week % 1024 + 1024 - base % 1024) % 1024
    let tai : Int := (((315964800 + 19 + full * 604800) * 10 ^ 9 * 2 ^ 16 + tow : Nat) : Int)
    let fix1000 : Int := (tai * 2 ^ 16 - at_) * 1000 + (s.rfS F.GNSS.CABLE_DLY_DLY 0 0 + s1.ionoTerm tow (if s1.fixedMode = true then s1.knownPos else pos)) * 2 ^ 32
    let heard (c : Instr) (u : State) : Prop := exec c s = .next u.refreshChannels
    let dwell : Out := exec (.gnssAcquisitionDwell m visible bin) s
    let a := mkFa 0 B.GNSS 0 0x20
    (∀ u : State, u.refreshChannels.flag (F.GNSS.CH_USED k) 0 0 = u.chUsable k) ∧
    (∀ u : State,
      let den : Int := (u.rfF F.GNSS.IF_RATE_RATE 0 0 : Nat) * u.sampleSpan m
      let num : Int := (((m.blocks * 16384 * 10 ^ 9 * 2 ^ 32 : Nat) : Int) - den) * (65536 * 10 ^ 9)
      let v := u.measureClk m
      0 < den → ∃ x : Int, (x * den - num).natAbs < den.natAbs ∧ (fits x → v.rf F.GNSS.SAMP_OFFSET 0 0 = ofSigned 64 x) ∧
        v.gnss.codeRate = 1023000 * 65536 - x * 1023000 / 10 ^ 9 ∧
        v.gnss.range = decide (200000 * 65536 < x.natAbs) ∧
        (200000 * 65536 < x.natAbs → on v F.GNSS.ERR_IF_RANGE ∧ ch v F.GNSS.CH_CSTATE k = 0)) ∧
    (run → g.clkLost = false → s0.gnss.range = true → dwell = .next s0) ∧
    (run → g.clkLost = false → s0.gnss.range = false →
      dwell = .next (if s0.chRun = true then s0.searchStep visible bin else s0)) ∧
    (∀ (u : State) (prn third : Nat), u.searchNow visible = some (prn, third) →
      let v := u.searchStep visible bin
      let next := if bin.isSome || third == 2 then (prn % 32 + 1, 0) else (prn, third + 1)
      (1 ≤ prn ∧ prn ≤ 32 ∧ (∀ j, j < 16 → ch u F.GNSS.CH_PRN j ≠ prn) ∧
        (u.gnss.almanac = true → u.gnss.located = true → visible.getLsbD (prn - 1) = true)) ∧
      (bin = none → v = u.setGnss { u.gnss with search := next }) ∧
      (∀ b, bin = some b → ch u F.GNSS.CH_CSTATE k = 0 → (∀ j, j < k → ch u F.GNSS.CH_CSTATE j ≠ 0) →
        ch v F.GNSS.CH_PRN k = prn ∧ ch v F.GNSS.CH_CSTATE k = 1 ∧ v.gnss.search = next ∧
        RegsOnly [(F.GNSS.CH_PRN k, 0, 0), (F.GNSS.CH_CSTATE k, 0, 0)] (u.setGnss v.gnss) v)) ∧
    (s.hears = true → s.chRun = true → ch s F.GNSS.CH_CSTATE k = 1 → ∃ u, heard (.channelPullInEnd k cn0 elev) u ∧
      ch u F.GNSS.CH_CSTATE k = 2 ∧ ch u F.GNSS.CH_CN0 k = cn0 % 256 ∧ ch u F.GNSS.CH_ELEV k = ofSigned 8 elev) ∧
    (run → s.chRun = true → ch s F.GNSS.CH_CSTATE k ≠ 0 → ∃ u, heard (.channelSignalLost k) u ∧
      ch u F.GNSS.CH_CSTATE k = 0 ∧ ch u F.GNSS.CH_PRN k = 0) ∧
    (s.hears = true → s.chRun = true → 2 ≤ ch s F.GNSS.CH_CSTATE k → ∃ u, heard (.ephemerisDecoded k nav utc) u ∧
      ch u F.GNSS.CH_CSTATE k = 3 ∧ u.gnss.ephemeris.contains (ch s F.GNSS.CH_PRN k) = nav.healthy ∧
      u.gnss.almanac = (g.almanac || nav.almanac) ∧ (nav.iono.isSome = true → u.gnss.iono = nav.iono) ∧
      (∀ x, utc = some x → u.rf F.GNSS.UTC_TAI_UTC 0 0 = x.toNat ∧ on u F.GNSS.STATUS_UTC_VALID)) ∧
    (∃ u, exec .gnssClkLost s = .next u ∧ u.gnss.clkLost = true ∧
      (run → on u F.GNSS.ERR_IF_LOST ∧ ch u F.GNSS.CH_CSTATE k = 0)) ∧
    (exec .gnssClkRestored s = .next (s.setGnss { g with clkLost := false })) ∧
    (s.hears = true → (s.flag F.GNSS.STATUS_SPARSE_ON 0 0 = true → g.burst.isSome = true ∧ g.solved = false) → s.ppsIsDue = false →
      (s0.gnss.range = true → exec (.gnssSolution ⟨m, week⟩ tow est pos chans) s = .next s0) ∧
      (s0.gnss.range = false → ¬ enough → exec (.gnssSolution ⟨m, week⟩ tow est pos chans) s = .next s1) ∧
      (s0.gnss.range = false → enough → ∃ (u : State) (x : Int),
        exec (.gnssSolution ⟨m, week⟩ tow est pos chans) s =
          .next (u.judgeFix at_ (s1.modelThen at_) (s1.errEstAt at_) (est % 2 ^ 32)).sparseCheck ∧
        (x * (1000 * 2 ^ 16) - fix1000).natAbs < 1000 * 2 ^ 16 ∧ (fits x → u.rf F.GNSS.FIX_FIX 0 0 = ofSigned 64 x) ∧
        u.rf F.GNSS.FIX_ERR_EST 0 0 = est % 2 ^ 32 ∧
        u.rf F.GNSS.FIX_SOL_SEQ 0 0 = (s.rf F.GNSS.FIX_SOL_SEQ 0 0 + 1) % 2 ^ 16 ∧ u.gnss.missed = 0 ∧
        u.gnss.epoch = at_.toNat ∧ u.gnss.solved = true ∧ u.gnss.located = true)) ∧
    (∀ (u : State) (t0 model : Int) (grown : Nat),
      let v := u.judgeFix t0 model grown est
      let near : Prop := (u.newestFix * 1000 - model).natAbs ≤ u.rfF F.GNSS.JUMP_LIMIT 0 0 * 65536 * 1000
      (u.gstate = 0 → v.gstate = 1 ∧ on v F.GNSS.STATUS_MODEL_VALID ∧ v.gnss.base = u.newestFix * 1000) ∧
      (u.gstate = 1 → v.gnss.base = if u.gnss.take then model else u.newestFix * 1000) ∧
      (u.gstate = 2 → near → v.gstate = 1 ∧ v.gnss.base = model ∧ v.gnss.take = true) ∧
      (u.gstate = 2 → ¬ near → v.gstate = (if u.rfF F.GNSS.CFG_RETURN 0 0 = 0 then 3 else 4) ∧
        on v F.GNSS.ERR_JUMP_REFUSED ∧ v.gnss.base = model)) ∧
    (run → s.gstate ≠ 0 → s.ppsIsDue = false → ∃ u, exec .gnssEpochMissed s = .next u ∧ u.gnss.missed = g.missed + 1 ∧
      u.flag F.GNSS.STATUS_SPARSE_ON 0 0 = false ∧ (g.missed + 1 = 3 → s.gstate ≠ 2 → u.gstate = 2 ∧ on u F.GNSS.ERR_HOLD_SEEN) ∧
      (g.missed + 1 ≠ 3 → u.gstate = s.gstate)) ∧
    (s.gstate = 3 → g.baseAt + ms ≤ now → s.ppsIsDue = false → ∃ u : State, exec .gnssSlewUpdate s = .next u.slewCheck ∧
      let gap := s.newestFix * 1000 - g.base
      let most : Int := (s.rfF F.GNSS.SLEW_MAX 0 0 * 65536 : Nat)
      u.gnss.baseAt = g.baseAt + ms ∧ u.gnss.base = g.base + max (-most) (min most gap)) ∧
    (∀ u : State, u.gstate = 3 → u.near u.gnss.base 1 = true → u.slewCheck.gstate = 1) ∧
    (∀ at_, g.surveyAt = some at_ → run → s.rfF F.GNSS.CFG_POS_MODE 0 0 = 2 → g.surveyDone = false → 0 < g.surveyCount →
      at_ + ((s.rfF F.GNSS.SURVEY_MINUTES 0 0 * 60 : Nat) : Int) * sec ≤ now → ∃ u, exec .surveyDone s = .next u ∧
        u.gnss.surveyDone = true ∧ on u F.GNSS.STATUS_POS_OK ∧
        ∃ x : Int, (x * g.surveyCount - g.surveySum.1).natAbs < g.surveyCount ∧
          u.rf (F.GNSS.POS_POS 0) 0 0 = ofSigned 64 x ∧ u.rfF (F.GNSS.POS_POS 0) 0 0 = ofSigned 64 x) ∧
    (∀ at_, g.edgeAt = some at_ → run → on s F.GNSS.STATUS_SPARSE_ON → g.burst = none ∨ g.solved = true → at_ + 62500000 ≤ s.tick 0 →
      exec .sparseBurst s = .next (s.setGnss { g with burst := some (s.tick 0), solved := false, edgeAt := none })) ∧
    (∀ t, s.flag F.GNSS.STATUS_SPARSE_ON 0 0 = true → (g.burst = none → s.chRun = false) ∧
      (g.burst = some t → s.chRun = decide (s.tick 0 < t + 12500000))) ∧
    (s.grantsWrite e a 32 1 = true → ∃ u : State, exec (.gnssAck e) s = .next (u.judged e a 32 1 0) ∧
      (s.gstateBefore = 4 → s.gstate = 4 → u.gstate = 1 ∧ u.gnss.take = true ∧ u.gnss.e0 = s.rf F.GNSS.FIX_ERR_EST 0 0) ∧
      (s.gstateBefore ≠ 4 → u = s.setFlag F.GNSS.ERR_ACK_IGN 0 0)) ∧
    (s.ppsIsDue = false → exec .ppsSchedule s = .next s) ∧
    (s.ppsIsDue = true →
      let w := if g.take then s.takeFix.setGnss { s.takeFix.gnss with stepped := true } else s
      let T := w.ppsTick (w.ppsTarget w.ppsSecond)
      (w.ppsIsDue = false ∨ T ≤ w.pkgTick 0 → exec .ppsSchedule s = .next w) ∧
      (w.ppsIsDue = true → w.pkgTick 0 < T →
        ∃ (u : State) (p : PpsPlan), exec .ppsSchedule s = .next (if u.rfF F.GNSS.MSG_CFG_EN 0 0 = 1 then
            u.rxDeliver (u.rfF F.GNSS.MSG_CFG_ENG 0 0) (w.ownFrame 0 (withFcs u.gnss.msg)) else u) ∧
          u.gnss.plan = some p ∧ p.second = w.ppsSecond ∧ p.tick = T ∧ u.gnss.lastSecond = w.ppsSecond ∧
          u.gnss.msgSeq = (g.msgSeq + 1) % 2 ^ 16 ∧ u.gnss.msg.length = 64)) ∧
    (∀ p : PpsPlan, g.plan = some p → p.tick ≤ s.pkgTick 0 → ∃ u : State,
      exec .ppsEdge s = .next ((List.range 4).foldl (fun s k => s.ppsOut p.qerr k) u) ∧
      EventOnly (s.setGnss { g with plan := none, edgeAt := some (s.tick 0) }) u)

/-- R313 to R317, R324, R325, R327 to R334: crossings and dead time, thresholds and arming, windows and timeouts, records in
the FIFO, their reading and their event frames. That a window, pair or measurement closes only after its closing tick has passed,
so that an edge of that coarse cycle still belongs to it, is the model's reading (log entry 55); in GATED a start of that tick waits
for the record and opens the next measurement. -/
def Obligations.EventCapture : Prop :=
  ∀ (s : State) (e ch taps : Nat) (rising arm : Bool) (code : BitVec 12), ch < Config.nChannels s.part →
    s.resets.asserted = false →
    let d := ch / 8
    let k := ch % 8
    let x := s.evt ch
    let a := s.evEdge ch rising taps
    let eng := s.rfF F.EVT.FR_CFG_ENG d k
    let run : Prop := s.inRun d B.EVT k = true
    let frames : Prop := s.rfF F.EVT.FR_CFG_EN d k = 1 ∧ run
    let live : Prop := run ∧ s.inRun d B.FIELD 0 = true ∧ s.flag F.FIELD.STATUS_FVDD_OK d 0 = true ∧
      (s.rfF F.EVT.CFG_SLOPE d k).testBit (if rising then 0 else 1) = true
    let crosses (u : State) : Prop := exec (.eventCrossing ch rising taps) s = .next u
    let ta := mkFa d B.EVT k 4
    let aa := mkFa d B.EVT k 0x10
    let ha := mkFa d B.EVT k 0x40
    (¬ live → ∃ u, crosses u ∧ u.flag F.EVT.STATUS_COMP d k = rising ∧ RegsOnly [(F.EVT.STATUS_COMP, d, k)] s u) ∧
    (live → s.evDead ch a = true → ∃ u, crosses u ∧ u.flag F.EVT.STATUS_COMP d k = rising ∧
      u.rf F.EVT.DEAD_COUNT d k = min (s.rf F.EVT.DEAD_COUNT d k + 1) (2 ^ F.EVT.DEAD_COUNT.w - 1) ∧
      (u.evt ch).fifo.length = x.fifo.length ∧ (∀ o, x.cur = some o → (u.evt ch).cur =
        some { o with dead := o.dead + ofBool (o.edges.any fun b => b.src == k && s.isLast d b) }) ∧
      RegsOnly [(F.EVT.STATUS_COMP, d, k), (F.EVT.DEAD_COUNT, d, k)] { s with evts := u.evts } u) ∧
    (live → s.evDead ch a = false → ∃ u : State, crosses ((u.evEdgeFor ch a false).evStart d k a) ∧
      (u.evt ch).lastCross = some (a.tick, a.tdc) ∧ u.flag F.EVT.STATUS_COMP d k = rising ∧
      (u.evt ch).cur = x.cur ∧ (u.evt ch).fifo = x.fifo ∧ RegsOnly [(F.EVT.STATUS_COMP, d, k)] { s with evts := u.evts } u) ∧
    (∀ (u : State) (b : EvEdge), u.rfF F.EVT.CFG_MODE d k = 0 → u.evEdgeFor ch b false =
      if u.flag F.EVT.STATUS_ARMED d k then u.evStore ch { kind := 0, edges := [b] } else u) ∧
    (∀ (u : State) (b : EvEdge), u.rfF F.EVT.CFG_MODE d k = 1 ∨ u.rfF F.EVT.CFG_MODE d k = 2 → (u.evt ch).cur = none →
      (u.evt ch).closedAt = none → u.flag F.EVT.STATUS_ARMED d k = true → ∃ o : EvOpen,
        ((u.evEdgeFor ch b false).evt ch).cur = some o ∧ o.edges = [b] ∧ o.closes = some (b.tick + u.rfF F.EVT.WIN_TICKS d k)) ∧
    (∀ (u : State) (r : EvRecord),
      let v := u.evStore ch r
      let y := u.evt ch
      (v.evt ch).seq = (y.seq + 1) % 2 ^ 16 ∧
      (y.fifo.length < 256 → (v.evt ch).fifo = y.fifo ++ [r.bytes y.seq ch y.ovf] ∧ (v.evt ch).ovf = false) ∧
      (256 ≤ y.fifo.length → (v.evt ch).fifo = y.fifo ∧ (v.evt ch).ovf = true ∧ v.flag F.EVT.ERR_FIFO_OVF d k = true ∧
        v.rf F.EVT.LOST_COUNT d k = min (u.rf F.EVT.LOST_COUNT d k + 1) (2 ^ F.EVT.LOST_COUNT.w - 1) ∧
        v.rf F.EVT.ARM_ARM d k = u.rf F.EVT.ARM_ARM d k) ∧
      (y.fifo.length < 256 → u.rfF F.EVT.CFG_ONESHOT d k = 1 → r.trunc = false → v.flag F.EVT.ARM_ARM d k = false ∧ v.flag F.EVT.STATUS_ARMED d k = false)) ∧
    (s.grantsWrite e ta 32 code.toNat = true → ∃ u : State, exec (.threshWrite e ch code) s = .next (u.judged e ta 32 code.toNat 0) ∧
      u.rf F.EVT.THRESH_CODE d k = code.toNat ∧ u.flag F.EVT.STATUS_SETTLING d k = true ∧
      RegsOnly [(F.EVT.THRESH_CODE, d, k), (F.EVT.STATUS_SETTLING, d, k)]
        (s.setEvt ch { x with settleAt := some (s.tick d + 1250) }) u) ∧
    (∀ t, x.settleAt = some t → t ≤ s.tick d → ∃ u, exec (.threshSettled ch) s = .next u ∧
      u.flag F.EVT.STATUS_SETTLING d k = false ∧
      RegsOnly [(F.EVT.STATUS_SETTLING, d, k)] (s.setEvt ch { x with settleAt := none }) u) ∧
    (s.grantsWrite e aa 32 (ofBool arm) = true → ∃ u : State, exec (.armWrite e ch arm) s = .next (u.judged e aa 32 (ofBool arm) 0) ∧
      u.flag F.EVT.ARM_ARM d k = arm ∧ RegsOnly [(F.EVT.ARM_ARM, d, k)] s u) ∧
    (∀ (o : EvOpen) (c : Nat), x.cur = some o → o.closes = some c → s.pkgTick d ≤ c →
      exec (.trainWindowClose ch) s = .next s ∧ exec (.pairedWindowClose ch) s = .next s ∧
      exec (.gatedTimeout ch) s = .next s) ∧
    (∀ (o : EvOpen) (c : Nat), x.cur = some o → o.closes = some c → c < s.pkgTick d →
      let closes (m : Nat) (i : Instr) (r : EvRecord) : Prop := s.rfF F.EVT.CFG_MODE d k = m → ∃ u, exec i s = .next u ∧
        (m = 3 → ∀ b, o.next = some b → s.rfF F.EVT.CFG_ONESHOT d k = 0 → ∃ y, (u.evt ch).cur = some y ∧ y.edges = [b] ∧ y.next = none) ∧
        (m ≠ 3 ∨ o.next = none → (u.evt ch).cur = none) ∧ (m = 1 → (u.evt ch).closedAt = some c) ∧ (x.fifo.length < 256 → (u.evt ch).fifo = x.fifo ++
          [EvRecord.bytes { r with late := o.late, dead := o.dead, extra := o.extra, applies := o.applies } x.seq ch x.ovf])
      closes 1 (.trainWindowClose ch) { kind := 1, edges := o.edges } ∧
      closes 2 (.pairedWindowClose ch) { kind := 2, edges := o.edges.take 1, byStop := o.byStop, unpaired := true } ∧
      closes 3 (.gatedTimeout ch) { kind := 3, edges := o.edges.take 1, byStop := o.byStop, timeout := true }) ∧
    (s.grants e ha 64 = true → x.fifo = [] → exec (.evtRecHeadRead e ch) s = .next (s.answer e ha 0 0)) ∧
    (∀ (r : List Byte) (q : List (List Byte)), s.grants e ha 64 = true → x.fifo = r :: q →
      (frames → exec (.evtRecHeadRead e ch) s = .next ((s.setFlag F.EVT.ERR_READ_IGN d k).answer e ha 0 0)) ∧
      (¬ frames → ∃ u : State, exec (.evtRecHeadRead e ch) s = .next (u.answer e ha 0 (2 ^ 63 +
          (r.getD 2 0).toNat % 8 * 2 ^ 32 + ((r.getD 0 0).toNat + 256 * (r.getD 1 0).toNat))) ∧
        (u.evt ch).fifo = q ∧ (u.evt ch).record = r ∧ u.rf F.EVT.STATUS_DEPTH d k = q.length % 2 ^ F.EVT.STATUS_DEPTH.w ∧
        RegsOnly [(F.EVT.STATUS_DEPTH, d, k)] (s.setEvt ch (u.evt ch)) u)) ∧
    (∀ (r : List Byte) (q : List (List Byte)), x.fifo = r :: q → frames → (s.eng eng).rxq.length < 32 → ∃ u,
      exec (.eventFrameDeliver ch) s = .next u ∧ (u.evt ch).fifo = q ∧
      (u.eng eng).rxq = (s.eng eng).rxq ++ [s.ownFrame d (eventFrame r)] ∧ (u.eng eng).pending.getLsbD 60 = true)

/-! ## Timing outputs and monitors (R443 to R456, R459 to R469) -/

/-- R460, R469: while FVDD_d fails the bank drives nothing, and on its return the outputs follow again, each change with
event 2; a trigger is armed with its target, which is driven on the next ridge edge where that serves it, late where it
lies less than 0.8 ns after that edge; at the start of its bank one armed before is judged so too. An edge due in the cycle of the
write is driven and the write takes effect. That a time already past goes on the next ridge edge is the model's reading (log entry 71). -/
def Obligations.OutputSupplyAndTrigger : Prop :=
  ∀ (s : State) (e d k : Nat), s.hasDie d = true → k < 4 → s.resets.asserted = false →
    let x := s.out d k
    let ok (u : State) : Bool := u.flag F.FIELD.STATUS_FVDD_OK d 0
    let bit (u : State) (f : Fld) (j : Nat) : Bool := (u.rf f d 0).testBit j
    let adj := s.rfS (F.FIELD.OUT_ADJ_OUT_ADJ k) d 0
    let width := s.rfF (F.FIELD.OUT_CFG_WIDTH k) d 0 * 625
    let target := XT.units (BitVec.ofNat 128 (s.rf (F.FIELD.OUT_TRIG_TIME_TIME k) d 0))
    let drives : Prop := s.inRun d B.FIELD 0 = true ∧ s.outFunc d k = 4
    -- the connector time of the next ridge edge, and the target less 0.8 ns, in 10^-6 of 2^-32 ns
    let conn : Int := (s.unitsAt d (s.pkgTick d + 1) : Int) * 10 ^ 6 + s.outLead d adj * 2 ^ 32
    let edge : Int := (target : Int) * 10 ^ 6 - 800000 * 2 ^ 32
    let due : Prop := ∃ p, x.plan = some p ∧ p.tick ≤ s.pkgTick d ∧ drives
    let soon : OutState := { x with trig := some target, plan := some ⟨target, s.pkgTick d + 1, adj, width⟩ }
    let a := mkFa d B.FIELD 0 (0x110 + 64 * k)
    let arms (f : State → Prop) : Prop := ∃ t : State, exec (.triggerArm e d k) s = .next (t.judged e a 32 1 0) ∧ f t
    let armed (t : State) (y : OutState) (fs : List (Fld × Nat × Nat)) : Prop :=
      t.flag (F.FIELD.OUT_TRIG_CTL_ARM k) d 0 = true ∧ bit t F.FIELD.STATUS_ARMED k = true ∧
        (∀ j, j ≠ k → bit t F.FIELD.STATUS_ARMED j = bit s F.FIELD.STATUS_ARMED j) ∧ t.out d k = y ∧
        RegsOnly ((F.FIELD.OUT_TRIG_CTL_ARM k, d, 0) :: (F.FIELD.STATUS_ARMED, d, 0) :: fs) (s.setOut d k y) t
    (∀ u : State, (∀ j, j < 4 → bit (u.outLevels d) F.FIELD.STATUS_LEVEL j =
        (u.fieldLive d && ((u.out d j).high != (u.rfF (F.FIELD.OUT_CFG_POL j) d 0 == 1)))) ∧
      RegsOnly [(F.FIELD.STATUS_LEVEL, d, 0)] u (u.outLevels d)) ∧
    (ok s = true → ∃ u : State, exec (.fvddLoss d) s = .next ((u.raise d B.FIELD 0 2).outLevels d) ∧
      ok u = false ∧ u.flag F.FIELD.ERR_FVDD_LOST d 0 = true ∧
      u.out d k = { x with high := false, endsAt := none } ∧
      RegsOnly [(F.FIELD.STATUS_FVDD_OK, d, 0), (F.FIELD.ERR_FVDD_LOST, d, 0)] { s with outs := u.outs } u) ∧
    (ok s = false → ∃ u : State, exec (.fvddRestore d) s = .next ((u.raise d B.FIELD 0 2).outLevels d) ∧
      ok u = true ∧ RegsOnly [(F.FIELD.STATUS_FVDD_OK, d, 0)] s u) ∧
    (ok s = false → exec (.fvddLoss d) s = .next s) ∧
    (ok s = true → exec (.fvddRestore d) s = .next s) ∧
    (s.grantsWrite e a 32 1 = true → ¬ due → ¬ (drives ∧ edge ≤ conn) →
      arms fun t => armed t { x with trig := some target, plan := none } []) ∧
    (s.grantsWrite e a 32 1 = true → ¬ due → drives → edge = conn → arms fun t => armed t soon []) ∧
    (s.grantsWrite e a 32 1 = true → ¬ due → drives → edge < conn →
      arms fun t => t.flag F.FIELD.ERR_TRIG_LATE d 0 = true ∧ armed t soon [(F.FIELD.ERR_TRIG_LATE, d, 0)]) ∧
    (∀ (u : State) (t : Nat), u.inRun d B.FIELD 0 = true → u.outFunc d k = 4 → (u.out d k).trig = some t →
      let b := u.rfS (F.FIELD.OUT_ADJ_OUT_ADJ k) d 0
      let m : Int := (u.unitsAt d (u.pkgTick d + 1) : Int) * 10 ^ 6 + u.outLead d b * 2 ^ 32 - ((t : Int) * 10 ^ 6 - 800000 * 2 ^ 32)
      let v := u.trigJudge d k
      (m < 0 → v = u) ∧ (0 ≤ m → v.out d k = { u.out d k with
        plan := some ⟨t, u.pkgTick d + 1, b, u.rfF (F.FIELD.OUT_CFG_WIDTH k) d 0 * 625⟩ }) ∧
      (0 < m → v.flag F.FIELD.ERR_TRIG_LATE d 0 = true)) ∧
    (∀ p, s.grantsWrite e a 32 1 = true → x.plan = some p → p.tick ≤ s.pkgTick d → drives →
      arms fun t => t = (s.driveEdge d k p).wrTrigArm d k true)

/-- R326, R463 to R466, R469: an output fixes its edge's tick one millisecond before the target; on that tick it drives the
edge, marks LAST_EDGE and QERR and raises the event of its function; the pulse ends after its width. Both edges start the
channels that name the output. That a bit slot which the time has passed has no edge is the model's choice (log entry 99), and the
layout of a frame is IRIG Standard 200's (53). -/
def Obligations.OutputEdges : Prop :=
  ∀ (s : State) (d k : Nat), s.hasDie d = true → k < 4 → s.resets.asserted = false →
    let x := s.out d k
    let run : Prop := s.inRun d B.FIELD 0 = true
    let live : Prop := s.fieldLive d = true
    let pol (u : State) : Nat := u.rfF (F.FIELD.OUT_CFG_POL k) d 0
    let adj := s.rfS (F.FIELD.OUT_ADJ_OUT_ADJ k) d 0
    let width := s.rfF (F.FIELD.OUT_CFG_WIDTH k) d 0 * 625
    let sec : Nat := 10 ^ 9 * 2 ^ 32
    let ms : Nat := 10 ^ 6 * 2 ^ 32
    let driven (p : OutPlan) : State := (s.pulse d k p.width).edgeMark d k p.adj fun conn => units16 (conn - p.target)
    let marked (p : OutPlan) (y : Nat) : State :=
      (driven p).setOut d k { (driven p).out d k with lastSec := some x.second, slot := y }
    (s.outFunc d k = 1 → s.nextTarget d k = some (((s.nextSecond d k * sec : Nat) : Int), width, { x with second := s.nextSecond d k })) ∧
    (∀ l, x.lastSec = some l → s.nextSecond d k = max (max (l + 1) x.firstSec) ((max (s.now d) x.floor + sec - 1) / sec)) ∧
    (s.outFunc d k = 4 → s.nextTarget d k = x.trig.map fun t => ((t : Int), width, x)) ∧
    (∀ j : Nat, j = max x.slot ((max (s.now d) x.floor - x.second * sec + (10 * ms - 1)) / (10 * ms)) → s.outFunc d k = 3 → x.frame ≠ [] →
      j < 100 → s.nextTarget d k =
        some (((x.second * sec + 10 * j * ms : Nat) : Int), x.frame.getD j 2 * 625000, { x with slot := j })) ∧
    (∀ (t : Int) (w : Nat) (y : OutState), run → x.plan = none → s.nextTarget d k = some (t, w, y) → t ≤ s.now d + ms →
      exec (.outputEdgeSchedule d k) s =
        .next (s.setOut d k { y with plan := some ⟨t, max (s.pkgTick d + 1) (s.firstTick d t (s.outLead d adj)), adj, w⟩ })) ∧
    (¬ run ∨ x.plan.isSome = true ∨ s.nextTarget d k = none ∨ (∃ t w y, s.nextTarget d k = some (t, w, y) ∧ s.now d + ms < t) →
      exec (.outputEdgeSchedule d k) s = .next s) ∧
    (∀ (u : State) (w : Nat), ∃ v : State, u.pulse d k w = v.evStart d (8 + k) (v.outEdge d k (pol u == 0)) ∧
      v.out d k = { u.out d k with high := true, plan := none, endsAt := some (u.tick d + w) } ∧
      RegsOnly [(F.FIELD.STATUS_LEVEL, d, 0)] (u.setOut d k (v.out d k)) v) ∧
    (∀ (u : State) (b : Int) (q : Int → Int),
      let conn := u.edgeUnits d (u.pkgTick d) (250 * (Int.ofNat (u.rf F.FIELD.OUT_FIXED_FIXED d 0) + b))
      let v := u.edgeMark d k b q
      v.rf (F.FIELD.OUT_LAST_EDGE_TIME k) d 0 = (xtOfInt conn).toNat ∧ v.rf (F.FIELD.OUT_QERR_QERR k) d 0 = ofSigned 32 (q conn) ∧
        RegsOnly [(F.FIELD.OUT_LAST_EDGE_TIME k, d, 0), (F.FIELD.OUT_QERR_QERR k, d, 0)] u v) ∧
    (∀ p : OutPlan, x.plan = some p → run → p.tick ≤ s.pkgTick d →
      (live → s.outFunc d k = 1 → exec (.outputEdge d k) s =
        .next ((marked p ((driven p).out d k).slot).raise d B.FIELD 0 0)) ∧
      (live → s.outFunc d k = 3 → exec (.outputEdge d k) s = .next (if x.slot = 0 then
        (marked p (x.slot + 1)).raise d B.FIELD 0 0 else marked p (x.slot + 1))) ∧
      (live → s.outFunc d k = 4 → exec (.outputEdge d k) s = .next (((driven p).disarm d k).raise d B.FIELD 0 1)) ∧
      (¬ live → s.outFunc d k = 4 → ∃ u, exec (.outputEdge d k) s = .next u ∧
        u.flag F.FIELD.ERR_TRIG_LOST d 0 = true ∧ (u.rf F.FIELD.STATUS_ARMED d 0).testBit k = false ∧
        u.flag (F.FIELD.OUT_TRIG_CTL_ARM k) d 0 = false ∧ u.out d k = { x with trig := none, plan := none } ∧
        RegsOnly [(F.FIELD.ERR_TRIG_LOST, d, 0), (F.FIELD.STATUS_ARMED, d, 0), (F.FIELD.OUT_TRIG_CTL_ARM k, d, 0)]
          (s.setOut d k (u.out d k)) u) ∧
      (¬ live → s.outFunc d k ≠ 4 → exec (.outputEdge d k) s =
        .next (s.setOut d k { x with plan := none, floor := p.target.toNat + 1, slot := x.slot + 1 }))) ∧
    (x.plan = none ∨ ¬ run ∨ (∃ p, x.plan = some p ∧ s.pkgTick d < p.tick) → exec (.outputEdge d k) s = .next s) ∧
    (∀ t, x.endsAt = some t → t ≤ s.tick d → ∃ u : State,
      (u.out d k = { x with high := false, endsAt := none } ∧ RegsOnly [(F.FIELD.STATUS_LEVEL, d, 0)] (s.setOut d k (u.out d k)) u) ∧
      (live → x.high = true → exec (.outputPulseEnd d k) s = .next (u.evStart d (8 + k) (u.outEdge d k (pol s == 1)))) ∧
      (¬ live ∨ x.high = false → exec (.outputPulseEnd d k) s = .next u)) ∧
    (x.endsAt = none ∨ (∃ t, x.endsAt = some t ∧ s.tick d < t) → exec (.outputPulseEnd d k) s = .next s)

/-- R443, R445, R447, R448, R450, R452 to R456: a level counter adds what its MODE gives, with its compare and wrap; bandwidth
windows; the tag FIFO and its stages, which a report of another frame leaves alone; histograms, of which a unit takes one level sample a
tick. The model's choice: which cycle of a tick a command's addition or a sample falls in (log entry 103); that a frame with no copy to
follow completes at stage 4 is its reading (66). -/
def Obligations.Monitors : Prop :=
  ∀ (s : State) (e d c i amount : Nat) (hold : Bool), s.hasDie d = true → c < 8 → i < 32 → s.resets.asserted = false →
    let p := s.perf d
    let run : Prop := s.inRun d B.PERF 0 = true
    let C := s.rf (F.PERF.CNT_COUNT c) d 0
    let S := C + amount
    let M := s.rf (F.PERF.CMP_CMP c) d 0
    let hit : Prop := (C < M ∧ M ≤ S) ∨ (2 ^ 48 ≤ S ∧ M ≤ S - 2 ^ 48)
    let added (i : Instr) : Prop := ∃ u, exec i s = .next u ∧ u.rf (F.PERF.CNT_COUNT c) d 0 = S % 2 ^ 48 ∧
      (hit → (u.rf F.PERF.STAT_CMP_HIT d 0).testBit c = true) ∧ (2 ^ 48 ≤ S → u.flag (F.PERF.CNT_OVF c) d 0 = true) ∧
      RegsOnly [(F.PERF.CNT_COUNT c, d, 0), (F.PERF.STAT_CMP_HIT, d, 0), (F.PERF.CNT_OVF c, d, 0)]
        (s.setPerf d { p with ahead := c :: p.ahead }) u
    let W := s.rfF F.PERF.BW_CFG_WINDOW d 0 * 625
    let ta := mkFa d B.PERF 0 0x120
    let ha := mkFa d B.HIST i 4
    let bin (u : State) (b : Nat) : Nat := u.rf (F.HIST.BIN_COUNT b) d i
    (∀ v, s.level d (s.rfF (F.PERF.SEL_SRC c) d 0) (s.rfF (F.PERF.SEL_INDEX c) d 0) = some v →
      let mode := s.rfF (F.PERF.SEL_MODE c) d 0
      let thr := s.rf (F.PERF.THR_THR c) d 0
      s.levelAmount d c = if mode = 2 then ofBool (decide (thr < v)) else if mode = 3 then ofBool (decide (v ≤ thr))
        else if mode = 4 then v else 0) ∧
    (amount ≠ s.levelAmount d c ∨ amount = 0 → exec (.perfCompareReached d c amount) s = .next s ∧
      exec (.perfCounterWrap d c amount) s = .next s) ∧
    (run → amount ≠ 0 → amount = s.levelAmount d c → p.ahead.contains c = false → (hit → added (.perfCompareReached d c amount)) ∧
      (2 ^ 48 ≤ S → added (.perfCounterWrap d c amount))) ∧
    (run → p.window + W ≤ s.tick d → ∃ u, exec (.bwWindowEnd d) s = .next u ∧
      u.perf d = { p with bytes := [], window := p.window + W } ∧ ∀ k, k < 24 →
        u.rf (F.PERF.BW_RX_BYTES k) d 0 = Store.get 0 p.bytes (2 * k) % 2 ^ (F.PERF.BW_RX_BYTES k).w ∧
        u.rf (F.PERF.BW_TX_BYTES k) d 0 = Store.get 0 p.bytes (2 * k + 1) % 2 ^ (F.PERF.BW_TX_BYTES k).w ∧
        u.rf (F.PERF.BW_WIN k) d 0 = (s.rf (F.PERF.BW_WIN k) d 0 + 1) % 2 ^ 16) ∧
    (s.grants e ta 64 = true → p.fifo = [] → exec (.tagHeadRead e d) s = .next (s.answer e ta 0 0)) ∧
    (∀ (r : List Byte) (q : List (List Byte)), s.grants e ta 64 = true → p.fifo = r :: q → ∃ u : State,
      exec (.tagHeadRead e d) s = .next (u.answer e ta 0 (2 ^ 63 + (r.getD 2 0).toNat % 8 * 2 ^ 32 +
        ((r.getD 0 0).toNat + 256 * (r.getD 1 0).toNat))) ∧
      u.rf F.PERF.TAG_STAT_DEPTH d 0 = q.length % 2 ^ F.PERF.TAG_STAT_DEPTH.w ∧
      RegsOnly [(F.PERF.TAG_STAT_DEPTH, d, 0)] (s.setPerf d { p with fifo := q, record := r }) u) ∧
    (∀ (u : State) (t : TagItem) (n : Nat),
      let q := u.perf d
      let v := u.tagStore d t n
      (v.perf d).seq = (q.seq + 1) % 2 ^ 16 ∧
      (q.fifo.length < 16 → (v.perf d).fifo = q.fifo ++ [t.bytes q.seq n]) ∧
      (16 ≤ q.fifo.length → (v.perf d).fifo = q.fifo ∧ v.flag F.PERF.ERR_TAG_LOST_SEEN d 0 = true)) ∧
    (∀ (src stage T : Nat) (it : TagItem) (done dropped : Bool) (x y : List CtlMsg),
      s.msgs = x ++ ⟨src, d, .tagStage stage T it done dropped⟩ :: y → (∀ m ∈ x, ¬ (m.dst = d ∧ m.body.isTag = true)) →
      let u : State := { s with msgs := x ++ y }
      (p.frame = none → exec (.tagStageReport d) s = .next u) ∧
      (∀ t, p.frame = some t → t.id ≠ it.id → exec (.tagStageReport d) s = .next u) ∧
      (∀ t, p.frame = some t → t.id = it.id → done = false → dropped = false → ∃ t' : TagItem,
        exec (.tagStageReport d) s = .next (u.setPerf d { p with frame := some t' }) ∧ t'.outPort = it.outPort ∧
        t'.queue = it.queue ∧ t'.flags = t.flags ||| it.flags ∧ t'.stages = (if stage < 12 then t.at_ stage T else t).stages) ∧
      (∀ t, p.frame = some t → t.id = it.id → done = true ∨ dropped = true → ∃ (v : State) (t' : TagItem),
        exec (.tagStageReport d) s = .next (v.tagStore d t' 0) ∧ (v.perf d).frame = none ∧
        v.flag F.PERF.TAG_STAT_FR_BUSY d 0 = false)) ∧
    (∀ src x : Nat, s.has d B.HIST i = true → s.rfF F.HIST.CFG_SRC d i = src →
      (src = 2 ∧ s.level d 0x30 (s.rfF F.HIST.CFG_INDEX d i) = some x) ∨
        (src = 3 ∧ s.level d 0x31 (s.rfF F.HIST.CFG_INDEX d i) = some x) →
      s.histWants d src (s.rfF F.HIST.CFG_INDEX d i) i = true → s.tick d % 2 ^ s.rfF F.HIST.CFG_SPER d i = 0 →
      s.flag F.HIST.CTRL_HOLD d i = false → p.sampled.contains i = false →
      let b := ((List.range 31).filter fun j =>
        decide (toSigned 48 (s.rfF (F.HIST.EDGE_EDGE j) d i) ≤ min ((x : Nat) : Int) (2 ^ 47 - 1))).length
      ∃ u, exec (.histLevelSample d i) s = .next u ∧ bin u b = (bin s b + 1) % 2 ^ 48 ∧
        (∀ j, j < 32 → j ≠ b → bin u j = bin s j) ∧
        u.rf F.HIST.SAMPLES_COUNT d i = (s.rf F.HIST.SAMPLES_COUNT d i + 1) % 2 ^ F.HIST.SAMPLES_COUNT.w) ∧
    (s.has d B.HIST i = true → p.sampled.contains i = true → exec (.histLevelSample d i) s = .next s) ∧
    (s.grantsWrite e ha 32 (ofBool hold) = true → ∃ u : State, exec (.histHold e d i hold) s = .next (u.judged e ha 32 (ofBool hold) 0) ∧
      u.flag F.HIST.CTRL_HOLD d i = hold ∧ RegsOnly [(F.HIST.CTRL_HOLD, d, i)] s u) ∧
    (s.grantsWrite e ha 32 (2 + ofBool hold) = true → ∃ u : State, exec (.histClear e d i hold) s = .next (u.judged e ha 32 (2 + ofBool hold) 0) ∧
      u.flag F.HIST.CTRL_HOLD d i = hold ∧ u.rf F.HIST.SAMPLES_COUNT d i = 0 ∧
      u.rf F.HIST.MIN_VALUE d i = 0x00007FFFFFFFFFFF ∧ u.rf F.HIST.MAX_VALUE d i = 0xFFFF800000000000 ∧
      ∀ b, b < 32 → bin u b = 0 ∧ u.flag (F.HIST.BIN_OVF b) d i = false)

/-! ## The switch core (R185, R250, R262, R338, R372 to R401, R409 to R411) -/

/-- R185, R250, R262, R372, R373, R375, R386: a frame's reception, its cells into the staging FIFO, its end with the port's
counts, and the turn of a cell towards its output die. The mark that ends a frame as bad takes no slot. That a FIFO's overflow
on the own die is not counted is the model's reading (log entry 63), and that an overlong frame counts as oversize alone its choice
(62). -/
def Obligations.SwitchInput : Prop :=
  ∀ (s : State) (p d dest : Nat) (bytes : List Byte) (k : Strobe) (spare bad : Bool), p < Config.nPorts s.part →
    s.resets.asserted = false →
    let i := p % 24
    let lim := s.rfF F.PCS.CFG_MAX_FRAME (p / 24) i
    let raw := if lim < bytes.length then bytes.take (lim + 1) else bytes
    let cnt (u : State) (n : Nat) : Nat := Store.get 0 (u.port p).counts n
    let starts (t : State) : Prop := exec (.frameReceiveStart p bytes k spare) s = .next t
    (s.canReceive p = false → starts s) ∧
    (s.canReceive p = true → ∃ (t : State) (r : RxFrameCur), starts t ∧ (t.port p).rx = some r ∧ r.raw = raw ∧ r.done = 0 ∧
      r.ovr = decide (lim < bytes.length) ∧ r.frame.src = .port p ∧
      (s.mode p ≠ 1 → r.frame.time = if s.tsuRun p then some (s.rxStamp p k) else none) ∧
      (takenAside raw = true → r.frame.ports = 0 ∧
        r.frame.engines = 2 ^ s.rfF F.LINK.CFG_HANDLER (p / 24) i % 2 ^ Config.nEngines s.part) ∧
      (takenAside raw = false → etherType raw = 0x8808 → r.frame.ports = 0 ∧ r.frame.engines = 0 ∧
        cnt t 7 = (cnt s 7 + 1) % 2 ^ 64)) ∧
    (∀ (u : State) (j : Nat) (r : RxFrameCur) (last bad : Bool), r.dropped = false → r.cutOff = false → r.frame.tag = none →
      let l := u.fifo d j
      let cell : Cell := ⟨r.frame, r.done == 0, last, bad, (r.bytes.drop r.done).take 256⟩
      let all : Prop := r.done = 0 → r.dies ≠ [] ∧ ∀ x ∈ r.dies, u.txUp d x = true
      (all → slotsUsed l < 32 → u.stage d j r last bad = (u.setFifo d j (l ++ [⟨cell, r.dies⟩]), { r with done := r.done + 256 })) ∧
      (r.done ≠ 0 → 32 ≤ slotsUsed l → u.stage d j r last bad =
        (u.setFifo d j (l ++ [⟨⟨r.frame, false, true, true, []⟩, r.dies⟩]), { r with cutOff := true, done := r.done + 256 })) ∧
      (all → r.done = 0 → 32 ≤ slotsUsed l → (u.stage d j r last bad).2 = { r with dropped := true, done := 256 } ∧
        (u.stage d j r last bad).1.fifo d j = l ∧
        ∀ x ∈ r.dies, x ≠ d → u.rf F.MESH.STG_DROP_COUNT d x < 2 ^ 32 - 1 →
          u.rf F.MESH.STG_DROP_COUNT d x < (u.stage d j r last bad).1.rf F.MESH.STG_DROP_COUNT d x)) ∧
    (∀ l : List StgCell,
      slotsUsed l = (l.filter fun x => x.cell.first || !x.cell.bad || x.cell.data != []).length) ∧
    (∀ r : RxFrameCur, (s.port p).rx = some r → (s.port p).fwd = none →
      (r.done + 256 < r.bytes.length → exec (.frameCellReceive p) s =
        .next (let t := s.stage (p / 24) i r false false
        t.1.setPort p { t.1.port p with rx := some t.2 })) ∧
      (r.bytes.length ≤ r.done + 256 → exec (.frameCellReceive p) s = .next s) ∧
      ∃ t, exec (.frameReceiveEnd p bad) s = .next t ∧ (t.port p).rx = none ∧
        (bad = true ∨ r.bad = true ∨ r.ovr = true ∨ fcsGood r.raw = false →
          cnt t (if r.ovr then 3 else 2) = (cnt s (if r.ovr then 3 else 2) + 1) % 2 ^ 64 ∧ cnt t 0 = cnt s 0 ∧ cnt t 1 = cnt s 1) ∧
        (bad = false → r.bad = false → r.ovr = false → fcsGood r.raw = true →
          cnt t 0 = (cnt s 0 + 1) % 2 ^ 64 ∧ cnt t 1 = (cnt s 1 + r.raw.length) % 2 ^ 64)) ∧
    (s.hasDie d = true → s.hasDie dest = true → s.txUp d dest = true → d = dest ∨ s.inRun d B.MESH dest = true →
      (s.turnOf d dest = none → exec (.cellSend d dest) s = .next s) ∧
      (∀ (j : Nat) (c : Cell) (rest : List StgCell), s.turnOf d dest = some j → takeFor dest (s.fifo d j) = some (c, rest) →
        ∃ u : State, exec (.cellSend d dest) s = .next u ∧ u.fifo d j = rest ∧
          u.onWay d dest = s.onWay d dest ++ [c] ∧ Store.get 0 (u.die d).turn dest = (j + 1) % 25 ∧
          (d ≠ dest → u.rf F.MESH.CELLS_TX_COUNT d dest = (s.rf F.MESH.CELLS_TX_COUNT d dest + 1) % 2 ^ 64)))

/-- R374, R379, R387, R388, R390, R395, R401, R501: cells at the output die, the admission rule, the scheduler's strict
queues, a copy's transmission and its counts, discarding behind a stopped PCS, gate entries. STOPPED_PORT_DISCARD names the queue, and
a copy whose TTL is spent is a queue drop: the model's readings (log entry 63); the FCS of a frame that fails its verdict is free (62). -/
def Obligations.SwitchOutput : Prop :=
  ∀ (s : State) (p d src q : Nat) (k : Strobe) (hdrOk : Bool), p < Config.nPorts s.part → q < 16 → s.hasDie d = true →
    s.hasDie src = true → s.resets.asserted = false →
    let i := p % 24
    let cnt (u : State) (n : Nat) : Nat := Store.get 0 (u.port p).counts n
    let arrives (t : State) : Prop := exec (.cellArrive d src hdrOk) s = .next t
    let begins (t : State) : Prop := exec (.frameTransmitStart p k) s = .next t
    (s.onWay src d = [] → arrives s) ∧
    (∀ (c : Cell) (r : List Cell), s.onWay src d = c :: r →
      (d ≠ src → hdrOk = false → ∃ u : State, arrives (u.nextCell d c.frame.id [] true true) ∧ u.onWay src d = r ∧
        u.flag F.MESH.ERR_HDR_CRC_SEEN d src = true ∧
        u.rf F.MESH.HDR_DROP_COUNT d src = min (s.rf F.MESH.HDR_DROP_COUNT d src + 1) (2 ^ 32 - 1)) ∧
      (d = src ∨ hdrOk = true → ∃ u : State, u.onWay src d = r ∧
        (d ≠ src → u.rf F.MESH.CELLS_RX_COUNT d src = (s.rf F.MESH.CELLS_RX_COUNT d src + 1) % 2 ^ 64) ∧
        arrives (if c.first = false then u.nextCell d c.frame.id c.data c.last c.bad
          else if c.last = true then (u.firstCell d c).nextCell d c.frame.id [] true c.bad else u.firstCell d c))) ∧
    (∀ (u : State) (n : Nat) (len : Option Nat),
      let pd := p / 24
      let Q := u.queueOcc pd i q
      let mn := u.queueMin pd i q
      let free := u.rf F.QUE.POOL_SHARED_FREE pd i
      u.admits p q n len = true ↔ u.inRun pd B.QUE i = true ∧ u.queueOn pd i q = true ∧
        (∀ l, len = some l → l ≤ u.rf F.QUE.STATUS_FRAME_LIM pd i) ∧
        u.rf F.QUE.STATUS_PORT_OCC pd i + n ≤ u.rfF F.QUE.PMAX_PMAX pd i ∧
        (Q + n ≤ mn ∨ (Q + n - max Q mn ≤ free ∧ (Q + n - mn) * 16 ≤ 2 ^ u.rf (F.QUE.QL_ALPHA q) pd i * free))) ∧
    (∀ (u : State) (head : Nat → Option Nat) (len : Nat), 12 ≤ q → head q = some len → u.eligible p q len = true →
      (∀ j n, q < j → j < 16 → head j = some n → u.eligible p j n = false) → (u.choose p head).1 = some q) ∧
    ((s.port p).tx.isSome = true → begins s) ∧
    (∀ w : Dwrr, (s.port p).tx = none → s.portExists p = true → s.choose p (s.heads p) = (none, w) →
      begins (s.setPort p { s.port p with deficit := w.deficit, ptr := w.ptr, fresh := w.fresh, next := none })) ∧
    (∀ (w : Dwrr) (c : Copy) (rest : List Copy), (s.port p).tx = none → s.portExists p = true →
      s.choose p (s.heads p) = (some q, w) → s.queue p q = c :: rest → s.tooOld p c = false → c.spent = false →
      ∃ (u t : State) (x : TxCur), begins t ∧ t = u.txBegin p c k ∧ u.queue p q = rest ∧ (u.port p).deficit = w.deficit ∧
        (t.port p).tx = some x ∧ x.copy = c ∧ x.time = if s.tsuRun p then some (s.txStamp p k) else none) ∧
    ((s.port p).tx = none → exec (.frameTransmitEnd p) s = .next s) ∧
    (∀ t : TxCur, (s.port p).tx = some t →
      (t.copy.whole = false → exec (.frameTransmitEnd p) s = .next s) ∧
      (t.copy.whole = true → ∃ u, exec (.frameTransmitEnd p) s = .next u ∧ (u.port p).tx = none ∧
        (u.port p).sent = (s.txFrame p t).1 ∧ (u.lane p).idleFrom = s.tick (p / 24) ∧ cnt u 4 = (cnt s 4 + 1) % 2 ^ 64 ∧
        cnt u 5 = (cnt s 5 + (s.txFrame p t).1.length) % 2 ^ 64 ∧
        (t.copy.queue < 16 → cnt u (16 + 2 * t.copy.queue) = (cnt s (16 + 2 * t.copy.queue) + 1) % 2 ^ 64) ∧
        (t.copy.bad = true → cnt u 6 = (cnt s 6 + 1) % 2 ^ 64))) ∧
    (∀ (c : Copy) (rest : List Copy), s.queue p q = c :: rest →
      (s.run (p / 24) B.PCS i = 0 ∨ s.run (p / 24) B.PCS i = 3 → s.queueOn (p / 24) i q = true → ∃ u : State,
        exec (.stoppedPortDiscard p q) s = .next (u.mirrDrop p q c.frame .stopped c.cut c.bad c.bytes) ∧ u.queue p q = rest ∧
        cnt u (17 + 2 * q) = (cnt s (17 + 2 * q) + 1) % 2 ^ 64) ∧
      (s.run (p / 24) B.PCS i = 1 → exec (.stoppedPortDiscard p q) s = .next s)) ∧
    (∀ (g : GatePlace) (n : Int) (j : Nat), (s.port p).gate = some g → s.gatePlace p = some (n, j) →
      s.inRun (p / 24) B.GATE i = true → ∃ u, exec (.gateEntryStart p) s = .next u ∧
        u.rf F.GATE.STATUS_OPEN (p / 24) i = ((s.gateList p).map (·.1)).getD j 0xFFFF % 2 ^ 16 ∧
        u.rf F.GATE.STATUS_ENTRY (p / 24) i = j % 2 ^ 9 ∧ (u.port p).gate = some { g with begun := true })

/-- R39, R398, R400, R401, R410, R411: the mirror's ring, duplicate windows with the forgetting of sources and LANs, and the
directions of a saddle link with their training and retransmission; a direction that goes down, at work or at its training, waits for
both ends to restart. When the mirror takes a record is the model's choice (log entry 103), and of which copies of a frame a source is
heard its reading (102). -/
def Obligations.MirrorRedundancyMesh : Prop :=
  ∀ (s : State) (e d i src a b : Nat) (onB clk : Bool) (failed : Word32), s.resets.asserted = false →
    let ha := mkFa d B.MIRR 0 0x20
    let m := (s.die d).mirr
    let size (l : List (List Byte)) : Nat := (l.map List.length).foldl (· + ·) 0
    let forget := 625000 * max 1 (s.rf F.PRP.FORGET_FORGET d i)
    let lan := if onB then F.PRP.STATUS_LAN_B_OK else F.PRP.STATUS_LAN_A_OK
    let heard := Store.get 0 (s.die d).prpLan (2 * i + ofBool onB)
    let dies : Prop := s.hasDie a = true ∧ s.hasDie b = true ∧ a ≠ b
    let up (u : State) : Prop := u.flag F.MESH.STATUS_TX_UP a b = true ∧ u.flag F.MESH.STATUS_RX_UP b a = true
    let w := (List.range 32).filter fun j => failed.getLsbD j
    let fixable : Prop := w.length = 0 ∨
      (w.length ≤ 2 ∧ s.rfF F.MESH.CFG_REPAIR_EN a b = 1 ∧ s.rfF F.MESH.CFG_REPAIR_EN b a = 1)
    (s.grants e ha 64 = true → m.ring = [] → exec (.mirrRecHeadRead e d) s = .next (s.answer e ha 0 0)) ∧
    (∀ (r : List Byte) (q : List (List Byte)), s.grants e ha 64 = true → m.ring = r :: q → ∃ u : State,
      exec (.mirrRecHeadRead e d) s =
        .next (u.answer e ha 0 (2 ^ 63 + r.length % 2 ^ 9 * 2 ^ 32 + leNat ((r.drop 16).take 4))) ∧
      (u.die d).mirr = { m with ring := q, record := r } ∧
      u.rf F.MIRR.STATUS_USED d 0 = size q % 2 ^ F.MIRR.STATUS_USED.w ∧
      RegsOnly [(F.MIRR.STATUS_USED, d, 0)] (s.setDie d (u.die d)) u) ∧
    (∀ (u : State) (r : List Byte),
      let x := (u.die d).mirr
      let v := u.mirrStore d r
      u.rfF F.MIRR.CFG_DEST d 0 ≠ 1 → (v.die d).mirr.seq = (x.seq + 1) % 2 ^ 32 ∧
        (size x.ring + r.length ≤ 1048576 → (v.die d).mirr.ring = x.ring ++ [r]) ∧
        (1048576 < size x.ring + r.length → v.flag F.MIRR.ERR_RING_FULL_SEEN d 0 = true ∧
          (u.rfF F.MIRR.CFG_WRAP d 0 ≠ 1 → (v.die d).mirr.ring = x.ring))) ∧
    (∀ (W seq : Nat) (win : Option (Nat × Nat)), 0 < W → seq < 2 ^ 16 → (∀ h n, win = some (h, n) → h < 2 ^ 16) →
      (judge W win seq).1 = .accept → (judge W (some (judge W win seq).2) seq).1 = .duplicate) ∧
    (∀ x : PrpEntry, s.has d B.PRP i = true → s.prpEntry d i src = some x →
      (s.tick d < x.last + forget → exec (.prpForget d i src) s = .next s) ∧
      (x.last + forget ≤ s.tick d → ∃ u, exec (.prpForget d i src) s = .next u ∧
        (u.die d).prp = (s.die d).prp.filter (fun y => !(y.inst == i && y.source == src)) ∧
        u.rf F.PRP.FORGOTTEN_COUNT d i = min (s.rf F.PRP.FORGOTTEN_COUNT d i + 1) (2 ^ F.PRP.FORGOTTEN_COUNT.w - 1))) ∧
    (s.has d B.PRP i = true → heard ≠ 0 → heard - 1 + forget ≤ s.tick d → ∃ u, exec (.lanOkExpire d i onB) s = .next u ∧
      u.flag lan d i = false ∧ RegsOnly [(lan, d, i)] s u) ∧
    (dies → s.flag F.MESH.STATUS_TX_UP a b = false → exec (.saddleDirectionDown a b clk) s = .next s) ∧
    (dies → s.flag F.MESH.STATUS_TX_UP a b = true → ∃ u : State, exec (.saddleDirectionDown a b clk) s = .next
        (((((List.range 25).foldl (fun s j => s.fifoCut a b j) (u.linkCut a b)).cellsCut a b).fwdClk a b clk).clockFollows b) ∧
      u.flag F.MESH.STATUS_TX_UP a b = false ∧ u.flag F.MESH.STATUS_RX_UP b a = false ∧
      u.flag F.MESH.ERR_TX_DOWN_SEEN a b = true ∧ u.flag F.MESH.ERR_RX_DOWN_SEEN b a = true ∧
      Store.get 0 u.saddles (8 * a + b) = 3) ∧
    (dies → s.flag F.MESH.STATUS_TX_UP a b = false → s.inRun a B.MESH b = true → s.inRun b B.MESH a = true →
      Store.get 0 s.saddles (8 * a + b) = 0 → ∃ u : State,
      (fixable → exec (.saddleTrainingEnd a b failed clk) s = .next (((u.fwdClk a b clk).linkBack a b).clockFollows b) ∧ up u ∧
        u.rf F.MESH.STATUS_TX_SPARES a b = w.length ∧ u.rf F.MESH.TX_WIREMAP_SPARE0 a b = w.getD 0 0xFF ∧
        u.rf F.MESH.TX_WIREMAP_SPARE1 a b = w.getD 1 0xFF) ∧
      (¬ fixable → exec (.saddleTrainingEnd a b failed clk) s = .next ((u.fwdClk a b clk).clockFollows b) ∧ ¬ up u ∧
        Store.get 0 u.saddles (8 * a + b) = 3)) ∧
    (dies → s.linkUp a b = true → exec (.ctlMessageReceive a b true) s = .next s ∧
      ∃ u, exec (.ctlMessageReceive a b false) s = .next u ∧ u.flag F.MESH.ERR_CTL_RETRY_SEEN a b = true ∧
        u.rf F.MESH.CTL_RETRY_COUNT a b = min (s.rf F.MESH.CTL_RETRY_COUNT a b + 1) (2 ^ 32 - 1) ∧
        RegsOnly [(F.MESH.CTL_RETRY_COUNT, a, b), (F.MESH.ERR_CTL_RETRY_SEEN, a, b)] s u)

/-! ## The tables (R48 to R50, R341 to R371) -/

/-- R347, R349 to R355, R357, R359, R360: requests at the order point, numbering, changes at a replica, learning, scans,
updates, rehash and resynchronisation. A rehash ends when D0's epoch has changed, or at its first failure. The model's readings: when
a copy is taken and what the order point turns away at a stop (log entry 57), a UPD while BUSY and the order of its refusals (58), the
order of requests of one cycle (94). -/
def Obligations.L2Table : Prop :=
  ∀ (s : State) (e d upTo : Nat), s.hasDie d = true → s.resets.asserted = false →
    let x := s.l2t d
    let n := Config.nDies s.part
    let o := s.l2Order
    let run (k : Nat) : Prop := s.inRun k B.L2T 0 = true
    let live (k : Nat) : Prop := run k ∧ s.linkUp 0 k = true
    let applied := s.rf F.L2T.APPLIED_SEQ d 0
    let on (u : State) (f : Fld) (k : Nat) : Prop := u.flag f k 0 = true
    let ua := mkFa 0 B.L2T 0 0x68
    let ra := mkFa 0 B.L2T 0 0x78
    let upd (op : Nat) (t : State) : Prop := exec (if op = 1 then .l2UpdWrite e else .l2UpdDelete e) s =
      .next (t.judged e ua 32 (op * 2 ^ 29) 0)
    let rehash (t : State) : Prop := exec (.rehashGo e) s = .next (t.judged e ra 32 (2 ^ 30) 0)
    let period := s.rf F.L2T.AGE_PERIOD 0 0
    let aged : State := { s with l2Order := { o with ageFrom := o.ageFrom + 625000000 * period } }
    let uw := s.rf F.L2T.UPD_WORD_VALUE 0 0
    let uk := s.rf F.L2T.UPD_KEY_VALUE 0 0
    let begun (s : State) : State := s.setL2 d { s.l2t d with
      copying := some (s.rf F.L2T.ISSUED_SEQ 0 0), queue := [], scan := none, overrun := false, copied := false,
      snap := if s.rf F.L2T.APPLIED_SEQ 0 0 = s.rf F.L2T.ISSUED_SEQ 0 0 then some s.l2Snap else none }
    let bad : Prop := (l2Static uw = false ∧ (l2Kind uw ≠ 0 ∨ l2Route uw = true)) ∨ s.l2DestOk uw = false ∨ uk / 2 ^ 60 % 16 ≠ 0
    -- the order point
    (∀ (h : L2Held) (a b : List CtlMsg), s.msgs = a ++ ⟨d, 0, .l2Req h⟩ :: b →
      (∀ m ∈ a, ¬ (m.src = d ∧ m.dst = 0 ∧ m.body.isL2Req = true)) → exec (.orderPointArrive d) s =
        .next (if s.numbering then State.l2Offer { s with msgs := a ++ b } h else State.l2Turn { s with msgs := a ++ b } h)) ∧
    (∀ (u : State) (h : L2Held),
      let k := u.rf F.L2T.ISSUED_SEQ 0 0
      let seq := if k = 0xFFFFFFFF then 1 else k + 1
      let v := u.l2Number h
      v.rf F.L2T.ISSUED_SEQ 0 0 = seq % 2 ^ 32 ∧ (∀ j, j < Config.nDies u.part → u.linkUp 0 j = true →
        (⟨0, j, .l2Change seq h.chg⟩ : CtlMsg) ∈ v.msgs) ∧
      (u.l2MayNumber h = true → u.l2Order.held = [] → u.l2Offer h = v)) ∧
    (period = 0 ∨ s.tick 0 < o.ageFrom + 625000000 * period → exec .agePeriodExpire s = .next s) ∧
    (period ≠ 0 → o.ageFrom + 625000000 * period ≤ s.tick 0 → exec .agePeriodExpire s = .next
      (if aged.numbering ∧ aged.l2AllRoom ∧ o.held = [] then aged.l2Number ⟨0, none, .age⟩
      else if o.ageHeld then aged
      else { aged with l2Order := { aged.l2Order with ageHeld := true, held := o.held ++ [⟨0, none, .age⟩] } })) ∧
    -- a replica's queue and its head
    (∀ (src seq : Nat) (c : L2Change) (a b : List CtlMsg), s.msgs = a ++ ⟨src, d, .l2Change seq c⟩ :: b →
      (∀ m ∈ a, ¬ (m.dst = d ∧ m.body.isL2Change = true)) →
      let u : State := { s with msgs := a ++ b }
      (d = 0 ∨ (run d ∧ ¬ on s F.L2T.STATUS_RESYNC d ∧ seqAfter seq applied = true) →
        exec (.l2ChangeArrive d) s = .next (u.setL2 d { x with queue := x.queue ++ [(seq, c)] })) ∧
      (d ≠ 0 → ¬ run d → exec (.l2ChangeArrive d) s = .next (u.l2Miss d) ∧ ((u.l2Miss d).l2t d).missed = true)) ∧
    (∀ (u : State) (seq : Nat), ((u.l2Applied d seq).l2t d).queue = (u.l2t d).queue.drop 1 ∧
      (u.l2Applied d seq).rf F.L2T.APPLIED_SEQ d 0 = seq % 2 ^ 32) ∧
    (∀ (seq key port : Nat), s.l2Head d = some (seq, .learn key port) →
      exec (.applyLearn d) s = .next ((s.l2Learn d seq key port).l2Applied d seq)) ∧
    (∀ (u : State) (seq key port i : Nat), (u.l2Bank d).find (u.l2Seeds d) key = some i →
      let w := ((u.l2Bank d).at_ i).2
      let v := u.l2Learn d seq key port
      (v.l2t d).cache = (u.l2t d).cache.filter (· != key) ∧
      (w ≠ 0 → l2Static w = true ∨ l2Kind w ≠ 0 ∨ (l2Dest w = port ∧ l2Hit w = true) → v.l2Bank d = u.l2Bank d) ∧
      (w ≠ 0 → l2Static w = false → l2Kind w = 0 → l2Dest w ≠ port →
        (v.l2Bank d).at_ i = (key, l2Word false true (l2Route w) 0 port seq) ∧
        v.rf F.L2T.MOVES_COUNT d 0 = min (u.rf F.L2T.MOVES_COUNT d 0 + 1) (2 ^ 32 - 1))) ∧
    -- scans
    (∀ (seq lo : Nat) (c : L2Change), s.active d B.L2T 0 = true →
      (x.scan = some (seq, c, lo) ∨ (x.scan = none ∧ s.l2Head d = some (seq, c) ∧ lo = 0)) →
      let hi := max lo (min upTo 262144)
      (c = .age → ∃ u : State, exec (.applyAge d upTo) s = .next u ∧ (u.l2t d).scan = some (seq, c, hi) ∧
        u.l2Bank d = (s.l2Age d lo hi).l2Bank d) ∧
      (∀ (port : Nat) (all : Bool), c = .flush port all → ∃ u : State, exec (.applyFlush d upTo) s = .next u ∧
        (u.l2t d).scan = some (seq, c, hi) ∧ u.l2Bank d = (s.l2Flush d port all lo hi).l2Bank d)) ∧
    (∀ (u : State) (lo hi i key w port : Nat) (all : Bool),
      let inside : Prop := lo ≤ i ∧ i < hi
      ((i, key, w) ∈ (u.l2Age d lo hi).l2Bank d ↔ ∃ w0, (i, key, w0) ∈ u.l2Bank d ∧ (¬ inside → w = w0) ∧
        (inside → (l2Static w0 = true ∨ l2Hit w0 = true) ∧ w = if l2Hit w0 then w0 - 2 ^ 61 else w0)) ∧
      ((i, key, w) ∈ (u.l2Flush d port all lo hi).l2Bank d ↔ (i, key, w) ∈ u.l2Bank d ∧
        ¬ (inside ∧ l2Kind w = 0 ∧ l2Dest w = port ∧ (all = true ∨ l2Static w = false)))) ∧
    (∀ (seq lo : Nat) (c : L2Change), x.scan = some (seq, c, lo) → exec (.tableScanEnd d) s =
      .next (if s.active d B.L2T 0 then (s.l2Scan d 262144 fun _ => true).l2Applied d seq else s)) ∧
    -- updates
    (∀ op, op = 1 ∨ op = 2 → s.grantsWrite e ua 32 (op * 2 ^ 29) = true →
      let busy : Prop := on s F.L2T.UPD_CMD_BUSY 0
      let code := if op = 1 ∧ bad then 1 else if ¬ run 0 then 2 else if on s F.L2T.REHASH_CMD_BUSY 0 then 3 else 0
      (busy → upd op (s.wf F.L2T.UPD_CMD_OP 0 0 op)) ∧
      (¬ busy → code ≠ 0 → ∃ t, upd op t ∧ t.rf F.L2T.UPD_CMD_STATUS 0 0 = code ∧ RegsOnly [(F.L2T.UPD_CMD_OP, 0, 0),
        (F.L2T.UPD_CMD_STATUS, 0, 0), (F.L2T.UPD_CMD_BUSY, 0, 0)] s t) ∧
      (¬ busy → code = 0 → ∃ t : State, upd op (t.l2Offer ⟨0, none, if op = 1 then .updWrite uk uw else .updDelete uk⟩) ∧
        on t F.L2T.UPD_CMD_BUSY 0 ∧ RegsOnly [(F.L2T.UPD_CMD_OP, 0, 0), (F.L2T.UPD_CMD_BUSY, 0, 0)] s t)) ∧
    (∀ (seq : Nat) (c : L2Change), s.l2Head d = some (seq, c) → (∃ k w, c = .updWrite k w) ∨ (∃ k, c = .updDelete k) →
      exec (.applyUpd d) s =
        .next (State.l2Applied (if d = 0 then (s.l2Upd d seq c).1.updDone (s.l2Upd d seq c).2 else (s.l2Upd d seq c).1) d seq)) ∧
    (∀ (u : State) (seq key w i : Nat), (u.l2Bank d).find (u.l2Seeds d) key = some i →
      let a := u.l2Upd d seq (.updWrite key w)
      let b := u.l2Upd d seq (.updDelete key)
      a.2 = 0 ∧ (a.1.l2Bank d).at_ i = (key, l2Word (l2Static w) true (l2Route w) (l2Kind w) (l2Dest w) seq) ∧
      b.2 = 0 ∧ (b.1.l2Bank d).at_ i = (0, 0)) ∧
    -- rehash
    (s.grantsWrite e ra 32 (2 ^ 30) = true → (on s F.L2T.REHASH_CMD_BUSY 0 → rehash s) ∧
      (¬ on s F.L2T.REHASH_CMD_BUSY 0 → ¬ run 0 → rehash (s.wf F.L2T.REHASH_CMD_STATUS 0 0 2)) ∧
      (¬ on s F.L2T.REHASH_CMD_BUSY 0 → run 0 → ¬ (∀ k, k < n → live k) → rehash (s.wf F.L2T.REHASH_CMD_STATUS 0 0 3)) ∧
      (¬ on s F.L2T.REHASH_CMD_BUSY 0 → run 0 → (∀ k, k < n → live k) → ∃ t : State, rehash t.l2Serve ∧
        on t F.L2T.REHASH_CMD_BUSY 0 ∧ t.l2Order.rehash = some ⟨List.range n, false⟩ ∧ RegsOnly [(F.L2T.REHASH_CMD_BUSY, 0, 0)]
          { s with l2Order := t.l2Order } t)) ∧
    (∀ seq a b : Nat, s.l2Head d = some (seq, .rehash a b) → x.draining = none → ∃ u : State,
      exec (.applyRehash d) s = .next (u.l2Applied d seq) ∧ on u F.L2T.STATUS_REHASHING d ∧
      (u.l2t d).nextSeeds = (rebuild (a, b) (s.l2Bank d)).1.map (fun _ => (a, b)) ∧ u.l2Bank d = s.l2Bank d ∧
      u.rf F.L2T.RELOC_COUNT d 0 = (s.rf F.L2T.RELOC_COUNT d 0 + (rebuild (a, b) (s.l2Bank d)).2) % 2 ^ F.L2T.RELOC_COUNT.w) ∧
    (∀ j : RehashJob, o.rehash = some j → run 0 → s.l2AllRoom = true → j.left = [] →
      (j.failed = true → ∃ u : State, exec .rehashResult s = .next (u.rehashEnds true) ∧ u.l2Order.rehash = none ∧
        (∀ k, k < n → ¬ on u F.L2T.STATUS_REHASHING k) ∧ u.rf F.L2T.ISSUED_SEQ 0 0 = s.rf F.L2T.ISSUED_SEQ 0 0) ∧
      (j.failed = false → exec .rehashResult s = .next (State.l2Number { s with l2Order := { o with rehash := none } }
        ⟨0, none, .switch ((s.pkgTick 0 + 1024 + 255) / 256 * 256)⟩))) ∧
    (∀ (u : State) (failed : Bool), ∃ v : State, u.rehashEnds failed = v.l2Serve ∧
      v.rf F.L2T.REHASH_CMD_STATUS 0 0 = ofBool failed ∧ ¬ on v F.L2T.REHASH_CMD_BUSY 0) ∧
    -- resynchronisation
    (on s F.L2T.STATUS_RESYNC d → run d → run 0 → s.linkUp 0 d = true → x.copying = none →
      exec (.l2ResyncStart d) s = .next (begun s)) ∧
    (∀ (base : Nat) (z : L2Snap), x.copying = some base → x.snap = some z →
      (x.overrun = true → exec (.l2ResyncEnd d) s = .next (begun s)) ∧
      (x.overrun = false → x.copied = false → x.queue = [] → ∃ u : State, exec (.l2ResyncEnd d) s = .next u.l2Serve ∧
        ¬ on u F.L2T.STATUS_RESYNC d ∧ on u F.L2T.ERR_RESYNC_SEEN d ∧ (u.l2t d).bank0 = z.bank0 ∧ (u.l2t d).bank1 = z.bank1 ∧
        (u.l2t d).cache = [] ∧ (u.l2t d).copying = none ∧ (u.l2t d).missed = false ∧
        u.rf F.L2T.APPLIED_SEQ d 0 = base % 2 ^ 32)) ∧
    (∀ base : Nat, x.copying = some base → x.snap = none → exec (.l2ResyncEnd d) s = .next s)

/-- R360, R365 to R369: commands of LPM and MCG taken up by the order point, their steps on the replicas, the switch and the
drain, the copies; the L2 table's switch. A SWITCH is numbered as its own. The model's readings: the order of the refusals, and that a
refused command or a READ leaves SEQ free (log entry 59), the SWITCH's place in the numbers, and a copy for D0's own instance, of itself
(95). -/
def Obligations.LpmMcgTables : Prop :=
  ∀ (s : State) (e d blk : Nat), isTbl blk = true → s.has d blk 0 = true → s.has d B.L2T 0 = true →
    s.resets.asserted = false →
    let x := s.tbl d blk
    let o := s.tblOrder blk
    let all := List.range (Config.nDies s.part)
    let c := x.issued
    let now : TblOp := x.cmd blk
    let ga := mkFa d blk 0 0
    let goes (t : State) : Prop := exec (.tableCmdGo e d blk) s = .next (t.judged e ga 32 (2 ^ 30) 0)
    let tick := (s.pkgTick 0 + 1024 + 255) / 256 * 256
    let acts (t : State) : Bool := decide (t.run d blk 0 = 1) || decide (t.run d blk 0 = 2)
    let epoch (t : State) (k : Nat) : Nat := t.rf (fEpoch blk) k 0
    (∀ (u : State) (st : Nat), st < 16 → (u.tblRefuse d blk st).flag (fCmdBusy blk) d 0 = false ∧
      (u.tblRefuse d blk st).rf (fCmdStatus blk) d 0 = st % 2 ^ (fCmdStatus blk).w) ∧
    (s.grantsWrite e ga 32 (2 ^ 30) = true → (s.flag (fCmdBusy blk) d 0 = true → goes s) ∧
      (s.flag (fCmdBusy blk) d 0 = false → ∃ u : State, u.flag (fCmdBusy blk) d 0 = true ∧ (u.tbl d blk).eng = none ∧
        (u.tbl d blk).issued = now ∧ (u.tblOrder blk).queue = o.queue ∧
        goes (if now.bad blk then u.tblRefuse d blk 1 else if now.op = 3 then u
          else u.setTblOrder blk { o with queue := o.queue ++ [d] }))) ∧
    (∀ (i : Instr) (op : Nat) (step : TblStep), (i, op, step) ∈ [(Instr.insert d blk, 0x01, TblStep.shadow),
        (.delete d blk, 0x02, .shadow), (.rebuildBegin d blk, 0x10, .shadow), (.shadowInsert d blk, 0x11, .shadow),
        (.shadowDelete d blk, 0x12, .shadow), (.commit d blk, 0x13, .switch ((s.pkgTick 0 + 1024 + 255) / 256 * 256))] →
      let n := seqNext o.seq
      let m := if op = 0x13 then seqNext n else n
      (s.tblTurn d blk op = false → exec i s = .next s) ∧
      (s.tblTurn d blk op = true → s.tblStatus d blk c ≠ 0 → exec i s = .next (s.tblRefuse d blk (s.tblStatus d blk c))) ∧
      (s.tblTurn d blk op = true → s.tblStatus d blk c = 0 → ∃ u, exec i s = .next u ∧
        u.tblOrder blk = { seq := m, queue := o.queue.drop 1, job := some ⟨d, n, c, m, step, all, false⟩ } ∧
        u.msgs = s.msgs ++ all.map fun k => ⟨0, k, .tblStep blk m c step⟩)) ∧
    (s.tblTurn d blk 0x14 = true → s.tblStatus d blk c = 0 → ∃ u, exec (.abort d blk) s = .next u ∧
      (u.tblOrder blk).job = none ∧ (u.tblOrder blk).seq = seqNext o.seq ∧ u.rf (fTstate blk) 0 0 = 2 ∧
      u.rf (fCmdStatus blk) d 0 = 0 ∧ u.flag (fCmdBusy blk) d 0 = false) ∧
    (s.flag (fCmdBusy blk) d 0 = true → c.op = 3 → exec (.read d blk) s =
      .next (if (s.tblBank d blk).holds blk c then
        (s.setTbl d blk { x with blk := x.fillRead blk (s.tblBank d blk) c }).tblRefuse d blk 0
      else s.tblRefuse d blk 3)) ∧
    (∀ (src seq : Nat) (c : TblOp) (step : TblStep) (a b : List CtlMsg), s.msgs = a ++ ⟨src, d, .tblStep blk seq c step⟩ :: b →
      (∀ m ∈ a, ¬ (m.dst = d ∧ m.body.isTblStep blk = true)) → (∀ t, step ≠ .switch t) →
      let u : State := { s with msgs := a ++ b }
      (acts s = true → x.draining = none → exec (.tableReplicaWrite d blk) s =
        .next (if c.op = 0x14 then u.tblApply d blk c else (u.tblApply d blk c).post d 0 (.tblAck blk seq d))) ∧
      (acts s = true → x.draining.isSome = true → exec (.tableReplicaWrite d blk) s = .next s) ∧
      (acts s = false → exec (.tableReplicaWrite d blk) s =
        .next (u.setTbl d blk { x with missed := true }))) ∧
    (∀ (u : State) (c : TblOp),
      let y := u.tbl d blk
      let z := (u.tblApply d blk c).tbl d blk
      (c.op ≠ 0x10 → c.op ≠ 0x14 → z.bank (epoch u d) = y.bank (epoch u d) ∧
        z.bank (1 - epoch u d) = if epoch u d ≤ 1 then (y.bank (1 - epoch u d)).write blk c else z.bank (1 - epoch u d)) ∧
      (c.op = 0x10 → (u.tblApply d blk c).rf (fTstate blk) d 0 = 1) ∧
      (c.op = 0x14 → (u.tblApply d blk c).rf (fTstate blk) d 0 = 2 ∧ z = y)) ∧
    (∀ (b : TblBank) (c : TblOp) (g : Nat), blk = B.MCG → Store.get (0, 0) (b.write blk c).groups g =
      if g = c.group then (if c.op = 0x01 ∨ c.op = 0x11 then (c.ports, c.engines) else (0, 0))
      else Store.get (0, 0) b.groups g) ∧
    (∀ j : TblJob, o.job = some j →
      (¬ (∀ k ∈ j.left, s.tblAcked blk j.num k = true ∨ s.tblLost blk k = true) → exec (.tableAcksComplete blk) s = .next s) ∧
      ((∀ k ∈ j.left, s.tblAcked blk j.num k = true) → ∃ u : State,
        let n := seqNext o.seq
        let next : TblOrder := { seq := n, queue := o.queue, job := some { j with step := .second, num := n } }
        u = { s with msgs := s.msgs.filter fun m => !(j.left.any fun k => m.body.isTblAck blk j.num k) } ∧
        (j.step = .shadow ∧ (j.cmd.op = 1 ∨ j.cmd.op = 2) → exec (.tableAcksComplete blk) s =
          .next ((u.setTblOrder blk next).tblPost blk n j.cmd (.switch tick) j.left)) ∧
        (¬ (j.step = .shadow ∧ (j.cmd.op = 1 ∨ j.cmd.op = 2)) → exec (.tableAcksComplete blk) s =
          .next ((u.setTblOrder blk { o with job := none }).tblRespond j.die blk (if j.missed then 8 else 0) j.seq)))) ∧
    (∀ (src seq at_ : Nat) (c : TblOp) (a b : List CtlMsg), s.msgs = a ++ ⟨src, d, .tblStep blk seq c (.switch at_)⟩ :: b →
      (∀ m ∈ a, ¬ (m.dst = d ∧ m.body.isTblSwitch blk = true)) →
      (s.pkgTick d < at_ → exec (.tableSwitchApply d blk) s = .next s) ∧
      (at_ ≤ s.pkgTick d → acts s = true → epoch s d ≤ 1 → ∃ u, exec (.tableSwitchApply d blk) s = .next u ∧
        epoch u d = 1 - epoch s d ∧ (u.tbl d blk).draining = some (s.tick d) ∧
        (u.tbl d blk).again = (if c.op = 0x13 then none else some (seq, c)) ∧
        (at_ < s.pkgTick d → u.flag (fLate blk) d 0 = true))) ∧
    (∀ seq at_ : Nat, s.l2Head d = some (seq, .switch at_) →
      let v := (s.l2Switch d).l2Applied d seq
      (s.pkgTick d < at_ → exec (.tableSwitchApply d B.L2T) s = .next s) ∧
      (at_ = s.pkgTick d → exec (.tableSwitchApply d B.L2T) s =
        .next (if d = 0 ∧ v.flag F.L2T.REHASH_CMD_BUSY 0 0 = true then v.rehashEnds false else v)) ∧
      ∀ u : State, u.rf F.L2T.STATUS_EPOCH d 0 ≤ 1 → (u.l2Switch d).rf F.L2T.STATUS_EPOCH d 0 =
        1 - u.rf F.L2T.STATUS_EPOCH d 0 ∧ ((u.l2Switch d).l2t d).draining = some (u.tick d)) ∧
    (∀ t, (s.l2t d).draining = some t → exec (.bankDrainEnd d B.L2T) s =
      .next (if t + 40 ≤ s.tick d then s.setL2 d { s.l2t d with draining := none } else s)) ∧
    (∀ t, x.draining = some t → (s.tick d < t + 40 → exec (.bankDrainEnd d blk) s = .next s) ∧
      (t + 40 ≤ s.tick d → x.again = none →
        exec (.bankDrainEnd d blk) s = .next (s.setTbl d blk { x with draining := none })) ∧
      (∀ (seq : Nat) (c : TblOp), t + 40 ≤ s.tick d → x.again = some (seq, c) → exec (.bankDrainEnd d blk) s =
        .next (((s.setTbl d blk { x with draining := none, again := none }).tblApply d blk c).post d 0 (.tblAck blk seq d)))) ∧
    (o.job = none → (∀ m ∈ s.msgs, m.body.isTblStep blk = false ∧ m.body.isTblSwitch blk = false) →
      (∀ k ∈ all, (s.tbl k blk).draining = none) → s.rf (fTstate blk) 0 0 = 2 → exec (.tableSyncEnd blk) s =
        .next (all.foldl (fun s k => if (s.tbl k blk).missed then s else s.tblSync k blk) s)) ∧
    (∀ u : State, u.rf (fTstate blk) d 0 = 2 → epoch u d ≤ 1 → (u.tblSync d blk).rf (fTstate blk) d 0 = 0 ∧
      ((u.tblSync d blk).tbl d blk).bank (1 - epoch u d) = (u.tbl d blk).bank (epoch u d)) ∧
    (x.missed = true → s.inRun d blk 0 = true → s.inRun 0 blk 0 = true → s.linkUp 0 d = true → ∃ u,
      exec (.tableResyncStart d blk) s = .next u ∧ u.flag (fResync blk) d 0 = true ∧
      u.tbl d blk = { x with copying := true }) ∧
    (x.copying = true → o.job = none → (s.tbl 0 blk).draining = none → ∃ u, exec (.tableResyncEnd d blk) s = .next u ∧
      u.flag (fResync blk) d 0 = false ∧ u.flag (fResyncSeen blk) d 0 = true ∧ (u.tbl d blk).bank0 = (s.tbl 0 blk).bank0 ∧
      (u.tbl d blk).bank1 = (s.tbl 0 blk).bank1 ∧ (u.tbl d blk).missed = false ∧ (u.tbl d blk).copying = false)

/-! ## Calibration and the non-volatile store (R422 to R438) -/

/-- R422, R423, R425 to R429, R431 to R434, R436, R438: sensors, runs and their points, interpolation, stores, and writes
and reads of NVS. The model's readings: how often sensors are read and coefficients computed, and what bounds a run (log
entry 101), a run's temperature and its discarding (68), and that PEND stops at 31 (70); its choice: the bytes that a run does not
measure (69). -/
def Obligations.CalibrationAndStore : Prop :=
  ∀ (s : State) (e d i off width data : Nat) (t0 t1 t2 t3 : BitVec 16) (meas : List Byte), s.hasDie d = true →
    s.resets.asserted = false →
    let c := s.cal d
    let v := s.nvsOf d
    let on (u : State) (f : Fld) : Prop := u.flag f d 0 = true
    let ga := mkFa d B.CAL 0 4
    let na := mkFa d B.NVS 0 off
    let T (s : State) (k : Nat) : Int := s.rfS (F.TEMP.T_TEMP k) d 0
    let goes (u : State) : Prop := exec (.calRunGo e d) s = .next (u.judged e ga 32 0x40000000 0)
    let size := if d = 0 then 0x40000 else 0x10000
    let asked (u : State) : Prop := (Store.get {} u.rom.cals d).asked = true
    let guarded : Prop := off < 0xE080 ∨ (d = 0 ∧ 0x10800 ≤ off ∧ off < 0x11000)
    let word (f : State → State → Prop) : Prop := ∃ u, exec (.nvsWordWriteDone d) s = .next u ∧ f s u ∧
      u.rf F.NVS.WRITES_COUNT d 0 = (s.rf F.NVS.WRITES_COUNT d 0 + 1) % 2 ^ 64
    let rest (last : Option Nat) (n : Nat) : Prop := ∀ t, last = some t → t + n ≤ s.tick d
    let quals : List Nat := (List.range 24).map fun j => (s.lane (24 * d + j)).quals
    let pi (j : Nat) : Prop := c.piFrom.getD j 0 + 4194304 ≤ (s.lane (24 * d + j)).quals
    let counted : Prop := ((s.rfF F.CAL.CFG_SCOPE d 0).testBit 0 = true →
        c.goTick + 2 ^ (s.rfF F.CAL.CFG_HITS d 0 + 16 + s.rfF F.CAL.CFG_RATE_DIV d 0) ≤ s.tick d) ∧
      ((s.rfF F.CAL.CFG_SCOPE d 0).testBit 1 = true → ∀ j, j < 24 → c.skipped.contains j = false → pi j)
    let stored (u : State) (off n x : Nat) : Prop := (u.nvsOf d).mem = Store.putList 0 v.mem off (bytesLE n x)
    -- sensors
    (s.inRun d B.TEMP 0 = true → rest c.tempAt 625000 → ∃ u : State, exec (.tempSample d t0 t1 t2 t3) s = .next ((u.refreshDt d).refreshCovered d) ∧
      T u 0 = t0.toInt ∧ T u 1 = t1.toInt ∧ T u 2 = t2.toInt ∧ T u 3 = t3.toInt ∧
      u.rfS F.TEMP.MAX_TEMP d 0 = max (max (max (max (s.rfS F.TEMP.MAX_TEMP d 0) t0.toInt) t1.toInt) t2.toInt) t3.toInt) ∧
    (∀ u : State,
      let hot : Prop := ∃ k, k < 4 ∧ ((16 * u.rf F.TEMP.CFG_ALARM d 0 : Nat) : Int) ≤ T u k
      let far : Prop := u.rf F.TEMP.T_LAST_TEMP d 0 = 0x8000 ∨
        4 * ((max (u.rf F.TEMP.CFG_CAL_DT d 0) 1 : Nat) : Int) < max (T u 0 - u.rfS F.TEMP.T_LAST_TEMP d 0) (u.rfS F.TEMP.T_LAST_TEMP d 0 - T u 0)
      (on (u.refreshDt d) F.TEMP.STATUS_ALARM ↔ hot) ∧
      (u.inRun d B.TEMP 0 = true → (on (u.refreshDt d) F.TEMP.STATUS_DT_EXCEEDED ↔ far) ∧
        (far → ¬ on u F.TEMP.STATUS_DT_EXCEEDED → u.rom.progs.contains (4 * d + 1) = true → asked (u.refreshDt d)))) ∧
    (∀ u : State, (u.refreshCovered d).flag F.CAL.STATUS_COVERED d 0 = u.coverHolds d) ∧
    -- runs
    (s.grantsWrite e ga 32 0x40000000 = true → (on s F.CAL.RUN_BUSY → goes (s.setFlag F.CAL.ERR_RUN_BUSY d 0)) ∧
      (¬ on s F.CAL.RUN_BUSY → s.inRun d B.CAL 0 = false → goes (s.wf F.CAL.RUN_STATUS d 0 3)) ∧
      (¬ on s F.CAL.RUN_BUSY → s.inRun d B.CAL 0 = true → ∃ u, goes u ∧ on u F.CAL.RUN_BUSY ∧
        RegsOnly [(F.CAL.RUN_BUSY, d, 0)] (s.setCal d { c with goTemp := T s 0, goTick := s.tick d, skipped := [], piFrom := quals }) u)) ∧
    (i < 24 → s.has d B.LANE i = true → on s F.CAL.RUN_BUSY → (s.rfF F.CAL.CFG_SCOPE d 0).testBit 1 = true →
      c.goTick + 62500000 ≤ s.tick d → c.skipped.contains i = false → ¬ pi i → ∃ u, exec (.calPiTimeout d i) s = .next u ∧
        on u F.CAL.ERR_PI_SKIPPED ∧
        RegsOnly [(F.CAL.ERR_PI_SKIPPED, d, 0)] (s.setCal d { c with skipped := i :: c.skipped }) u) ∧
    (¬ (on s F.CAL.RUN_BUSY ∧ counted) → exec (.calRunEnd d meas) s = .next s) ∧
    (on s F.CAL.RUN_BUSY → counted → 16 < (T s 0 - c.goTemp).natAbs → ∃ u, exec (.calRunEnd d meas) s = .next u ∧
      on u F.CAL.ERR_RUN_UNSTABLE ∧ u.rf F.CAL.RUN_STATUS d 0 = 2 ∧ ¬ on u F.CAL.RUN_BUSY ∧
      RegsOnly [(F.CAL.ERR_RUN_UNSTABLE, d, 0), (F.CAL.RUN_STATUS, d, 0), (F.CAL.RUN_BUSY, d, 0)] s u) ∧
    (on s F.CAL.RUN_BUSY → counted → (T s 0 - c.goTemp).natAbs ≤ 16 → ∃ u : State, exec (.calRunEnd d meas) s = .next (u.storeBegin d) ∧
      u.rf F.CAL.RUN_STATUS d 0 = 0 ∧ ¬ on u F.CAL.RUN_BUSY ∧
      ∃ (seq : Nat) (p : CalPoint) (old : Option CalPoint), u.rf F.CAL.SET_SEQ_SEQ d 0 = seq ∧ seq = s.nextSeq d ∧
        (u.cal d).points = s.placePoint d p old ∧ p ∈ (u.cal d).points ∧
        (2 * p.temp - (c.goTemp + T s 0)).natAbs ≤ 1 ∧
        ∀ j, j < 3080 → lacksItem s.part d (16 + j) = false → s.measured d (16 + j) = true →
          p.body[14 + j]? = some (meas.getD j 0)) ∧
    (∀ u : State, (u.inRun d B.NVS 0 = false → ∃ w : State, u.storeBegin d = w.raise d B.CAL 0 3 ∧
        w = u.setFlag F.CAL.ERR_STORE_FAIL d 0) ∧
      (u.inRun d B.NVS 0 = true → on (u.storeBegin d) F.CAL.STATUS_STORING ∧ ((u.storeBegin d).cal d).store.length = 3592)) ∧
    (on s F.CAL.STATUS_STORING → c.store = [] → ∃ u, exec (.calStoreEnd d) s = .next u ∧ ¬ on u F.CAL.STATUS_STORING ∧
      u.rf F.CAL.STATUS_BANK d 0 = c.target % 4 ∧
      RegsOnly [(F.CAL.STATUS_STORING, d, 0), (F.CAL.STATUS_BANK, d, 0)] s u) ∧
    (∀ a b : CalPoint, s.active d B.CAL 0 = true → rest c.interpAt 6250000 → bracket (T s 0) c.points = some (a, b) → ∃ u : State,
      exec (.calInterpolate d) s = .next (u.showCoeffs d) ∧ (u.cal d).applied = true ∧ ∀ j, j < 1924 →
        let q := Store.get 0 (u.cal d).coeffs j
        (a.temp = b.temp → q = a.item j) ∧ (a.temp ≠ b.temp → ((q - a.item j) * (b.temp - a.temp) -
          (b.item j - a.item j) * (T s 0 - a.temp)).natAbs < (b.temp - a.temp).natAbs)) ∧
    -- the store
    (s.passes e na width = true → off < 0x80000 → s.has d B.NVS 0 = true → s.nvsEarly e d off width data = false →
      (size ≤ off → exec (.nvsWrite e d off width data) s = .next (s.judged e na width data 0)) ∧
      (off < size → guarded → s.inRun d B.NVS 0 = true → exec (.nvsWrite e d off width data) s = .next ((s.setFlag F.NVS.ERR_PROT d 0).judged e na width data 0)) ∧
      (off < size → s.inRun d B.NVS 0 = false → exec (.nvsWrite e d off width data) s =
        .next ((s.setFlag F.NVS.ERR_STOPPED_WR d 0).judged e na width data 0)) ∧
      (off < size → ¬ guarded → s.inRun d B.NVS 0 = true → ∃ u, exec (.nvsWrite e d off width data) s = .next u ∧
        u.nvsOf d = { v with queue := v.queue ++ [⟨off, width, data, some e⟩], word := (u.nvsOf d).word } ∧
        (v.word.isSome = true → (u.nvsOf d).word = v.word) ∧ (u.nvsOf d).word.isSome = true ∧
        u.rf F.NVS.STATUS_PEND d 0 = min (v.queue.length + 1) 31)) ∧
    (s.grants e na width = true → off < 0x80000 → s.has d B.NVS 0 = true →
      (size ≤ off ∨ (d = 0 ∧ 0x10800 ≤ off ∧ off < 0x11000) → exec (.nvsRead e d off width) s = .next (s.answer e na 0 0)) ∧
      (off < size → ¬ (d = 0 ∧ 0x10800 ≤ off ∧ off < 0x11000) → v.ecc = [] → exec (.nvsRead e d off width) s =
        .next (s.answer e na 0 (leNat (Store.getList 0 v.mem off (width / 8)))))) ∧
    (∀ (w : NvsWrite) (r : List NvsWrite), s.calWord d = false → v.queue = w :: r →
      word fun _ u => stored u w.off (w.width / 8) w.data ∧ (u.nvsOf d).queue = r ∧
        u.rf F.NVS.STATUS_PEND d 0 = min r.length 31) ∧
    (∀ (w : Nat × Nat) (r : List (Nat × Nat)), s.calWord d = true → c.store = w :: r → c.cut = false →
      word fun _ u => stored u (8 * w.1) 8 w.2 ∧ (u.cal d).store = r ∧ (u.nvsOf d).queue = v.queue)

/-! ## The ROM-resident programs (R85 to R88) -/

/-- R260 to R263, R280, R424: what the ROM-resident port timing handlers, calibration sequencers and summit lease program do at
an idle tick; a hook is called with its arguments in v1 onwards, and its result is v1 when it returns. That they act at idle ticks, and
where a hook returns to, are the model's choices (log entry 96). -/
def Obligations.RomHandlers : Prop :=
  ∀ (s : State) (d p : Nat),
    let x := s.exch p
    let e := 4 * d + 1
    let hook (e k : Nat) : Nat := (s.eng e).dmemRead (0xFF00 + 8 * k) 8
    let romOnly (t : State) : Prop := { t with rom := s.rom } = s
    let result (e : Nat) : Nat := ((s.eng e).rv 1).toNat
    let ga := mkFa d B.CAL 0 4
    let l := s.rom.lease
    let half := msUnits (s.rfF F.SUMMIT.CFG_TERM 0 0) / 2
    let able := s.flag F.SUMMIT.STATUS_ELIGIBLE 0 0
    let late : Prop := s.isSummit = true ∧ s.sTime F.SUMMIT.RENEWED_TIME + half ≤ s.sNow ∧ l.after ≤ s.sNow
    let seen (after : Nat) : State := { s with rom := { s.rom with lease := ⟨able, after⟩ } }
    let cal (t : State) : CalSeq := Store.get {} t.rom.cals d
    (s.pending = [] → s.resets.asserted = false → ∃ u : State, step s = .next u.romTick ∧ u.rom = s.rom) ∧
    (s.rom.progs = [] → s.romTick = s) ∧
    -- a call and a return
    (∀ (e k entry a b : Nat) (w : HookWait),
      let t := s.hookCall e k entry [a, b] w
      (t.eng e).pc = BitVec.ofNat 16 entry ∧ (t.eng e).rv 1 = BitVec.ofNat 64 a ∧ (t.eng e).rv 2 = BitVec.ofNat 64 b ∧
      ∃ r : BitVec 16, (t.eng e).rv 31 = r.setWidth 64 ∧ t.hookOf e = some ⟨r, w⟩) ∧
    (∀ (e : Nat) (c : HookCall), s.hookOf e = some c → s.romRuns e = true → (s.eng e).pc = c.ret → (s.eng e).hold = .none →
      s.hookBack e = some c.wait) ∧
    (∀ (e : Nat) (w : HookWait), s.hookBack e = some w → s.romFree e = false) ∧
    -- the link exchange
    (∀ subtype seq time : Nat,
      let f := s.linkFrame p subtype seq time
      f.length = 72 ∧ dstMac f = 0x0180C200000E ∧ etherType f = 0x88B5 ∧ be f 14 1 = subtype % 256 ∧ be f 15 1 = 1 ∧
      be f 16 2 = seq % 2 ^ 16 ∧ be f 26 1 = p % 256 ∧ be f 27 1 = s.linkFlags p % 256 ∧
      be f 30 2 = s.rom.servo.hops % 2 ^ 16 ∧ be f 32 16 = time % 2 ^ 128 ∧
      be f 56 4 = ((s.sentMean p).getD (0, 0)).2 % 2 ^ 32 ∧ ((s.sentMean p).isNone = true → be f 48 12 = 0)) ∧
    ((s.linkFlags p).testBit 4 = (s.sentMean p).isSome ∧
      (s.linkFlags p).testBit 2 = (decide (s.rom.servo.state = 3) || decide (s.rom.servo.state = 4))) ∧
    (s.lstate p = 0 ∨ 4 ≤ s.lstate p ∨ s.rfF F.LINK.CFG_TS_ONLY (p / 24) (p % 24) = 1 → s.sentMean p = none) ∧
    (∀ (i : Int) (w : Nat), s.sentMean p = some (i, w) → ∃ m ∈ (s.link p).means, m.win = w ∧
      m.gen = s.rf F.LANE.STATUS_PT_GEN (p / 24) (p % 24) ∧ ((s.link p).win + 2 ^ 32 - m.win) % 2 ^ 32 ≤ 4) ∧
    (x.asked = some (s.linkWin p) ∨ s.portFree p = false → s.portAsk p = s) ∧
    (x.asked ≠ some (s.linkWin p) → s.portFree p = true → ∃ u : State,
      s.portAsk p = u.linkSend p 1 ((x.seq + 1) % 2 ^ 16) 0 (some (tsId 0 ((x.seq + 1) % 2 ^ 16))) ∧
      u.exch p = { x with asked := some (s.linkWin p), seq := (x.seq + 1) % 2 ^ 16, t1 := none, t2 := none, t4 := none } ∧
      { u with rom := s.rom } = s) ∧
    (∀ f : RxFrame, dstMac f.bytes = 0x0180C200000E → etherType f.bytes = 0x88B5 → be f.bytes (typeOff f.bytes + 3) 1 ≠ 1 →
      ((s.handlerTake d f).handler d).linkDrops = (s.handler d).linkDrops + 1 ∧
      { s.handlerTake d f with rom := s.rom } = s) ∧
    -- the calibration sequencer
    (s.romFree e = true → (cal s).asked = true → s.flag F.CAL.RUN_BUSY d 0 = false →
      (hook e 2 = 0 → ∃ u : State, s.calSeqTick d = u.romWrite e ga 32 (2 ^ 30) ∧ romOnly u ∧ cal u = ⟨false, none⟩) ∧
      (hook e 2 ≠ 0 → ∃ u : State, s.calSeqTick d = u.hookCall e 2 (hook e 2 % 2 ^ 16) [ofSigned 64 (s.tRef d)] .run ∧
        romOnly u ∧ cal u = ⟨false, some (s.tick d)⟩)) ∧
    (s.hookBack e = some .run →
      (result e = 0 → romOnly (s.hookTick e) ∧ (cal (s.hookTick e)).due = some (s.tick d + 625000000)) ∧
      (result e ≠ 0 → ∃ u : State, s.hookTick e = u.romWrite e ga 32 (2 ^ 30) ∧ romOnly u ∧ (cal u).due = none)) ∧
    -- the summit lease
    (s.romFree 3 = true →
      let asks (u : State) (renew : Bool) : State := if hook 3 4 = 0 then u.leaseCmd (if renew then 2 else 1)
        else u.hookCall 3 4 (hook 3 4 % 2 ^ 16)
          [ofBool renew, s.rf F.SUMMIT.QUALITY_QUALITY 0 0, s.rom.servo.state, s.servoErr] (.lease renew)
      (able = true ∧ l.seen = false → s.leaseTick = asks (seen l.after) false) ∧
      (¬ (able = true ∧ l.seen = false) → late → s.leaseTick = asks (seen (s.sNow + half)) true) ∧
      (¬ (able = true ∧ l.seen = false) → ¬ late → s.leaseTick = seen l.after)) ∧
    (∀ renew : Bool, s.hookBack 3 = some (.lease renew) → ∃ u : State, romOnly u ∧ s.hookTick 3 =
      (if result 3 = 1 then u.leaseCmd (if renew then 2 else 1) else if result 3 = 2 ∧ renew = true then u.leaseCmd 3 else u))

/-- R258, R259, R274 to R276, R278, R439, R440: the time servo's choice of its source, its step, a pending restart, holdover,
checkpoints and start; the ranking hook's list and the index it answers. The forms the spec does not settle are the model's choices
(log entries 96 and 97), that a node's own XO is selected when its last source goes among them. -/
def Obligations.RomServo : Prop :=
  ∀ (s : State) (theta : Int),
    let v := s.rom.servo
    let lead := s.leader
    let romOnly (t : State) : Prop := { t with rom := s.rom } = s
    let selAddr := mkFa 0 B.PLL 0 0x10
    let room := max 0 (Int.ofNat (s.rfF F.RIDGE.JUMP_LIMIT_LIMIT lead 0 * 65536) -
      Int.ofNat ((s.ridge lead).stepSum (s.applyTick lead)))
    let want := theta * Int.ofNat v.par.gain / 16
    let jumps : Prop := (v.fresh = true ∨ v.state = 4) ∧ s.rfF F.RIDGE.JUMP_LIMIT_LIMIT lead 0 * 65536 < theta.natAbs
    let slot (t : State) (k : Nat) : Option Nat := slotCount (t.nvsBytes 0 (0x10000 + 64 * k) 64)
    let reads : Prop := (s.nvsOf 0).ecc = [] ∧ ∀ k, k < 256 → s.accessCause 2 (mkFa 0 B.NVS 0 (0x10000 + 8 * k)) 64 false = 0
    let held : State := s.servoUse none
    let cell (w : Nat) : Nat := 0x10000 + 64 * (v.count % 32) + 8 * w
    -- the choice of a source
    (∀ (margin : Nat) (cur : Option Candidate) (l : List Candidate) (c : Candidate), ownChoice margin cur l = some c →
      c.loop = false ∧ (cur = none → c ∈ l ∧ ∀ b ∈ l, b.loop = false → c.before b = true) ∧
      (∀ b, cur = some b → b.loop = false → c ≠ b → c.est + margin < b.est)) ∧
    (∀ (margin : Nat) (cur : Option Candidate) (l : List Candidate),
      ownChoice margin cur l = none ↔ ∀ b ∈ l, b.loop = true) ∧
    (∀ c : Candidate, c.source ≠ v.source → c.source ≠ 1 → s.flag F.PLL.SEL_BUSY 0 0 = false → ∃ u : State,
      s.servoFollow c = u.romWrite 2 selAddr 32 (2 ^ 30 + 3 * 2 ^ 24 + sourcePort c.source * 2 ^ 16) ∧ romOnly u ∧
      u.rom.servo.state = 1 ∧ u.rom.servo.source = c.source ∧ u.rom.servo.err = c.est ∧ u.rom.servo.fresh = true ∧
      u.rom.servo.hops = min 0xFFFF (c.hops + 1)) ∧
    (∀ (news : List Nat) (sol second : Bool),
      (s.candidates = [] → s.servoRank news sol second = held.servoRest true news sol second) ∧
      (s.hookAt 2 3 = none → s.servoRank news sol second =
        (s.servoUse (s.ownSource s.candidates)).servoRest true news sol second) ∧
      (∀ entry, s.hookAt 2 3 = some entry → s.candidates ≠ [] → ∃ (u : State) (a : Nat),
        s.servoRank news sol second = u.hookCall 2 3 entry [a, s.candidates.length, candIndex v.source s.candidates]
          (.rank s.candidates news sol second) ∧
        (a + 16 * s.candidates.length ≤ 0xE000 → ((u.eng 2).dmemBytes a (16 * s.candidates.length)) =
          s.candidates.flatMap Candidate.bytes)) ∧
      ∀ l : List Candidate, s.hookBack 2 = some (.rank l news sol second) → ∃ u : State, romOnly u ∧ u.rom.servo = v ∧
        s.hookTick 2 = (u.servoUse (u.hookSource l ((s.eng 2).rv 1).toNat)).servoRest true news sol second) ∧
    (∀ (l : List Candidate) (c : Candidate) (k : Nat), l[k]? = some c → c.loop = false → s.hookSource l k = some c) ∧
    (∀ (l : List Candidate) (k : Nat), l.length ≤ k → s.hookSource l k = s.ownSource l) ∧
    -- holdover
    (s.isSummit = false → v.state ≠ 0 → romOnly held ∧ held.rom.servo.state = 3 ∧ held.rom.servo.source = 0 ∧
      held.rom.servo.hops = 0xFFFF ∧ (v.state ≠ 3 → v.state ≠ 4 → held.rom.servo.e0 = v.err ∧ held.rom.servo.holdAt = s.tick 0)) ∧
    (s.isSummit = false → v.state = 0 → held = s) ∧
    (s.isSummit = true → v.source % 256 ≠ 2 ∨ s.flag F.PLL.SEL_BUSY 0 0 = false → ∃ u : State,
      held = (if v.source % 256 = 2 then u.romWrite 2 selAddr 32 (2 ^ 30) else u) ∧ romOnly u ∧ u.rom.servo.state = 3 ∧
      u.rom.servo.source = 3 ∧ u.rom.servo.hops = 0) ∧
    (∀ seconds : Nat, holdGrowth v.par (625000000 * seconds) = v.par.f0 * seconds + v.par.age * seconds ^ 2 / 172800) ∧
    -- a result of the source
    ((s.servoStep theta).1.natAbs ≤ room.natAbs ∧ ((want.natAbs : Int) ≤ room → s.servoStep theta = (want, true)) ∧
      (room < (want.natAbs : Int) → s.servoStep theta = (if want < 0 then -room else room, false))) ∧
    (v.restart = .none → ¬ jumps → v.source ≠ 1 → (s.ridge lead).rate = 0x1999999999A → ∃ u : State, romOnly u ∧
      u.rom.servo = { v with theta := theta, state := if (s.servoStep theta).2 then 2 else 1, fresh := false, told := false } ∧
      s.servoResult theta = u.romWrite 2 (mkFa lead B.RIDGE 0 0x18) 64 (ofSigned 64 (s.servoStep theta).1)) ∧
    (v.restart = .none → jumps → v.par.restart ≠ 1 → romOnly (s.servoResult theta) ∧
      (s.servoResult theta).rom.servo.state = 4 ∧ (s.servoResult theta).rom.servo.source = v.source) ∧
    (v.restart = .none → jumps → v.par.restart = 1 → s.linkUp 0 lead = true →
      s.owner lead B.RIDGE 0 = s.engPart 2 → ∃ u w : State, romOnly u ∧ s.servoResult theta = w ∧
        w.rom.servo.restart = .stopping ∧ { w with rom := s.rom } = { u.stopRequest lead B.RIDGE 0 with rom := s.rom }) ∧
    -- checkpoints
    (s.slotBytes.length = 64 ∧ slotCount s.slotBytes = some ((v.base + v.count) % 2 ^ 64)) ∧
    (s.inRun 0 B.NVS 0 = true → (∀ w, w < 8 → s.accessCause 2 (mkFa 0 B.NVS 0 (cell w)) 64 false = 0) →
      (s.servoCheckpoint.nvsOf 0).queue = (s.nvsOf 0).queue ++
        (List.range 8).map (fun w => ⟨cell w, 64, leNat ((s.slotBytes.drop (8 * w)).take 8), some 2⟩) ∧
      s.servoCheckpoint.rom.servo.count = v.count + 1) ∧
    (s.servoFenced = (s.nvsOf 0).queue.any (fun w => w.writer == some 2) ∧ (s.servoFenced = true → s.servoTick = s)) ∧
    (reads → s.newestSlot.1 = s ∧ (s.newestSlot.2 = none ↔ ∀ k, k < 32 → slot s k = none)) ∧
    (∀ c freq : Nat, reads → s.newestSlot.2 = some (c, freq) → (∃ k, k < 32 ∧ slot s k = some c) ∧
      (∀ k c', k < 32 → slot s k = some c' → c' ≤ c) ∧
      (s.rf F.PLL.STATUS_SRC lead 0 = 0 → ∃ u : State, romOnly u ∧ u.rom.servo.base = c ∧
        s.servoStart = u.romWrite 2 (mkFa 0 B.PLL 0 0x18) 64 freq))

/-! ## The machine as a whole -/

/-- The model's choice (log entry 2): on an empty queue a step is one ridge tick of every die; the internal reset holds
it (R161). Where no ROM-resident program runs (log entry 96), no engine's program, fuse or pin changes. -/
def Obligations.IdleTick : Prop :=
  ∀ s : State, s.pending = [] →
    (s.resets.asserted = true → step s = .next s) ∧
    (s.resets.asserted = false → ∃ t, step s = .next t ∧
      (s.rom.progs = [] → (∀ d, d < Config.nDies s.part → t.tick d = (s.tick d + 1) % 2 ^ 64) ∧ t.cores = s.cores ∧
        t.vault = s.vault))

/-- R55, R78, R114, R229: at release of the internal reset SYS and SEC are in RUN and every other instance is in STOPPED,
partition 0 owns every instance on every die, every engine's registers, flags and pending set are zero, and every tick
counter is zero. -/
def Obligations.ResetState : Prop :=
  let s := State.reset
  (∀ d blk inst, s.run d blk inst = if blk = B.SYS ∨ blk = B.SEC then 1 else 0) ∧
  (∀ d die blk inst, s.ownerAt d die blk inst = 0 ∧ s.ownOf die blk inst = 0) ∧
  (∀ e (r : Reg) (x : TReg), (s.eng e).rv r = 0 ∧ (s.eng e).rt x = 0 ∧ (s.eng e).flags = ⟨false, false, false, false, false, false⟩ ∧
    (s.eng e).pending = 0) ∧
  (∀ d, s.tick d = 0)

/-- The model's choice of fuses (log entry 6) and of an empty queue (log entry 12) in State.reset meets the rule of the
fuses. -/
def Obligations.FusesHoldAtReset : Prop :=
  State.reset.pending = [] ∧ FuseInv State.reset.otp State.reset

/-- R164, R173 to R176: no step undoes a fuse: the lifecycle never goes back, the rollback counter never falls, an enrolled key
stays or is revoked, and the debug secret stays; from every state that meets the rule a step gives a state that meets it. -/
def Obligations.FusesNeverUndone : Prop :=
  ∀ (o : Otp) (s t : State), FuseInv o s → step s = .next t → FuseInv o t

/-- Only the commands named by `Instr.reachesVault` change the part, the fuses, a key or rollback command in progress, the
pins, the internal reset, the temperature alarm or the queue; only those named by `Instr.reachesPrograms` change what an
engine's program computes with. The two lists are the model's own (log entry 75). -/
def Obligations.CommandsKeepWhatTheyDoNotReach : Prop :=
  ∀ (c : Instr) (s t : State), exec c s = .next t →
    (c.reachesVault = false → t.vault = s.vault) ∧ (c.reachesPrograms = false → t.cores = s.cores)

/-- R58, R94: an instruction that a word spells for an engine changes what its own engine's program computes with, and no other
engine's; it reaches no fuse, pin or reset (what that is, is the model's own: log entry 75). -/
def Obligations.InstructionsKeepToTheirEngine : Prop :=
  ∀ (e : Nat) (w : Word32) (c : Instr) (s t : State), decodeUmmus e w = some c → exec c s = .next t →
    (∀ x, x ≠ e → t.cores x = s.cores x) ∧ t.vault = s.vault

/-- R94 to R97: the encoder and the decoder of instruction words agree in both directions, so no bit of a word is dropped: a
word of an instruction decodes, on its engine, to the instruction, and an instruction decoded from a word has that word. -/
def Obligations.WordsRoundTrip : Prop :=
  (∀ (e : Nat) (w : Word32) (c : Instr), decodeUmmus e w = some c → encodeUmmus c = some w) ∧
  (∀ (c : Instr) (w : Word32), encodeUmmus c = some w → ∃ e, decodeUmmus e w = some c) ∧
  (∀ (e f : Nat) (w : Word32), (decodeUmmus e w).isSome = (decodeUmmus f w).isSome)

end SliceStatements
end

