-- ==== Sys2Proof/Laws/Store.lean ====
section
/-!
SUPPORT. What the sparse stores do: a read after a write, and the canonical form that every operation keeps.
-/
namespace Sys2Proof.Machine

variable {α : Type}

theorem Store.get_erase_self (d : α) (m : Store α) (i : Nat) : (Store.erase m i).get d i = d := by
  induction m with
  | nil => rfl
  | cons p r ih => obtain ⟨k, v⟩ := p; unfold Store.erase; split <;> simp_all [Store.get]

theorem Store.get_erase_ne (d : α) (m : Store α) {i j : Nat} (h : i ≠ j) : (Store.erase m i).get d j = m.get d j := by
  induction m with
  | nil => rfl
  | cons p r ih => obtain ⟨k, v⟩ := p; unfold Store.erase; split <;> simp_all [Store.get]

theorem Store.get_insert_ne (d : α) (m : Store α) (v : α) {i j : Nat} (h : i ≠ j) :
    (Store.insert m i v).get d j = m.get d j := by
  induction m with
  | nil => simp [Store.insert, Store.get, h]
  | cons p r ih => obtain ⟨k, w⟩ := p; unfold Store.insert; split <;> simp_all [Store.get]

theorem Store.get_insert_self (d : α) (m : Store α) (v : α) (i : Nat) :
    (Store.insert (Store.erase m i) i v).get d i = v := by
  induction m with
  | nil => simp [Store.erase, Store.insert, Store.get]
  | cons p r ih =>
    obtain ⟨k, w⟩ := p
    unfold Store.erase
    split
    · exact ih
    · unfold Store.insert; split <;> simp_all [Store.get]

/-- A read after a write, wherever both name the same default. -/
theorem Store.get_put [DecidableEq α] (d : α) (m : Store α) (i j : Nat) (v : α) :
    (Store.put d m i v).get d j = if i = j then v else m.get d j := by
  unfold Store.put
  by_cases h : i = j
  · subst h; split
    · simp_all [Store.get_erase_self]
    · simp [Store.get_insert_self]
  · split <;> simp [h, Store.get_erase_ne, Store.get_insert_ne]

theorem Store.get_put_self [DecidableEq α] (d : α) (m : Store α) (i : Nat) (v : α) : (Store.put d m i v).get d i = v := by
  simp [Store.get_put]

/-- A write elsewhere is not seen, whatever default the reader names. -/
theorem Store.get_put_ne [DecidableEq α] (d d0 : α) (m : Store α) {i j : Nat} (v : α) (h : i ≠ j) :
    (Store.put d0 m i v).get d j = m.get d j := by
  unfold Store.put
  split <;> simp [h, Store.get_erase_ne, Store.get_insert_ne]

/-- A key outside the bytes written reads as before. -/
theorem Store.get_putList_ne [DecidableEq α] (d : α) (m : Store α) (i : Nat) (l : List α) (j : Nat)
    (h : j < i ∨ i + l.length ≤ j) : (Store.putList d m i l).get d j = m.get d j := by
  induction l generalizing m i with
  | nil => rfl
  | cons v r ih =>
    unfold Store.putList
    simp only [List.length_cons] at h
    rw [ih _ _ (by omega), Store.get_put_ne _ _ _ _ (by omega)]

/-! ## The canonical form -/

theorem Store.wfFrom_erase [DecidableEq α] (d : Nat → α) (lo : Option Nat) (m : Store α) (i : Nat)
    (h : Store.wfFrom d lo m = true) : Store.wfFrom d lo (Store.erase m i) = true := by
  induction m generalizing lo with
  | nil => exact h
  | cons p r ih =>
    obtain ⟨k, v⟩ := p
    unfold Store.erase
    split
    · cases lo with
      | none =>
        simp only [Store.wfFrom, Bool.and_eq_true] at h
        have h2 := ih (some k) h.2
        revert h2
        cases Store.erase r i with
        | nil => simp [Store.wfFrom]
        | cons q t => obtain ⟨a, b⟩ := q; simp only [Store.wfFrom, Bool.and_eq_true]; exact fun x => ⟨x.1.2, x.2⟩
      | some lo =>
        simp only [Store.wfFrom, Bool.and_eq_true, decide_eq_true_eq] at h
        have h2 := ih (some k) h.2
        revert h2
        cases Store.erase r i with
        | nil => simp [Store.wfFrom]
        | cons q t =>
          obtain ⟨a, b⟩ := q
          simp only [Store.wfFrom, Bool.and_eq_true, decide_eq_true_eq]
          rintro ⟨⟨h3, h4⟩, h5⟩
          exact ⟨⟨by omega, h4⟩, h5⟩
    · cases lo with
      | none =>
        simp only [Store.wfFrom, Bool.and_eq_true] at h ⊢
        exact ⟨h.1, ih _ h.2⟩
      | some lo =>
        simp only [Store.wfFrom, Bool.and_eq_true] at h ⊢
        exact ⟨h.1, ih _ h.2⟩

theorem Store.wfFrom_insert [DecidableEq α] (d : Nat → α) (lo : Option Nat) (m : Store α) (i : Nat) (v : α)
    (h : Store.wfFrom d lo m = true) (hv : v ≠ d i) (hlo : ∀ n, lo = some n → n < i) (hi : ∀ w, (i, w) ∉ m) :
    Store.wfFrom d lo (Store.insert m i v) = true := by
  induction m generalizing lo with
  | nil =>
    cases lo with
    | none => simp [Store.insert, Store.wfFrom, hv]
    | some n => simp [Store.insert, Store.wfFrom, hv, hlo n rfl]
  | cons p r ih =>
    obtain ⟨k, w⟩ := p
    have hk : k ≠ i := fun e => hi w (by simp [e])
    have hr : ∀ w, (i, w) ∉ r := fun w hw => hi w (List.mem_cons_of_mem _ hw)
    unfold Store.insert
    split
    · rename_i hlt
      cases lo with
      | none =>
        simp only [Store.wfFrom, Bool.and_eq_true, decide_eq_true_eq] at h ⊢
        exact ⟨hv, ⟨hlt, h.1⟩, h.2⟩
      | some n =>
        simp only [Store.wfFrom, Bool.and_eq_true, decide_eq_true_eq] at h ⊢
        exact ⟨⟨hlo n rfl, hv⟩, ⟨hlt, h.1.2⟩, h.2⟩
    · rename_i hlt
      have hki : ∀ n, some k = some n → n < i := by
        intro n e
        cases e
        omega
      cases lo with
      | none =>
        simp only [Store.wfFrom, Bool.and_eq_true] at h ⊢
        exact ⟨h.1, ih _ h.2 hki hr⟩
      | some n =>
        simp only [Store.wfFrom, Bool.and_eq_true] at h ⊢
        exact ⟨h.1, ih _ h.2 hki hr⟩

theorem Store.not_mem_erase (m : Store α) (i : Nat) (w : α) : (i, w) ∉ Store.erase m i := by
  induction m with
  | nil => simp [Store.erase]
  | cons p r ih =>
    obtain ⟨k, v⟩ := p
    unfold Store.erase
    split
    · exact ih
    · rename_i hk
      simp only [List.mem_cons, Prod.mk.injEq, not_or]
      exact ⟨fun e => hk e.1.symm, ih⟩

/-- Every write keeps the canonical form. -/
theorem Store.wf_put [DecidableEq α] (d : Nat → α) (m : Store α) (i : Nat) (v : α) (h : Store.wf d m = true) :
    Store.wf d (Store.put (d i) m i v) = true := by
  unfold Store.put
  split
  · exact Store.wfFrom_erase _ _ _ _ h
  · rename_i hv
    exact Store.wfFrom_insert _ _ _ _ _ (Store.wfFrom_erase _ _ _ _ h) hv (by simp) (Store.not_mem_erase m i)

/-- Every write of several values keeps the canonical form. -/
theorem Store.wf_putList [DecidableEq α] (d : α) (m : Store α) (i : Nat) (l : List α)
    (h : Store.wf (fun _ => d) m = true) : Store.wf (fun _ => d) (Store.putList d m i l) = true := by
  induction l generalizing m i with
  | nil => exact h
  | cons v r ih => exact ih _ _ (Store.wf_put _ _ _ _ h)

theorem Store.wf_erase [DecidableEq α] (d : Nat → α) (m : Store α) (i : Nat) (h : Store.wf d m = true) :
    Store.wf d (Store.erase m i) = true := Store.wfFrom_erase _ _ _ _ h

end Sys2Proof.Machine
end

