-- ==== Sys2Proof/Laws/Cores.lean ====
section
/-!
SUPPORT. Lemmas on what engines' programs compute with (`State.cores`): the notion `Keeps` of a command that leaves it alone, with the lemmas that the files Laws/Cores*.lean use.
-/
namespace Sys2Proof.Machine

/-- The outcome, where it is a next state, has the programs' state of every engine as `s`. -/
def Keeps (s : State) (o : Out) : Prop := ∀ t, o = .next t → t.cores = s.cores

@[simp] theorem core_mk (g : Engine) (p po h ca bl he r d ev el) : Engine.core ⟨g.v, g.t, g.pc, g.flags, p, g.imem, g.dmem, g.imemEcc,
  g.dmemEcc, g.lastDone, po, h, ca, bl, he, r, d, ev, el⟩ = g.core := rfl
@[simp] theorem cores_mk (s : State) (part pins resets otp secNvs sec regs inForce stopAt own hosts nvs cals ridges plls ports dies cells
    nextFrame l2 l2Order tbls tblOrders lanes links saddles summit gnss evts outs therm rom msgs lastFn free pending) :
    State.cores ⟨part, pins, resets, otp, secNvs, sec, s.engs, regs, inForce, stopAt, own, hosts, nvs, cals, ridges,
      plls, ports, dies, cells, nextFrame, l2, l2Order, tbls, tblOrders, lanes, links, saddles, summit, gnss, evts, outs,
      therm, rom, msgs, lastFn, free, pending⟩ = s.cores := rfl
@[simp] theorem cores_setEng {s : State} {e : Nat} {g : Engine} (h : g.core = (s.eng e).core) :
    (s.setEng e g).cores = s.cores := by
  funext f
  unfold State.cores
  rw [show (s.setEng e g).eng f = if e = f then g else s.eng f from Store.get_put _ _ _ _ _]
  split
  · subst_vars; exact h
  · rfl
@[simp] theorem core_setLine (g : Engine) (l : Nat) : (g.setLine l).core = g.core := rfl
@[simp] theorem cores_ite (c : Prop) [Decidable c] (a b : State) :
    (if c then a else b).cores = if c then a.cores else b.cores := by split <;> rfl
@[simp] theorem cores_fst_ite {α : Type} (c : Prop) [Decidable c] (a b : State × α) :
    (if c then a else b).1.cores = if c then a.1.cores else b.1.cores := by split <;> rfl
@[simp] theorem cores_snd_ite {α : Type} (c : Prop) [Decidable c] (a b : α × State) :
    (if c then a else b).2.cores = if c then a.2.cores else b.2.cores := by split <;> rfl
@[simp] theorem keeps_next (s t : State) : Keeps s (.next t) ↔ t.cores = s.cores :=
  ⟨fun h => h t rfl, fun h u e => by cases e; exact h⟩
@[simp] theorem keeps_fault (s : State) (f : Fault) : Keeps s (.fault f) := fun _ e => by cases e
@[simp] theorem keeps_ite (s : State) (c : Prop) [Decidable c] (a b : Out) :
    Keeps s (if c then a else b) ↔ if c then Keeps s a else Keeps s b := by split <;> rfl
@[simp] theorem cores_foldl {α : Type} (l : List α) (f : State → α → State) (h : ∀ s x, (f s x).cores = s.cores) (s : State) :
    (l.foldl f s).cores = s.cores := by
  induction l generalizing s with
  | nil => rfl
  | cons x r ih => rw [List.foldl_cons, ih, h]
@[simp] theorem cores_foldl_fst {α β : Type} (l : List α) (f : State × β → α → State × β)
    (h : ∀ p x, (f p x).1.cores = p.1.cores) (p : State × β) : (l.foldl f p).1.cores = p.1.cores := by
  induction l generalizing p with
  | nil => rfl
  | cons x r ih => rw [List.foldl_cons, ih, h]
theorem Keeps.trans {s t : State} {o : Out} (h : Keeps t o) (e : t.cores = s.cores) : Keeps s o :=
  fun u hu => (h u hu).trans e
end Sys2Proof.Machine
end

