-- ==== Sys2Proof/Laws/CoresEngine.lean ====
section
/-!
SUPPORT. What leaves engines' programs alone, by definition: engine instructions, accesses and monitoring.
-/
namespace Sys2Proof.Machine

/-! ## Machine/Ops.lean -/

@[simp] theorem cores_wf (s : State) (f : Fld) (die : Nat) (inst : Nat) (v : Nat) :
    (State.wf s f die inst v).cores = s.cores := by
  unfold State.wf; simp
@[simp] theorem cores_wfF (s : State) (f : Fld) (die : Nat) (inst : Nat) (v : Nat) :
    (State.wfF s f die inst v).cores = s.cores := by
  unfold State.wfF; simp
@[simp] theorem cores_setFlag (s : State) (f : Fld) (die : Nat) (inst : Nat) :
    (State.setFlag s f die inst).cores = s.cores := by
  unfold State.setFlag; simp
@[simp] theorem cores_putFlag (s : State) (f : Fld) (die : Nat) (inst : Nat) (b : Bool) :
    (State.putFlag s f die inst b).cores = s.cores := by
  unfold State.putFlag; simp
@[simp] theorem cores_addSat (s : State) (f : Fld) (die : Nat) (inst : Nat) (n : Nat) :
    (State.addSat s f die inst n).cores = s.cores := by
  unfold State.addSat; simp
@[simp] theorem cores_addWrap (s : State) (f : Fld) (die : Nat) (inst : Nat) (n : Nat) :
    (State.addWrap s f die inst n).cores = s.cores := by
  unfold State.addWrap; simp
@[simp] theorem cores_takeEffect (s : State) (die : Nat) (blk : Nat) (inst : Nat) :
    (State.takeEffect s die blk inst).cores = s.cores := by
  unfold State.takeEffect; simp
@[simp] theorem cores_setLine (s : State) (e : Nat) (line : Nat) :
    (State.setLine s e line).cores = s.cores := by unfold State.setLine; exact cores_setEng rfl
@[simp] theorem cores_post (s : State) (src : Nat) (dst : Nat) (b : CtlBody) :
    (State.post s src dst b).cores = s.cores := by
  unfold State.post; simp
@[simp] theorem cores_driveQuiet (s : State) (die : Nat) (t : Nat × Nat) :
    (State.driveQuiet s die t).cores = s.cores := by
  unfold State.driveQuiet; simp
theorem cores_loseFrom (a n : Nat) (todo seen : List Nat) (s : State) :
    (State.loseFrom a n todo seen s).cores = s.cores := by
  induction n generalizing todo seen s with
  | zero => rfl
  | succ n ih =>
    cases todo with
    | nil => rfl
    | cons b r =>
      refine (ih _ _ _).trans ?_
      rw [cores_foldl _ _ (fun s t => cores_driveQuiet s a t)]
      simp
@[simp] theorem cores_eventLost (s : State) (a : Nat) (b : Nat) :
    (State.eventLost s a b).cores = s.cores := by unfold State.eventLost; exact cores_loseFrom _ _ _ _ _
@[simp] theorem cores_drive (s : State) (die : Nat) (t : Nat × Nat) :
    (State.drive s die t).cores = s.cores := by
  unfold State.drive; simp
@[simp] theorem cores_raise (s : State) (die : Nat) (blk : Nat) (inst : Nat) (ev : Nat) :
    (State.raise s die blk inst ev).cores = s.cores := by
  unfold State.raise; simp
@[simp] theorem cores_wfRaise (s : State) (f : Fld) (die : Nat) (inst : Nat) (v : Nat) (ev : Nat) :
    (State.wfRaise s f die inst v ev).cores = s.cores := by
  unfold State.wfRaise; simp
@[simp] theorem cores_setPort (s : State) (p : Nat) (x : PortState) :
    (State.setPort s p x).cores = s.cores := by
  unfold State.setPort; simp
@[simp] theorem cores_setDie (s : State) (d : Nat) (x : DieState) :
    (State.setDie s d x).cores = s.cores := by
  unfold State.setDie; simp
@[simp] theorem cores_setRidge (s : State) (d : Nat) (r : RidgeState) :
    (State.setRidge s d r).cores = s.cores := by
  unfold State.setRidge; simp
@[simp] theorem cores_setPerf (s : State) (d : Nat) (p : PerfState) :
    (State.setPerf s d p).cores = s.cores := by
  unfold State.setPerf; simp
@[simp] theorem cores_perfAdd (s : State) (d : Nat) (c : Nat) (amount : Nat) :
    (State.perfAdd s d c amount).cores = s.cores := by
  unfold State.perfAdd; simp
@[simp] theorem cores_perfEvent (s : State) (d : Nat) (src : Nat) (idx : Nat) (weight : Nat) :
    (State.perfEvent s d src idx weight).cores = s.cores := by
  unfold State.perfEvent; simp
@[simp] theorem cores_tagStore (s : State) (d : Nat) (t : TagItem) (cycles : Nat) :
    (State.tagStore s d t cycles).cores = s.cores := by
  unfold State.tagStore; simp
@[simp] theorem cores_issues (s : State) (e : Nat) : (State.issues s e).cores = s.cores := by
  unfold State.issues; dsimp only; split <;> simp
@[simp] theorem cores_tagIssue (s : State) (e : Nat) (pc : Nat) (word : Nat) :
    (State.tagIssue s e pc word).cores = s.cores := by
  unfold State.tagIssue; simp
@[simp] theorem cores_tagAccess (s : State) (e : Nat) (stage : Nat) (remote : Bool) :
    (State.tagAccess s e stage remote).cores = s.cores := by
  unfold State.tagAccess; dsimp only; (repeat' split) <;> simp
@[simp] theorem cores_tagTarget (s : State) (e : Nat) (d : Nat) (answered : Bool) :
    (State.tagTarget s e d answered).cores = s.cores := by
  unfold State.tagTarget; dsimp only; (repeat' split) <;> simp
@[simp] theorem cores_tagRetire (s : State) (e : Nat) (dropped : Bool) :
    (State.tagRetire s e dropped).cores = s.cores := by
  unfold State.tagRetire; dsimp only; (repeat' split) <;> simp
@[simp] theorem cores_setHost (s : State) (h : Nat) (x : HostEp) :
    (State.setHost s h x).cores = s.cores := by
  unfold State.setHost; simp
@[simp] theorem cores_vector (s : State) (h : Nat) (v : Nat) :
    (State.vector s h v).cores = s.cores := by
  unfold State.vector; simp
@[simp] theorem cores_irq (s : State) (h : Nat) (f : Fld) :
    (State.irq s h f).cores = s.cores := by
  unfold State.irq; simp
@[simp] theorem cores_setRun (s : State) (die : Nat) (blk : Nat) (inst : Nat) (st : Nat) :
    (State.setRun s die blk inst st).cores = s.cores := by
  unfold State.setRun; (repeat' split) <;> simp
@[simp] theorem cores_recordFault (s : State) (die : Nat) (blk : Nat) (inst : Nat) (code : Nat) :
    (State.recordFault s die blk inst code).cores = s.cores := by
  unfold State.recordFault; simp
@[simp] theorem cores_lastPc (s : State) (e : Nat) (pc : BitVec 16) :
    (State.lastPc s e pc).cores = s.cores := by
  unfold State.lastPc; simp
@[simp] theorem cores_trapCause (s : State) (e : Nat) (cause : Nat) :
    (State.trapCause s e cause).cores = s.cores := by
  unfold State.trapCause; simp
@[simp] theorem cores_dropHeld (s : State) (e : Nat) :
    (State.dropHeld s e).cores = s.cores := by
  unfold State.dropHeld
  extract_lets g
  split
  · rfl
  · rw [cores_trapCause]; exact cores_setEng rfl
@[simp] theorem cores_stepUsed (s : State) (e : Nat) :
    (State.stepUsed s e).cores = s.cores := by
  unfold State.stepUsed; simp
@[simp] theorem cores_draw (s : State) :
    (State.draw s).2.cores = s.cores := by
  unfold State.draw; simp
@[simp] theorem cores_quot (s : State) (num : Int) (den : Int) :
    (State.quot s num den).2.cores = s.cores := by
  unfold State.quot; simp
@[simp] theorem cores_fit (s : State) (w : Nat) (x : Int) :
    (State.fit s w x).2.cores = s.cores := by
  unfold State.fit; simp

/-! ## Machine/Arrive.lean -/

@[simp] theorem cores_judged (s : State) (e : Nat) (addr : Nat) (width : Nat) (data : Nat) (cause : Nat) :
    (State.judged s e addr width data cause).cores = s.cores := by unfold State.judged; exact cores_setEng rfl
@[simp] theorem cores_answer (s : State) (e : Nat) (addr : Nat) (cause : Nat) (value : Nat) :
    (State.answer s e addr cause value).cores = s.cores := by
  unfold State.answer
  dsimp only
  split
  · split
    · exact (cores_tagTarget _ _ _ _).trans (cores_setEng rfl)
    · rfl
  · rfl

@[simp] theorem keeps_arriveWrite {e addr width data : Nat} {s : State} {f : State → State}
    (h : (f s).cores = s.cores) : Keeps s (arriveWrite e addr width data s f) := by
  unfold arriveWrite; simp [h]

@[simp] theorem keeps_arriveRead {e addr width : Nat} {s : State} {f : State → State × Nat}
    (h : (f s).1.cores = s.cores) : Keeps s (arriveRead e addr width s f) := by
  unfold arriveRead; simp [h]

@[simp] theorem cores_held {s : State} {f : State → State} (h : (f s).cores = s.cores) : (s.held f).cores = s.cores := by
  unfold State.held; simp [h]

@[simp] theorem keeps_onInst {die blk inst : Nat} {s : State} {f : State → State} (h : (f s).cores = s.cores) :
    Keeps s (onInst die blk inst s f) := by unfold onInst; simp [h]

@[simp] theorem keeps_onPort {p : Nat} {s : State} {f : State → State} (h : (f s).cores = s.cores) :
    Keeps s (onPort p s f) := by unfold onPort; simp [h]

@[simp] theorem keeps_onDie {d : Nat} {s : State} {f : State → State} (h : (f s).cores = s.cores) :
    Keeps s (onDie d s f) := by unfold onDie; simp [h]

/-! ## Machine/Monitor.lean -/

@[simp] theorem cores_histTake (s : State) (d : Nat) (i : Nat) (x0 : Int) :
    (State.histTake s d i x0).cores = s.cores := by
  unfold State.histTake; simp
@[simp] theorem cores_histSample (s : State) (d : Nat) (i : Nat) (x : Int) :
    (State.histSample s d i x).cores = s.cores := by
  unfold State.histSample; simp
@[simp] theorem cores_histFeed (s : State) (d : Nat) (src : Nat) (idx : Nat) (x : Int) :
    (State.histFeed s d src idx x).cores = s.cores := by
  unfold State.histFeed; simp
@[simp] theorem cores_histClear (s : State) (d : Nat) (i : Nat) :
    (State.histClear s d i).cores = s.cores := by
  unfold State.histClear; simp
@[simp] theorem cores_wrHistCtrl (s : State) (d : Nat) (i : Nat) (data : Nat) :
    (State.wrHistCtrl s d i data).cores = s.cores := by
  unfold State.wrHistCtrl; simp
@[simp] theorem cores_perfCycles (s : State) (d : Nat) (n : Nat) :
    (State.perfCycles s d n).cores = s.cores := by
  unfold State.perfCycles; simp
@[simp] theorem cores_bwLatch (s : State) (d : Nat) :
    (State.bwLatch s d).cores = s.cores := by
  unfold State.bwLatch; simp
@[simp] theorem cores_bwAdd (s : State) (d : Nat) (lp : Nat) (tx : Bool) (len : Nat) :
    (State.bwAdd s d lp tx len).cores = s.cores := by
  have h : ((List.range (s.bwDue d)).foldl (fun s _ => s.bwLatch d) s).cores = s.cores :=
    cores_foldl _ _ (fun u _ => cores_bwLatch u d) s
  unfold State.bwAdd; dsimp only; split <;> simp [h]
@[simp] theorem cores_levelAdd (s : State) (d : Nat) (c : Nat) (amount : Nat) (reach : Bool) :
    (State.levelAdd s d c amount reach).cores = s.cores := by
  unfold State.levelAdd; simp
@[simp] theorem cores_execPerfCompareReached (d : Nat) (c : Nat) (amount : Nat) (s : State) :
    Keeps s (execPerfCompareReached d c amount s) := by
  unfold execPerfCompareReached; simp
@[simp] theorem cores_execPerfCounterWrap (d : Nat) (c : Nat) (amount : Nat) (s : State) :
    Keeps s (execPerfCounterWrap d c amount s) := by
  unfold execPerfCounterWrap; simp
@[simp] theorem cores_execBwWindowEnd (d : Nat) (s : State) :
    Keeps s (execBwWindowEnd d s) := by
  unfold execBwWindowEnd; simp
@[simp] theorem cores_tagHead (s : State) (d : Nat) :
    (State.tagHead s d).1.cores = s.cores := by
  unfold State.tagHead; dsimp only; (repeat' split) <;> simp
@[simp] theorem cores_execTagHeadRead (e : Nat) (d : Nat) (s : State) :
    Keeps s (execTagHeadRead e d s) := by
  unfold execTagHeadRead; simp
@[simp] theorem cores_execHistLevelSample (d : Nat) (i : Nat) (s : State) :
    Keeps s (execHistLevelSample d i s) := by
  unfold execHistLevelSample; refine keeps_onInst ?_; dsimp only; (repeat' split) <;> simp
@[simp] theorem cores_execHistClear (e : Nat) (d : Nat) (i : Nat) (hold : Bool) (s : State) :
    Keeps s (execHistClear e d i hold s) := by
  unfold execHistClear; simp
@[simp] theorem cores_execHistHold (e : Nat) (d : Nat) (i : Nat) (hold : Bool) (s : State) :
    Keeps s (execHistHold e d i hold s) := by
  unfold execHistHold; simp
@[simp] theorem cores_tagReport (s : State) (d : Nat) (stage : Nat) (T : Nat) (u : TagItem) (done : Bool) (dropped : Bool) :
    (State.tagReport s d stage T u done dropped).cores = s.cores := by
  unfold State.tagReport; dsimp only; (repeat' split) <;> simp
@[simp] theorem cores_tagDest (s : State) (d : Nat) (id : Nat) (dest : Nat) :
    (State.tagDest s d id dest).cores = s.cores := by
  unfold State.tagDest; dsimp only; (repeat' split) <;> simp
@[simp] theorem cores_tagCut (s : State) (a : Nat) (b : Nat) :
    (State.tagCut s a b).cores = s.cores := by
  unfold State.tagCut; (repeat' split) <;> simp
@[simp] theorem cores_execTagStageReport (d : Nat) (s : State) :
    Keeps s (execTagStageReport d s) := by
  unfold execTagStageReport; refine keeps_onDie ?_; (repeat' split) <;> simp

end Sys2Proof.Machine
end

