-- ==== Sys2Proof/Laws/CoresTime.lean ====
section
/-!
SUPPORT. What leaves engines' programs alone, by definition: event capture, timing outputs, GNSS, links, PLLs, lanes and ridges.
-/
namespace Sys2Proof.Machine

/-! ## Machine/Timing.lean -/

@[simp] theorem cores_setLink (s : State) (p : Nat) (l : LinkState) :
    (State.setLink s p l).cores = s.cores := by
  unfold State.setLink; simp
@[simp] theorem cores_linkShift (s : State) (d : Nat) (by_ : Int) :
    (State.linkShift s d by_).cores = s.cores := by
  unfold State.linkShift; simp
@[simp] theorem cores_linkGraded (s : State) (p : Nat) (tx : Bool) (t : XT) :
    (State.linkGraded s p tx t).cores = s.cores := by
  unfold State.linkGraded; simp
@[simp] theorem cores_refreshPort (s : State) (p : Nat) :
    (State.refreshPort s p).cores = s.cores := by
  unfold State.refreshPort; simp
@[simp] theorem cores_refreshTg (s : State) (d : Nat) :
    (State.refreshTg s d).cores = s.cores := by
  unfold State.refreshTg; simp
@[simp] theorem cores_refreshAlign (s : State) (d : Nat) :
    (State.refreshAlign s d).cores = s.cores := by
  unfold State.refreshAlign; simp
@[simp] theorem cores_refreshLane (s : State) (lane : Nat) :
    (State.refreshLane s lane).cores = s.cores := by
  unfold State.refreshLane; simp
@[simp] theorem cores_refreshLanes (s : State) (p : Nat) :
    (State.refreshLanes s p).cores = s.cores := by
  unfold State.refreshLanes; simp

/-! ## Machine/Evt.lean -/

@[simp] theorem cores_setEvt (s : State) (ch : Nat) (x : EvtState) :
    (State.setEvt s ch x).cores = s.cores := by
  unfold State.setEvt; simp
@[simp] theorem cores_setOpen (s : State) (ch : Nat) (o : Option EvOpen) :
    (State.setOpen s ch o).cores = s.cores := by
  unfold State.setOpen; simp
@[simp] theorem cores_rxDeliver (s : State) (e : Nat) (f : RxFrame) :
    (State.rxDeliver s e f).cores = s.cores := by
  unfold State.rxDeliver
  dsimp only
  split
  · rw [cores_perfEvent]; exact cores_setEng rfl
  · rw [cores_setLine]; exact cores_setEng rfl
@[simp] theorem cores_evStore (s : State) (ch : Nat) (r : EvRecord) :
    (State.evStore s ch r).cores = s.cores := by
  unfold State.evStore; (repeat' split) <;> simp
@[simp] theorem cores_evClose (s : State) (ch : Nat) (o : EvOpen) (r : EvRecord) :
    (State.evClose s ch o r).cores = s.cores := by
  unfold State.evClose; simp
@[simp] theorem cores_evModeEdge (s : State) (ch : Nat) (a : EvEdge) :
    (State.evModeEdge s ch a).cores = s.cores := by
  unfold State.evModeEdge; simp
@[simp] theorem cores_evModeTrain (s : State) (ch : Nat) (a : EvEdge) :
    (State.evModeTrain s ch a).cores = s.cores := by
  unfold State.evModeTrain; (repeat' split) <;> simp
@[simp] theorem cores_evModePaired (s : State) (ch : Nat) (a : EvEdge) (isStart : Bool) :
    (State.evModePaired s ch a isStart).cores = s.cores := by
  unfold State.evModePaired; (repeat' split) <;> simp
@[simp] theorem cores_evOpenGated (s : State) (ch : Nat) (a : EvEdge) :
    (State.evOpenGated s ch a).cores = s.cores := by
  unfold State.evOpenGated; simp
@[simp] theorem cores_evGatedEnd (s : State) (ch : Nat) (o : EvOpen) (r : EvRecord) :
    (State.evGatedEnd s ch o r).cores = s.cores := by
  unfold State.evGatedEnd; (repeat' split) <;> simp
@[simp] theorem cores_evExpire (s : State) (ch : Nat) (o : EvOpen) :
    (State.evExpire s ch o).cores = s.cores := by
  unfold State.evExpire; simp
@[simp] theorem cores_evOverdue (s : State) (ch : Nat) (tick : Nat) :
    (State.evOverdue s ch tick).cores = s.cores := by
  unfold State.evOverdue; (repeat' split) <;> simp
@[simp] theorem cores_evGatedStart (s0 : State) (ch : Nat) (a : EvEdge) :
    (State.evGatedStart s0 ch a).cores = s0.cores := by
  unfold State.evGatedStart; dsimp only; (repeat' split) <;> simp
@[simp] theorem cores_evGatedStop (s0 : State) (ch : Nat) (a : EvEdge) :
    (State.evGatedStop s0 ch a).cores = s0.cores := by
  unfold State.evGatedStop; dsimp only; (repeat' split) <;> simp
@[simp] theorem cores_evEdgeFor (s : State) (ch : Nat) (a : EvEdge) (isStart : Bool) :
    (State.evEdgeFor s ch a isStart).cores = s.cores := by
  unfold State.evEdgeFor; (repeat' split) <;> simp
@[simp] theorem cores_evStart (s : State) (d : Nat) (src : Nat) (a : EvEdge) :
    (State.evStart s d src a).cores = s.cores := by
  unfold State.evStart; simp
@[simp] theorem cores_evDeadIn (s : State) (ch : Nat) (c : Nat) :
    (State.evDeadIn s ch c).cores = s.cores := by
  unfold State.evDeadIn; simp
@[simp] theorem cores_evIgnoreDead (s : State) (ch : Nat) :
    (State.evIgnoreDead s ch).cores = s.cores := by
  unfold State.evIgnoreDead; simp
@[simp] theorem cores_evAccept (s : State) (ch : Nat) (a : EvEdge) :
    (State.evAccept s ch a).cores = s.cores := by
  unfold State.evAccept; simp
@[simp] theorem cores_execEventCrossing (ch : Nat) (rising : Bool) (taps : Nat) (s : State) :
    Keeps s (execEventCrossing ch rising taps s) := by
  unfold execEventCrossing; simp
@[simp] theorem cores_gateSample (s : State) (ch : Nat) :
    (State.gateSample s ch).cores = s.cores := by
  unfold State.gateSample; simp
@[simp] theorem cores_evDisarmed (s : State) (ch : Nat) (t : Nat) (o : EvOpen) :
    (State.evDisarmed s ch t o).cores = s.cores := by
  unfold State.evDisarmed; dsimp only; (repeat' split) <;> simp
@[simp] theorem cores_evTick (s : State) (ch : Nat) :
    (State.evTick s ch).cores = s.cores := by
  unfold State.evTick; dsimp only; (repeat' split) <;> simp
@[simp] theorem cores_evStarted (s : State) (ch : Nat) :
    (State.evStarted s ch).cores = s.cores := by
  unfold State.evStarted; simp
@[simp] theorem cores_evApplied (s : State) (d : Nat) (A : Nat) :
    (State.evApplied s d A).cores = s.cores := by unfold State.evApplied; refine cores_foldl _ _ (fun s x => ?_) _; (try dsimp only); (repeat' split) <;> simp
@[simp] theorem cores_execArmWrite (e : Nat) (ch : Nat) (arm : Bool) (s : State) :
    Keeps s (execArmWrite e ch arm s) := by
  unfold execArmWrite; simp
@[simp] theorem cores_evOver (s : State) (ch : Nat) (mode : Nat) :
    (State.evOver s ch mode).cores = s.cores := by
  unfold State.evOver; (repeat' split) <;> simp
@[simp] theorem cores_execTrainWindowClose (ch : Nat) (s : State) :
    Keeps s (execTrainWindowClose ch s) := by
  unfold execTrainWindowClose; simp
@[simp] theorem cores_execPairedWindowClose (ch : Nat) (s : State) :
    Keeps s (execPairedWindowClose ch s) := by
  unfold execPairedWindowClose; simp
@[simp] theorem cores_execGatedTimeout (ch : Nat) (s : State) :
    Keeps s (execGatedTimeout ch s) := by
  unfold execGatedTimeout; simp
@[simp] theorem cores_wrThresh (s : State) (ch : Nat) (code : Nat) :
    (State.wrThresh s ch code).cores = s.cores := by
  unfold State.wrThresh; simp
@[simp] theorem cores_execThreshWrite (e : Nat) (ch : Nat) (code : BitVec 12) (s : State) :
    Keeps s (execThreshWrite e ch code s) := by
  unfold execThreshWrite; simp
@[simp] theorem cores_execThreshSettled (ch : Nat) (s : State) :
    Keeps s (execThreshSettled ch s) := by
  unfold execThreshSettled; (repeat' split) <;> simp
@[simp] theorem cores_evtHead (s : State) (ch : Nat) :
    (State.evtHead s ch).1.cores = s.cores := by
  unfold State.evtHead; dsimp only; (repeat' split) <;> simp
@[simp] theorem cores_execEvtRecHeadRead (e : Nat) (ch : Nat) (s : State) :
    Keeps s (execEvtRecHeadRead e ch s) := by
  unfold execEvtRecHeadRead; simp
@[simp] theorem cores_execEventFrameDeliver (ch : Nat) (s : State) :
    Keeps s (execEventFrameDeliver ch s) := by
  unfold execEventFrameDeliver; dsimp only; (repeat' split) <;> simp
@[simp] theorem cores_evtLeaveRun (s0 : State) (ch : Nat) :
    (State.evtLeaveRun s0 ch).cores = s0.cores := by
  unfold State.evtLeaveRun; dsimp only; (repeat' split) <;> simp

/-! ## Machine/Field.lean -/

@[simp] theorem cores_setOut (s : State) (d : Nat) (k : Nat) (x : OutState) :
    (State.setOut s d k x).cores = s.cores := by
  unfold State.setOut; simp
@[simp] theorem cores_putBit (s : State) (f : Fld) (d : Nat) (i : Nat) (k : Nat) (b : Bool) :
    (State.putBit s f d i k b).cores = s.cores := by
  unfold State.putBit; simp
@[simp] theorem cores_outLevel (s : State) (d : Nat) (k : Nat) :
    (State.outLevel s d k).cores = s.cores := by
  unfold State.outLevel; simp
@[simp] theorem cores_execOutputEdgeSchedule (d : Nat) (k : Nat) (s : State) :
    Keeps s (execOutputEdgeSchedule d k s) := by
  unfold execOutputEdgeSchedule; (repeat' split) <;> simp
@[simp] theorem cores_pulse (s : State) (d : Nat) (k : Nat) (width : Nat) :
    (State.pulse s d k width).cores = s.cores := by
  unfold State.pulse; simp
@[simp] theorem cores_edgeMark (s : State) (d : Nat) (k : Nat) (adj : Int) (qerr : Int → Int) :
    (State.edgeMark s d k adj qerr).cores = s.cores := by
  unfold State.edgeMark; simp
@[simp] theorem cores_disarm (s : State) (d : Nat) (k : Nat) :
    (State.disarm s d k).cores = s.cores := by
  unfold State.disarm; simp
@[simp] theorem cores_driveEdge (s : State) (d : Nat) (k : Nat) (p : OutPlan) :
    (State.driveEdge s d k p).cores = s.cores := by
  unfold State.driveEdge; dsimp only; (repeat' split) <;> simp
@[simp] theorem cores_execOutputEdge (d : Nat) (k : Nat) (s : State) :
    Keeps s (execOutputEdge d k s) := by
  unfold execOutputEdge; (repeat' split) <;> simp
@[simp] theorem cores_execOutputPulseEnd (d : Nat) (k : Nat) (s : State) :
    Keeps s (execOutputPulseEnd d k s) := by
  unfold execOutputPulseEnd; dsimp only; (repeat' split) <;> simp
@[simp] theorem cores_trigFires (s : State) (d k : Nat) : (State.trigFires s d k).cores = s.cores := by
  unfold State.trigFires; (repeat' split) <;> simp
@[simp] theorem cores_trigJudge (s : State) (d : Nat) (k : Nat) :
    (State.trigJudge s d k).cores = s.cores := by
  unfold State.trigJudge; dsimp only; (repeat' split) <;> simp
@[simp] theorem cores_wrTrigArm (s : State) (d : Nat) (k : Nat) (arm : Bool) :
    (State.wrTrigArm s d k arm).cores = s.cores := by
  unfold State.wrTrigArm; dsimp only; (repeat' split) <;> simp
@[simp] theorem cores_execTriggerArm (e : Nat) (d : Nat) (k : Nat) (s : State) :
    Keeps s (execTriggerArm e d k s) := by
  unfold execTriggerArm; simp
@[simp] theorem cores_outLevels (s : State) (d : Nat) :
    (State.outLevels s d).cores = s.cores := by
  unfold State.outLevels; simp
@[simp] theorem cores_execFvddLoss (d : Nat) (s : State) :
    Keeps s (execFvddLoss d s) := by
  unfold execFvddLoss; simp
@[simp] theorem cores_execFvddRestore (d : Nat) (s : State) :
    Keeps s (execFvddRestore d s) := by
  unfold execFvddRestore; simp
@[simp] theorem cores_fieldStarted (s : State) (d : Nat) :
    (State.fieldStarted s d).cores = s.cores := by
  unfold State.fieldStarted; simp
@[simp] theorem cores_fieldStopped (s : State) (d : Nat) :
    (State.fieldStopped s d).cores = s.cores := by
  unfold State.fieldStopped; simp
@[simp] theorem cores_edgeSkip (s : State) (d k : Nat) : (State.edgeSkip s d k).cores = s.cores := by
  unfold State.edgeSkip; simp
@[simp] theorem cores_edgeReplace (s : State) (d old k : Nat) : (State.edgeReplace s d old k).cores = s.cores := by
  unfold State.edgeReplace; dsimp only; (repeat' split) <;> simp
@[simp] theorem cores_fieldReplace (s : State) (d old : Nat) : (State.fieldReplace s d old).cores = s.cores := by
  unfold State.fieldReplace; exact cores_foldl _ _ (fun s x => by simp) _

/-! ## Machine/Gnss.lean -/

@[simp] theorem cores_setGnss (s : State) (g : GnssState) :
    (State.setGnss s g).cores = s.cores := by
  unfold State.setGnss; simp
@[simp] theorem cores_rebase (s : State) :
    (State.rebase s).cores = s.cores := by
  unfold State.rebase; simp
@[simp] theorem cores_takeFix (s : State) :
    (State.takeFix s).cores = s.cores := by
  unfold State.takeFix; simp
@[simp] theorem cores_endSparse (s : State) :
    (State.endSparse s).cores = s.cores := by
  unfold State.endSparse; simp
@[simp] theorem cores_setG (s : State) (st : Nat) :
    (State.setG s st).cores = s.cores := by
  unfold State.setG; simp
@[simp] theorem cores_gnssHold (s : State) (seen : Bool) :
    (State.gnssHold s seen).cores = s.cores := by
  unfold State.gnssHold; simp
@[simp] theorem cores_idleChannel (s : State) (k : Nat) :
    (State.idleChannel s k).cores = s.cores := by
  unfold State.idleChannel; simp
@[simp] theorem cores_refreshChannels (s : State) :
    (State.refreshChannels s).cores = s.cores := by
  unfold State.refreshChannels; simp
@[simp] theorem cores_idleChannels (s : State) :
    (State.idleChannels s).cores = s.cores := by
  unfold State.idleChannels; simp
@[simp] theorem cores_measureClk (s : State) (m : SampleSpan) :
    (State.measureClk s m).cores = s.cores := by
  unfold State.measureClk; simp
@[simp] theorem cores_searchStep (s : State) (visible : BitVec 32) (bin : Option Nat) :
    (State.searchStep s visible bin).cores = s.cores := by
  unfold State.searchStep; dsimp only; (repeat' split) <;> simp
@[simp] theorem cores_execGnssAcquisitionDwell (m : SampleSpan) (visible : BitVec 32) (bin : Option Nat) (s : State) :
    Keeps s (execGnssAcquisitionDwell m visible bin s) := by
  unfold execGnssAcquisitionDwell; simp
@[simp] theorem cores_execChannelPullInEnd (k : Nat) (cn0 : Nat) (elev : Int) (s : State) :
    Keeps s (execChannelPullInEnd k cn0 elev s) := by
  unfold execChannelPullInEnd; simp
@[simp] theorem cores_execChannelSignalLost (k : Nat) (s : State) :
    Keeps s (execChannelSignalLost k s) := by
  unfold execChannelSignalLost; simp
@[simp] theorem cores_execEphemerisDecoded (k : Nat) (nav : NavMessage) (utc : Option (BitVec 8)) (s : State) :
    Keeps s (execEphemerisDecoded k nav utc s) := by
  unfold execEphemerisDecoded; (repeat' split) <;> simp
@[simp] theorem cores_execGnssClkLost (s : State) :
    Keeps s (execGnssClkLost s) := by
  unfold execGnssClkLost; simp
@[simp] theorem cores_execGnssClkRestored (s : State) :
    Keeps s (execGnssClkRestored s) := by
  unfold execGnssClkRestored; simp
@[simp] theorem cores_ppsForm (s : State) (S : Nat) :
    (State.ppsForm s S).cores = s.cores := by
  unfold State.ppsForm; simp
@[simp] theorem cores_ppsDue (s : State) :
    (State.ppsDue s).cores = s.cores := by
  unfold State.ppsDue; simp
@[simp] theorem cores_execPpsSchedule (s : State) :
    Keeps s (execPpsSchedule s) := by
  unfold execPpsSchedule; simp
@[simp] theorem cores_setDrift (s : State) :
    (State.setDrift s).cores = s.cores := by
  unfold State.setDrift; (repeat' split) <;> simp
@[simp] theorem cores_fixValue (s : State) (u : Int) (week : Nat) (tow : Nat) (pos : Int × Int × Int) :
    (State.fixValue s u week tow pos).2.cores = s.cores := by
  unfold State.fixValue; simp
@[simp] theorem cores_newFix (s : State) (u : Int) (fix : Nat) (est : Nat) :
    (State.newFix s u fix est).cores = s.cores := by
  unfold State.newFix; simp
@[simp] theorem cores_setE0 (s : State) (e0 : Nat) :
    (State.setE0 s e0).cores = s.cores := by
  unfold State.setE0; simp
@[simp] theorem cores_slewCheck (s : State) :
    (State.slewCheck s).cores = s.cores := by
  unfold State.slewCheck; simp
@[simp] theorem cores_judgeFix (s : State) (u : Int) (model : Int) (grown : Nat) (est : Nat) :
    (State.judgeFix s u model grown est).cores = s.cores := by
  unfold State.judgeFix; (repeat' split) <;> simp
@[simp] theorem cores_sparseCheck (s : State) :
    (State.sparseCheck s).cores = s.cores := by
  unfold State.sparseCheck; simp
@[simp] theorem cores_surveyAdd (s : State) (pos : Int × Int × Int) :
    (State.surveyAdd s pos).cores = s.cores := by
  unfold State.surveyAdd; simp
@[simp] theorem cores_execGnssSolution (at_ : SolvedEpoch) (tow : Nat) (est : Nat) (pos : Int × Int × Int) (chans : List (Nat × Nat × Int)) (s : State) :
    Keeps s (execGnssSolution at_ tow est pos chans s) := by
  unfold execGnssSolution; simp
@[simp] theorem cores_execGnssEpochMissed (s : State) :
    Keeps s (execGnssEpochMissed s) := by
  unfold execGnssEpochMissed; simp
@[simp] theorem cores_execGnssSlewUpdate (s : State) :
    Keeps s (execGnssSlewUpdate s) := by
  unfold execGnssSlewUpdate; simp
@[simp] theorem cores_execSurveyDone (s : State) :
    Keeps s (execSurveyDone s) := by
  unfold execSurveyDone; dsimp only; (repeat' split) <;> simp
@[simp] theorem cores_execSparseBurst (s : State) :
    Keeps s (execSparseBurst s) := by
  unfold execSparseBurst; (repeat' split) <;> simp
@[simp] theorem cores_wrGnssCtrl (s : State) (data : Nat) :
    (State.wrGnssCtrl s data).cores = s.cores := by
  unfold State.wrGnssCtrl; simp
@[simp] theorem cores_execGnssAck (e : Nat) (s : State) :
    Keeps s (execGnssAck e s) := by
  unfold execGnssAck; simp
@[simp] theorem cores_ppsOut (s : State) (qerr : Int) (k : Nat) :
    (State.ppsOut s qerr k).cores = s.cores := by
  unfold State.ppsOut; simp
@[simp] theorem cores_execPpsEdge (s : State) :
    Keeps s (execPpsEdge s) := by
  unfold execPpsEdge; (repeat' split) <;> simp
@[simp] theorem cores_gnssApplied (s : State) (delta : Int) :
    (State.gnssApplied s delta).cores = s.cores := by
  unfold State.gnssApplied; simp
@[simp] theorem cores_gnssStarted (s : State) :
    (State.gnssStarted s).cores = s.cores := by
  unfold State.gnssStarted; simp
@[simp] theorem cores_gnssStopped (s : State) :
    (State.gnssStopped s).cores = s.cores := by
  unfold State.gnssStopped; dsimp only; (repeat' split) <;> simp

/-! ## Machine/Link.lean -/

@[simp] theorem cores_setL (s : State) (p : Nat) (st0 : Nat) :
    (State.setL s p st0).cores = s.cores := by
  unfold State.setL; simp
@[simp] theorem cores_linkGen (s : State) (p : Nat) :
    (State.linkGen s p).cores = s.cores := by
  unfold State.linkGen; dsimp only; (repeat' split) <;> simp
@[simp] theorem cores_linkUpChange (s : State) (p : Nat) (up : Bool) :
    (State.linkUpChange s p up).cores = s.cores := by
  unfold State.linkUpChange; (repeat' split) <;> simp
@[simp] theorem cores_linkTxRef (s : State) (p : Nat) :
    (State.linkTxRef s p).2.cores = s.cores := by
  unfold State.linkTxRef; dsimp only; (repeat' split) <;> simp
@[simp] theorem cores_linkClose (s : State) (p : Nat) :
    (State.linkClose s p).cores = s.cores := by
  unfold State.linkClose; simp
@[simp] theorem cores_linkStale (s : State) (p : Nat) :
    (State.linkStale s p).cores = s.cores := by
  unfold State.linkStale; simp
@[simp] theorem cores_linkRoll (s : State) (p : Nat) :
    (State.linkRoll s p).cores = s.cores := by
  unfold State.linkRoll; simp
@[simp] theorem cores_execLinkWindowEnd (p : Nat) (s : State) :
    Keeps s (execLinkWindowEnd p s) := by
  unfold execLinkWindowEnd; simp
@[simp] theorem cores_linkReport (s0 : State) (p : Nat) (phase : Int) (sub : Nat) :
    (State.linkReport s0 p phase sub).cores = s0.cores := by
  unfold State.linkReport; simp
@[simp] theorem cores_linkResults (s : State) (p : Nat) (ein : Int) (eout : Int) :
    (State.linkResults s p ein eout).cores = s.cores := by
  unfold State.linkResults; simp
@[simp] theorem cores_linkResolve (s : State) (p : Nat) (raw : Int) :
    (State.linkResolve s p raw).cores = s.cores := by
  unfold State.linkResolve; dsimp only; (repeat' split) <;> simp
@[simp] theorem cores_linkCoarse (s : State) (p : Nat) :
    (State.linkCoarse s p).cores = s.cores := by
  unfold State.linkCoarse; simp
@[simp] theorem cores_linkPhase (s : State) (p : Nat) (raw : Int) :
    (State.linkPhase s p raw).cores = s.cores := by
  unfold State.linkPhase; simp
@[simp] theorem cores_linkPeer (s : State) (p : Nat) :
    (State.linkPeer s p).cores = s.cores := by
  unfold State.linkPeer; simp
@[simp] theorem cores_linkCommit (s0 : State) (p : Nat) :
    (State.linkCommit s0 p).cores = s0.cores := by
  unfold State.linkCommit; dsimp only; (repeat' split) <;> simp
@[simp] theorem cores_wrCommit (s : State) (p : Nat) (data : Nat) :
    (State.wrCommit s p data).cores = s.cores := by
  unfold State.wrCommit; simp
@[simp] theorem cores_execLinkCommit (e : Nat) (p : Nat) (s : State) :
    Keeps s (execLinkCommit e p s) := by
  unfold execLinkCommit; simp
@[simp] theorem cores_wrAsym (s : State) (p : Nat) (data : Nat) :
    (State.wrAsym s p data).cores = s.cores := by
  unfold State.wrAsym; simp
@[simp] theorem cores_setPath (s : State) (k : Nat) (ok : Bool) :
    (State.setPath s k ok).cores = s.cores := by
  unfold State.setPath; simp
@[simp] theorem cores_holderPaths (s : State) :
    (State.holderPaths s).cores = s.cores := by
  unfold State.holderPaths; simp
@[simp] theorem cores_linkStarted (s : State) (p : Nat) :
    (State.linkStarted s p).cores = s.cores := by
  unfold State.linkStarted; simp
@[simp] theorem cores_linkStopped (s : State) (p : Nat) :
    (State.linkStopped s p).cores = s.cores := by
  unfold State.linkStopped; simp

/-! ## Machine/Pll.lean -/

@[simp] theorem cores_setPll (s : State) (d : Nat) (x : PllState) :
    (State.setPll s d x).cores = s.cores := by
  unfold State.setPll; simp
@[simp] theorem cores_setFreq (s : State) (d : Nat) (x : Int) :
    (State.setFreq s d x).cores = s.cores := by
  unfold State.setFreq; simp
@[simp] theorem cores_holdMean (s : State) (d : Nat) :
    (State.holdMean s d).cores = s.cores := by
  unfold State.holdMean; simp
@[simp] theorem cores_slewTick (s : State) (d : Nat) :
    (State.slewTick s d).cores = s.cores := by
  unfold State.slewTick; simp
@[simp] theorem cores_deltaDue (s : State) (d : Nat) :
    (State.deltaDue s d).cores = s.cores := by
  unfold State.deltaDue; simp
@[simp] theorem cores_deltaBack (s : State) (l : List DeltaMark) :
    (State.deltaBack s l).cores = s.cores := by
  unfold State.deltaBack; simp
@[simp] theorem cores_laneBypass (s : State) (d : Nat) :
    (State.laneBypass s d).cores = s.cores := by
  unfold State.laneBypass; simp
@[simp] theorem cores_rampAbort (s : State) :
    (State.rampAbort s).cores = s.cores := by
  unfold State.rampAbort; simp
@[simp] theorem cores_refreshRef (s : State) (d : Nat) :
    (State.refreshRef s d).cores = s.cores := by
  unfold State.refreshRef; simp
@[simp] theorem cores_enterMode (s : State) (d : Nat) (m : Nat) (handover : Bool) :
    (State.enterMode s d m handover).cores = s.cores := by
  unfold State.enterMode; simp
@[simp] theorem cores_sourceLost (s : State) (d : Nat) :
    (State.sourceLost s d).cores = s.cores := by
  unfold State.sourceLost; simp
@[simp] theorem cores_lossDecides (s : State) (d : Nat) (x : LockLoss) :
    (State.lossDecides s d x).cores = s.cores := by
  unfold State.lossDecides; simp
@[simp] theorem cores_sourceAct (s : State) (d : Nat) :
    (State.sourceAct s d).cores = s.cores := by
  unfold State.sourceAct; dsimp only; (repeat' split) <;> simp
@[simp] theorem cores_followRefs (s : State) :
    (State.followRefs s).cores = s.cores := by
  unfold State.followRefs; simp
@[simp] theorem cores_execRefValidityChange (ref : Nat) (ppb : Option Int) (s : State) :
    Keeps s (execRefValidityChange ref ppb s) := by
  unfold execRefValidityChange; simp
@[simp] theorem cores_execPllLockAchieved (d : Nat) (err : Int) (freq : Int) (s : State) :
    Keeps s (execPllLockAchieved d err freq s) := by
  unfold execPllLockAchieved; simp
@[simp] theorem cores_execPllLockLoss (d : Nat) (err : Int) (s : State) :
    Keeps s (execPllLockLoss d err s) := by
  unfold execPllLockLoss; simp
@[simp] theorem cores_execPllRefQualified (d : Nat) (s : State) :
    Keeps s (execPllRefQualified d s) := by
  unfold execPllRefQualified; refine keeps_onDie ?_; (repeat' split) <;> simp
@[simp] theorem cores_execHistOkSet (d : Nat) (s : State) :
    Keeps s (execHistOkSet d s) := by
  unfold execHistOkSet; simp
@[simp] theorem cores_execHandoverTimeout (d : Nat) (s : State) :
    Keeps s (execHandoverTimeout d s) := by
  unfold execHandoverTimeout; simp
@[simp] theorem cores_switchTo (s : State) (d : Nat) (src : Nat) (port : Nat) :
    (State.switchTo s d src port).cores = s.cores := by
  unfold State.switchTo; simp
@[simp] theorem cores_selectDone (s : State) :
    (State.selectDone s).cores = s.cores := by
  unfold State.selectDone; simp
@[simp] theorem cores_wrSel (s : State) (data : Nat) :
    (State.wrSel s data).cores = s.cores := by
  unfold State.wrSel; dsimp only; (repeat' split) <;> simp
@[simp] theorem cores_execPllSelect (e : Nat) (src : BitVec 3) (port : BitVec 8) (s : State) :
    Keeps s (execPllSelect e src port s) := by
  unfold execPllSelect; simp
@[simp] theorem cores_setLeader (s : State) (lead : Nat) :
    (State.setLeader s lead).cores = s.cores := by
  unfold State.setLeader; simp
@[simp] theorem cores_execPllSelectBoundary (s : State) :
    Keeps s (execPllSelectBoundary s) := by
  unfold execPllSelectBoundary; (repeat' split) <;> simp
@[simp] theorem cores_wrSteer (s : State) (data : Nat) :
    (State.wrSteer s data).cores = s.cores := by
  unfold State.wrSteer; simp
@[simp] theorem cores_execSteerWrite (e : Nat) (data : Word) (s : State) :
    Keeps s (execSteerWrite e data s) := by
  unfold execSteerWrite; simp
@[simp] theorem cores_execSteerStep (s : State) :
    Keeps s (execSteerStep s) := by
  unfold execSteerStep; simp
@[simp] theorem cores_steerToward (s : State) :
    (State.steerToward s).cores = s.cores := by
  unfold State.steerToward; simp
@[simp] theorem cores_steerTick (s : State) :
    (State.steerTick s).cores = s.cores := by
  unfold State.steerTick; dsimp only; (repeat' split) <;> simp
@[simp] theorem cores_wrRamp (s : State) (data : Nat) :
    (State.wrRamp s data).cores = s.cores := by
  unfold State.wrRamp; simp
@[simp] theorem cores_execRampGo (e : Nat) (nseg : BitVec 3) (s : State) :
    Keeps s (execRampGo e nseg s) := by
  unfold execRampGo; simp
@[simp] theorem cores_execRampStart (s : State) :
    Keeps s (execRampStart s) := by
  unfold execRampStart; (repeat' split) <;> simp
@[simp] theorem cores_rampEnd (s : State) :
    (State.rampEnd s).cores = s.cores := by
  unfold State.rampEnd; simp
@[simp] theorem cores_execRampSegmentEnd (s : State) :
    Keeps s (execRampSegmentEnd s) := by
  unfold execRampSegmentEnd; (repeat' split) <;> simp
@[simp] theorem cores_applyDiv (s : State) :
    (State.applyDiv s).cores = s.cores := by
  unfold State.applyDiv; simp
@[simp] theorem cores_wrOutUpd (s : State) (data : Nat) :
    (State.wrOutUpd s data).cores = s.cores := by
  unfold State.wrOutUpd; simp
@[simp] theorem cores_execOutUpdGo (e : Nat) (s : State) :
    Keeps s (execOutUpdGo e s) := by
  unfold execOutUpdGo; simp
@[simp] theorem cores_execOutUpdApply (s : State) :
    Keeps s (execOutUpdApply s) := by
  unfold execOutUpdApply; (repeat' split) <;> simp
@[simp] theorem cores_pllStarted (s : State) (d : Nat) :
    (State.pllStarted s d).cores = s.cores := by
  unfold State.pllStarted; simp
@[simp] theorem cores_pllStopped (s : State) (d : Nat) :
    (State.pllStopped s d).cores = s.cores := by
  unfold State.pllStopped; simp
@[simp] theorem cores_pllTick (s : State) :
    (State.pllTick s).cores = s.cores := by
  unfold State.pllTick; simp

/-! ## Machine/Lane.lean -/

@[simp] theorem cores_setLane (s : State) (l : Nat) (x : LaneState) :
    (State.setLane s l x).cores = s.cores := by
  unfold State.setLane; simp
@[simp] theorem cores_refreshLink (s : State) (p : Nat) :
    (State.refreshLink s p).cores = s.cores := by
  unfold State.refreshLink; simp
@[simp] theorem cores_ptGen (s : State) (l : Nat) :
    (State.ptGen s l).cores = s.cores := by
  unfold State.ptGen; simp
@[simp] theorem cores_setPtLock (s : State) (l : Nat) (b : Bool) :
    (State.setPtLock s l b).cores = s.cores := by
  unfold State.setPtLock; simp
@[simp] theorem cores_dropLock (s : State) (l : Nat) :
    (State.dropLock s l).cores = s.cores := by
  unfold State.dropLock; simp
@[simp] theorem cores_addUnfit (s : State) (ls : List Nat) (n : Nat) :
    (State.addUnfit s ls n).cores = s.cores := by
  unfold State.addUnfit; simp
@[simp] theorem cores_refreshFrozen (s : State) (l : Nat) :
    (State.refreshFrozen s l).cores = s.cores := by
  unfold State.refreshFrozen; simp
@[simp] theorem cores_refreshFrozens (s : State) (p : Nat) :
    (State.refreshFrozens s p).cores = s.cores := by
  unfold State.refreshFrozens; simp
@[simp] theorem cores_peakStep (s : State) (l : Nat) (n : Nat) :
    (State.peakStep s l n).cores = s.cores := by
  unfold State.peakStep; simp
@[simp] theorem cores_execCtleAdaptStep (l : Nat) (up : Bool) (s : State) :
    Keeps s (execCtleAdaptStep l up s) := by
  unfold execCtleAdaptStep; simp
@[simp] theorem cores_execAdaptFreeze (l : Nat) (g : CodeGroups) (s : State) :
    Keeps s (execAdaptFreeze l g s) := by
  unfold execAdaptFreeze; simp
@[simp] theorem cores_liftFreeze (s : State) (l : Nat) :
    (State.liftFreeze s l).cores = s.cores := by
  unfold State.liftFreeze; simp
@[simp] theorem cores_laneSkews (s : State) (lead : Nat) :
    (State.laneSkews s lead).cores = s.cores := by
  unfold State.laneSkews; simp
@[simp] theorem cores_clearSkews (s : State) (lead : Nat) :
    (State.clearSkews s lead).cores = s.cores := by
  unfold State.clearSkews; simp
@[simp] theorem cores_execPhaseReport (l : Nat) (move : Int) (sub : Nat) (s : State) :
    Keeps s (execPhaseReport l move sub s) := by
  unfold execPhaseReport; simp
@[simp] theorem cores_execTrackerLock (l : Nat) (ppb : Int) (s : State) :
    Keeps s (execTrackerLock l ppb s) := by
  unfold execTrackerLock; simp
@[simp] theorem cores_execTrackerUnlock (l : Nat) (signal : Bool) (s : State) :
    Keeps s (execTrackerUnlock l signal s) := by
  unfold execTrackerUnlock; simp
@[simp] theorem cores_execFreqWindowEnd (l : Nat) (rate : Int) (s : State) :
    Keeps s (execFreqWindowEnd l rate s) := by
  unfold execFreqWindowEnd; refine keeps_onPort ?_; dsimp only; (repeat' split) <;> simp
@[simp] theorem cores_setBlockLock (s : State) (l : Nat) (b : Bool) :
    (State.setBlockLock s l b).cores = s.cores := by
  unfold State.setBlockLock; simp
@[simp] theorem cores_execBlockLockAcquire (h : HeaderSearch) (s : State) :
    Keeps s (execBlockLockAcquire h s) := by
  unfold execBlockLockAcquire; simp
@[simp] theorem cores_alignLost (s : State) (p : Nat) :
    (State.alignLost s p).cores = s.cores := by
  unfold State.alignLost; simp
@[simp] theorem cores_lockLost (s : State) (l : Nat) :
    (State.lockLost s l).cores = s.cores := by
  unfold State.lockLost; simp
@[simp] theorem cores_execBlockLockLoss (h : HeaderCount) (s : State) :
    Keeps s (execBlockLockLoss h s) := by
  unfold execBlockLockLoss; simp
@[simp] theorem cores_execAlignLockChange (p : Nat) (lock : Bool) (skew : Nat) (s : State) :
    Keeps s (execAlignLockChange p lock skew s) := by
  unfold execAlignLockChange; simp
@[simp] theorem cores_execHiBerChange (p : Nat) (hi : Bool) (s : State) :
    Keeps s (execHiBerChange p hi s) := by
  unfold execHiBerChange; simp
@[simp] theorem cores_execFaultOrderedSetReceive (p : Nat) (localFault : Bool) (s : State) :
    Keeps s (execFaultOrderedSetReceive p localFault s) := by
  unfold execFaultOrderedSetReceive; simp
@[simp] theorem cores_execPcsLinkUp (p : Nat) (s : State) :
    Keeps s (execPcsLinkUp p s) := by
  unfold execPcsLinkUp; simp
@[simp] theorem cores_execUncorrectableCodeword (p : Nat) (blocks : Nat) (corrected : Nat) (symbols : Nat) (s : State) :
    Keeps s (execUncorrectableCodeword p blocks corrected symbols s) := by
  unfold execUncorrectableCodeword; simp
@[simp] theorem cores_execPrbsLock (b : PatternBits) (s : State) :
    Keeps s (execPrbsLock b s) := by
  unfold execPrbsLock; simp
@[simp] theorem cores_execPrbsLoss (l : Nat) (x : PatternErrors) (s : State) :
    Keeps s (execPrbsLoss l x s) := by
  unfold execPrbsLoss; simp
@[simp] theorem cores_undoStep (s : State) (l : Nat) :
    (State.undoStep s l).cores = s.cores := by
  unfold State.undoStep; simp
@[simp] theorem cores_snapshot (s : State) (l : Nat) :
    (State.snapshot s l).cores = s.cores := by
  unfold State.snapshot; simp
@[simp] theorem cores_txSleep (s : State) (l : Nat) :
    (State.txSleep s l).cores = s.cores := by
  unfold State.txSleep; simp
@[simp] theorem cores_txWake (s : State) (l : Nat) :
    (State.txWake s l).cores = s.cores := by
  unfold State.txWake; simp
@[simp] theorem cores_sleepFollow (s : State) (l : Nat) :
    (State.sleepFollow s l).cores = s.cores := by
  unfold State.sleepFollow; dsimp only; (repeat' split) <;> simp
@[simp] theorem cores_wrSleep (s : State) (l : Nat) (data : Nat) :
    (State.wrSleep s l data).cores = s.cores := by
  unfold State.wrSleep; simp
@[simp] theorem cores_execLaneSleepRequest (e : Nat) (l : Nat) (idle : BitVec 16) (s : State) :
    Keeps s (execLaneSleepRequest e l idle s) := by
  unfold execLaneSleepRequest; simp
@[simp] theorem cores_execLaneWakeRequest (e : Nat) (l : Nat) (idle : BitVec 16) (s : State) :
    Keeps s (execLaneWakeRequest e l idle s) := by
  unfold execLaneWakeRequest; simp
@[simp] theorem cores_execTxIdleExpire (p : Nat) (s : State) :
    Keeps s (execTxIdleExpire p s) := by
  unfold execTxIdleExpire; simp
@[simp] theorem cores_frameWake (s : State) (p : Nat) :
    (State.frameWake s p).cores = s.cores := by
  unfold State.frameWake; dsimp only; split <;> simp
@[simp] theorem cores_execTxWakeDone (p : Nat) (s : State) :
    Keeps s (execTxWakeDone p s) := by
  unfold execTxWakeDone; simp
@[simp] theorem cores_execRxSleepEnter (l : Nat) (s : State) :
    Keeps s (execRxSleepEnter l s) := by
  unfold execRxSleepEnter; simp
@[simp] theorem cores_execRxWake (l : Nat) (bad : Bool) (s : State) :
    Keeps s (execRxWake l bad s) := by
  unfold execRxWake; simp
@[simp] theorem cores_laneStarted (s : State) (l : Nat) :
    (State.laneStarted s l).cores = s.cores := by
  unfold State.laneStarted; simp
@[simp] theorem cores_endSleep (s : State) (l : Nat) :
    (State.endSleep s l).cores = s.cores := by
  unfold State.endSleep; simp
@[simp] theorem cores_laneStopped (s : State) (l : Nat) :
    (State.laneStopped s l).cores = s.cores := by
  unfold State.laneStopped; simp
@[simp] theorem cores_clearLocks (s : State) (p : Nat) :
    (State.clearLocks s p).cores = s.cores := by
  unfold State.clearLocks; simp
@[simp] theorem cores_pcsStarted (s : State) (p : Nat) :
    (State.pcsStarted s p).cores = s.cores := by
  unfold State.pcsStarted; simp
@[simp] theorem cores_pcsStopping (s : State) (p : Nat) (lanes : List Nat) :
    (State.pcsStopping s p lanes).cores = s.cores := by
  unfold State.pcsStopping; simp

/-! ## Machine/Gate.lean -/

@[simp] theorem cores_gateShow (s : State) (p : Nat) :
    (State.gateShow s p).1.cores = s.cores := by
  unfold State.gateShow; (repeat' split) <;> simp
@[simp] theorem cores_gateSync (s : State) (p : Nat) :
    (State.gateSync s p).cores = s.cores := by
  unfold State.gateSync; dsimp only; split <;> simp
@[simp] theorem cores_execGateEntryStart (p : Nat) (s : State) :
    Keeps s (execGateEntryStart p s) := by
  unfold execGateEntryStart; simp
@[simp] theorem cores_gateReplace (s : State) (p : Nat) :
    (State.gateReplace s p).cores = s.cores := by
  unfold State.gateReplace; simp
@[simp] theorem cores_gateStarted (s : State) (p : Nat) :
    (State.gateStarted s p).cores = s.cores := by
  unfold State.gateStarted; simp
@[simp] theorem cores_gateStopped (s : State) (p : Nat) :
    (State.gateStopped s p).cores = s.cores := by
  unfold State.gateStopped; simp

/-! ## Machine/Ridge.lean -/

@[simp] theorem cores_mirror (s : State) (f : Fld) (d : Nat) (v : Nat) :
    (State.mirror s f d v).cores = s.cores := by
  unfold State.mirror; simp
@[simp] theorem cores_setScale (s : State) (d : Nat) (offset : Nat) (base : Nat) (rate : Nat) :
    (State.setScale s d offset base rate).cores = s.cores := by
  unfold State.setScale; simp
@[simp] theorem cores_setValid (s : State) (d : Nat) (b : Bool) :
    (State.setValid s d b).cores = s.cores := by
  unfold State.setValid; simp
@[simp] theorem cores_markLine (s : State) (d : Nat) (line : Nat) :
    (State.markLine s d line).cores = s.cores := by
  unfold State.markLine; simp
@[simp] theorem cores_markMs (s : State) (d : Nat) :
    (State.markMs s d).cores = s.cores := by
  unfold State.markMs; simp
@[simp] theorem cores_markSec (s : State) (d : Nat) :
    (State.markSec s d).cores = s.cores := by
  unfold State.markSec; simp
@[simp] theorem cores_execMillisecondBoundary (d : Nat) (s : State) :
    Keeps s (execMillisecondBoundary d s) := by
  unfold execMillisecondBoundary; simp
@[simp] theorem cores_execSecondBoundary (d : Nat) (s : State) :
    Keeps s (execSecondBoundary d s) := by
  unfold execSecondBoundary; simp
@[simp] theorem cores_changeSeen (s : State) (d : Nat) (A : Nat) (old : Nat) :
    (State.changeSeen s d A old).cores = s.cores := by
  unfold State.changeSeen
  have gates (u : State) :
      ((List.range 24).foldl (fun s i => s.gateReplace (24 * d + i)) u).cores = u.cores :=
    cores_foldl _ _ (fun u _ => cores_gateReplace u _) u
  dsimp only
  split <;> simp only [cores_refreshTg, cores_markSec, cores_markMs, cores_gnssApplied, cores_linkShift, gates, cores_fieldReplace,
    cores_evApplied, cores_raise, cores_wf]
@[simp] theorem cores_follow (s : State) (d : Nat) (A : Nat) (a : AlignState) :
    (State.follow s d A a).cores = s.cores := by
  unfold State.follow; simp
@[simp] theorem cores_announce (s : State) (d : Nat) (A : Nat) :
    (State.announce s d A).cores = s.cores := by
  unfold State.announce; simp
@[simp] theorem cores_refreshPend (s : State) (d : Nat) :
    (State.refreshPend s d).cores = s.cores := by
  unfold State.refreshPend; simp
@[simp] theorem cores_withdraw (s : State) (A : Nat) :
    (State.withdraw s A).cores = s.cores := by
  unfold State.withdraw; simp
@[simp] theorem cores_wrRate (s : State) (by_ : Option Nat) (d : Nat) (data : Nat) :
    (State.wrRate s by_ d data).cores = s.cores := by
  unfold State.wrRate; simp
@[simp] theorem cores_stepRefused (s : State) (d : Nat) (code : Nat) :
    (State.stepRefused s d code).cores = s.cores := by
  unfold State.stepRefused; simp
@[simp] theorem cores_wrStep (s : State) (d : Nat) (data : Nat) :
    (State.wrStep s d data).cores = s.cores := by
  unfold State.wrStep; simp
@[simp] theorem cores_execRateWrite (e : Nat) (d : Nat) (data : Word) (s : State) :
    Keeps s (execRateWrite e d data s) := by
  unfold execRateWrite; simp
@[simp] theorem cores_execStepWrite (e : Nat) (d : Nat) (data : Word) (s : State) :
    Keeps s (execStepWrite e d data s) := by
  unfold execStepWrite; simp
@[simp] theorem cores_rebaseAt (s : State) (d : Nat) (A : Nat) (rate : Nat) :
    (State.rebaseAt s d A rate).cores = s.cores := by
  unfold State.rebaseAt; simp
@[simp] theorem cores_stepAt (s : State) (d : Nat) (A : Nat) (others : Bool) (x : Int) :
    (State.stepAt s d A others x).1.cores = s.cores := by
  unfold State.stepAt; simp
@[simp] theorem cores_startReply (s : State) (by_ : List Nat) (die : Nat) (blk : Nat) (inst : Nat) (code : Nat) :
    (State.startReply s by_ die blk inst code).cores = s.cores := by
  unfold State.startReply; simp
@[simp] theorem cores_startAt (s : State) (d : Nat) (_A : Nat) (p : PendStart) :
    (State.startAt s d _A p).cores = s.cores := by
  unfold State.startAt; simp
@[simp] theorem cores_stepsAt (s : State) (d A : Nat) (others : Bool) (l : List Int) :
    (s.stepsAt d A others l).1.cores = s.cores := by
  induction l generalizing s others with
  | nil => rfl
  | cons x r ih => unfold State.stepsAt; simp [ih]
@[simp] theorem cores_applyOwn (s : State) (d : Nat) (A : Nat) :
    (State.applyOwn s d A).1.cores = s.cores := by unfold State.applyOwn; (try dsimp only); (repeat' split) <;> (try split) <;> simp
@[simp] theorem cores_applyOther (s : State) (d : Nat) (A : Nat) (a : AlignState) :
    (State.applyOther s d A a).cores = s.cores := by
  unfold State.applyOther; simp
@[simp] theorem cores_changeApply (s : State) (d : Nat) (A : Nat) :
    (State.changeApply s d A).cores = s.cores := by
  unfold State.changeApply; simp
@[simp] theorem cores_execChangeApply (d : Nat) (s : State) :
    Keeps s (execChangeApply d s) := by
  unfold execChangeApply; refine keeps_onDie ?_; (repeat' split) <;> simp
@[simp] theorem cores_execAlignMessageArrive (d : Nat) (skew : Int) (s : State) :
    Keeps s (execAlignMessageArrive d skew s) := by
  unfold execAlignMessageArrive; refine keeps_onDie ?_; (repeat' split) <;> simp
@[simp] theorem cores_execSkewStale (d : Nat) (s : State) :
    Keeps s (execSkewStale d s) := by
  unfold execSkewStale; simp
@[simp] theorem cores_execDeltaMeasureBegin (d : Nat) (s : State) :
    Keeps s (execDeltaMeasureBegin d s) := by
  unfold execDeltaMeasureBegin; simp
@[simp] theorem cores_execDeltaMeasureEnd (d : Nat) (delta : Int) (s : State) :
    Keeps s (execDeltaMeasureEnd d delta s) := by
  unfold execDeltaMeasureEnd; simp
@[simp] theorem cores_execReplicaCheck (d : Nat) (bad : Bool) (s : State) :
    Keeps s (execReplicaCheck d bad s) := by
  unfold execReplicaCheck; simp
@[simp] theorem cores_ridgePend (s : State) (d : Nat) (by_ : List Nat) :
    (State.ridgePend s d by_).cores = s.cores := by
  unfold State.ridgePend; simp
@[simp] theorem cores_takeRate (s : State) (d : Nat) :
    (State.takeRate s d).cores = s.cores := by
  unfold State.takeRate; (repeat' split) <;> simp
@[simp] theorem cores_ridgeCancel (s : State) (d : Nat) :
    (State.ridgeCancel s d).cores = s.cores := by
  unfold State.ridgeCancel; (repeat' split) <;> simp
@[simp] theorem cores_ridgeStarted (s : State) (d : Nat) :
    (State.ridgeStarted s d).cores = s.cores := by
  unfold State.ridgeStarted; dsimp only; (repeat' split) <;> simp
@[simp] theorem cores_ridgeStopped (s : State) (d : Nat) :
    (State.ridgeStopped s d).cores = s.cores := by
  unfold State.ridgeStopped; simp

end Sys2Proof.Machine
end

