-- ==== Sys2Proof/Laws/CoresPlane.lean ====
section
/-!
SUPPORT. What leaves engines' programs alone, by definition: tables, frames, redundancy, timestamps, mirroring, switching and queues.
-/
namespace Sys2Proof.Machine

/-! ## Machine/L2.lean -/

theorem cores_withOrder (u : State) (x : L2Order) : State.cores { u with l2Order := x } = u.cores := rfl

@[simp] theorem cores_setL2 (s : State) (d : Nat) (x : L2State) :
    (State.setL2 s d x).cores = s.cores := by
  unfold State.setL2; simp
@[simp] theorem cores_l2SetBank (s : State) (d : Nat) (b : L2Bank) :
    (State.l2SetBank s d b).cores = s.cores := by
  unfold State.l2SetBank; simp
@[simp] theorem cores_l2Fail (s : State) (d : Nat) (key : Nat) :
    (State.l2Fail s d key).cores = s.cores := by
  unfold State.l2Fail; simp
@[simp] theorem cores_l2Write (s : State) (d : Nat) (key : Nat) (word : Nat) :
    (State.l2Write s d key word).1.cores = s.cores := by
  unfold State.l2Write; dsimp only; (repeat' split) <;> simp
@[simp] theorem cores_l2Learn (s : State) (d : Nat) (seq : Nat) (key : Nat) (port : Nat) :
    (State.l2Learn s d seq key port).cores = s.cores := by
  unfold State.l2Learn; simp
@[simp] theorem cores_l2Age (s : State) (d : Nat) (lo : Nat) (hi : Nat) :
    (State.l2Age s d lo hi).cores = s.cores := by
  unfold State.l2Age; simp
@[simp] theorem cores_l2Flush (s : State) (d : Nat) (port : Nat) (all : Bool) (lo : Nat) (hi : Nat) :
    (State.l2Flush s d port all lo hi).cores = s.cores := by
  unfold State.l2Flush; simp
@[simp] theorem cores_l2Status (s : State) :
    (State.l2Status s).cores = s.cores := by
  unfold State.l2Status; simp
@[simp] theorem cores_l2Notice (s : State) (d : Nat) :
    (State.l2Notice s d).cores = s.cores := by
  unfold State.l2Notice; simp
@[simp] theorem cores_l2Miss (s : State) (d : Nat) :
    (State.l2Miss s d).cores = s.cores := by
  unfold State.l2Miss; simp
@[simp] theorem cores_l2Broadcast (s : State) (seq : Nat) (c : L2Change) :
    (State.l2Broadcast s seq c).cores = s.cores := by
  unfold State.l2Broadcast; simp
@[simp] theorem cores_callAnswer (s : State) (c : Option (Nat × Nat)) (v : Nat) (block : List Byte) :
    (State.callAnswer s c v block).cores = s.cores := by
  unfold State.callAnswer
  dsimp only
  split
  · split
    · split
      · exact (cores_tagTarget _ _ _ _).trans (cores_setEng rfl)
      · rfl
    · rfl
  · rfl
@[simp] theorem cores_flushAnswer (s : State) (c : Option (Nat × Nat)) (v : Nat) :
    (State.flushAnswer s c v).cores = s.cores := by
  unfold State.flushAnswer; simp
@[simp] theorem cores_l2Number (s : State) (h : L2Held) :
    (State.l2Number s h).cores = s.cores := by
  unfold State.l2Number; (repeat' split) <;> simp
@[simp] theorem cores_learnDrop (s : State) (d : Nat) (key : Nat) :
    (State.learnDrop s d key).cores = s.cores := by
  unfold State.learnDrop; simp
@[simp] theorem cores_l2Turn (s : State) (h : L2Held) :
    (State.l2Turn s h).cores = s.cores := by
  unfold State.l2Turn; (repeat' split) <;> simp
@[simp] theorem cores_l2Offer (s : State) (h : L2Held) :
    (State.l2Offer s h).cores = s.cores := by
  unfold State.l2Offer; (repeat' split) <;> simp
@[simp] theorem cores_l2Serve (s : State) :
    (State.l2Serve s).cores = s.cores := by
  unfold State.l2Serve
  dsimp only
  rw [cores_foldl _ _ (fun s x => by split <;> simp)]
  simp
@[simp] theorem cores_l2SnapAt (s : State) (seq : Nat) :
    (State.l2SnapAt s seq).cores = s.cores := by
  unfold State.l2SnapAt; simp
@[simp] theorem cores_l2Applied (s : State) (d : Nat) (seq : Nat) :
    (State.l2Applied s d seq).cores = s.cores := by
  unfold State.l2Applied; simp
@[simp] theorem cores_l2Rehash (s : State) (d : Nat) (seeds : Nat × Nat) :
    (State.l2Rehash s d seeds).cores = s.cores := by
  unfold State.l2Rehash; dsimp only; (repeat' split) <;> simp
@[simp] theorem cores_l2Switch (s : State) (d : Nat) :
    (State.l2Switch s d).cores = s.cores := by
  unfold State.l2Switch; simp
@[simp] theorem cores_l2Upd (s : State) (d seq : Nat) (c : L2Change) : (s.l2Upd d seq c).1.cores = s.cores := by
  unfold State.l2Upd; cases c <;> dsimp only <;> (repeat' split) <;> simp
@[simp] theorem cores_l2Whole (s : State) (d : Nat) (seq : Nat) (c : L2Change) :
    (State.l2Whole s d seq c).cores = s.cores := by cases c <;> simp [State.l2Whole]
@[simp] theorem cores_execOrderPointArrive (src : Nat) (s : State) :
    Keeps s (execOrderPointArrive src s) := by
  unfold execOrderPointArrive; refine keeps_onDie ?_; (repeat' split) <;> simp
@[simp] theorem cores_execAgePeriodExpire (s : State) :
    Keeps s (execAgePeriodExpire s) := by
  unfold execAgePeriodExpire
  extract_lets p _ s1
  have h1 : s1.cores = s.cores := rfl
  clear_value s1
  split
  · (repeat' split) <;> simp [h1]
  · simp
@[simp] theorem cores_wrAge (s : State) (data : Nat) :
    (State.wrAge s data).cores = s.cores := by
  unfold State.wrAge; simp
@[simp] theorem cores_execL2ChangeArrive (d : Nat) (s : State) :
    Keeps s (execL2ChangeArrive d s) := by
  unfold execL2ChangeArrive; refine keeps_onDie ?_; dsimp only; (repeat' split) <;> simp
@[simp] theorem cores_execApplyLearn (d : Nat) (s : State) :
    Keeps s (execApplyLearn d s) := by
  unfold execApplyLearn; refine keeps_onDie ?_; (repeat' split) <;> simp
@[simp] theorem cores_l2Scan (s : State) (d : Nat) (upTo : Nat) (mine : L2Change → Bool) :
    (State.l2Scan s d upTo mine).cores = s.cores := by
  unfold State.l2Scan; dsimp only; (repeat' split) <;> simp
@[simp] theorem cores_execApplyAge (d : Nat) (upTo : Nat) (s : State) :
    Keeps s (execApplyAge d upTo s) := by
  unfold execApplyAge; simp
@[simp] theorem cores_execApplyFlush (d : Nat) (upTo : Nat) (s : State) :
    Keeps s (execApplyFlush d upTo s) := by
  unfold execApplyFlush; simp
@[simp] theorem cores_execTableScanEnd (d : Nat) (s : State) :
    Keeps s (execTableScanEnd d s) := by
  unfold execTableScanEnd; refine keeps_onDie ?_; (repeat' split) <;> simp
@[simp] theorem cores_updDone (s : State) (st : Nat) :
    (State.updDone s st).cores = s.cores := by
  unfold State.updDone; simp
@[simp] theorem cores_wrUpdCmd (s : State) (data : Nat) :
    (State.wrUpdCmd s data).cores = s.cores := by
  unfold State.wrUpdCmd; simp
@[simp] theorem cores_execL2UpdWrite (e : Nat) (s : State) :
    Keeps s (execL2UpdWrite e s) := by
  unfold execL2UpdWrite; simp
@[simp] theorem cores_execL2UpdDelete (e : Nat) (s : State) :
    Keeps s (execL2UpdDelete e s) := by
  unfold execL2UpdDelete; simp
@[simp] theorem cores_execApplyUpd (d : Nat) (s : State) :
    Keeps s (execApplyUpd d s) := by
  unfold execApplyUpd; refine keeps_onDie ?_; (repeat' split) <;> simp
@[simp] theorem cores_wrRehash (s : State) (data : Nat) :
    (State.wrRehash s data).cores = s.cores := by
  unfold State.wrRehash; simp
@[simp] theorem cores_execRehashGo (e : Nat) (s : State) :
    Keeps s (execRehashGo e s) := by
  unfold execRehashGo; simp
@[simp] theorem cores_execApplyRehash (d : Nat) (s : State) :
    Keeps s (execApplyRehash d s) := by
  unfold execApplyRehash; refine keeps_onDie ?_; (repeat' split) <;> simp
@[simp] theorem cores_rehashEnds (s : State) (failed : Bool) :
    (State.rehashEnds s failed).cores = s.cores := by
  unfold State.rehashEnds; simp
@[simp] theorem cores_execRehashResult (s : State) :
    Keeps s (execRehashResult s) := by
  unfold execRehashResult; (repeat' split) <;> simp
@[simp] theorem cores_l2SwitchApply (s : State) (d : Nat) :
    (State.l2SwitchApply s d).cores = s.cores := by
  unfold State.l2SwitchApply; (repeat' split) <;> simp
@[simp] theorem cores_l2CopyBegin (s : State) (d : Nat) :
    (State.l2CopyBegin s d).cores = s.cores := by
  unfold State.l2CopyBegin; simp
@[simp] theorem cores_execL2ResyncStart (d : Nat) (s : State) :
    Keeps s (execL2ResyncStart d s) := by
  unfold execL2ResyncStart; simp
@[simp] theorem cores_l2Abandon (s : State) (d : Nat) :
    (State.l2Abandon s d).cores = s.cores := by
  unfold State.l2Abandon; simp
@[simp] theorem cores_l2Copy (s : State) (d : Nat) (base : Nat) (z : L2Snap) :
    (State.l2Copy s d base z).cores = s.cores := by
  unfold State.l2Copy; simp
@[simp] theorem cores_l2Drain (s : State) (d : Nat) (l : List (Nat × L2Change)) : (s.l2Drain d l).cores = s.cores := by
  induction l generalizing s with
  | nil => simp [State.l2Drain]
  | cons x r ih =>
    obtain ⟨seq, c⟩ := x
    unfold State.l2Drain
    dsimp only
    split <;> simp [ih]
@[simp] theorem cores_l2CopyEnd (s : State) (d : Nat) :
    (State.l2CopyEnd s d).cores = s.cores := by
  unfold State.l2CopyEnd; simp
@[simp] theorem cores_execL2ResyncEnd (d : Nat) (s : State) :
    Keeps s (execL2ResyncEnd d s) := by
  unfold execL2ResyncEnd; refine keeps_onDie ?_; dsimp only; (repeat' split) <;> simp
@[simp] theorem cores_l2Judge (s : State) (d : Nat) (epoch : Nat) (key : Nat) (port : Nat) :
    (State.l2Judge s d epoch key port).cores = s.cores := by
  unfold State.l2Judge; simp
@[simp] theorem cores_l2Started (s : State) (d : Nat) :
    (State.l2Started s d).cores = s.cores := by
  unfold State.l2Started; simp
@[simp] theorem cores_l2Stopped (s : State) (d : Nat) :
    (State.l2Stopped s d).cores = s.cores := by
  unfold State.l2Stopped; simp
@[simp] theorem cores_l2ScanCut (s : State) (d : Nat) :
    (State.l2ScanCut s d).cores = s.cores := by
  unfold State.l2ScanCut; simp

/-! ## Machine/Tables.lean -/

@[simp] theorem keeps_onTbl {d blk : Nat} {s : State} {f : State → State} (h : (f s).cores = s.cores) :
    Keeps s (onTbl d blk s f) := by unfold onTbl; simp [h]

@[simp] theorem cores_setTbl (s : State) (d : Nat) (blk : Nat) (x : TblState) :
    (State.setTbl s d blk x).cores = s.cores := by
  unfold State.setTbl; simp
@[simp] theorem cores_setTblOrder (s : State) (blk : Nat) (x : TblOrder) :
    (State.setTblOrder s blk x).cores = s.cores := by
  unfold State.setTblOrder; simp
@[simp] theorem cores_tblShow (s : State) (d : Nat) (blk : Nat) :
    (State.tblShow s d blk).cores = s.cores := by
  unfold State.tblShow; simp
@[simp] theorem cores_setTstate (s : State) (d : Nat) (blk : Nat) (v : Nat) :
    (State.setTstate s d blk v).cores = s.cores := by
  unfold State.setTstate; simp
@[simp] theorem cores_tblRespond (s : State) (d : Nat) (blk : Nat) (status : Nat) (seq : Nat) :
    (State.tblRespond s d blk status seq).cores = s.cores := by
  unfold State.tblRespond; simp
@[simp] theorem cores_tblRefuse (s : State) (d : Nat) (blk : Nat) (status : Nat) :
    (State.tblRefuse s d blk status).cores = s.cores := by
  unfold State.tblRefuse; simp
@[simp] theorem cores_tblGo (s : State) (d : Nat) (blk : Nat) (by_ : Option (Nat × Nat)) :
    (State.tblGo s d blk by_).cores = s.cores := by
  unfold State.tblGo; simp
@[simp] theorem cores_wrTblCmd (s : State) (d : Nat) (blk : Nat) (data : Nat) :
    (State.wrTblCmd s d blk data).cores = s.cores := by
  unfold State.wrTblCmd; simp
@[simp] theorem cores_execTableCmdGo (e : Nat) (d : Nat) (blk : Nat) (s : State) :
    Keeps s (execTableCmdGo e d blk s) := by
  unfold execTableCmdGo; simp
@[simp] theorem cores_tblPost (s : State) (blk : Nat) (seq : Nat) (c : TblOp) (step : TblStep) (ds : List Nat) :
    (State.tblPost s blk seq c step ds).cores = s.cores := by
  unfold State.tblPost; simp
@[simp] theorem cores_tblBegin (s : State) (d : Nat) (blk : Nat) (op : Nat) (step : TblStep) :
    (State.tblBegin s d blk op step).cores = s.cores := by
  unfold State.tblBegin; simp
@[simp] theorem cores_execInsert (d : Nat) (blk : Nat) (s : State) :
    Keeps s (execInsert d blk s) := by
  unfold execInsert; simp
@[simp] theorem cores_execDelete (d : Nat) (blk : Nat) (s : State) :
    Keeps s (execDelete d blk s) := by
  unfold execDelete; simp
@[simp] theorem cores_execRebuildBegin (d : Nat) (blk : Nat) (s : State) :
    Keeps s (execRebuildBegin d blk s) := by
  unfold execRebuildBegin; simp
@[simp] theorem cores_execShadowInsert (d : Nat) (blk : Nat) (s : State) :
    Keeps s (execShadowInsert d blk s) := by
  unfold execShadowInsert; simp
@[simp] theorem cores_execShadowDelete (d : Nat) (blk : Nat) (s : State) :
    Keeps s (execShadowDelete d blk s) := by
  unfold execShadowDelete; simp
@[simp] theorem cores_execCommit (d : Nat) (blk : Nat) (s : State) :
    Keeps s (execCommit d blk s) := by
  unfold execCommit; simp
@[simp] theorem cores_execAbort (d : Nat) (blk : Nat) (s : State) :
    Keeps s (execAbort d blk s) := by
  unfold execAbort; refine keeps_onTbl ?_; dsimp only; (repeat' split) <;> simp
@[simp] theorem cores_execRead (d : Nat) (blk : Nat) (s : State) :
    Keeps s (execRead d blk s) := by
  unfold execRead; simp
@[simp] theorem cores_tblApply (s : State) (d : Nat) (blk : Nat) (c : TblOp) :
    (State.tblApply s d blk c).cores = s.cores := by
  unfold State.tblApply; (repeat' split) <;> simp
@[simp] theorem cores_execTableReplicaWrite (d : Nat) (blk : Nat) (s : State) :
    Keeps s (execTableReplicaWrite d blk s) := by
  unfold execTableReplicaWrite; refine keeps_onTbl ?_; (repeat' split) <;> simp
@[simp] theorem cores_tblFinish (s : State) (blk : Nat) (j : TblJob) :
    (State.tblFinish s blk j).cores = s.cores := by
  unfold State.tblFinish; simp
@[simp] theorem cores_execTableAcksComplete (blk : Nat) (s : State) :
    Keeps s (execTableAcksComplete blk s) := by
  unfold execTableAcksComplete; (repeat' split) <;> simp
@[simp] theorem cores_tblSwitchApply (s : State) (d : Nat) (blk : Nat) :
    (State.tblSwitchApply s d blk).cores = s.cores := by
  unfold State.tblSwitchApply; (repeat' split) <;> simp
@[simp] theorem cores_execTableSwitchApply (d : Nat) (blk : Nat) (s : State) :
    Keeps s (execTableSwitchApply d blk s) := by
  unfold execTableSwitchApply; simp
@[simp] theorem cores_execBankDrainEnd (d : Nat) (blk : Nat) (s : State) :
    Keeps s (execBankDrainEnd d blk s) := by
  unfold execBankDrainEnd
  split
  · refine keeps_onInst ?_
    dsimp only
    (repeat' split) <;> simp
  · refine keeps_onTbl ?_
    dsimp only
    (repeat' split) <;> simp
@[simp] theorem cores_tblSync (s : State) (d : Nat) (blk : Nat) :
    (State.tblSync s d blk).cores = s.cores := by
  unfold State.tblSync; simp
@[simp] theorem cores_execTableSyncEnd (blk : Nat) (s : State) :
    Keeps s (execTableSyncEnd blk s) := by
  unfold execTableSyncEnd; simp
@[simp] theorem cores_tblNotice (s : State) (d : Nat) (blk : Nat) :
    (State.tblNotice s d blk).cores = s.cores := by
  unfold State.tblNotice; simp
@[simp] theorem cores_execTableResyncStart (d : Nat) (blk : Nat) (s : State) :
    Keeps s (execTableResyncStart d blk s) := by
  unfold execTableResyncStart; simp
@[simp] theorem cores_tblAbandon (s : State) (d : Nat) (blk : Nat) :
    (State.tblAbandon s d blk).cores = s.cores := by
  unfold State.tblAbandon; simp
@[simp] theorem cores_execTableResyncEnd (d : Nat) (blk : Nat) (s : State) :
    Keeps s (execTableResyncEnd d blk s) := by
  unfold execTableResyncEnd; simp
@[simp] theorem cores_tblMiss (s : State) (d : Nat) (blk : Nat) :
    (State.tblMiss s d blk).cores = s.cores := by
  unfold State.tblMiss; simp
@[simp] theorem cores_tblForced (s : State) (d : Nat) (blk : Nat) :
    (State.tblForced s d blk).cores = s.cores := by
  unfold State.tblForced; simp
@[simp] theorem cores_tblCut (s : State) (d : Nat) (blk : Nat) :
    (State.tblCut s d blk).cores = s.cores := by
  unfold State.tblCut; simp
@[simp] theorem cores_tblStarted (s : State) (d : Nat) (blk : Nat) :
    (State.tblStarted s d blk).cores = s.cores := by
  unfold State.tblStarted; simp
@[simp] theorem cores_tblStopped (s : State) (d : Nat) (blk : Nat) :
    (State.tblStopped s d blk).cores = s.cores := by
  unfold State.tblStopped; simp

/-! ## Machine/Frame.lean -/

@[simp] theorem cores_carryFcs (s : State) (old : List Byte) (body : List Byte) (moved : Bool) :
    (State.carryFcs s old body moved).2.cores = s.cores := by
  unfold State.carryFcs; simp

/-! ## Machine/Lookup.lean -/

@[simp] theorem cores_portCount (s : State) (p : Nat) (k : Nat) (n : Nat) :
    (State.portCount s p k n).cores = s.cores := by
  unfold State.portCount; simp
@[simp] theorem cores_forward (s : State) (d : Nat) (ingress : Option Nat) (vlan : Nat) (l : List Byte) (spare : Bool) :
    (State.forward s d ingress vlan l spare).1.cores = s.cores := by
  unfold State.forward; dsimp only; (repeat' split) <;> simp
@[simp] theorem cores_dieCount (s : State) (d : Nat) (k : Nat) (n : Nat) :
    (State.dieCount s d k n).cores = s.cores := by
  unfold State.dieCount; simp
@[simp] theorem cores_settle (s : State) (d : Nat) (part : Nat) (count : Option Nat) (ingress : List Nat) (f : Fate) :
    (State.settle s d part count ingress f).1.cores = s.cores := by
  unfold State.settle; (repeat' split) <;> simp

/-! ## Machine/Prp.lean -/

@[simp] theorem cores_prpShow (s : State) (d : Nat) :
    (State.prpShow s d).cores = s.cores := by
  unfold State.prpShow; simp
@[simp] theorem cores_setPrp (s : State) (d : Nat) (l : List PrpEntry) :
    (State.setPrp s d l).cores = s.cores := by
  unfold State.setPrp; simp
@[simp] theorem cores_prpPut (s : State) (d : Nat) (e : PrpEntry) :
    (State.prpPut s d e).cores = s.cores := by
  unfold State.prpPut; simp
@[simp] theorem cores_prpFull (s : State) (d : Nat) (i : Nat) :
    (State.prpFull s d i).cores = s.cores := by
  unfold State.prpFull; simp
@[simp] theorem cores_prpProxy (s : State) (d : Nat) (i : Nat) (src : Nat) :
    (State.prpProxy s d i src).cores = s.cores := by
  unfold State.prpProxy; (repeat' split) <;> simp
@[simp] theorem cores_prpDeliver (s : State) (d : Nat) (i : Nat) (src : Nat) (seq : Nat) :
    (State.prpDeliver s d i src seq).1.cores = s.cores := by
  unfold State.prpDeliver; dsimp only; (repeat' split) <;> simp
@[simp] theorem cores_prpRing (s : State) (d : Nat) (i : Nat) (src : Nat) (seq : Nat) (onB : Bool) :
    (State.prpRing s d i src seq onB).1.cores = s.cores := by
  unfold State.prpRing; (repeat' split) <;> simp
@[simp] theorem cores_prpTagged (s : State) (d : Nat) (i : Nat) (onB : Bool) :
    (State.prpTagged s d i onB).cores = s.cores := by
  unfold State.prpTagged; simp
@[simp] theorem cores_prpUntagged (s : State) (d : Nat) (i : Nat) (onB : Bool) :
    (State.prpUntagged s d i onB).cores = s.cores := by
  unfold State.prpUntagged; simp
@[simp] theorem cores_prpReceive (s : State) (d : Nat) (i : Nat) (onB : Bool) (l : List Byte) :
    (State.prpReceive s d i onB l).1.cores = s.cores := by
  unfold State.prpReceive; (repeat' split) <;> simp
@[simp] theorem cores_hsrReceive (s : State) (d : Nat) (i : Nat) (onB : Bool) (l : List Byte) :
    (State.hsrReceive s d i onB l).1.cores = s.cores := by
  unfold State.hsrReceive; (repeat' split) <;> simp
@[simp] theorem cores_prpNumber (s : State) (d : Nat) (i : Nat) :
    (State.prpNumber s d i).2.cores = s.cores := by
  unfold State.prpNumber; simp
@[simp] theorem cores_prpStopped (s : State) (d : Nat) (i : Nat) :
    (State.prpStopped s d i).cores = s.cores := by
  unfold State.prpStopped; simp
@[simp] theorem cores_execPrpForget (d : Nat) (i : Nat) (src : Nat) (s : State) :
    Keeps s (execPrpForget d i src s) := by
  unfold execPrpForget; refine keeps_onInst ?_; (repeat' split) <;> simp
@[simp] theorem cores_execLanOkExpire (d : Nat) (i : Nat) (onB : Bool) (s : State) :
    Keeps s (execLanOkExpire d i onB s) := by
  unfold execLanOkExpire; simp

/-! ## Machine/Tsu.lean -/

@[simp] theorem cores_tsqShow (s : State) (p : Nat) :
    (State.tsqShow s p).cores = s.cores := by
  unfold State.tsqShow; simp
@[simp] theorem cores_tsPush (s : State) (p : Nat) (id : Nat) (time : XT) (tg : Bool) (dropped : Bool) :
    (State.tsPush s p id time tg dropped).cores = s.cores := by
  unfold State.tsPush; simp
@[simp] theorem cores_tsDrop (s : State) (p : Nat) (m : FrameMeta) :
    (State.tsDrop s p m).cores = s.cores := by
  unfold State.tsDrop; (repeat' split) <;> simp
@[simp] theorem cores_tsTake (s : State) (p : Nat) :
    (State.tsTake s p).1.cores = s.cores := by
  unfold State.tsTake; dsimp only; (repeat' split) <;> simp
@[simp] theorem cores_execTxqMetaRead (e : Nat) (p : Nat) (s : State) :
    Keeps s (execTxqMetaRead e p s) := by
  unfold execTxqMetaRead; simp
@[simp] theorem cores_tsuStopping (s : State) (p : Nat) :
    (State.tsuStopping s p).cores = s.cores := by
  unfold State.tsuStopping; simp
@[simp] theorem cores_correct (s : State) (p : Nat) (m : FrameMeta) (l : List Byte) (egress : Option XT) (tg : Bool) :
    (State.correct s p m l egress tg).1.cores = s.cores := by
  unfold State.correct; (repeat' split) <;> simp

/-! ## Machine/Mirr.lean -/

@[simp] theorem cores_ringDrop (s : State) (h : Nat) (k : Nat) :
    (State.ringDrop s h k).cores = s.cores := by
  unfold State.ringDrop; simp
@[simp] theorem cores_ringOffer (s : State) (h : Nat) (k : Nat) (f : RxFrame) :
    (State.ringOffer s h k f).cores = s.cores := by
  unfold State.ringOffer; simp
@[simp] theorem cores_mirrLost (s : State) (d : Nat) (n : Nat) :
    (State.mirrLost s d n).cores = s.cores := by
  unfold State.mirrLost; simp
@[simp] theorem cores_setMirr (s : State) (d : Nat) (m : MirrState) :
    (State.setMirr s d m).cores = s.cores := by
  unfold State.setMirr; simp
@[simp] theorem cores_mirrStore (s : State) (d : Nat) (r : List Byte) :
    (State.mirrStore s d r).cores = s.cores := by
  unfold State.mirrStore; simp
@[simp] theorem cores_mirrTry (s : State) (d : Nat) (lp : Nat) (why : MirrReason) (i : MirrInfo) :
    (State.mirrTry s d lp why i).cores = s.cores := by
  unfold State.mirrTry; simp
@[simp] theorem cores_mirrIn (s : State) (m : FrameMeta) :
    (State.mirrIn s m).2.cores = s.cores := by
  unfold State.mirrIn; (repeat' split) <;> simp
@[simp] theorem cores_mirrDrop (s : State) (p : Nat) (q : Nat) (m : FrameMeta) (why : MirrReason) (cut : Bool) (bad : Bool) (l : List Byte) :
    (State.mirrDrop s p q m why cut bad l).cores = s.cores := by
  unfold State.mirrDrop; simp
@[simp] theorem cores_mirrRx (s : State) (p : Nat) (r : RxFrameCur) (bad : Bool) :
    (State.mirrRx s p r bad).cores = s.cores := by
  unfold State.mirrRx; simp
@[simp] theorem cores_mirrTx (s : State) (p : Nat) (t : TxCur) (bad : Bool) (l : List Byte) :
    (State.mirrTx s p t bad l).cores = s.cores := by
  unfold State.mirrTx; simp
@[simp] theorem cores_mirrTake (s : State) (d : Nat) :
    (State.mirrTake s d).1.cores = s.cores := by
  unfold State.mirrTake; dsimp only; (repeat' split) <;> simp
@[simp] theorem cores_execMirrRecHeadRead (e : Nat) (d : Nat) (s : State) :
    Keeps s (execMirrRecHeadRead e d s) := by
  unfold execMirrRecHeadRead; simp

/-! ## Machine/Switch.lean -/

@[simp] theorem cores_tagTell (s : State) (d : Nat) (m : FrameMeta) (stage : Nat) (u : TagItem) (done : Bool) (dropped : Bool) :
    (State.tagTell s d m stage u done dropped).cores = s.cores := by
  unfold State.tagTell; (repeat' split) <;> simp
@[simp] theorem cores_tagCandidate (s : State) (p : Nat) (tg : Bool) :
    (State.tagCandidate s p tg).1.cores = s.cores := by
  unfold State.tagCandidate; simp
@[simp] theorem cores_setFifo (s : State) (d : Nat) (i : Nat) (l : List StgCell) :
    (State.setFifo s d i l).cores = s.cores := by
  unfold State.setFifo; simp
@[simp] theorem cores_stgDrop (s : State) (d : Nat) (dies : List Nat) :
    (State.stgDrop s d dies).cores = s.cores := by
  unfold State.stgDrop; simp
@[simp] theorem cores_frameLost (s : State) (d : Nat) (m : FrameMeta) :
    (State.frameLost s d m).cores = s.cores := by
  unfold State.frameLost; simp
@[simp] theorem cores_stage (s : State) (d : Nat) (i : Nat) (r : RxFrameCur) (last : Bool) (bad : Bool) :
    (State.stage s d i r last bad).1.cores = s.cores := by
  unfold State.stage; simp
@[simp] theorem cores_rxBegin (s : State) (p : Nat) (m : FrameMeta) (bytes : List Byte) (raw : List Byte) (ovr : Bool) (learn : Option (Nat × Nat)) (prov : Option PrpProv) :
    (State.rxBegin s p m bytes raw ovr learn prov).cores = s.cores := by
  unfold State.rxBegin; dsimp only; (repeat' split) <;> simp
@[simp] theorem cores_prpJudge (s : State) (p : Nat) (l : List Byte) :
    (State.prpJudge s p l).1.cores = s.cores := by
  unfold State.prpJudge; dsimp only; (repeat' split) <;> simp
@[simp] theorem cores_ringForward (s : State) (p : Nat) (m : FrameMeta) (raw : List Byte) :
    (State.ringForward s p m raw).cores = s.cores := by
  unfold State.ringForward; dsimp only; (repeat' split) <;> simp
@[simp] theorem cores_rxForward (s : State) (p : Nat) (m : FrameMeta) (l : List Byte) (raw : List Byte) (ovr : Bool) (spare : Bool) (prov : Option PrpProv) (exempt : Bool) :
    (State.rxForward s p m l raw ovr spare prov exempt).cores = s.cores := by
  unfold State.rxForward; dsimp only; (repeat' split) <;> simp
@[simp] theorem cores_pipeline (s : State) (p : Nat) (m : FrameMeta) (raw : List Byte) (ovr : Bool) (spare : Bool) :
    (State.pipeline s p m raw ovr spare).cores = s.cores := by
  unfold State.pipeline; simp
@[simp] theorem cores_execFrameReceiveStart (p : Nat) (bytes : List Byte) (k : Strobe) (spare : Bool) (s : State) :
    Keeps s (execFrameReceiveStart p bytes k spare s) := by
  unfold execFrameReceiveStart; simp
@[simp] theorem cores_rxStep (s : State) (p : Nat) :
    (State.rxStep s p).cores = s.cores := by
  unfold State.rxStep; dsimp only; (repeat' split) <;> simp
@[simp] theorem cores_execFrameCellReceive (p : Nat) (s : State) :
    Keeps s (execFrameCellReceive p s) := by
  unfold execFrameCellReceive; simp
@[simp] theorem cores_stageRest (s : State) (d i : Nat) (bad : Bool) (n : Nat) (r : RxFrameCur) :
    (s.stageRest d i bad n r).cores = s.cores := by
  induction n generalizing s r with
  | zero => rfl
  | succ n ih => unfold State.stageRest; split <;> simp [ih]

@[simp] theorem cores_prpUndo (s : State) (d : Nat) (m : Option PrpProv) : (s.prpUndo d m).cores = s.cores := by
  unfold State.prpUndo; (repeat' split) <;> simp
@[simp] theorem cores_rxEnd (s : State) (p : Nat) (bad : Bool) :
    (State.rxEnd s p bad).cores = s.cores := by
  unfold State.rxEnd; (repeat' split) <;> simp
@[simp] theorem cores_execFrameReceiveEnd (p : Nat) (bad : Bool) (s : State) :
    Keeps s (execFrameReceiveEnd p bad s) := by
  unfold execFrameReceiveEnd; simp
@[simp] theorem cores_setWay (s : State) (a : Nat) (b : Nat) (l : List Cell) :
    (State.setWay s a b l).cores = s.cores := by
  unfold State.setWay; simp
@[simp] theorem cores_injFill (s : State) (d n : Nat) : (s.injFill d n).cores = s.cores := by
  induction n generalizing s with
  | zero => rfl
  | succ n ih =>
    unfold State.injFill
    split
    · rfl
    · split
      · rfl
      · simp [ih]
@[simp] theorem cores_execCellSend (d : Nat) (dest : Nat) (s : State) :
    Keeps s (execCellSend d dest s) := by
  unfold execCellSend; (repeat' split) <;> simp

/-! ## Machine/Queue.lean -/

@[simp] theorem cores_poolShow (s : State) (d : Nat) :
    (State.poolShow s d).cores = s.cores := by
  unfold State.poolShow; simp
@[simp] theorem cores_charge (s : State) (d : Nat) (lp : Nat) (q : Nat) (old : Nat) (new : Nat) :
    (State.charge s d lp q old new).cores = s.cores := by
  unfold State.charge; simp
@[simp] theorem cores_release (s : State) (p : Nat) (c : Copy) :
    (State.release s p c).cores = s.cores := by
  unfold State.release; simp
@[simp] theorem cores_setQueue (s : State) (p : Nat) (q : Nat) (l : List Copy) :
    (State.setQueue s p q l).cores = s.cores := by
  unfold State.setQueue; (repeat' split) <;> simp
@[simp] theorem cores_queueDrop (s : State) (p : Nat) (q : Nat) :
    (State.queueDrop s p q).cores = s.cores := by
  unfold State.queueDrop; simp
@[simp] theorem cores_admCount (s : State) (p q : Nat) : (State.admCount s p q).cores = s.cores := by
  unfold State.admCount; simp
@[simp] theorem cores_admDrop (s : State) (p : Nat) (q : Nat) (m : FrameMeta) (cut : Bool) (bad : Bool) (l : List Byte) :
    (State.admDrop s p q m cut bad l).cores = s.cores := by
  unfold State.admDrop; simp
@[simp] theorem cores_ageDrop (s : State) (p : Nat) (c : Copy) :
    (State.ageDrop s p c).cores = s.cores := by
  unfold State.ageDrop; simp
@[simp] theorem cores_plainDrop (s : State) (p : Nat) (c : Copy) :
    (State.plainDrop s p c).cores = s.cores := by
  unfold State.plainDrop; simp
@[simp] theorem cores_admitCopy (s : State) (p : Nat) (m : FrameMeta) (mark : Option PrpMark) (l : List Byte) (bad : Bool) :
    (State.admitCopy s p m mark l bad).1.cores = s.cores := by
  unfold State.admitCopy; simp
@[simp] theorem cores_targets (s : State) (d : Nat) (m : FrameMeta) (l : List Byte) :
    (State.targets s d m l).1.cores = s.cores := by
  unfold State.targets
  dsimp only
  refine cores_foldl_fst _ _ (fun acc i => ?_) _
  (repeat' split) <;> simp
@[simp] theorem cores_admitEngines (s : State) (d : Nat) (m : FrameMeta) :
    (State.admitEngines s d m).1.cores = s.cores := by
  unfold State.admitEngines
  dsimp only
  refine cores_foldl_fst _ _ (fun acc i => ?_) _
  (repeat' split)
  · rfl
  · rfl
  · dsimp only
    rw [cores_perfEvent]; exact cores_setEng rfl
@[simp] theorem cores_admitRing (s : State) (d : Nat) (m : FrameMeta) (engines : List Nat) :
    (State.admitRing s d m engines).1.cores = s.cores := by
  unfold State.admitRing; (repeat' split) <;> simp
@[simp] theorem cores_firstCell (s : State) (d : Nat) (c : Cell) :
    (State.firstCell s d c).cores = s.cores := by
  unfold State.firstCell; simp
@[simp] theorem cores_growPort (s : State) (p : Nat) (id : Nat) (l : List Byte) (last : Bool) (bad : Bool) :
    (State.growPort s p id l last bad).cores = s.cores := by
  unfold State.growPort; dsimp only; (repeat' split) <;> simp
@[simp] theorem cores_growQueue (s : State) (p : Nat) (q : Nat) (id : Nat) (l : List Byte) (last : Bool) (bad : Bool) :
    (State.growQueue s p q id l last bad).cores = s.cores := by
  unfold State.growQueue; dsimp only; (repeat' split) <;> simp
@[simp] theorem cores_enqueue (s : State) (c : Copy) (l : List Byte) (bad : Bool) :
    (State.enqueue s c l bad).cores = s.cores := by
  unfold State.enqueue; simp
@[simp] theorem cores_frameDone (s : State) (d : Nat) (o : OutFrame) (bad : Bool) :
    (State.frameDone s d o bad).cores = s.cores := by
  unfold State.frameDone; (repeat' split) <;> simp
@[simp] theorem cores_nextCell (s : State) (d : Nat) (id : Nat) (l : List Byte) (last : Bool) (bad : Bool) :
    (State.nextCell s d id l last bad).cores = s.cores := by
  unfold State.nextCell; dsimp only; (repeat' split) <;> simp
@[simp] theorem cores_execCellArrive (d : Nat) (src : Nat) (hdrOk : Bool) (s : State) :
    Keeps s (execCellArrive d src hdrOk s) := by
  unfold execCellArrive; (repeat' split) <;> simp
@[simp] theorem cores_egress (s : State) (p : Nat) (c : Copy) (head : List Byte) (time : Option XT) (tg : Bool) :
    (State.egress s p c head time tg).1.cores = s.cores := by
  unfold State.egress; (repeat' split) <;> simp
@[simp] theorem cores_txFrame (s : State) (p : Nat) (t : TxCur) :
    (State.txFrame s p t).2.cores = s.cores := by
  unfold State.txFrame; (repeat' split) <;> simp
@[simp] theorem cores_txBegin (s : State) (p : Nat) (c : Copy) (k : Strobe) :
    (State.txBegin s p c k).cores = s.cores := by
  unfold State.txBegin
  extract_lets d i run time tg head e t0 x t s0 len w s1 s2 s3 s4 u
  have h0 : s0.cores = s.cores := by
    dsimp only [s0]
    split <;> simp [x, e]
  clear_value s0 t x
  have h1 : s1.cores = s.cores := by simp [s1, h0]
  clear_value s1
  have h2 : s2.cores = s.cores := by
    dsimp only [s2]
    repeat' split
    all_goals simp [h1]
  clear_value s2
  have h3 : s3.cores = s.cores := by
    dsimp only [s3]
    split <;> simp [h2]
  clear_value s3
  have h4 : s4.cores = s.cores := by
    dsimp only [s4]
    split <;> simp [h3]
  split
  · simp [h4]
  · exact h4
@[simp] theorem cores_txChoose (s : State) (p : Nat) (k : Strobe) (n : Nat) : (s.txChoose p k n).cores = s.cores := by
  induction n generalizing s with
  | zero => rfl
  | succ n ih => unfold State.txChoose; dsimp only; (repeat' split) <;> simp [ih]
@[simp] theorem cores_execFrameTransmitStart (p : Nat) (k : Strobe) (s : State) :
    Keeps s (execFrameTransmitStart p k s) := by
  unfold execFrameTransmitStart; refine keeps_onPort ?_; split <;> simp
@[simp] theorem cores_execFrameTransmitEnd (p : Nat) (s : State) :
    Keeps s (execFrameTransmitEnd p s) := by
  unfold execFrameTransmitEnd; refine keeps_onPort ?_; (repeat' split) <;> simp
@[simp] theorem cores_txCutOff (s : State) (p : Nat) :
    (State.txCutOff s p).cores = s.cores := by
  unfold State.txCutOff; (repeat' split) <;> simp
@[simp] theorem cores_execStoppedPortDiscard (p : Nat) (q : Nat) (s : State) :
    Keeps s (execStoppedPortDiscard p q s) := by
  unfold execStoppedPortDiscard; refine keeps_onPort ?_; (repeat' split) <;> simp
@[simp] theorem cores_queStarted (s : State) (p : Nat) :
    (State.queStarted s p).cores = s.cores := by
  unfold State.queStarted; simp
@[simp] theorem cores_maxfCheck (s : State) (p : Nat) :
    (State.maxfCheck s p).cores = s.cores := by
  unfold State.maxfCheck; simp
@[simp] theorem cores_queFlush (s0 : State) (p : Nat) :
    (State.queFlush s0 p).cores = s0.cores := by
  unfold State.queFlush; (repeat' split) <;> simp
end Sys2Proof.Machine
end

