-- ==== Sys2Proof/Laws/CoresPackage.lean ====
section
/-!
SUPPORT. What leaves engines' programs alone, by definition: ownership, the mesh, hosts, loading, calibration, run states, security, register access, booting, function-space instructions, debugging and the ROM-resident programs.
-/
namespace Sys2Proof.Machine

/-! ## Machine/Own.lean -/

@[simp] theorem cores_ownEnd (s : State) (status : Nat) :
    (State.ownEnd s status).cores = s.cores := by
  unfold State.ownEnd; simp
@[simp] theorem cores_ownSet (s : State) (die : Nat) (blk : Nat) (inst : Nat) (part : Nat) :
    (State.ownSet s die blk inst part).cores = s.cores := by
  unfold State.ownSet; (repeat' split) <;> simp
@[simp] theorem cores_ownQuery (s : State) (die : Nat) (blk : Nat) (inst : Nat) :
    (State.ownQuery s die blk inst).cores = s.cores := by
  unfold State.ownQuery; simp
@[simp] theorem cores_wrOwnCmd (s : State) (data : Nat) :
    (State.wrOwnCmd s data).cores = s.cores := by
  unfold State.wrOwnCmd; (repeat' split) <;> simp
@[simp] theorem cores_execOwnCmdSet (e : Nat) (die : Nat) (blk : Nat) (inst : Nat) (part : Nat) (s : State) :
    Keeps s (execOwnCmdSet e die blk inst part s) := by
  unfold execOwnCmdSet; simp
@[simp] theorem cores_execOwnCmdQuery (e : Nat) (die : Nat) (blk : Nat) (inst : Nat) (s : State) :
    Keeps s (execOwnCmdQuery e die blk inst s) := by
  unfold execOwnCmdQuery; simp
@[simp] theorem cores_ownJudge (s : State) (d : Nat) (blk : Nat) (inst : Nat) :
    (State.ownJudge s d blk inst).cores = s.cores := by
  unfold State.ownJudge; simp
@[simp] theorem cores_execOwnHoldRequest (d : Nat) (s : State) :
    Keeps s (execOwnHoldRequest d s) := by
  unfold execOwnHoldRequest; refine keeps_onDie ?_; (repeat' split) <;> simp
@[simp] theorem cores_ownSend (s : State) (die : Nat) (blk : Nat) (inst : Nat) (part : Nat) :
    (State.ownSend s die blk inst part).cores = s.cores := by
  unfold State.ownSend; simp
@[simp] theorem cores_execOwnHoldReply (s : State) :
    Keeps s (execOwnHoldReply s) := by
  unfold execOwnHoldReply; dsimp only; (repeat' split) <;> simp
@[simp] theorem cores_evmapClear (s : State) (d : Nat) (changed : Nat → Bool) :
    (State.evmapClear s d changed).cores = s.cores := by
  unfold State.evmapClear
  dsimp only
  refine cores_foldl _ _ (fun s k => ?_) _
  exact cores_setEng (core_mk _ _ _ _ _ _ _ _ _ _ _)
@[simp] theorem cores_hostOwned (s : State) (d : Nat) :
    (State.hostOwned s d).cores = s.cores := by
  unfold State.hostOwned; (repeat' split) <;> simp
@[simp] theorem cores_ownCopy (s : State) (d : Nat) (m : Store Nat) :
    (State.ownCopy s d m).cores = s.cores := by
  unfold State.ownCopy; simp
@[simp] theorem cores_ownRelease (s : State) (d : Nat) (blk : Nat) (inst : Nat) :
    (State.ownRelease s d blk inst).cores = s.cores := by
  unfold State.ownRelease; simp
@[simp] theorem cores_ownApply (s : State) (d : Nat) (die : Nat) (blk : Nat) (inst : Nat) (part : Nat) :
    (State.ownApply s d die blk inst part).cores = s.cores := by
  unfold State.ownApply; simp
@[simp] theorem cores_execOwnEntriesApply (d : Nat) (s : State) :
    Keeps s (execOwnEntriesApply d s) := by
  unfold execOwnEntriesApply; refine keeps_onDie ?_; (repeat' split) <;> simp
@[simp] theorem cores_execOwnCmdComplete (s : State) :
    Keeps s (execOwnCmdComplete s) := by
  unfold execOwnCmdComplete; (repeat' split) <;> simp
@[simp] theorem cores_grantCopy (s : State) (p : Nat) :
    (State.grantCopy s p).cores = s.cores := by
  unfold State.grantCopy; simp
@[simp] theorem cores_grantBack (s : State) (d : Nat) :
    (State.grantBack s d).cores = s.cores := by
  unfold State.grantBack; (repeat' split) <;> simp
@[simp] theorem cores_execOwnResync (d : Nat) (s : State) :
    Keeps s (execOwnResync d s) := by
  unfold execOwnResync; simp
@[simp] theorem cores_policyJudge (s : State) (by_ : Option PolicyWrite) :
    (State.policyJudge s by_).cores = s.cores := by
  unfold State.policyJudge; (repeat' split) <;> simp
@[simp] theorem cores_policyAck (s : State) :
    (State.policyAck s).cores = s.cores := by
  unfold State.policyAck; simp
@[simp] theorem cores_wrPolicy (s : State) (by_ : Option PolicyWrite) (data : Nat) :
    (State.wrPolicy s by_ data).cores = s.cores := by
  unfold State.wrPolicy; simp
theorem keeps_arrivePolicy {e addr width data : Nat} {s : State} {f : State → State} (h : (f s).cores = s.cores) :
    Keeps s (arrivePolicy e addr width data s f) := by
  unfold arrivePolicy; (repeat' split) <;> simp [h]
@[simp] theorem cores_execPolicyWrite (e : Nat) (data : Word32) (s : State) :
    Keeps s (execPolicyWrite e data s) := by unfold execPolicyWrite; exact keeps_arrivePolicy (by simp)
@[simp] theorem cores_execPolicyCopyApply (d : Nat) (s : State) :
    Keeps s (execPolicyCopyApply d s) := by
  unfold execPolicyCopyApply; refine keeps_onDie ?_; (repeat' split) <;> simp
@[simp] theorem cores_ownCut (s : State) (d : Nat) :
    (State.ownCut s d).cores = s.cores := by
  unfold State.ownCut; dsimp only; (repeat' split) <;> simp
@[simp] theorem cores_ownBack (s : State) (d : Nat) :
    (State.ownBack s d).cores = s.cores := by
  unfold State.ownBack; simp

/-! ## Machine/Mesh.lean -/

@[simp] theorem cores_msgFails (s : State) (m : CtlMsg) :
    (State.msgFails s m).cores = s.cores := by
  unfold State.msgFails; (repeat' split) <;> simp
@[simp] theorem cores_engCut (s : State) (d : Nat) (e : Nat) :
    (State.engCut s d e).cores = s.cores := by unfold State.engCut; exact cores_setEng rfl
@[simp] theorem cores_accessCut (s : State) (a : Nat) (b : Nat) :
    (State.accessCut s a b).cores = s.cores := by
  unfold State.accessCut; simp
@[simp] theorem cores_heldCut (s : State) (d : Nat) :
    (State.heldCut s d).cores = s.cores := by
  unfold State.heldCut; simp
@[simp] theorem cores_homeCut (s : State) (d : Nat) :
    (State.homeCut s d).cores = s.cores := by
  unfold State.homeCut; simp
@[simp] theorem cores_linkCut (s : State) (a : Nat) (b : Nat) :
    (State.linkCut s a b).cores = s.cores := by
  unfold State.linkCut; simp
@[simp] theorem cores_fifoCut (s : State) (a : Nat) (b : Nat) (i : Nat) :
    (State.fifoCut s a b i).cores = s.cores := by
  unfold State.fifoCut; simp
@[simp] theorem cores_cellsCut (s : State) (a : Nat) (b : Nat) :
    (State.cellsCut s a b).cores = s.cores := by
  unfold State.cellsCut; simp
@[simp] theorem cores_fwdClk (s : State) (a : Nat) (b : Nat) (ok : Bool) :
    (State.fwdClk s a b ok).cores = s.cores := by
  unfold State.fwdClk; simp
@[simp] theorem cores_clockFollows (s : State) (b : Nat) :
    (State.clockFollows s b).cores = s.cores := by
  unfold State.clockFollows; simp
@[simp] theorem cores_dirDown (s : State) (a : Nat) (b : Nat) (clk : Bool) :
    (State.dirDown s a b clk).cores = s.cores := by
  unfold State.dirDown; simp
@[simp] theorem cores_execSaddleDirectionDown (a : Nat) (b : Nat) (clk : Bool) (s : State) :
    Keeps s (execSaddleDirectionDown a b clk s) := by
  unfold execSaddleDirectionDown; simp
@[simp] theorem cores_linkBack (s : State) (a : Nat) (b : Nat) :
    (State.linkBack s a b).cores = s.cores := by
  unfold State.linkBack; simp
@[simp] theorem cores_spares (s : State) (a : Nat) (b : Nat) (w : List Nat) :
    (State.spares s a b w).cores = s.cores := by
  unfold State.spares; simp
@[simp] theorem cores_execSaddleTrainingEnd (a : Nat) (b : Nat) (failed : Word32) (clk : Bool) (s : State) :
    Keeps s (execSaddleTrainingEnd a b failed clk s) := by
  unfold execSaddleTrainingEnd; simp
@[simp] theorem cores_meshStarted (s : State) (d : Nat) (peer : Nat) :
    (State.meshStarted s d peer).cores = s.cores := by
  unfold State.meshStarted; simp
@[simp] theorem cores_meshStopped (s : State) (d : Nat) (peer : Nat) :
    (State.meshStopped s d peer).cores = s.cores := by
  unfold State.meshStopped; simp
@[simp] theorem cores_execCtlMessageReceive (a : Nat) (b : Nat) (crcOk : Bool) (s : State) :
    Keeps s (execCtlMessageReceive a b crcOk s) := by
  unfold execCtlMessageReceive; simp

/-! ## Machine/Comm.lean -/

@[simp] theorem cores_inject (s : State) (d : Nat) (m : FrameMeta) (bytes : List Byte) (dies : List Nat) :
    (State.inject s d m bytes dies).cores = s.cores := by
  unfold State.inject; simp
@[simp] theorem cores_injectTo (s : State) (d : Nat) (src : FrameSrc) (part : Nat) (kind : Nat) (dest : Nat) (queue : Nat) (ts : Option Nat) (bytes : List Byte) :
    (State.injectTo s d src part kind dest queue ts bytes).cores = s.cores := by
  unfold State.injectTo; (repeat' split) <;> simp
@[simp] theorem cores_mboPut (s : State) (h : Nat) (bytes : List Byte) (svc : Bool) :
    (State.mboPut s h bytes svc).cores = s.cores := by
  unfold State.mboPut; simp

/-! ## Machine/Summit.lean -/

theorem cores_withSummit (u : State) (x : SummitState) : State.cores { u with summit := x } = u.cores := rfl

@[simp] theorem cores_setSTime (s : State) (f : Fld) (u : Nat) :
    (State.setSTime s f u).cores = s.cores := by
  unfold State.setSTime; simp
@[simp] theorem cores_setRole (s : State) (r : Nat) :
    (State.setRole s r).cores = s.cores := by
  unfold State.setRole; simp
@[simp] theorem cores_dropEligible (s : State) :
    (State.dropEligible s).cores = s.cores := by
  unfold State.dropEligible; simp
@[simp] theorem cores_execSummitEligible (s : State) :
    Keeps s (execSummitEligible s) := by
  unfold execSummitEligible; simp
@[simp] theorem cores_pathFresh (s : State) (k : Nat) (last : Option Nat) :
    (State.pathFresh s k last).cores = s.cores := by
  unfold State.pathFresh; (repeat' split) <;> simp
@[simp] theorem cores_leaveRole (s : State) :
    (State.leaveRole s).cores = s.cores := by
  unfold State.leaveRole; simp
@[simp] theorem cores_lapse (s : State) :
    (State.lapse s).cores = s.cores := by
  unfold State.lapse; simp
@[simp] theorem cores_execLeaseLapse (s : State) :
    Keeps s (execLeaseLapse s) := by
  unfold execLeaseLapse; simp
@[simp] theorem cores_beaconInject (s : State) (port : Nat) (queue : Nat) (bytes : List Byte) :
    (State.beaconInject s port queue bytes).cores = s.cores := by
  unfold State.beaconInject; simp
@[simp] theorem cores_beaconOn (s : State) (k : Nat) (subtype : Nat) :
    (State.beaconOn s k subtype).cores = s.cores := by
  unfold State.beaconOn; simp
@[simp] theorem cores_beacons (s : State) (subtype : Nat) :
    (State.beacons s subtype).cores = s.cores := by
  unfold State.beacons; simp
@[simp] theorem cores_execBeaconSend (s : State) :
    Keeps s (execBeaconSend s) := by
  unfold execBeaconSend; simp
@[simp] theorem cores_takeLease (s : State) (b : Beacon) :
    (State.takeLease s b).cores = s.cores := by
  unfold State.takeLease; simp
@[simp] theorem cores_foreign (s : State) (b : Beacon) :
    (State.foreign s b).cores = s.cores := by
  unfold State.foreign; simp
@[simp] theorem cores_pathHeard (s : State) (k : Nat) :
    (State.pathHeard s k).cores = s.cores := by
  unfold State.pathHeard; simp
@[simp] theorem cores_beaconJudge (s : State) (b : Beacon) :
    (State.beaconJudge s b).cores = s.cores := by
  unfold State.beaconJudge; simp
@[simp] theorem cores_execBeaconReceive (s : State) :
    Keeps s (execBeaconReceive s) := by
  unfold execBeaconReceive; (repeat' split) <;> simp
@[simp] theorem cores_execPathTimeout (k : Nat) (s : State) :
    Keeps s (execPathTimeout k s) := by
  unfold execPathTimeout; dsimp only; (repeat' split) <;> simp
@[simp] theorem cores_sumEnd (s : State) (status : Nat) :
    (State.sumEnd s status).cores = s.cores := by
  unfold State.sumEnd; simp
@[simp] theorem cores_sumTake (s : State) :
    (State.sumTake s).cores = s.cores := by
  unfold State.sumTake
  split
  · simp
  · split
    · simp
    · split
      · simp
      · split
        · simp
        · dsimp only
          rw [cores_sumEnd, cores_holderPaths, cores_dropEligible, cores_withSummit]
          simp
@[simp] theorem cores_sumRenew (s : State) :
    (State.sumRenew s).cores = s.cores := by
  unfold State.sumRenew; simp
@[simp] theorem cores_sumRelease (s : State) :
    (State.sumRelease s).cores = s.cores := by
  unfold State.sumRelease; simp
@[simp] theorem cores_wrSummitCmd (s : State) (data : Nat) :
    (State.wrSummitCmd s data).cores = s.cores := by
  unfold State.wrSummitCmd; (repeat' split) <;> simp
@[simp] theorem cores_execSummitTake (e : Nat) (s : State) :
    Keeps s (execSummitTake e s) := by
  unfold execSummitTake; simp
@[simp] theorem cores_execSummitRenew (e : Nat) (s : State) :
    Keeps s (execSummitRenew e s) := by
  unfold execSummitRenew; simp
@[simp] theorem cores_execSummitRelease (e : Nat) (s : State) :
    Keeps s (execSummitRelease e s) := by
  unfold execSummitRelease; simp
@[simp] theorem cores_summitStarted (s : State) :
    (State.summitStarted s).cores = s.cores := by
  unfold State.summitStarted
  extract_lets was ended s1 r s2 m o s3
  have h1 : s1.cores = s.cores := by dsimp only [s1]; split <;> simp
  clear_value s1
  have h2 : s2.cores = s.cores := by dsimp only [s2]; simp [h1]
  clear_value s2
  have h3 : s3.cores = s.cores := by dsimp only [s3]; rw [cores_withSummit, cores_dropEligible, h2]
  clear_value s3
  split <;> simp [h3]

/-! ## Machine/Host.lean -/

@[simp] theorem keeps_onHost {h : Nat} {s : State} {f : State → State} (hf : (f s).cores = s.cores) :
    Keeps s (onHost h s f) := by unfold onHost; simp [hf]

@[simp] theorem keeps_onRing {h k : Nat} {s : State} {f : State → State} (hf : (f s).cores = s.cores) :
    Keeps s (onRing h k s f) := by unfold onRing; simp [hf]

@[simp] theorem cores_hostEvent (s : State) (h : Nat) (ev : Nat) :
    (State.hostEvent s h ev).cores = s.cores := by
  unfold State.hostEvent; simp
@[simp] theorem cores_setMbiFree (s : State) (h : Nat) (slot : Nat) (b : Bool) :
    (State.setMbiFree s h slot b).cores = s.cores := by
  unfold State.setMbiFree; simp
@[simp] theorem cores_mbiFreed (s : State) (h : Nat) (slot : Nat) :
    (State.mbiFreed s h slot).cores = s.cores := by
  unfold State.mbiFreed; simp
@[simp] theorem cores_line63 (s : State) (h : Nat) :
    (State.line63 s h).cores = s.cores := by
  unfold State.line63; simp
@[simp] theorem cores_mbErr (s : State) (h : Nat) :
    (State.mbErr s h).cores = s.cores := by
  unfold State.mbErr; simp
@[simp] theorem cores_mbiPost (s : State) (h : Nat) (slot : Nat) (len : Nat) :
    (State.mbiPost s h slot len).cores = s.cores := by
  unfold State.mbiPost; simp
@[simp] theorem cores_svcPost (s : State) (h : Nat) (slot : Nat) (len : Nat) :
    (State.svcPost s h slot len).cores = s.cores := by
  unfold State.svcPost; simp
@[simp] theorem cores_wrMbiPost (s : State) (h : Nat) (data : Nat) :
    (State.wrMbiPost s h data).cores = s.cores := by
  unfold State.wrMbiPost; simp
@[simp] theorem cores_execMbiPost (h : Nat) (slot : Nat) (len : Nat) (s : State) :
    Keeps s (execMbiPost h slot len s) := by
  unfold execMbiPost; simp
@[simp] theorem cores_execSvcPost (h : Nat) (slot : Nat) (len : Nat) (s : State) :
    Keeps s (execSvcPost h slot len s) := by
  unfold execSvcPost; simp
@[simp] theorem cores_mbiTake (s : State) (d : Nat) :
    (State.mbiTake s d).1.cores = s.cores := by
  unfold State.mbiTake; dsimp only; (repeat' split) <;> simp
@[simp] theorem cores_execMbiTake (e : Nat) (d : Nat) (s : State) :
    Keeps s (execMbiTake e d s) := by
  unfold execMbiTake; simp
@[simp] theorem cores_wrMbiFree (s : State) (d : Nat) (data : Nat) :
    (State.wrMbiFree s d data).cores = s.cores := by
  unfold State.wrMbiFree; simp
@[simp] theorem cores_execMbiFree (e : Nat) (d : Nat) (slot : BitVec 4) (s : State) :
    Keeps s (execMbiFree e d slot s) := by
  unfold execMbiFree; simp
@[simp] theorem cores_mboTake (s : State) (h : Nat) :
    (State.mboTake s h).1.cores = s.cores := by
  unfold State.mboTake; dsimp only; (repeat' split) <;> simp
@[simp] theorem cores_execMboTake (h : Nat) (s : State) :
    Keeps s (execMboTake h s) := by
  unfold execMboTake; simp
@[simp] theorem cores_wrMboFree (s : State) (h : Nat) (data : Nat) :
    (State.wrMboFree s h data).cores = s.cores := by
  unfold State.wrMboFree; simp
@[simp] theorem cores_execMboFree (h : Nat) (slot : BitVec 4) (s : State) :
    Keeps s (execMboFree h slot s) := by
  unfold execMboFree; simp
@[simp] theorem cores_svcTake (s : State) :
    (State.svcTake s).1.cores = s.cores := by
  unfold State.svcTake; dsimp only; (repeat' split) <;> simp
@[simp] theorem cores_execSvcTake (e : Nat) (s : State) :
    Keeps s (execSvcTake e s) := by
  unfold execSvcTake; simp
@[simp] theorem cores_wrSvcReply (s : State) (data : Nat) :
    (State.wrSvcReply s data).cores = s.cores := by
  unfold State.wrSvcReply; simp
@[simp] theorem cores_execSvcReply (e : Nat) (data : Word) (s : State) :
    Keeps s (execSvcReply e data s) := by
  unfold execSvcReply; simp
@[simp] theorem cores_setRing (s : State) (h : Nat) (k : Nat) (r : RingState) :
    (State.setRing s h k r).cores = s.cores := by
  unfold State.setRing; simp
@[simp] theorem cores_txEnable (s : State) (d : Nat) (k : Nat) (log2 : Nat) (en : Bool) :
    (State.txEnable s d k log2 en).cores = s.cores := by
  unfold State.txEnable; simp
@[simp] theorem cores_ringKeep (s : State) (h : Nat) (k : Nat) (n : Nat) :
    (State.ringKeep s h k n).cores = s.cores := by
  unfold State.ringKeep; simp
@[simp] theorem cores_rxEnable (s : State) (d : Nat) (k : Nat) (log2 : Nat) (en : Bool) :
    (State.rxEnable s d k log2 en).cores = s.cores := by
  unfold State.rxEnable; simp
@[simp] theorem cores_wrRingCfg (s : State) (d : Nat) (k : Nat) (data : Nat) :
    (State.wrRingCfg s d k data).cores = s.cores := by
  unfold State.wrRingCfg; simp
@[simp] theorem cores_execRingCfgWrite (e : Nat) (d : Nat) (k : Nat) (data : Word32) (s : State) :
    Keeps s (execRingCfgWrite e d k data s) := by
  unfold execRingCfgWrite; simp
@[simp] theorem cores_dbErr (s : State) (h : Nat) :
    (State.dbErr s h).cores = s.cores := by
  unfold State.dbErr; simp
@[simp] theorem cores_wrDbTx (s : State) (h : Nat) (k : Nat) (data : Nat) :
    (State.wrDbTx s h k data).cores = s.cores := by
  unfold State.wrDbTx; simp
@[simp] theorem cores_wrDbRx (s : State) (h : Nat) (k : Nat) (data : Nat) :
    (State.wrDbRx s h k data).cores = s.cores := by
  unfold State.wrDbRx; simp
@[simp] theorem cores_execDbTx (h : Nat) (k : Nat) (prod : BitVec 16) (s : State) :
    Keeps s (execDbTx h k prod s) := by
  unfold execDbTx; simp
@[simp] theorem cores_execDbRx (h : Nat) (k : Nat) (prod : BitVec 16) (s : State) :
    Keeps s (execDbRx h k prod s) := by
  unfold execDbRx; simp
@[simp] theorem cores_ringIrq (s : State) (h : Nat) (k : Nat) :
    (State.ringIrq s h k).cores = s.cores := by
  unfold State.ringIrq; simp
@[simp] theorem cores_execMsixHoldoffExpire (h : Nat) (k : Nat) (s : State) :
    Keeps s (execMsixHoldoffExpire h k s) := by
  unfold execMsixHoldoffExpire; simp
@[simp] theorem cores_txDone (s : State) (h : Nat) (k : Nat) (status : Nat) (int : Bool) :
    (State.txDone s h k status int).cores = s.cores := by
  unfold State.txDone; simp
@[simp] theorem cores_execTxDescriptorFetched (h : Nat) (k : Nat) (addr : Nat) (length : Nat) (kind : Nat) (queue : Nat) (dest : Nat) (flags : Nat) (tsId : Nat) (s : State) :
    Keeps s (execTxDescriptorFetched h k addr length kind queue dest flags tsId s) := by
  unfold execTxDescriptorFetched; refine keeps_onRing ?_; dsimp only; (repeat' split) <;> simp
@[simp] theorem cores_execTxFrameRead (h : Nat) (k : Nat) (bytes : List Byte) (failed : Bool) (s : State) :
    Keeps s (execTxFrameRead h k bytes failed s) := by
  unfold execTxFrameRead; refine keeps_onRing ?_; (repeat' split) <;> simp
@[simp] theorem cores_injectLookup (s : State) (d : Nat) (h : Nat) (k : Nat) (t : TxDesc) (bytes : List Byte) (spare : Bool) :
    (State.injectLookup s d h k t bytes spare).cores = s.cores := by
  unfold State.injectLookup; dsimp only; (repeat' split) <;> simp
@[simp] theorem cores_injectDesc (s : State) (d : Nat) (h : Nat) (k : Nat) (t : TxDesc) (bytes : List Byte) (spare : Bool) :
    (State.injectDesc s d h k t bytes spare).cores = s.cores := by
  unfold State.injectDesc; simp
@[simp] theorem cores_execRxRingDeliver (h : Nat) (k : Nat) (bufLen : Nat) (s : State) :
    Keeps s (execRxRingDeliver h k bufLen s) := by
  unfold execRxRingDeliver; refine keeps_onRing ?_; dsimp only; (repeat' split) <;> simp
@[simp] theorem cores_ringsDrop (s : State) (h : Nat) :
    (State.ringsDrop s h).cores = s.cores := by
  unfold State.ringsDrop; simp
@[simp] theorem cores_wrGrant (s : State) (p : Nat) (data : Nat) :
    (State.wrGrant s p data).cores = s.cores := by
  unfold State.wrGrant; simp
@[simp] theorem cores_execGrantWrite (e : Nat) (p : Nat) (data : Word32) (s : State) :
    Keeps s (execGrantWrite e p data s) := by
  unfold execGrantWrite; simp
@[simp] theorem cores_execHostLinkUp (h : Nat) (speed : Nat) (width : Nat) (s : State) :
    Keeps s (execHostLinkUp h speed width s) := by
  unfold execHostLinkUp; simp

/-! ## Machine/Loader.lean -/

@[simp] theorem cores_enterRun (s : State) (die : Nat) (blk : Nat) (inst : Nat) :
    (State.enterRun s die blk inst).cores = s.cores := by
  unfold State.enterRun; simp
@[simp] theorem cores_hookDone (s : State) (e : Nat) :
    (State.hookDone s e).cores = s.cores := by
  unfold State.hookDone; simp
@[simp] theorem cores_romReplaced (s : State) (e : Nat) :
    (State.romReplaced s e).cores = s.cores := by
  unfold State.romReplaced; simp
@[simp] theorem cores_setLoad (s : State) (h : Nat) (l : Option Load) :
    (State.setLoad s h l).cores = s.cores := by
  unfold State.setLoad; simp
@[simp] theorem cores_loadResult (s : State) (h : Nat) (code : Nat) (seg : Option Nat) :
    (State.loadResult s h code seg).cores = s.cores := by
  unfold State.loadResult; (repeat' split) <;> simp
@[simp] theorem cores_bootDone (s : State) :
    (State.bootDone s).cores = s.cores := by
  unfold State.bootDone; simp
@[simp] theorem cores_bootLoad (s : State) (slot : Nat) (second : Bool) :
    (State.bootLoad s slot second).cores = s.cores := by
  unfold State.bootLoad; simp
@[simp] theorem cores_bootTake (s : State) (code n : Nat) : (s.bootTake code n).cores = s.cores := by
  induction n generalizing s code with
  | zero => rfl
  | succ n ih => unfold State.bootTake; dsimp only; (repeat' split) <;> simp [ih]
@[simp] theorem cores_bootFrom (s : State) (slot : Nat) :
    (State.bootFrom s slot).cores = s.cores := by
  unfold State.bootFrom
  dsimp only
  split <;> simp
@[simp] theorem cores_bootStep5 (s : State) :
    (State.bootStep5 s).cores = s.cores := by
  unfold State.bootStep5; simp
@[simp] theorem cores_loadFinish (s : State) (h : Nat) (code : Nat) (seg : Option Nat) :
    (State.loadFinish s h code seg).cores = s.cores := by
  unfold State.loadFinish; simp
@[simp] theorem cores_wrLoadGo (s : State) (h : Nat) (spi : Bool) :
    (State.wrLoadGo s h spi).cores = s.cores := by
  unfold State.wrLoadGo; simp
@[simp] theorem cores_execLoadGo (h : Nat) (spi : Bool) (s : State) :
    Keeps s (execLoadGo h spi s) := by
  unfold execLoadGo; simp
@[simp] theorem cores_spiRelease (s : State) :
    (State.spiRelease s).cores = s.cores := by
  unfold State.spiRelease; simp
@[simp] theorem cores_stagingRead (s : State) (h : Nat) (j : Load) :
    (State.stagingRead s h j).1.cores = s.cores := by
  unfold State.stagingRead; simp
@[simp] theorem cores_staged (s : State) (h : Nat) (j : Load) (l : List Byte) (failed : Bool) :
    (State.staged s h j l failed).cores = s.cores := by
  unfold State.staged; (repeat' split) <;> simp
@[simp] theorem cores_execLoadStaged (h : Nat) (bytes : List Byte) (failed : Bool) (s : State) :
    Keeps s (execLoadStaged h bytes failed s) := by
  unfold execLoadStaged; (repeat' split) <;> simp
@[simp] theorem cores_loadFault (s : State) (h : Nat) :
    (State.loadFault s h).cores = s.cores := by
  unfold State.loadFault; (repeat' split) <;> simp
@[simp] theorem cores_linkReset (s : State) (h : Nat) :
    (State.linkReset s h).cores = s.cores := by
  unfold State.linkReset; dsimp only; (repeat' split) <;> simp
@[simp] theorem cores_linkDown (s : State) (d : Nat) :
    (State.linkDown s d).cores = s.cores := by
  unfold State.linkDown; simp
@[simp] theorem cores_execHostLinkReset (h : Nat) (cause : HostReset) (s : State) :
    Keeps s (execHostLinkReset h cause s) := by
  unfold execHostLinkReset; (repeat' split) <;> simp
/-! ## Machine/Cal.lean -/

@[simp] theorem cores_setNvs (s : State) (d : Nat) (n : NvsState) :
    (State.setNvs s d n).cores = s.cores := by
  unfold State.setNvs; simp
@[simp] theorem cores_setCal (s : State) (d : Nat) (c : CalState) :
    (State.setCal s d c).cores = s.cores := by
  unfold State.setCal; simp
@[simp] theorem cores_setCalSeq (s : State) (d : Nat) (c : CalSeq) :
    (State.setCalSeq s d c).cores = s.cores := by
  unfold State.setCalSeq; simp
@[simp] theorem cores_calAsk (s : State) (d : Nat) :
    (State.calAsk s d).cores = s.cores := by
  unfold State.calAsk; simp
@[simp] theorem cores_refreshAlarm (s : State) (d : Nat) :
    (State.refreshAlarm s d).cores = s.cores := by
  unfold State.refreshAlarm; simp
@[simp] theorem cores_refreshDt (s : State) (d : Nat) :
    (State.refreshDt s d).cores = s.cores := by
  unfold State.refreshDt; simp
@[simp] theorem cores_refreshCovered (s : State) (d : Nat) :
    (State.refreshCovered s d).cores = s.cores := by
  unfold State.refreshCovered; simp
@[simp] theorem cores_sensor (s : State) (d : Nat) (k : Nat) (t : BitVec 16) :
    (State.sensor s d k t).cores = s.cores := by
  unfold State.sensor; simp
@[simp] theorem cores_execTempSample (d : Nat) (t0 : BitVec 16) (t1 : BitVec 16) (t2 : BitVec 16) (t3 : BitVec 16) (s : State) :
    Keeps s (execTempSample d t0 t1 t2 t3 s) := by
  unfold execTempSample; simp
@[simp] theorem cores_wrTempCfg (s : State) (d : Nat) (data : Nat) :
    (State.wrTempCfg s d data).cores = s.cores := by
  unfold State.wrTempCfg; simp
@[simp] theorem cores_nvsTouch (s : State) (d : Nat) (off : Nat) (n : Nat) :
    (State.nvsTouch s d off n).cores = s.cores := by unfold State.nvsTouch; refine cores_foldl _ _ (fun s x => ?_) _; (try dsimp only); (repeat' split) <;> simp
@[simp] theorem cores_nvsPut (s : State) (d : Nat) (off : Nat) (n : Nat) (data : Nat) :
    (State.nvsPut s d off n data).cores = s.cores := by
  unfold State.nvsPut; simp
@[simp] theorem cores_nvsPend (s : State) (d : Nat) :
    (State.nvsPend s d).cores = s.cores := by
  unfold State.nvsPend; simp
@[simp] theorem cores_storeFail (s : State) (d : Nat) :
    (State.storeFail s d).cores = s.cores := by
  unfold State.storeFail; simp
@[simp] theorem cores_storeDrop (s : State) (d : Nat) :
    (State.storeDrop s d).cores = s.cores := by
  unfold State.storeDrop; simp
@[simp] theorem cores_nvsBegin (s : State) (d : Nat) :
    (State.nvsBegin s d).cores = s.cores := by
  unfold State.nvsBegin; simp
@[simp] theorem cores_nvsAck (s : State) (d : Nat) (w : NvsWrite) :
    (State.nvsAck s d w).cores = s.cores := by
  unfold State.nvsAck; (repeat' split) <;> simp
@[simp] theorem cores_nvsWordDone (s : State) (d : Nat) :
    (State.nvsWordDone s d).cores = s.cores := by
  unfold State.nvsWordDone; (repeat' split) <;> simp
@[simp] theorem cores_execNvsWordWriteDone (d : Nat) (s : State) :
    Keeps s (execNvsWordWriteDone d s) := by
  unfold execNvsWordWriteDone; simp
@[simp] theorem cores_nvsCut (s : State) (d : Nat) :
    (State.nvsCut s d).cores = s.cores := by
  unfold State.nvsCut; simp
@[simp] theorem cores_nvsPost (s : State) (by_ : Option Nat) (d : Nat) (off : Nat) (width : Nat) (data : Nat) :
    (State.nvsPost s by_ d off width data).1.cores = s.cores := by
  unfold State.nvsPost; simp
@[simp] theorem cores_execNvsWrite (e : Nat) (d : Nat) (off : Nat) (width : Nat) (data : Nat) (s : State) :
    Keeps s (execNvsWrite e d off width data s) := by
  unfold execNvsWrite; dsimp only; (repeat' split) <;> simp
@[simp] theorem cores_nvsGet (s : State) (d : Nat) (off : Nat) (width : Nat) :
    (State.nvsGet s d off width).1.cores = s.cores := by
  unfold State.nvsGet; simp
@[simp] theorem cores_execNvsRead (e : Nat) (d : Nat) (off : Nat) (width : Nat) (s : State) :
    Keeps s (execNvsRead e d off width s) := by
  unfold execNvsRead; simp
@[simp] theorem cores_nearPoint (s : State) (t : Int) (l : List CalPoint) :
    (State.nearPoint s t l).2.cores = s.cores := by
  unfold State.nearPoint; (repeat' split) <;> simp
@[simp] theorem cores_showSet (s : State) (d : Nat) (seq : Nat) (pts : List CalPoint) :
    (State.showSet s d seq pts).cores = s.cores := by
  unfold State.showSet; simp
@[simp] theorem cores_setTLast (s : State) (d : Nat) (v : Nat) :
    (State.setTLast s d v).cores = s.cores := by
  unfold State.setTLast; simp
@[simp] theorem cores_markBank (s : State) (d : Nat) (b : Nat) :
    (State.markBank s d b).cores = s.cores := by
  unfold State.markBank; simp
@[simp] theorem cores_wrCalRun (s : State) (d : Nat) (data : Nat) :
    (State.wrCalRun s d data).cores = s.cores := by
  unfold State.wrCalRun; simp
@[simp] theorem cores_execCalRunGo (e : Nat) (d : Nat) (s : State) :
    Keeps s (execCalRunGo e d s) := by
  unfold execCalRunGo; simp
@[simp] theorem cores_execCalPiTimeout (d : Nat) (i : Nat) (s : State) :
    Keeps s (execCalPiTimeout d i s) := by
  unfold execCalPiTimeout; simp
@[simp] theorem cores_runEnds (s : State) (d : Nat) (status : Nat) :
    (State.runEnds s d status).cores = s.cores := by
  unfold State.runEnds; simp
@[simp] theorem cores_drawBytes (s : State) (n : Nat) :
    (State.drawBytes s n).2.cores = s.cores := by
  unfold State.drawBytes; simp
@[simp] theorem cores_runPoint (s : State) (d : Nat) (t : Int) (seq : Nat) (meas : List Byte) (old : Option CalPoint) :
    (State.runPoint s d t seq meas old).2.cores = s.cores := by
  unfold State.runPoint; (repeat' split) <;> simp
@[simp] theorem cores_storeBegin (s : State) (d : Nat) :
    (State.storeBegin s d).cores = s.cores := by
  unfold State.storeBegin; simp
@[simp] theorem cores_execCalRunEnd (d : Nat) (meas : List Byte) (s : State) :
    Keeps s (execCalRunEnd d meas s) := by
  unfold execCalRunEnd; simp
@[simp] theorem cores_execCalStoreEnd (d : Nat) (s : State) :
    Keeps s (execCalStoreEnd d s) := by
  unfold execCalStoreEnd; simp
@[simp] theorem cores_between (s : State) (t : Int) (a : CalPoint) (b : CalPoint) (i : Nat) :
    (State.between s t a b i).2.cores = s.cores := by
  unfold State.between; simp
@[simp] theorem cores_allItems (s : State) (t : Int) (a : CalPoint) (b : CalPoint) :
    (State.allItems s t a b).2.cores = s.cores := by
  unfold State.allItems
  have h : ∀ (l : List Nat) (p : List Int × State),
      (l.foldl (fun x i => let r := x.2.between t a b i; (x.1 ++ [r.1], r.2)) p).2.cores = p.2.cores := by
    intro l
    induction l with
    | nil => intro p; rfl
    | cons x r ih => intro p; rw [List.foldl_cons, ih]; simp
  exact h _ _
@[simp] theorem cores_showCoeffs (s : State) (d : Nat) :
    (State.showCoeffs s d).cores = s.cores := by
  unfold State.showCoeffs; simp
@[simp] theorem cores_execCalInterpolate (d : Nat) (s : State) :
    Keeps s (execCalInterpolate d s) := by
  unfold execCalInterpolate; refine keeps_onDie ?_; (repeat' split) <;> simp
@[simp] theorem cores_calStarted (s : State) (d : Nat) :
    (State.calStarted s d).cores = s.cores := by
  unfold State.calStarted; dsimp only; (repeat' split) <;> simp
@[simp] theorem cores_calStopping (s : State) (d : Nat) :
    (State.calStopping s d).cores = s.cores := by
  unfold State.calStopping; simp
@[simp] theorem cores_calForced (s : State) (d : Nat) :
    (State.calForced s d).cores = s.cores := by
  unfold State.calForced; simp

/-! ## Machine/Run.lean -/

@[simp] theorem cores_perfStarted (s : State) (d : Nat) :
    (State.perfStarted s d).cores = s.cores := by
  unfold State.perfStarted; simp
@[simp] theorem cores_perfStopping (s : State) (d : Nat) :
    (State.perfStopping s d).cores = s.cores := by
  unfold State.perfStopping; simp
@[simp] theorem cores_blockLeaves (s : State) (die : Nat) (blk : Nat) (inst : Nat) :
    (State.blockLeaves s die blk inst).cores = s.cores := by
  unfold State.blockLeaves; (repeat' split) <;> simp
@[simp] theorem cores_txAbandon (s : State) (h : Nat) (k : Nat) :
    (State.txAbandon s h k).cores = s.cores := by
  unfold State.txAbandon; simp
@[simp] theorem cores_flightCut (s : State) (a : Nat) (b : Nat) :
    (State.flightCut s a b).cores = s.cores := by
  unfold State.flightCut; simp
@[simp] theorem cores_blockForced (s : State) (die : Nat) (blk : Nat) (inst : Nat) :
    (State.blockForced s die blk inst).cores = s.cores := by
  unfold State.blockForced; (repeat' split) <;> simp
@[simp] theorem cores_blockStopped (s : State) (die : Nat) (blk : Nat) (inst : Nat) :
    (State.blockStopped s die blk inst).cores = s.cores := by
  unfold State.blockStopped; (repeat' split) <;> simp
@[simp] theorem cores_startRefused (s : State) (die : Nat) (blk : Nat) (inst : Nat) (code : Nat) :
    (State.startRefused s die blk inst code).cores = s.cores := by
  unfold State.startRefused; simp
@[simp] theorem cores_faultAnyway (s : State) (die : Nat) (blk : Nat) (inst : Nat) :
    (State.faultAnyway s die blk inst).cores = s.cores := by
  unfold State.faultAnyway; simp
@[simp] theorem cores_hostFault (s : State) (die : Nat) :
    (State.hostFault s die).cores = s.cores := by
  unfold State.hostFault; (repeat' split) <;> simp

/-! ## Machine/Sec.lean -/

@[simp] theorem cores_secEvent (s : State) (ev : Nat) :
    (State.secEvent s ev).cores = s.cores := by
  unfold State.secEvent; simp
@[simp] theorem cores_pickCode (s : State) (l : List Nat) :
    (State.pickCode s l).2.cores = s.cores := by
  unfold State.pickCode; (repeat' split) <;> simp
@[simp] theorem cores_setSecNvs (s : State) (n : SecNvs) :
    (State.setSecNvs s n).cores = s.cores := by
  unfold State.setSecNvs; simp
@[simp] theorem cores_dbgClose (s : State) :
    (State.dbgClose s).cores = s.cores := by
  unfold State.dbgClose; simp
@[simp] theorem cores_wrLc (s : State) (data : Nat) :
    (State.wrLc s data).cores = s.cores := by
  unfold State.wrLc; dsimp only; (repeat' split) <;> simp
@[simp] theorem cores_execLcAdvance (e : Nat) (target : Nat) (confirm : Nat) (s : State) :
    Keeps s (execLcAdvance e target confirm s) := by
  unfold execLcAdvance; simp
@[simp] theorem cores_keyEnd (s : State) (status : Nat) :
    (State.keyEnd s status).cores = s.cores := by
  unfold State.keyEnd; simp
@[simp] theorem cores_wrKeyCmd (s : State) (data : Nat) :
    (State.wrKeyCmd s data).cores = s.cores := by
  unfold State.wrKeyCmd; dsimp only; (repeat' split) <;> simp
@[simp] theorem cores_arriveKey (e : Nat) (op : Nat) (slot : Nat) (len : Nat) (s : State) :
    Keeps s (arriveKey e op slot len s) := by
  unfold arriveKey; simp
@[simp] theorem cores_execKeyEnrol (e : Nat) (slot : Nat) (s : State) :
    Keeps s (execKeyEnrol e slot s) := by
  unfold execKeyEnrol; simp
@[simp] theorem cores_execKeyRevoke (e : Nat) (slot : Nat) (s : State) :
    Keeps s (execKeyRevoke e slot s) := by
  unfold execKeyRevoke; simp
@[simp] theorem cores_execDebugSecretEnrol (e : Nat) (s : State) :
    Keeps s (execDebugSecretEnrol e s) := by
  unfold execDebugSecretEnrol; simp
@[simp] theorem cores_execOwnerPasswordSet (e : Nat) (len : Nat) (s : State) :
    Keeps s (execOwnerPasswordSet e len s) := by
  unfold execOwnerPasswordSet; simp
@[simp] theorem cores_setSlot (s : State) (k : Nat) (x : KeySlot) :
    (State.setSlot s k x).cores = s.cores := by
  unfold State.setSlot; simp
@[simp] theorem cores_salt (s : State) :
    (State.salt s).2.cores = s.cores := by
  unfold State.salt; simp
@[simp] theorem cores_keyEffect (s : State) (j : KeyJob) :
    (State.keyEffect s j).cores = s.cores := by
  unfold State.keyEffect; (repeat' split) <;> simp
@[simp] theorem cores_execKeyCmdDone (fuseErr : Bool) (s : State) :
    Keeps s (execKeyCmdDone fuseErr s) := by
  unfold execKeyCmdDone; (repeat' split) <;> simp
@[simp] theorem cores_rollEnd (s : State) (status : Nat) :
    (State.rollEnd s status).cores = s.cores := by
  unfold State.rollEnd; simp
@[simp] theorem cores_wrRollback (s : State) (data : Nat) :
    (State.wrRollback s data).cores = s.cores := by
  unfold State.wrRollback; simp
@[simp] theorem cores_execRollbackAdvance (e : Nat) (new : Nat) (s : State) :
    Keeps s (execRollbackAdvance e new s) := by
  unfold execRollbackAdvance; simp
@[simp] theorem cores_execRollbackDone (fuseErr : Bool) (blown : Nat) (s : State) :
    Keeps s (execRollbackDone fuseErr blown s) := by
  unfold execRollbackDone; (repeat' split) <;> simp
@[simp] theorem cores_wrDbg (s : State) (data : Nat) :
    (State.wrDbg s data).cores = s.cores := by
  unfold State.wrDbg; simp
@[simp] theorem cores_execDbgRelock (e : Nat) (pwd : Bool) (chal : Bool) (s : State) :
    Keeps s (execDbgRelock e pwd chal s) := by
  unfold execDbgRelock; simp
@[simp] theorem cores_execDbgFailsClr (e : Nat) (pwd : Bool) (chal : Bool) (s : State) :
    Keeps s (execDbgFailsClr e pwd chal s) := by
  unfold execDbgFailsClr; simp
@[simp] theorem cores_wrSpiCmd (s : State) (data : Nat) :
    (State.wrSpiCmd s data).cores = s.cores := by
  unfold State.wrSpiCmd; simp
@[simp] theorem cores_execSpiGo (e : Nat) (wpRel : Bool) (dir : Bool) (addrBytes : Nat) (opcode : Nat) (len : Nat) (s : State) :
    Keeps s (execSpiGo e wpRel dir addrBytes opcode len s) := by
  unfold execSpiGo; simp
@[simp] theorem cores_execSpiAccessDone (bytes : List Byte) (s : State) :
    Keeps s (execSpiAccessDone bytes s) := by
  unfold execSpiAccessDone; simp

/-! ## Machine/Access.lean -/

@[simp] theorem cores_rcClear (s : State) (f : Fld) (die : Nat) (inst : Nat) :
    (State.rcClear s f die inst).cores = s.cores := by
  unfold State.rcClear; simp
@[simp] theorem cores_readReg (s : State) (die : Nat) (blk : Nat) (inst : Nat) (off : Nat) (fs : List Fld) (o : Nat) (n : Nat) :
    (State.readReg s die blk inst off fs o n).1.cores = s.cores := by
  unfold State.readReg
  have hr : ∀ f : Fld, (s.rcClear f die inst).cores = s.cores := fun f => by simp
  extract_lets whole here
  split
  · rename_i r h
    have : r.1.cores = s.cores := by
      unfold State.headTake at h
      split at h <;> first | (cases h; simp; done) | cases h
    dsimp only
    split
    · exact this
    · rfl
  · dsimp only
    split
    · exact cores_foldl _ _ (fun s f => by simp) _
    · rfl
@[simp] theorem cores_readRegs (s : State) (die : Nat) (blk : Nat) (inst : Nat) (o : Nat) (n : Nat) :
    (State.readRegs s die blk inst o n).1.cores = s.cores := by
  unfold State.readRegs; simp
@[simp] theorem cores_wrEvmap (s : State) (e : Nat) (k : Nat) (data : Nat) :
    (State.wrEvmap s e k data).cores = s.cores := by
  unfold State.wrEvmap
  dsimp only
  split
  · simp
  · exact cores_setEng rfl
@[simp] theorem cores_wrSignal (s : State) (e : Nat) (data : Nat) :
    (State.wrSignal s e data).cores = s.cores := by
  unfold State.wrSignal; simp
@[simp] theorem cores_wrField (s : State) (die : Nat) (inst : Nat) (w : Nat) (m : Nat) (f : Fld) :
    (State.wrField s die inst w m f).cores = s.cores := by
  unfold State.wrField; (repeat' split) <;> simp
@[simp] theorem cores_hostRead (s : State) (h : Nat) (o : Nat) (n : Nat) :
    (State.hostRead s h o n).1.cores = s.cores := by
  unfold State.hostRead; simp
@[simp] theorem cores_execEvmapWrite (by_ : Nat) (e : Nat) (k : Nat) (data : Word32) (s : State) :
    Keeps s (execEvmapWrite by_ e k data s) := by
  unfold execEvmapWrite; simp
@[simp] theorem cores_execEngSignalWrite (by_ : Nat) (e : Nat) (data : Word32) (s : State) :
    Keeps s (execEngSignalWrite by_ e data s) := by
  unfold execEngSignalWrite; simp

/-! ## Machine/Boot.lean -/

@[simp] theorem cores_execPwrgoodRise (s : State) :
    Keeps s (execPwrgoodRise s) := by
  unfold execPwrgoodRise; simp
@[simp] theorem cores_execResetNFall (s : State) :
    Keeps s (execResetNFall s) := by
  unfold execResetNFall; simp
@[simp] theorem cores_execResetNRise (s : State) :
    Keeps s (execResetNRise s) := by
  unfold execResetNRise; simp
@[simp] theorem cores_secArea (s : State) (bad : Bool) :
    (State.secArea s bad).cores = s.cores := by
  unfold State.secArea; simp
@[simp] theorem cores_execResetRelease (secAreaBad : Bool) (s : State) :
    Keeps s (execResetRelease secAreaBad s) := by
  unfold execResetRelease; simp
@[simp] theorem cores_execTapReset (low : Bool) (s : State) :
    Keeps s (execTapReset low s) := by
  unfold execTapReset; simp
@[simp] theorem cores_execThermAssert (d : Nat) (k : Nat) (s : State) :
    Keeps s (execThermAssert d k s) := by
  unfold execThermAssert; simp
@[simp] theorem cores_execThermRelease (s : State) :
    Keeps s (execThermRelease s) := by
  unfold execThermRelease; simp
@[simp] theorem cores_execClkoSupplyChange (low : Bool) (s : State) :
    Keeps s (execClkoSupplyChange low s) := by
  unfold execClkoSupplyChange; simp

/-! ## Machine/Func.lean -/

theorem cores_reach {s : State} {e a : Nat} {f : State → State} (h : ∀ u : State, (f u).cores = u.cores) :
    (s.reach e a f).cores = s.cores := by
  unfold State.reach; simp [h]

@[simp] theorem cores_noteFn (s : State) (e : Nat) (a : Nat) :
    (State.noteFn s e a).cores = s.cores := by
  unfold State.noteFn; simp
@[simp] theorem cores_execEventOccurrence (src : EvSource) (s : State) :
    Keeps s (execEventOccurrence src s) := by
  unfold execEventOccurrence; (repeat' split) <;> simp
@[simp] theorem cores_execEventMessageArrive (e : Nat) (line : Nat) (s : State) :
    Keeps s (execEventMessageArrive e line s) := by
  unfold execEventMessageArrive; (repeat' split) <;> simp

/-! ## Machine/Debug.lean -/

@[simp] theorem keeps_onTap {s : State} {f : State → State} (hf : (f s).cores = s.cores) :
    Keeps s (onTap s f) := by unfold onTap; simp [hf]

@[simp] theorem cores_tapSet (s : State) (ir : Nat) (out : Nat) :
    (State.tapSet s ir out).cores = s.cores := by
  unfold State.tapSet; simp
@[simp] theorem cores_execIdcode (s : State) :
    Keeps s (execIdcode s) := by
  unfold execIdcode; simp
@[simp] theorem cores_execSamplePreload (pins : List Bool) (preload : List Bool) (s : State) :
    Keeps s (execSamplePreload pins preload s) := by
  unfold execSamplePreload; simp
@[simp] theorem cores_execExtest (pins : List Bool) (drive : List Bool) (s : State) :
    Keeps s (execExtest pins drive s) := by
  unfold execExtest; simp
@[simp] theorem cores_execClamp (s : State) :
    Keeps s (execClamp s) := by
  unfold execClamp; simp
@[simp] theorem cores_execHighz (s : State) :
    Keeps s (execHighz s) := by
  unfold execHighz; simp
@[simp] theorem cores_execBypass (s : State) :
    Keeps s (execBypass s) := by
  unfold execBypass; simp
@[simp] theorem cores_execDbgChal (s : State) :
    Keeps s (execDbgChal s) := by
  unfold execDbgChal; simp
@[simp] theorem cores_dbgAttempt (s : State) (matches_ : Bool) :
    (State.dbgAttempt s matches_).cores = s.cores := by
  unfold State.dbgAttempt; simp
@[simp] theorem cores_execDbgResp (resp : BitVec 256) (s : State) :
    Keeps s (execDbgResp resp s) := by
  unfold execDbgResp; refine keeps_onTap ?_; (repeat' split) <;> simp
@[simp] theorem cores_execDbgPwd (len : Nat) (bytes : List Byte) (s : State) :
    Keeps s (execDbgPwd len bytes s) := by
  unfold execDbgPwd; simp
@[simp] theorem cores_execDbgStatus (s : State) :
    Keeps s (execDbgStatus s) := by
  unfold execDbgStatus; simp
@[simp] theorem cores_execDbgHoldExpire (s : State) :
    Keeps s (execDbgHoldExpire s) := by
  unfold execDbgHoldExpire; (repeat' split) <;> simp
@[simp] theorem cores_execNonceExpire (s : State) :
    Keeps s (execNonceExpire s) := by
  unfold execNonceExpire; (repeat' split) <;> simp
@[simp] theorem cores_execDbgEng (e : Nat) (op : DbgOp) (s : State) :
    Keeps s (execDbgEng e op s) := by
  unfold execDbgEng; (repeat' split) <;> simp

/-! ## Machine/Rom.lean -/

/-- With no ROM-resident program running, none changes anything. -/
theorem cores_romTick {s : State} (h : s.rom.progs = []) : s.romTick.cores = s.cores := by
  unfold State.romTick; rw [if_pos h]

/-! ## Machine/Idle.lean -/

@[simp] theorem cores_idleTick (s : State) (p : Nat) :
    (State.idleTick s p).cores = s.cores := by
  unfold State.idleTick; simp
@[simp] theorem cores_issueCycles (s : State) (d n : Nat) : (State.issueCycles s d n).cores = s.cores := by
  unfold State.issueCycles
  simp only [cores_setPerf]
  exact cores_foldl _ _ (fun u k => by split <;> simp) s
@[simp] theorem cores_cycleTick (s : State) (d : Nat) :
    (State.cycleTick s d).cores = s.cores := by
  unfold State.cycleTick; simp
@[simp] theorem cores_dieTick (s : State) (d : Nat) :
    (State.dieTick s d).cores = s.cores := by
  unfold State.dieTick; simp

end Sys2Proof.Machine
end

