-- ==== Sys2Proof/Laws/Alone.lean ====
section
/-!
SUPPORT. What an engine's instruction leaves alone of the other engines: their programs' state, `State.cores`.
-/
namespace Sys2Proof.Machine

/-- All but the value at `e`. -/
def butAt {α : Type} (e : Nat) (f : Nat → α) : Nat → Option α := fun x => if x = e then none else some (f x)

/-- The outcome, where it is a next state, has the programs' state of `s` on every engine but `e`. -/
def Alone (e : Nat) (s : State) (o : Out) : Prop := ∀ t, o = .next t → butAt e t.cores = butAt e s.cores

theorem butAt_eq {α : Type} {e : Nat} {f g : Nat → α} (h : butAt e f = butAt e g) {x : Nat} (hx : x ≠ e) : f x = g x := by
  have := congrFun h x
  simpa [butAt, hx] using this

@[simp] theorem butAt_setEng (s : State) (e : Nat) (g : Engine) : butAt e (s.setEng e g).cores = butAt e s.cores := by
  funext x
  unfold butAt State.cores
  split
  · rfl
  · rename_i h
    rw [show (s.setEng e g).eng x = if e = x then g else s.eng x from Store.get_put _ _ _ _ _, if_neg fun h' => h h'.symm]

@[simp] theorem butAt_ite {α : Type} (e : Nat) (c : Prop) [Decidable c] (a b : Nat → α) :
    butAt e (if c then a else b) = if c then butAt e a else butAt e b := by split <;> rfl
@[simp] theorem alone_next (e : Nat) (s t : State) : Alone e s (.next t) ↔ butAt e t.cores = butAt e s.cores :=
  ⟨fun h => h t rfl, fun h u x => by cases x; exact h⟩
@[simp] theorem alone_fault (e : Nat) (s : State) (f : Fault) : Alone e s (.fault f) := fun _ x => by cases x
@[simp] theorem alone_ite (e : Nat) (s : State) (c : Prop) [Decidable c] (a b : Out) :
    Alone e s (if c then a else b) ↔ if c then Alone e s a else Alone e s b := by split <;> rfl
theorem Alone.trans {e : Nat} {s t : State} {o : Out} (h : Alone e t o) (x : butAt e t.cores = butAt e s.cores) :
    Alone e s o := fun u hu => (h u hu).trans x
theorem Keeps.alone {e : Nat} {s : State} {o : Out} (h : Keeps s o) : Alone e s o := fun t ht => by rw [h t ht]

/-! ## Machine/Ops.lean -/

@[simp] theorem alone_engFault (s : State) (e : Nat) (code : Nat) :
    butAt e (State.engFault s e code).cores = butAt e s.cores := by
  unfold State.engFault; simp
@[simp] theorem alone_trapAt (s : State) (e : Nat) (cause : Nat) :
    butAt e (State.trapAt s e cause).cores = butAt e s.cores := by
  unfold State.trapAt; simp
@[simp] theorem alone_setPv (s : State) (e : Nat) :
    butAt e (State.setPv s e).cores = butAt e s.cores := by
  unfold State.setPv; simp
@[simp] theorem alone_failAt (s : State) (e : Nat) (cause : Nat) :
    butAt e (State.failAt s e cause).cores = butAt e s.cores := by
  unfold State.failAt; simp
@[simp] theorem alone_takeHeld (s : State) (e : Nat) (h : HeldTrap) :
    butAt e (State.takeHeld s e h).cores = butAt e s.cores := by
  unfold State.takeHeld; simp
@[simp] theorem alone_boundary (s : State) (e : Nat) (wasInRegion : Bool) :
    butAt e (State.boundary s e wasInRegion).cores = butAt e s.cores := by
  unfold State.boundary; dsimp only; (repeat' split) <;> simp
@[simp] theorem alone_completeTo (s : State) (e : Nat) (next : BitVec 16) :
    butAt e (State.completeTo s e next).cores = butAt e s.cores := by
  unfold State.completeTo; simp
@[simp] theorem alone_complete (s : State) (e : Nat) :
    butAt e (State.complete s e).cores = butAt e s.cores := by
  unfold State.complete; simp
@[simp] theorem alone_doneWith (s : State) (e : Nat) (g : Engine) :
    butAt e (State.doneWith s e g).cores = butAt e s.cores := by
  unfold State.doneWith; simp
@[simp] theorem alone_dmemTouch (s : State) (e : Nat) (a : Nat) (n : Nat) :
    butAt e (State.dmemTouch s e a n).cores = butAt e s.cores := by
  unfold State.dmemTouch; simp
@[simp] theorem alone_dmemPart (s : State) (e : Nat) (a : Nat) (n : Nat) :
    butAt e (State.dmemPart s e a n).cores = butAt e s.cores := by
  unfold State.dmemPart; split <;> simp

theorem alone_issueQuiet {e : Nat} {s : State} {f : State → Out} (h : ∀ u, Alone e u (f u)) :
    Alone e s (issueQuiet e s f) := by
  unfold issueQuiet
  simp only [alone_ite, alone_fault, alone_next]
  split
  · trivial
  · split
    · trivial
    · split
      · exact (h _).trans (by simp)
      · exact (h _).trans (by simp)
      · simp

theorem alone_issue {e : Nat} {s : State} {f : State → Out} (h : ∀ u, Alone e u (f u)) :
    Alone e s (issue e s f) := alone_issueQuiet fun u => (h _).trans (by simp)

/-! ## Machine/Alu.lean -/

@[simp] theorem alone_alu (e : Nat) (rd : Reg) (rs1 : Reg) (rs2 : Reg) (op : Word → Word → Word) (fl : Flags → Word → Word → Flags) (s : State) :
    Alone e s (alu e rd rs1 rs2 op fl s) := by
  unfold alu; refine alone_issueQuiet fun u => ?_; simp
@[simp] theorem alone_aluImm (e : Nat) (rd : Reg) (rs1 : Reg) (b : Word) (op : Word → Word → Word) (fl : Flags → Word → Word → Flags) (s : State) :
    Alone e s (aluImm e rd rs1 b op fl s) := by
  unfold aluImm; refine alone_issueQuiet fun u => ?_; simp
@[simp] theorem alone_aluMove (e : Nat) (rd : Reg) (val : Word → Word) (s : State) :
    Alone e s (aluMove e rd val s) := by
  unfold aluMove; refine alone_issueQuiet fun u => ?_; simp
@[simp] theorem alone_execNop (e : Nat) (s : State) :
    Alone e s (execNop e s) := by
  unfold execNop; refine alone_issueQuiet fun u => ?_; simp
@[simp] theorem alone_execAdd (e : Nat) (rd : Reg) (rs1 : Reg) (rs2 : Reg) (s : State) :
    Alone e s (execAdd e rd rs1 rs2 s) := by
  unfold execAdd; simp
@[simp] theorem alone_execSub (e : Nat) (rd : Reg) (rs1 : Reg) (rs2 : Reg) (s : State) :
    Alone e s (execSub e rd rs1 rs2 s) := by
  unfold execSub; simp
@[simp] theorem alone_execAnd (e : Nat) (rd : Reg) (rs1 : Reg) (rs2 : Reg) (s : State) :
    Alone e s (execAnd e rd rs1 rs2 s) := by
  unfold execAnd; simp
@[simp] theorem alone_execOr (e : Nat) (rd : Reg) (rs1 : Reg) (rs2 : Reg) (s : State) :
    Alone e s (execOr e rd rs1 rs2 s) := by
  unfold execOr; simp
@[simp] theorem alone_execXor (e : Nat) (rd : Reg) (rs1 : Reg) (rs2 : Reg) (s : State) :
    Alone e s (execXor e rd rs1 rs2 s) := by
  unfold execXor; simp
@[simp] theorem alone_execSll (e : Nat) (rd : Reg) (rs1 : Reg) (rs2 : Reg) (s : State) :
    Alone e s (execSll e rd rs1 rs2 s) := by
  unfold execSll; simp
@[simp] theorem alone_execSrl (e : Nat) (rd : Reg) (rs1 : Reg) (rs2 : Reg) (s : State) :
    Alone e s (execSrl e rd rs1 rs2 s) := by
  unfold execSrl; simp
@[simp] theorem alone_execSra (e : Nat) (rd : Reg) (rs1 : Reg) (rs2 : Reg) (s : State) :
    Alone e s (execSra e rd rs1 rs2 s) := by
  unfold execSra; simp
@[simp] theorem alone_execMul (e : Nat) (rd : Reg) (rs1 : Reg) (rs2 : Reg) (s : State) :
    Alone e s (execMul e rd rs1 rs2 s) := by
  unfold execMul; simp
@[simp] theorem alone_execMulhu (e : Nat) (rd : Reg) (rs1 : Reg) (rs2 : Reg) (s : State) :
    Alone e s (execMulhu e rd rs1 rs2 s) := by
  unfold execMulhu; simp
@[simp] theorem alone_execMulhs (e : Nat) (rd : Reg) (rs1 : Reg) (rs2 : Reg) (s : State) :
    Alone e s (execMulhs e rd rs1 rs2 s) := by
  unfold execMulhs; simp
@[simp] theorem alone_execDivu (e : Nat) (rd : Reg) (rs1 : Reg) (rs2 : Reg) (s : State) :
    Alone e s (execDivu e rd rs1 rs2 s) := by
  unfold execDivu; simp
@[simp] theorem alone_execRemu (e : Nat) (rd : Reg) (rs1 : Reg) (rs2 : Reg) (s : State) :
    Alone e s (execRemu e rd rs1 rs2 s) := by
  unfold execRemu; simp
@[simp] theorem alone_execClz (e : Nat) (rd : Reg) (rs1 : Reg) (s : State) :
    Alone e s (execClz e rd rs1 s) := by
  unfold execClz; simp
@[simp] theorem alone_execPopc (e : Nat) (rd : Reg) (rs1 : Reg) (s : State) :
    Alone e s (execPopc e rd rs1 s) := by
  unfold execPopc; simp
@[simp] theorem alone_execAddi (e : Nat) (rd : Reg) (rs1 : Reg) (imm : Imm16) (s : State) :
    Alone e s (execAddi e rd rs1 imm s) := by
  unfold execAddi; simp
@[simp] theorem alone_execAndi (e : Nat) (rd : Reg) (rs1 : Reg) (imm : Imm16) (s : State) :
    Alone e s (execAndi e rd rs1 imm s) := by
  unfold execAndi; simp
@[simp] theorem alone_execOri (e : Nat) (rd : Reg) (rs1 : Reg) (imm : Imm16) (s : State) :
    Alone e s (execOri e rd rs1 imm s) := by
  unfold execOri; simp
@[simp] theorem alone_execXori (e : Nat) (rd : Reg) (rs1 : Reg) (imm : Imm16) (s : State) :
    Alone e s (execXori e rd rs1 imm s) := by
  unfold execXori; simp
@[simp] theorem alone_execShi (e : Nat) (rd : Reg) (rs1 : Reg) (op : ShiftOp) (sh : BitVec 6) (s : State) :
    Alone e s (execShi e rd rs1 op sh s) := by
  unfold execShi; simp
@[simp] theorem alone_execCmpi (e : Nat) (rs1 : Reg) (imm : Imm16) (s : State) :
    Alone e s (execCmpi e rs1 imm s) := by
  unfold execCmpi; simp
@[simp] theorem alone_execMovz (e : Nat) (rd : Reg) (imm : Imm16) (k : BitVec 2) (s : State) :
    Alone e s (execMovz e rd imm k s) := by
  unfold execMovz; simp
@[simp] theorem alone_execMovk (e : Nat) (rd : Reg) (imm : Imm16) (k : BitVec 2) (s : State) :
    Alone e s (execMovk e rd imm k s) := by
  unfold execMovk; simp

/-! ## Machine/Mem.lean -/

@[simp] theorem alone_loadFrom (e : Nat) (rs1 : Reg) (imm : Imm16) (n : Nat) (put : Engine → Nat → Engine) (s : State) :
    Alone e s (loadFrom e rs1 imm n put s) := by
  unfold loadFrom; refine alone_issueQuiet fun u => ?_; dsimp only; (repeat' split) <;> simp
@[simp] theorem alone_storeTo (e : Nat) (rs1 : Reg) (imm : Imm16) (n : Nat) (val : Engine → Nat) (s : State) :
    Alone e s (storeTo e rs1 imm n val s) := by
  unfold storeTo; refine alone_issueQuiet fun u => ?_; dsimp only; (repeat' split) <;> simp
@[simp] theorem alone_execLd8u (e : Nat) (rd : Reg) (rs1 : Reg) (imm : Imm16) (s : State) :
    Alone e s (execLd8u e rd rs1 imm s) := by
  unfold execLd8u; simp
@[simp] theorem alone_execLd16u (e : Nat) (rd : Reg) (rs1 : Reg) (imm : Imm16) (s : State) :
    Alone e s (execLd16u e rd rs1 imm s) := by
  unfold execLd16u; simp
@[simp] theorem alone_execLd32u (e : Nat) (rd : Reg) (rs1 : Reg) (imm : Imm16) (s : State) :
    Alone e s (execLd32u e rd rs1 imm s) := by
  unfold execLd32u; simp
@[simp] theorem alone_execLd64 (e : Nat) (rd : Reg) (rs1 : Reg) (imm : Imm16) (s : State) :
    Alone e s (execLd64 e rd rs1 imm s) := by
  unfold execLd64; simp
@[simp] theorem alone_execLd8s (e : Nat) (rd : Reg) (rs1 : Reg) (imm : Imm16) (s : State) :
    Alone e s (execLd8s e rd rs1 imm s) := by
  unfold execLd8s; simp
@[simp] theorem alone_execLd16s (e : Nat) (rd : Reg) (rs1 : Reg) (imm : Imm16) (s : State) :
    Alone e s (execLd16s e rd rs1 imm s) := by
  unfold execLd16s; simp
@[simp] theorem alone_execLd32s (e : Nat) (rd : Reg) (rs1 : Reg) (imm : Imm16) (s : State) :
    Alone e s (execLd32s e rd rs1 imm s) := by
  unfold execLd32s; simp
@[simp] theorem alone_execSt8 (e : Nat) (rd : Reg) (rs1 : Reg) (imm : Imm16) (s : State) :
    Alone e s (execSt8 e rd rs1 imm s) := by
  unfold execSt8; simp
@[simp] theorem alone_execSt16 (e : Nat) (rd : Reg) (rs1 : Reg) (imm : Imm16) (s : State) :
    Alone e s (execSt16 e rd rs1 imm s) := by
  unfold execSt16; simp
@[simp] theorem alone_execSt32 (e : Nat) (rd : Reg) (rs1 : Reg) (imm : Imm16) (s : State) :
    Alone e s (execSt32 e rd rs1 imm s) := by
  unfold execSt32; simp
@[simp] theorem alone_execSt64 (e : Nat) (rd : Reg) (rs1 : Reg) (imm : Imm16) (s : State) :
    Alone e s (execSt64 e rd rs1 imm s) := by
  unfold execSt64; simp
@[simp] theorem alone_execLdt (e : Nat) (td : TReg) (rs1 : Reg) (imm : Imm16) (s : State) :
    Alone e s (execLdt e td rs1 imm s) := by
  unfold execLdt; simp
@[simp] theorem alone_execStt (e : Nat) (ts : TReg) (rs1 : Reg) (imm : Imm16) (s : State) :
    Alone e s (execStt e ts rs1 imm s) := by
  unfold execStt; simp

/-! ## Machine/TimeInstr.lean -/

@[simp] theorem alone_timeOp (e : Nat) (td : TReg) (val : Engine → XT × Bool) (s : State) :
    Alone e s (timeOp e td val s) := by
  unfold timeOp; refine alone_issueQuiet fun u => ?_; simp
@[simp] theorem alone_execTnow (e : Nat) (td : TReg) (s : State) :
    Alone e s (execTnow e td s) := by
  unfold execTnow; simp
@[simp] theorem alone_execTnowTk (e : Nat) (rd : Reg) (s : State) :
    Alone e s (execTnowTk e rd s) := by
  unfold execTnowTk; refine alone_issueQuiet fun u => ?_; simp
@[simp] theorem alone_execTadd (e : Nat) (td : TReg) (ts1 : TReg) (rs2 : Reg) (s : State) :
    Alone e s (execTadd e td ts1 rs2 s) := by
  unfold execTadd; simp
@[simp] theorem alone_execTsub (e : Nat) (rd : Reg) (ts1 : TReg) (ts2 : TReg) (s : State) :
    Alone e s (execTsub e rd ts1 ts2 s) := by
  unfold execTsub; refine alone_issueQuiet fun u => ?_; simp
@[simp] theorem alone_execTcmp (e : Nat) (ts1 : TReg) (ts2 : TReg) (s : State) :
    Alone e s (execTcmp e ts1 ts2 s) := by
  unfold execTcmp; refine alone_issueQuiet fun u => ?_; simp
@[simp] theorem alone_execTcvtPack (e : Nat) (td : TReg) (rs1 : Reg) (rs2 : Reg) (s : State) :
    Alone e s (execTcvtPack e td rs1 rs2 s) := by
  unfold execTcvtPack; simp
@[simp] theorem alone_execTcvtSec (e : Nat) (rd : Reg) (ts1 : TReg) (s : State) :
    Alone e s (execTcvtSec e rd ts1 s) := by
  unfold execTcvtSec; refine alone_issueQuiet fun u => ?_; simp
@[simp] theorem alone_execTcvtLo (e : Nat) (rd : Reg) (ts1 : TReg) (s : State) :
    Alone e s (execTcvtLo e rd ts1 s) := by
  unfold execTcvtLo; refine alone_issueQuiet fun u => ?_; simp
@[simp] theorem alone_execTcvtMov (e : Nat) (td : TReg) (ts1 : TReg) (s : State) :
    Alone e s (execTcvtMov e td ts1 s) := by
  unfold execTcvtMov; refine alone_issueQuiet fun u => ?_; simp

/-! ## Machine/Control.lean -/

@[simp] theorem alone_execIllegal (e : Nat) (w : Word32) (s : State) :
    Alone e s (execIllegal e w s) := by
  unfold execIllegal; refine alone_issueQuiet fun u => ?_; simp
@[simp] theorem alone_execB (e : Nat) (cc : Cond) (imm : Imm16) (s : State) :
    Alone e s (execB e cc imm s) := by
  unfold execB; refine alone_issueQuiet fun u => ?_; simp
@[simp] theorem alone_execCall (e : Nat) (rd : Reg) (imm : Imm16) (s : State) :
    Alone e s (execCall e rd imm s) := by
  unfold execCall; refine alone_issueQuiet fun u => ?_; simp
@[simp] theorem alone_execJalr (e : Nat) (rd : Reg) (rs1 : Reg) (imm : Imm16) (s : State) :
    Alone e s (execJalr e rd rs1 imm s) := by
  unfold execJalr; refine alone_issueQuiet fun u => ?_; simp
@[simp] theorem alone_execRdf (e : Nat) (rd : Reg) (s : State) :
    Alone e s (execRdf e rd s) := by
  unfold execRdf; refine alone_issueQuiet fun u => ?_; simp
@[simp] theorem alone_execWrf (e : Nat) (rs1 : Reg) (s : State) :
    Alone e s (execWrf e rs1 s) := by
  unfold execWrf; refine alone_issueQuiet fun u => ?_; simp
@[simp] theorem alone_execClf (e : Nat) (mask : BitVec 6) (s : State) :
    Alone e s (execClf e mask s) := by
  unfold execClf; refine alone_issueQuiet fun u => ?_; simp
@[simp] theorem alone_waitReturn (s : State) (e : Nat) (rd : Reg) (mask : Word) :
    butAt e (State.waitReturn s e rd mask).cores = butAt e s.cores := by
  unfold State.waitReturn; simp
@[simp] theorem alone_waitExpire (s : State) (e : Nat) (rd : Reg) :
    butAt e (State.waitExpire s e rd).cores = butAt e s.cores := by
  unfold State.waitExpire; simp
@[simp] theorem alone_waitIssued (s : State) (e : Nat) :
    butAt e (State.waitIssued s e).cores = butAt e s.cores := by
  unfold State.waitIssued; simp
@[simp] theorem alone_waitFirst (s : State) (e : Nat) (rd : Reg) (mask : Word) (due : Bool) (h : Hold) :
    butAt e (State.waitFirst s e rd mask due h).cores = butAt e s.cores := by
  unfold State.waitFirst; simp
@[simp] theorem alone_execWait (e : Nat) (rd : Reg) (rs1 : Reg) (rs2 : Reg) (s : State) :
    Alone e s (execWait e rd rs1 rs2 s) := by
  unfold execWait; refine alone_issueQuiet fun u => ?_; simp
@[simp] theorem alone_execWaitT (e : Nat) (rd : Reg) (rs1 : Reg) (ts2 : TReg) (s : State) :
    Alone e s (execWaitT e rd rs1 ts2 s) := by
  unfold execWaitT; refine alone_issueQuiet fun u => ?_; simp
@[simp] theorem alone_execWaitHit (e : Nat) (s : State) :
    Alone e s (execWaitHit e s) := by
  unfold execWaitHit; (repeat' split) <;> simp
@[simp] theorem alone_execWaitTimeout (e : Nat) (s : State) :
    Alone e s (execWaitTimeout e s) := by
  unfold execWaitTimeout; (repeat' split) <;> simp
@[simp] theorem alone_execTrap (e : Nat) (n : BitVec 6) (s : State) :
    Alone e s (execTrap e n s) := by
  unfold execTrap; refine alone_issueQuiet fun u => ?_; simp
@[simp] theorem alone_haltNow (s : State) (e : Nat) :
    butAt e (State.haltNow s e).cores = butAt e s.cores := by
  unfold State.haltNow; simp
@[simp] theorem alone_execFence (e : Nat) (s : State) :
    Alone e s (execFence e s) := by
  unfold execFence; refine alone_issueQuiet fun u => ?_; simp
@[simp] theorem alone_execHalt (e : Nat) (s : State) :
    Alone e s (execHalt e s) := by
  unfold execHalt; refine alone_issueQuiet fun u => ?_; simp
@[simp] theorem alone_fenceCheck (s : State) (e : Nat) :
    butAt e (State.fenceCheck s e).cores = butAt e s.cores := by
  unfold State.fenceCheck; dsimp only; (repeat' split) <;> simp
@[simp] theorem alone_postedFailed (s : State) (e : Nat) (cause : Nat) (pc : BitVec 16) :
    butAt e (State.postedFailed s e cause pc).cores = butAt e s.cores := by
  unfold State.postedFailed; dsimp only; (repeat' split) <;> simp
@[simp] theorem alone_execPostedAckArrive (e : Nat) (k : Nat) (s : State) :
    Alone e s (execPostedAckArrive e k s) := by
  unfold execPostedAckArrive; dsimp only; (repeat' split) <;> simp

/-! ## Machine/Comm.lean -/

@[simp] theorem alone_execSend (e : Nat) (rs1 : Reg) (rs2 : Reg) (s : State) :
    Alone e s (execSend e rs1 rs2 s) := by
  unfold execSend; refine alone_issueQuiet fun u => ?_; dsimp only; (repeat' split) <;> simp
@[simp] theorem alone_injectSend (s : State) (e : Nat) (w : Word) (a : Nat) :
    butAt e (State.injectSend s e w a).cores = butAt e s.cores := by
  unfold State.injectSend; simp
@[simp] theorem alone_execRecv (e : Nat) (rd : Reg) (rs1 : Reg) (rs2 : Reg) (s : State) :
    Alone e s (execRecv e rd rs1 rs2 s) := by
  unfold execRecv; refine alone_issueQuiet fun u => ?_; dsimp only; (repeat' split) <;> simp
@[simp] theorem alone_execMbx (e : Nat) (rd : Reg) (rs1 : Reg) (imm : Imm16) (s : State) :
    Alone e s (execMbx e rd rs1 imm s) := by
  unfold execMbx; refine alone_issueQuiet fun u => ?_; dsimp only; (repeat' split) <;> simp

/-! ## Machine/Func.lean -/

theorem alone_issuePosted {e : Nat} {s : State} {addr : Engine → Nat} {f : State → Nat → Out}
    (h : ∀ u a, Alone e u (f u a)) : Alone e s (issuePosted e s addr f) := by
  unfold issuePosted
  simp only [alone_ite, alone_next]
  split
  · trivial
  · refine alone_issue fun u => ?_
    simp only [alone_ite, alone_next, alone_trapAt]
    split
    · trivial
    · exact h _ _

theorem alone_issueBlocking {e : Nat} {s : State} {addr : Engine → Nat} {zero : Engine → Engine} {f : State → Nat → Out}
    (h : ∀ u a, Alone e u (f u a)) : Alone e s (issueBlocking e s addr zero f) := by
  unfold issueBlocking
  refine alone_issue fun u => ?_
  simp only [alone_ite, alone_next, alone_trapAt, butAt_setEng]
  split
  · trivial
  · exact h _ _

theorem alone_issueTbl {e : Nat} {rs1 : Reg} {ok : State → Engine → Nat → Bool} {f : State → Nat → Out} {s : State}
    (h : ∀ u a, Alone e u (f u a)) : Alone e s (issueTbl e rs1 ok f s) := by
  unfold issueTbl
  refine alone_issueBlocking fun u a => ?_
  simp only [alone_ite, alone_next, alone_trapAt]
  split
  · exact h _ _
  · trivial

theorem alone_reach {s : State} {e a : Nat} {f : State → State} (h : ∀ u, (f u).cores = u.cores) :
    butAt e (s.reach e a f).cores = butAt e s.cores := by
  unfold State.reach; simp [h]

@[simp] theorem alone_pushPosted (s : State) (e : Nat) (addr : Nat) (width : Nat) (data : Nat) :
    butAt e (State.pushPosted s e addr width data).cores = butAt e s.cores := by
  unfold State.pushPosted; simp
@[simp] theorem alone_storeFun (e : Nat) (rs1 : Reg) (imm : Imm16) (width : Nat) (val : Engine → Nat) (s : State) :
    Alone e s (storeFun e rs1 imm width val s) := by
  unfold storeFun; refine alone_issuePosted fun u a => ?_; simp
@[simp] theorem alone_await (s : State) (e : Nat) (op : BlockOp) (addr : Nat) :
    butAt e (State.await s e op addr).cores = butAt e s.cores := by
  unfold State.await; simp
@[simp] theorem alone_loadFun (e : Nat) (rs1 : Reg) (imm : Imm16) (op : BlockOp) (zero : Engine → Engine) (s : State) :
    Alone e s (loadFun e rs1 imm op zero s) := by
  unfold loadFun; refine alone_issue fun u => ?_; simp
@[simp] theorem alone_execFld32 (e : Nat) (rd : Reg) (rs1 : Reg) (imm : Imm16) (s : State) :
    Alone e s (execFld32 e rd rs1 imm s) := by
  unfold execFld32; simp
@[simp] theorem alone_execFld64 (e : Nat) (rd : Reg) (rs1 : Reg) (imm : Imm16) (s : State) :
    Alone e s (execFld64 e rd rs1 imm s) := by
  unfold execFld64; simp
@[simp] theorem alone_execFldt (e : Nat) (td : TReg) (rs1 : Reg) (imm : Imm16) (s : State) :
    Alone e s (execFldt e td rs1 imm s) := by
  unfold execFldt; simp
@[simp] theorem alone_execFst32 (e : Nat) (rd : Reg) (rs1 : Reg) (imm : Imm16) (s : State) :
    Alone e s (execFst32 e rd rs1 imm s) := by
  unfold execFst32; simp
@[simp] theorem alone_execFst64 (e : Nat) (rd : Reg) (rs1 : Reg) (imm : Imm16) (s : State) :
    Alone e s (execFst64 e rd rs1 imm s) := by
  unfold execFst64; simp
@[simp] theorem alone_execFstt (e : Nat) (ts : TReg) (rs1 : Reg) (imm : Imm16) (s : State) :
    Alone e s (execFstt e ts rs1 imm s) := by
  unfold execFstt; simp
@[simp] theorem alone_execFnStop (e : Nat) (rs1 : Reg) (s : State) :
    Alone e s (execFnStop e rs1 s) := by
  unfold execFnStop
  split
  · split
    · exact (alone_execHalt _ _).trans (by simp)
    · exact alone_execHalt _ _
  · exact alone_issuePosted fun u a => by simp
@[simp] theorem alone_execFnStart (e : Nat) (rd : Reg) (rs1 : Reg) (s : State) :
    Alone e s (execFnStart e rd rs1 s) := by
  unfold execFnStart; refine alone_issue fun u => ?_; simp
@[simp] theorem alone_execFnStat (e : Nat) (rd : Reg) (rs1 : Reg) (s : State) :
    Alone e s (execFnStat e rd rs1 s) := by
  unfold execFnStat; refine alone_issue fun u => ?_; simp
@[simp] theorem alone_execTblSrch (e : Nat) (rd : Reg) (rs1 : Reg) (rs2 : Reg) (s : State) :
    Alone e s (execTblSrch e rd rs1 rs2 s) := by
  unfold execTblSrch; refine alone_issueTbl fun u a => ?_; simp
@[simp] theorem alone_execTblNext (e : Nat) (rd : Reg) (rs1 : Reg) (rs2 : Reg) (s : State) :
    Alone e s (execTblNext e rd rs1 rs2 s) := by
  unfold execTblNext; refine alone_issueTbl fun u a => ?_; simp
@[simp] theorem alone_execTblFlush (e : Nat) (rd : Reg) (rs1 : Reg) (rs2 : Reg) (s : State) :
    Alone e s (execTblFlush e rd rs1 rs2 s) := by
  unfold execTblFlush
  split
  · simp
  · refine alone_issueTbl fun u a => ?_
    rw [alone_next, alone_reach]
    · simp
    · intro v; split <;> simp
@[simp] theorem alone_execTblCmd (e : Nat) (rd : Reg) (rs1 : Reg) (rs2 : Reg) (s : State) :
    Alone e s (execTblCmd e rd rs1 rs2 s) := by
  unfold execTblCmd
  split
  · simp
  · refine alone_issueTbl fun u a => ?_
    dsimp only
    split
    · simp
    · rw [alone_next, alone_reach]
      · simp
      · intro v; split <;> simp
@[simp] theorem alone_accept (s : State) (e : Nat) (addr : Nat) (op : BlockOp) (v : Nat) :
    butAt e (State.accept s e addr op v).cores = butAt e s.cores := by
  unfold State.accept; (repeat' split) <;> simp
@[simp] theorem alone_respond (s : State) (e : Nat) (addr : Nat) (op : BlockOp) (r : Resp) :
    butAt e (State.respond s e addr op r).cores = butAt e s.cores := by
  unfold State.respond; simp

end Sys2Proof.Machine
end

