-- ==== Sys2Proof/Laws/State.lean ====
section
/-!
SUPPORT. One lemma for every field of State under every basic update: what the update leaves alone, all true by rfl, and
what an accessor reads after it.
-/
namespace Sys2Proof.Machine

/-! ### State.wf changes `regs` alone -/

@[simp] theorem State.wf_part (s : State) (f : Fld) (die inst v : Nat) : (s.wf f die inst v).part = s.part := rfl
@[simp] theorem State.wf_pins (s : State) (f : Fld) (die inst v : Nat) : (s.wf f die inst v).pins = s.pins := rfl
@[simp] theorem State.wf_resets (s : State) (f : Fld) (die inst v : Nat) : (s.wf f die inst v).resets = s.resets := rfl
@[simp] theorem State.wf_otp (s : State) (f : Fld) (die inst v : Nat) : (s.wf f die inst v).otp = s.otp := rfl
@[simp] theorem State.wf_secNvs (s : State) (f : Fld) (die inst v : Nat) : (s.wf f die inst v).secNvs = s.secNvs := rfl
@[simp] theorem State.wf_sec (s : State) (f : Fld) (die inst v : Nat) : (s.wf f die inst v).sec = s.sec := rfl
@[simp] theorem State.wf_engs (s : State) (f : Fld) (die inst v : Nat) : (s.wf f die inst v).engs = s.engs := rfl
@[simp] theorem State.wf_inForce (s : State) (f : Fld) (die inst v : Nat) : (s.wf f die inst v).inForce = s.inForce := rfl
@[simp] theorem State.wf_stopAt (s : State) (f : Fld) (die inst v : Nat) : (s.wf f die inst v).stopAt = s.stopAt := rfl
@[simp] theorem State.wf_own (s : State) (f : Fld) (die inst v : Nat) : (s.wf f die inst v).own = s.own := rfl
@[simp] theorem State.wf_hosts (s : State) (f : Fld) (die inst v : Nat) : (s.wf f die inst v).hosts = s.hosts := rfl
@[simp] theorem State.wf_nvs (s : State) (f : Fld) (die inst v : Nat) : (s.wf f die inst v).nvs = s.nvs := rfl
@[simp] theorem State.wf_cals (s : State) (f : Fld) (die inst v : Nat) : (s.wf f die inst v).cals = s.cals := rfl
@[simp] theorem State.wf_ridges (s : State) (f : Fld) (die inst v : Nat) : (s.wf f die inst v).ridges = s.ridges := rfl
@[simp] theorem State.wf_plls (s : State) (f : Fld) (die inst v : Nat) : (s.wf f die inst v).plls = s.plls := rfl
@[simp] theorem State.wf_ports (s : State) (f : Fld) (die inst v : Nat) : (s.wf f die inst v).ports = s.ports := rfl
@[simp] theorem State.wf_dies (s : State) (f : Fld) (die inst v : Nat) : (s.wf f die inst v).dies = s.dies := rfl
@[simp] theorem State.wf_cells (s : State) (f : Fld) (die inst v : Nat) : (s.wf f die inst v).cells = s.cells := rfl
@[simp] theorem State.wf_nextFrame (s : State) (f : Fld) (die inst v : Nat) : (s.wf f die inst v).nextFrame = s.nextFrame := rfl
@[simp] theorem State.wf_l2 (s : State) (f : Fld) (die inst v : Nat) : (s.wf f die inst v).l2 = s.l2 := rfl
@[simp] theorem State.wf_l2Order (s : State) (f : Fld) (die inst v : Nat) : (s.wf f die inst v).l2Order = s.l2Order := rfl
@[simp] theorem State.wf_tbls (s : State) (f : Fld) (die inst v : Nat) : (s.wf f die inst v).tbls = s.tbls := rfl
@[simp] theorem State.wf_tblOrders (s : State) (f : Fld) (die inst v : Nat) : (s.wf f die inst v).tblOrders = s.tblOrders := rfl
@[simp] theorem State.wf_lanes (s : State) (f : Fld) (die inst v : Nat) : (s.wf f die inst v).lanes = s.lanes := rfl
@[simp] theorem State.wf_links (s : State) (f : Fld) (die inst v : Nat) : (s.wf f die inst v).links = s.links := rfl
@[simp] theorem State.wf_saddles (s : State) (f : Fld) (die inst v : Nat) : (s.wf f die inst v).saddles = s.saddles := rfl
@[simp] theorem State.wf_summit (s : State) (f : Fld) (die inst v : Nat) : (s.wf f die inst v).summit = s.summit := rfl
@[simp] theorem State.wf_gnss (s : State) (f : Fld) (die inst v : Nat) : (s.wf f die inst v).gnss = s.gnss := rfl
@[simp] theorem State.wf_evts (s : State) (f : Fld) (die inst v : Nat) : (s.wf f die inst v).evts = s.evts := rfl
@[simp] theorem State.wf_outs (s : State) (f : Fld) (die inst v : Nat) : (s.wf f die inst v).outs = s.outs := rfl
@[simp] theorem State.wf_therm (s : State) (f : Fld) (die inst v : Nat) : (s.wf f die inst v).therm = s.therm := rfl
@[simp] theorem State.wf_rom (s : State) (f : Fld) (die inst v : Nat) : (s.wf f die inst v).rom = s.rom := rfl
@[simp] theorem State.wf_msgs (s : State) (f : Fld) (die inst v : Nat) : (s.wf f die inst v).msgs = s.msgs := rfl
@[simp] theorem State.wf_lastFn (s : State) (f : Fld) (die inst v : Nat) : (s.wf f die inst v).lastFn = s.lastFn := rfl
@[simp] theorem State.wf_free (s : State) (f : Fld) (die inst v : Nat) : (s.wf f die inst v).free = s.free := rfl
@[simp] theorem State.wf_pending (s : State) (f : Fld) (die inst v : Nat) : (s.wf f die inst v).pending = s.pending := rfl
@[simp] theorem State.wf_eng (s : State) (f : Fld) (die inst v : Nat) (e2 : Nat) : (s.wf f die inst v).eng e2 = s.eng e2 := rfl
@[simp] theorem State.wf_port (s : State) (f : Fld) (die inst v : Nat) (p2 : Nat) : (s.wf f die inst v).port p2 = s.port p2 := rfl
@[simp] theorem State.wf_die (s : State) (f : Fld) (die inst v : Nat) (d2 : Nat) : (s.wf f die inst v).die d2 = s.die d2 := rfl
@[simp] theorem State.wf_ridge (s : State) (f : Fld) (die inst v : Nat) (d2 : Nat) : (s.wf f die inst v).ridge d2 = s.ridge d2 := rfl
@[simp] theorem State.wf_host (s : State) (f : Fld) (die inst v : Nat) (h2 : Nat) : (s.wf f die inst v).host h2 = s.host h2 := rfl
@[simp] theorem State.wf_pll (s : State) (f : Fld) (die inst v : Nat) (d2 : Nat) : (s.wf f die inst v).pll d2 = s.pll d2 := rfl
@[simp] theorem State.wf_lane (s : State) (f : Fld) (die inst v : Nat) (l2 : Nat) : (s.wf f die inst v).lane l2 = s.lane l2 := rfl
@[simp] theorem State.wf_link (s : State) (f : Fld) (die inst v : Nat) (p2 : Nat) : (s.wf f die inst v).link p2 = s.link p2 := rfl
@[simp] theorem State.wf_evt (s : State) (f : Fld) (die inst v : Nat) (c2 : Nat) : (s.wf f die inst v).evt c2 = s.evt c2 := rfl
@[simp] theorem State.wf_out (s : State) (f : Fld) (die inst v : Nat) (d2 k2 : Nat) : (s.wf f die inst v).out d2 k2 = s.out d2 k2 := rfl
@[simp] theorem State.wf_l2t (s : State) (f : Fld) (die inst v : Nat) (d2 : Nat) : (s.wf f die inst v).l2t d2 = s.l2t d2 := rfl
@[simp] theorem State.wf_tbl (s : State) (f : Fld) (die inst v : Nat) (d2 b2 : Nat) : (s.wf f die inst v).tbl d2 b2 = s.tbl d2 b2 := rfl
@[simp] theorem State.wf_tblOrder (s : State) (f : Fld) (die inst v : Nat) (b2 : Nat) : (s.wf f die inst v).tblOrder b2 = s.tblOrder b2 := rfl
@[simp] theorem State.wf_nvsOf (s : State) (f : Fld) (die inst v : Nat) (d2 : Nat) : (s.wf f die inst v).nvsOf d2 = s.nvsOf d2 := rfl
@[simp] theorem State.wf_cal (s : State) (f : Fld) (die inst v : Nat) (d2 : Nat) : (s.wf f die inst v).cal d2 = s.cal d2 := rfl
@[simp] theorem State.wf_rfF (s : State) (f : Fld) (die inst v : Nat) (q : Fld) (d2 i2 : Nat) : (s.wf f die inst v).rfF q d2 i2 = s.rfF q d2 i2 := rfl

/-! ### State.wfF changes `inForce` alone -/

@[simp] theorem State.wfF_part (s : State) (f : Fld) (die inst v : Nat) : (s.wfF f die inst v).part = s.part := rfl
@[simp] theorem State.wfF_pins (s : State) (f : Fld) (die inst v : Nat) : (s.wfF f die inst v).pins = s.pins := rfl
@[simp] theorem State.wfF_resets (s : State) (f : Fld) (die inst v : Nat) : (s.wfF f die inst v).resets = s.resets := rfl
@[simp] theorem State.wfF_otp (s : State) (f : Fld) (die inst v : Nat) : (s.wfF f die inst v).otp = s.otp := rfl
@[simp] theorem State.wfF_secNvs (s : State) (f : Fld) (die inst v : Nat) : (s.wfF f die inst v).secNvs = s.secNvs := rfl
@[simp] theorem State.wfF_sec (s : State) (f : Fld) (die inst v : Nat) : (s.wfF f die inst v).sec = s.sec := rfl
@[simp] theorem State.wfF_engs (s : State) (f : Fld) (die inst v : Nat) : (s.wfF f die inst v).engs = s.engs := rfl
@[simp] theorem State.wfF_regs (s : State) (f : Fld) (die inst v : Nat) : (s.wfF f die inst v).regs = s.regs := rfl
@[simp] theorem State.wfF_stopAt (s : State) (f : Fld) (die inst v : Nat) : (s.wfF f die inst v).stopAt = s.stopAt := rfl
@[simp] theorem State.wfF_own (s : State) (f : Fld) (die inst v : Nat) : (s.wfF f die inst v).own = s.own := rfl
@[simp] theorem State.wfF_hosts (s : State) (f : Fld) (die inst v : Nat) : (s.wfF f die inst v).hosts = s.hosts := rfl
@[simp] theorem State.wfF_nvs (s : State) (f : Fld) (die inst v : Nat) : (s.wfF f die inst v).nvs = s.nvs := rfl
@[simp] theorem State.wfF_cals (s : State) (f : Fld) (die inst v : Nat) : (s.wfF f die inst v).cals = s.cals := rfl
@[simp] theorem State.wfF_ridges (s : State) (f : Fld) (die inst v : Nat) : (s.wfF f die inst v).ridges = s.ridges := rfl
@[simp] theorem State.wfF_plls (s : State) (f : Fld) (die inst v : Nat) : (s.wfF f die inst v).plls = s.plls := rfl
@[simp] theorem State.wfF_ports (s : State) (f : Fld) (die inst v : Nat) : (s.wfF f die inst v).ports = s.ports := rfl
@[simp] theorem State.wfF_dies (s : State) (f : Fld) (die inst v : Nat) : (s.wfF f die inst v).dies = s.dies := rfl
@[simp] theorem State.wfF_cells (s : State) (f : Fld) (die inst v : Nat) : (s.wfF f die inst v).cells = s.cells := rfl
@[simp] theorem State.wfF_nextFrame (s : State) (f : Fld) (die inst v : Nat) : (s.wfF f die inst v).nextFrame = s.nextFrame := rfl
@[simp] theorem State.wfF_l2 (s : State) (f : Fld) (die inst v : Nat) : (s.wfF f die inst v).l2 = s.l2 := rfl
@[simp] theorem State.wfF_l2Order (s : State) (f : Fld) (die inst v : Nat) : (s.wfF f die inst v).l2Order = s.l2Order := rfl
@[simp] theorem State.wfF_tbls (s : State) (f : Fld) (die inst v : Nat) : (s.wfF f die inst v).tbls = s.tbls := rfl
@[simp] theorem State.wfF_tblOrders (s : State) (f : Fld) (die inst v : Nat) : (s.wfF f die inst v).tblOrders = s.tblOrders := rfl
@[simp] theorem State.wfF_lanes (s : State) (f : Fld) (die inst v : Nat) : (s.wfF f die inst v).lanes = s.lanes := rfl
@[simp] theorem State.wfF_links (s : State) (f : Fld) (die inst v : Nat) : (s.wfF f die inst v).links = s.links := rfl
@[simp] theorem State.wfF_saddles (s : State) (f : Fld) (die inst v : Nat) : (s.wfF f die inst v).saddles = s.saddles := rfl
@[simp] theorem State.wfF_summit (s : State) (f : Fld) (die inst v : Nat) : (s.wfF f die inst v).summit = s.summit := rfl
@[simp] theorem State.wfF_gnss (s : State) (f : Fld) (die inst v : Nat) : (s.wfF f die inst v).gnss = s.gnss := rfl
@[simp] theorem State.wfF_evts (s : State) (f : Fld) (die inst v : Nat) : (s.wfF f die inst v).evts = s.evts := rfl
@[simp] theorem State.wfF_outs (s : State) (f : Fld) (die inst v : Nat) : (s.wfF f die inst v).outs = s.outs := rfl
@[simp] theorem State.wfF_therm (s : State) (f : Fld) (die inst v : Nat) : (s.wfF f die inst v).therm = s.therm := rfl
@[simp] theorem State.wfF_rom (s : State) (f : Fld) (die inst v : Nat) : (s.wfF f die inst v).rom = s.rom := rfl
@[simp] theorem State.wfF_msgs (s : State) (f : Fld) (die inst v : Nat) : (s.wfF f die inst v).msgs = s.msgs := rfl
@[simp] theorem State.wfF_lastFn (s : State) (f : Fld) (die inst v : Nat) : (s.wfF f die inst v).lastFn = s.lastFn := rfl
@[simp] theorem State.wfF_free (s : State) (f : Fld) (die inst v : Nat) : (s.wfF f die inst v).free = s.free := rfl
@[simp] theorem State.wfF_pending (s : State) (f : Fld) (die inst v : Nat) : (s.wfF f die inst v).pending = s.pending := rfl
@[simp] theorem State.wfF_eng (s : State) (f : Fld) (die inst v : Nat) (e2 : Nat) : (s.wfF f die inst v).eng e2 = s.eng e2 := rfl
@[simp] theorem State.wfF_port (s : State) (f : Fld) (die inst v : Nat) (p2 : Nat) : (s.wfF f die inst v).port p2 = s.port p2 := rfl
@[simp] theorem State.wfF_die (s : State) (f : Fld) (die inst v : Nat) (d2 : Nat) : (s.wfF f die inst v).die d2 = s.die d2 := rfl
@[simp] theorem State.wfF_ridge (s : State) (f : Fld) (die inst v : Nat) (d2 : Nat) : (s.wfF f die inst v).ridge d2 = s.ridge d2 := rfl
@[simp] theorem State.wfF_host (s : State) (f : Fld) (die inst v : Nat) (h2 : Nat) : (s.wfF f die inst v).host h2 = s.host h2 := rfl
@[simp] theorem State.wfF_pll (s : State) (f : Fld) (die inst v : Nat) (d2 : Nat) : (s.wfF f die inst v).pll d2 = s.pll d2 := rfl
@[simp] theorem State.wfF_lane (s : State) (f : Fld) (die inst v : Nat) (l2 : Nat) : (s.wfF f die inst v).lane l2 = s.lane l2 := rfl
@[simp] theorem State.wfF_link (s : State) (f : Fld) (die inst v : Nat) (p2 : Nat) : (s.wfF f die inst v).link p2 = s.link p2 := rfl
@[simp] theorem State.wfF_evt (s : State) (f : Fld) (die inst v : Nat) (c2 : Nat) : (s.wfF f die inst v).evt c2 = s.evt c2 := rfl
@[simp] theorem State.wfF_out (s : State) (f : Fld) (die inst v : Nat) (d2 k2 : Nat) : (s.wfF f die inst v).out d2 k2 = s.out d2 k2 := rfl
@[simp] theorem State.wfF_l2t (s : State) (f : Fld) (die inst v : Nat) (d2 : Nat) : (s.wfF f die inst v).l2t d2 = s.l2t d2 := rfl
@[simp] theorem State.wfF_tbl (s : State) (f : Fld) (die inst v : Nat) (d2 b2 : Nat) : (s.wfF f die inst v).tbl d2 b2 = s.tbl d2 b2 := rfl
@[simp] theorem State.wfF_tblOrder (s : State) (f : Fld) (die inst v : Nat) (b2 : Nat) : (s.wfF f die inst v).tblOrder b2 = s.tblOrder b2 := rfl
@[simp] theorem State.wfF_nvsOf (s : State) (f : Fld) (die inst v : Nat) (d2 : Nat) : (s.wfF f die inst v).nvsOf d2 = s.nvsOf d2 := rfl
@[simp] theorem State.wfF_cal (s : State) (f : Fld) (die inst v : Nat) (d2 : Nat) : (s.wfF f die inst v).cal d2 = s.cal d2 := rfl
@[simp] theorem State.wfF_rf (s : State) (f : Fld) (die inst v : Nat) (q : Fld) (d2 i2 : Nat) : (s.wfF f die inst v).rf q d2 i2 = s.rf q d2 i2 := rfl

/-! ### State.setEng changes `engs` alone -/

@[simp] theorem State.setEng_part (s : State) (e : Nat) (g : Engine) : (s.setEng e g).part = s.part := rfl
@[simp] theorem State.setEng_pins (s : State) (e : Nat) (g : Engine) : (s.setEng e g).pins = s.pins := rfl
@[simp] theorem State.setEng_resets (s : State) (e : Nat) (g : Engine) : (s.setEng e g).resets = s.resets := rfl
@[simp] theorem State.setEng_otp (s : State) (e : Nat) (g : Engine) : (s.setEng e g).otp = s.otp := rfl
@[simp] theorem State.setEng_secNvs (s : State) (e : Nat) (g : Engine) : (s.setEng e g).secNvs = s.secNvs := rfl
@[simp] theorem State.setEng_sec (s : State) (e : Nat) (g : Engine) : (s.setEng e g).sec = s.sec := rfl
@[simp] theorem State.setEng_regs (s : State) (e : Nat) (g : Engine) : (s.setEng e g).regs = s.regs := rfl
@[simp] theorem State.setEng_inForce (s : State) (e : Nat) (g : Engine) : (s.setEng e g).inForce = s.inForce := rfl
@[simp] theorem State.setEng_stopAt (s : State) (e : Nat) (g : Engine) : (s.setEng e g).stopAt = s.stopAt := rfl
@[simp] theorem State.setEng_own (s : State) (e : Nat) (g : Engine) : (s.setEng e g).own = s.own := rfl
@[simp] theorem State.setEng_hosts (s : State) (e : Nat) (g : Engine) : (s.setEng e g).hosts = s.hosts := rfl
@[simp] theorem State.setEng_nvs (s : State) (e : Nat) (g : Engine) : (s.setEng e g).nvs = s.nvs := rfl
@[simp] theorem State.setEng_cals (s : State) (e : Nat) (g : Engine) : (s.setEng e g).cals = s.cals := rfl
@[simp] theorem State.setEng_ridges (s : State) (e : Nat) (g : Engine) : (s.setEng e g).ridges = s.ridges := rfl
@[simp] theorem State.setEng_plls (s : State) (e : Nat) (g : Engine) : (s.setEng e g).plls = s.plls := rfl
@[simp] theorem State.setEng_ports (s : State) (e : Nat) (g : Engine) : (s.setEng e g).ports = s.ports := rfl
@[simp] theorem State.setEng_dies (s : State) (e : Nat) (g : Engine) : (s.setEng e g).dies = s.dies := rfl
@[simp] theorem State.setEng_cells (s : State) (e : Nat) (g : Engine) : (s.setEng e g).cells = s.cells := rfl
@[simp] theorem State.setEng_nextFrame (s : State) (e : Nat) (g : Engine) : (s.setEng e g).nextFrame = s.nextFrame := rfl
@[simp] theorem State.setEng_l2 (s : State) (e : Nat) (g : Engine) : (s.setEng e g).l2 = s.l2 := rfl
@[simp] theorem State.setEng_l2Order (s : State) (e : Nat) (g : Engine) : (s.setEng e g).l2Order = s.l2Order := rfl
@[simp] theorem State.setEng_tbls (s : State) (e : Nat) (g : Engine) : (s.setEng e g).tbls = s.tbls := rfl
@[simp] theorem State.setEng_tblOrders (s : State) (e : Nat) (g : Engine) : (s.setEng e g).tblOrders = s.tblOrders := rfl
@[simp] theorem State.setEng_lanes (s : State) (e : Nat) (g : Engine) : (s.setEng e g).lanes = s.lanes := rfl
@[simp] theorem State.setEng_links (s : State) (e : Nat) (g : Engine) : (s.setEng e g).links = s.links := rfl
@[simp] theorem State.setEng_saddles (s : State) (e : Nat) (g : Engine) : (s.setEng e g).saddles = s.saddles := rfl
@[simp] theorem State.setEng_summit (s : State) (e : Nat) (g : Engine) : (s.setEng e g).summit = s.summit := rfl
@[simp] theorem State.setEng_gnss (s : State) (e : Nat) (g : Engine) : (s.setEng e g).gnss = s.gnss := rfl
@[simp] theorem State.setEng_evts (s : State) (e : Nat) (g : Engine) : (s.setEng e g).evts = s.evts := rfl
@[simp] theorem State.setEng_outs (s : State) (e : Nat) (g : Engine) : (s.setEng e g).outs = s.outs := rfl
@[simp] theorem State.setEng_therm (s : State) (e : Nat) (g : Engine) : (s.setEng e g).therm = s.therm := rfl
@[simp] theorem State.setEng_rom (s : State) (e : Nat) (g : Engine) : (s.setEng e g).rom = s.rom := rfl
@[simp] theorem State.setEng_msgs (s : State) (e : Nat) (g : Engine) : (s.setEng e g).msgs = s.msgs := rfl
@[simp] theorem State.setEng_lastFn (s : State) (e : Nat) (g : Engine) : (s.setEng e g).lastFn = s.lastFn := rfl
@[simp] theorem State.setEng_free (s : State) (e : Nat) (g : Engine) : (s.setEng e g).free = s.free := rfl
@[simp] theorem State.setEng_pending (s : State) (e : Nat) (g : Engine) : (s.setEng e g).pending = s.pending := rfl
@[simp] theorem State.setEng_port (s : State) (e : Nat) (g : Engine) (p2 : Nat) : (s.setEng e g).port p2 = s.port p2 := rfl
@[simp] theorem State.setEng_die (s : State) (e : Nat) (g : Engine) (d2 : Nat) : (s.setEng e g).die d2 = s.die d2 := rfl
@[simp] theorem State.setEng_ridge (s : State) (e : Nat) (g : Engine) (d2 : Nat) : (s.setEng e g).ridge d2 = s.ridge d2 := rfl
@[simp] theorem State.setEng_host (s : State) (e : Nat) (g : Engine) (h2 : Nat) : (s.setEng e g).host h2 = s.host h2 := rfl
@[simp] theorem State.setEng_pll (s : State) (e : Nat) (g : Engine) (d2 : Nat) : (s.setEng e g).pll d2 = s.pll d2 := rfl
@[simp] theorem State.setEng_lane (s : State) (e : Nat) (g : Engine) (l2 : Nat) : (s.setEng e g).lane l2 = s.lane l2 := rfl
@[simp] theorem State.setEng_link (s : State) (e : Nat) (g : Engine) (p2 : Nat) : (s.setEng e g).link p2 = s.link p2 := rfl
@[simp] theorem State.setEng_evt (s : State) (e : Nat) (g : Engine) (c2 : Nat) : (s.setEng e g).evt c2 = s.evt c2 := rfl
@[simp] theorem State.setEng_out (s : State) (e : Nat) (g : Engine) (d2 k2 : Nat) : (s.setEng e g).out d2 k2 = s.out d2 k2 := rfl
@[simp] theorem State.setEng_l2t (s : State) (e : Nat) (g : Engine) (d2 : Nat) : (s.setEng e g).l2t d2 = s.l2t d2 := rfl
@[simp] theorem State.setEng_tbl (s : State) (e : Nat) (g : Engine) (d2 b2 : Nat) : (s.setEng e g).tbl d2 b2 = s.tbl d2 b2 := rfl
@[simp] theorem State.setEng_tblOrder (s : State) (e : Nat) (g : Engine) (b2 : Nat) : (s.setEng e g).tblOrder b2 = s.tblOrder b2 := rfl
@[simp] theorem State.setEng_nvsOf (s : State) (e : Nat) (g : Engine) (d2 : Nat) : (s.setEng e g).nvsOf d2 = s.nvsOf d2 := rfl
@[simp] theorem State.setEng_cal (s : State) (e : Nat) (g : Engine) (d2 : Nat) : (s.setEng e g).cal d2 = s.cal d2 := rfl
@[simp] theorem State.setEng_rf (s : State) (e : Nat) (g : Engine) (q : Fld) (d2 i2 : Nat) : (s.setEng e g).rf q d2 i2 = s.rf q d2 i2 := rfl
@[simp] theorem State.setEng_rfF (s : State) (e : Nat) (g : Engine) (q : Fld) (d2 i2 : Nat) : (s.setEng e g).rfF q d2 i2 = s.rfF q d2 i2 := rfl

/-! ### State.setPort changes `ports` alone -/

@[simp] theorem State.setPort_part (s : State) (p : Nat) (x : PortState) : (s.setPort p x).part = s.part := rfl
@[simp] theorem State.setPort_pins (s : State) (p : Nat) (x : PortState) : (s.setPort p x).pins = s.pins := rfl
@[simp] theorem State.setPort_resets (s : State) (p : Nat) (x : PortState) : (s.setPort p x).resets = s.resets := rfl
@[simp] theorem State.setPort_otp (s : State) (p : Nat) (x : PortState) : (s.setPort p x).otp = s.otp := rfl
@[simp] theorem State.setPort_secNvs (s : State) (p : Nat) (x : PortState) : (s.setPort p x).secNvs = s.secNvs := rfl
@[simp] theorem State.setPort_sec (s : State) (p : Nat) (x : PortState) : (s.setPort p x).sec = s.sec := rfl
@[simp] theorem State.setPort_engs (s : State) (p : Nat) (x : PortState) : (s.setPort p x).engs = s.engs := rfl
@[simp] theorem State.setPort_regs (s : State) (p : Nat) (x : PortState) : (s.setPort p x).regs = s.regs := rfl
@[simp] theorem State.setPort_inForce (s : State) (p : Nat) (x : PortState) : (s.setPort p x).inForce = s.inForce := rfl
@[simp] theorem State.setPort_stopAt (s : State) (p : Nat) (x : PortState) : (s.setPort p x).stopAt = s.stopAt := rfl
@[simp] theorem State.setPort_own (s : State) (p : Nat) (x : PortState) : (s.setPort p x).own = s.own := rfl
@[simp] theorem State.setPort_hosts (s : State) (p : Nat) (x : PortState) : (s.setPort p x).hosts = s.hosts := rfl
@[simp] theorem State.setPort_nvs (s : State) (p : Nat) (x : PortState) : (s.setPort p x).nvs = s.nvs := rfl
@[simp] theorem State.setPort_cals (s : State) (p : Nat) (x : PortState) : (s.setPort p x).cals = s.cals := rfl
@[simp] theorem State.setPort_ridges (s : State) (p : Nat) (x : PortState) : (s.setPort p x).ridges = s.ridges := rfl
@[simp] theorem State.setPort_plls (s : State) (p : Nat) (x : PortState) : (s.setPort p x).plls = s.plls := rfl
@[simp] theorem State.setPort_dies (s : State) (p : Nat) (x : PortState) : (s.setPort p x).dies = s.dies := rfl
@[simp] theorem State.setPort_cells (s : State) (p : Nat) (x : PortState) : (s.setPort p x).cells = s.cells := rfl
@[simp] theorem State.setPort_nextFrame (s : State) (p : Nat) (x : PortState) : (s.setPort p x).nextFrame = s.nextFrame := rfl
@[simp] theorem State.setPort_l2 (s : State) (p : Nat) (x : PortState) : (s.setPort p x).l2 = s.l2 := rfl
@[simp] theorem State.setPort_l2Order (s : State) (p : Nat) (x : PortState) : (s.setPort p x).l2Order = s.l2Order := rfl
@[simp] theorem State.setPort_tbls (s : State) (p : Nat) (x : PortState) : (s.setPort p x).tbls = s.tbls := rfl
@[simp] theorem State.setPort_tblOrders (s : State) (p : Nat) (x : PortState) : (s.setPort p x).tblOrders = s.tblOrders := rfl
@[simp] theorem State.setPort_lanes (s : State) (p : Nat) (x : PortState) : (s.setPort p x).lanes = s.lanes := rfl
@[simp] theorem State.setPort_links (s : State) (p : Nat) (x : PortState) : (s.setPort p x).links = s.links := rfl
@[simp] theorem State.setPort_saddles (s : State) (p : Nat) (x : PortState) : (s.setPort p x).saddles = s.saddles := rfl
@[simp] theorem State.setPort_summit (s : State) (p : Nat) (x : PortState) : (s.setPort p x).summit = s.summit := rfl
@[simp] theorem State.setPort_gnss (s : State) (p : Nat) (x : PortState) : (s.setPort p x).gnss = s.gnss := rfl
@[simp] theorem State.setPort_evts (s : State) (p : Nat) (x : PortState) : (s.setPort p x).evts = s.evts := rfl
@[simp] theorem State.setPort_outs (s : State) (p : Nat) (x : PortState) : (s.setPort p x).outs = s.outs := rfl
@[simp] theorem State.setPort_therm (s : State) (p : Nat) (x : PortState) : (s.setPort p x).therm = s.therm := rfl
@[simp] theorem State.setPort_rom (s : State) (p : Nat) (x : PortState) : (s.setPort p x).rom = s.rom := rfl
@[simp] theorem State.setPort_msgs (s : State) (p : Nat) (x : PortState) : (s.setPort p x).msgs = s.msgs := rfl
@[simp] theorem State.setPort_lastFn (s : State) (p : Nat) (x : PortState) : (s.setPort p x).lastFn = s.lastFn := rfl
@[simp] theorem State.setPort_free (s : State) (p : Nat) (x : PortState) : (s.setPort p x).free = s.free := rfl
@[simp] theorem State.setPort_pending (s : State) (p : Nat) (x : PortState) : (s.setPort p x).pending = s.pending := rfl
@[simp] theorem State.setPort_eng (s : State) (p : Nat) (x : PortState) (e2 : Nat) : (s.setPort p x).eng e2 = s.eng e2 := rfl
@[simp] theorem State.setPort_die (s : State) (p : Nat) (x : PortState) (d2 : Nat) : (s.setPort p x).die d2 = s.die d2 := rfl
@[simp] theorem State.setPort_ridge (s : State) (p : Nat) (x : PortState) (d2 : Nat) : (s.setPort p x).ridge d2 = s.ridge d2 := rfl
@[simp] theorem State.setPort_host (s : State) (p : Nat) (x : PortState) (h2 : Nat) : (s.setPort p x).host h2 = s.host h2 := rfl
@[simp] theorem State.setPort_pll (s : State) (p : Nat) (x : PortState) (d2 : Nat) : (s.setPort p x).pll d2 = s.pll d2 := rfl
@[simp] theorem State.setPort_lane (s : State) (p : Nat) (x : PortState) (l2 : Nat) : (s.setPort p x).lane l2 = s.lane l2 := rfl
@[simp] theorem State.setPort_link (s : State) (p : Nat) (x : PortState) (p2 : Nat) : (s.setPort p x).link p2 = s.link p2 := rfl
@[simp] theorem State.setPort_evt (s : State) (p : Nat) (x : PortState) (c2 : Nat) : (s.setPort p x).evt c2 = s.evt c2 := rfl
@[simp] theorem State.setPort_out (s : State) (p : Nat) (x : PortState) (d2 k2 : Nat) : (s.setPort p x).out d2 k2 = s.out d2 k2 := rfl
@[simp] theorem State.setPort_l2t (s : State) (p : Nat) (x : PortState) (d2 : Nat) : (s.setPort p x).l2t d2 = s.l2t d2 := rfl
@[simp] theorem State.setPort_tbl (s : State) (p : Nat) (x : PortState) (d2 b2 : Nat) : (s.setPort p x).tbl d2 b2 = s.tbl d2 b2 := rfl
@[simp] theorem State.setPort_tblOrder (s : State) (p : Nat) (x : PortState) (b2 : Nat) : (s.setPort p x).tblOrder b2 = s.tblOrder b2 := rfl
@[simp] theorem State.setPort_nvsOf (s : State) (p : Nat) (x : PortState) (d2 : Nat) : (s.setPort p x).nvsOf d2 = s.nvsOf d2 := rfl
@[simp] theorem State.setPort_cal (s : State) (p : Nat) (x : PortState) (d2 : Nat) : (s.setPort p x).cal d2 = s.cal d2 := rfl
@[simp] theorem State.setPort_rf (s : State) (p : Nat) (x : PortState) (q : Fld) (d2 i2 : Nat) : (s.setPort p x).rf q d2 i2 = s.rf q d2 i2 := rfl
@[simp] theorem State.setPort_rfF (s : State) (p : Nat) (x : PortState) (q : Fld) (d2 i2 : Nat) : (s.setPort p x).rfF q d2 i2 = s.rfF q d2 i2 := rfl

/-! ### State.setDie changes `dies` alone -/

@[simp] theorem State.setDie_part (s : State) (d : Nat) (x : DieState) : (s.setDie d x).part = s.part := rfl
@[simp] theorem State.setDie_pins (s : State) (d : Nat) (x : DieState) : (s.setDie d x).pins = s.pins := rfl
@[simp] theorem State.setDie_resets (s : State) (d : Nat) (x : DieState) : (s.setDie d x).resets = s.resets := rfl
@[simp] theorem State.setDie_otp (s : State) (d : Nat) (x : DieState) : (s.setDie d x).otp = s.otp := rfl
@[simp] theorem State.setDie_secNvs (s : State) (d : Nat) (x : DieState) : (s.setDie d x).secNvs = s.secNvs := rfl
@[simp] theorem State.setDie_sec (s : State) (d : Nat) (x : DieState) : (s.setDie d x).sec = s.sec := rfl
@[simp] theorem State.setDie_engs (s : State) (d : Nat) (x : DieState) : (s.setDie d x).engs = s.engs := rfl
@[simp] theorem State.setDie_regs (s : State) (d : Nat) (x : DieState) : (s.setDie d x).regs = s.regs := rfl
@[simp] theorem State.setDie_inForce (s : State) (d : Nat) (x : DieState) : (s.setDie d x).inForce = s.inForce := rfl
@[simp] theorem State.setDie_stopAt (s : State) (d : Nat) (x : DieState) : (s.setDie d x).stopAt = s.stopAt := rfl
@[simp] theorem State.setDie_own (s : State) (d : Nat) (x : DieState) : (s.setDie d x).own = s.own := rfl
@[simp] theorem State.setDie_hosts (s : State) (d : Nat) (x : DieState) : (s.setDie d x).hosts = s.hosts := rfl
@[simp] theorem State.setDie_nvs (s : State) (d : Nat) (x : DieState) : (s.setDie d x).nvs = s.nvs := rfl
@[simp] theorem State.setDie_cals (s : State) (d : Nat) (x : DieState) : (s.setDie d x).cals = s.cals := rfl
@[simp] theorem State.setDie_ridges (s : State) (d : Nat) (x : DieState) : (s.setDie d x).ridges = s.ridges := rfl
@[simp] theorem State.setDie_plls (s : State) (d : Nat) (x : DieState) : (s.setDie d x).plls = s.plls := rfl
@[simp] theorem State.setDie_ports (s : State) (d : Nat) (x : DieState) : (s.setDie d x).ports = s.ports := rfl
@[simp] theorem State.setDie_cells (s : State) (d : Nat) (x : DieState) : (s.setDie d x).cells = s.cells := rfl
@[simp] theorem State.setDie_nextFrame (s : State) (d : Nat) (x : DieState) : (s.setDie d x).nextFrame = s.nextFrame := rfl
@[simp] theorem State.setDie_l2 (s : State) (d : Nat) (x : DieState) : (s.setDie d x).l2 = s.l2 := rfl
@[simp] theorem State.setDie_l2Order (s : State) (d : Nat) (x : DieState) : (s.setDie d x).l2Order = s.l2Order := rfl
@[simp] theorem State.setDie_tbls (s : State) (d : Nat) (x : DieState) : (s.setDie d x).tbls = s.tbls := rfl
@[simp] theorem State.setDie_tblOrders (s : State) (d : Nat) (x : DieState) : (s.setDie d x).tblOrders = s.tblOrders := rfl
@[simp] theorem State.setDie_lanes (s : State) (d : Nat) (x : DieState) : (s.setDie d x).lanes = s.lanes := rfl
@[simp] theorem State.setDie_links (s : State) (d : Nat) (x : DieState) : (s.setDie d x).links = s.links := rfl
@[simp] theorem State.setDie_saddles (s : State) (d : Nat) (x : DieState) : (s.setDie d x).saddles = s.saddles := rfl
@[simp] theorem State.setDie_summit (s : State) (d : Nat) (x : DieState) : (s.setDie d x).summit = s.summit := rfl
@[simp] theorem State.setDie_gnss (s : State) (d : Nat) (x : DieState) : (s.setDie d x).gnss = s.gnss := rfl
@[simp] theorem State.setDie_evts (s : State) (d : Nat) (x : DieState) : (s.setDie d x).evts = s.evts := rfl
@[simp] theorem State.setDie_outs (s : State) (d : Nat) (x : DieState) : (s.setDie d x).outs = s.outs := rfl
@[simp] theorem State.setDie_therm (s : State) (d : Nat) (x : DieState) : (s.setDie d x).therm = s.therm := rfl
@[simp] theorem State.setDie_rom (s : State) (d : Nat) (x : DieState) : (s.setDie d x).rom = s.rom := rfl
@[simp] theorem State.setDie_msgs (s : State) (d : Nat) (x : DieState) : (s.setDie d x).msgs = s.msgs := rfl
@[simp] theorem State.setDie_lastFn (s : State) (d : Nat) (x : DieState) : (s.setDie d x).lastFn = s.lastFn := rfl
@[simp] theorem State.setDie_free (s : State) (d : Nat) (x : DieState) : (s.setDie d x).free = s.free := rfl
@[simp] theorem State.setDie_pending (s : State) (d : Nat) (x : DieState) : (s.setDie d x).pending = s.pending := rfl
@[simp] theorem State.setDie_eng (s : State) (d : Nat) (x : DieState) (e2 : Nat) : (s.setDie d x).eng e2 = s.eng e2 := rfl
@[simp] theorem State.setDie_port (s : State) (d : Nat) (x : DieState) (p2 : Nat) : (s.setDie d x).port p2 = s.port p2 := rfl
@[simp] theorem State.setDie_ridge (s : State) (d : Nat) (x : DieState) (d2 : Nat) : (s.setDie d x).ridge d2 = s.ridge d2 := rfl
@[simp] theorem State.setDie_host (s : State) (d : Nat) (x : DieState) (h2 : Nat) : (s.setDie d x).host h2 = s.host h2 := rfl
@[simp] theorem State.setDie_pll (s : State) (d : Nat) (x : DieState) (d2 : Nat) : (s.setDie d x).pll d2 = s.pll d2 := rfl
@[simp] theorem State.setDie_lane (s : State) (d : Nat) (x : DieState) (l2 : Nat) : (s.setDie d x).lane l2 = s.lane l2 := rfl
@[simp] theorem State.setDie_link (s : State) (d : Nat) (x : DieState) (p2 : Nat) : (s.setDie d x).link p2 = s.link p2 := rfl
@[simp] theorem State.setDie_evt (s : State) (d : Nat) (x : DieState) (c2 : Nat) : (s.setDie d x).evt c2 = s.evt c2 := rfl
@[simp] theorem State.setDie_out (s : State) (d : Nat) (x : DieState) (d2 k2 : Nat) : (s.setDie d x).out d2 k2 = s.out d2 k2 := rfl
@[simp] theorem State.setDie_l2t (s : State) (d : Nat) (x : DieState) (d2 : Nat) : (s.setDie d x).l2t d2 = s.l2t d2 := rfl
@[simp] theorem State.setDie_tbl (s : State) (d : Nat) (x : DieState) (d2 b2 : Nat) : (s.setDie d x).tbl d2 b2 = s.tbl d2 b2 := rfl
@[simp] theorem State.setDie_tblOrder (s : State) (d : Nat) (x : DieState) (b2 : Nat) : (s.setDie d x).tblOrder b2 = s.tblOrder b2 := rfl
@[simp] theorem State.setDie_nvsOf (s : State) (d : Nat) (x : DieState) (d2 : Nat) : (s.setDie d x).nvsOf d2 = s.nvsOf d2 := rfl
@[simp] theorem State.setDie_cal (s : State) (d : Nat) (x : DieState) (d2 : Nat) : (s.setDie d x).cal d2 = s.cal d2 := rfl
@[simp] theorem State.setDie_rf (s : State) (d : Nat) (x : DieState) (q : Fld) (d2 i2 : Nat) : (s.setDie d x).rf q d2 i2 = s.rf q d2 i2 := rfl
@[simp] theorem State.setDie_rfF (s : State) (d : Nat) (x : DieState) (q : Fld) (d2 i2 : Nat) : (s.setDie d x).rfF q d2 i2 = s.rfF q d2 i2 := rfl

/-! ### State.setRidge changes `ridges` alone -/

@[simp] theorem State.setRidge_part (s : State) (d : Nat) (r : RidgeState) : (s.setRidge d r).part = s.part := rfl
@[simp] theorem State.setRidge_pins (s : State) (d : Nat) (r : RidgeState) : (s.setRidge d r).pins = s.pins := rfl
@[simp] theorem State.setRidge_resets (s : State) (d : Nat) (r : RidgeState) : (s.setRidge d r).resets = s.resets := rfl
@[simp] theorem State.setRidge_otp (s : State) (d : Nat) (r : RidgeState) : (s.setRidge d r).otp = s.otp := rfl
@[simp] theorem State.setRidge_secNvs (s : State) (d : Nat) (r : RidgeState) : (s.setRidge d r).secNvs = s.secNvs := rfl
@[simp] theorem State.setRidge_sec (s : State) (d : Nat) (r : RidgeState) : (s.setRidge d r).sec = s.sec := rfl
@[simp] theorem State.setRidge_engs (s : State) (d : Nat) (r : RidgeState) : (s.setRidge d r).engs = s.engs := rfl
@[simp] theorem State.setRidge_regs (s : State) (d : Nat) (r : RidgeState) : (s.setRidge d r).regs = s.regs := rfl
@[simp] theorem State.setRidge_inForce (s : State) (d : Nat) (r : RidgeState) : (s.setRidge d r).inForce = s.inForce := rfl
@[simp] theorem State.setRidge_stopAt (s : State) (d : Nat) (r : RidgeState) : (s.setRidge d r).stopAt = s.stopAt := rfl
@[simp] theorem State.setRidge_own (s : State) (d : Nat) (r : RidgeState) : (s.setRidge d r).own = s.own := rfl
@[simp] theorem State.setRidge_hosts (s : State) (d : Nat) (r : RidgeState) : (s.setRidge d r).hosts = s.hosts := rfl
@[simp] theorem State.setRidge_nvs (s : State) (d : Nat) (r : RidgeState) : (s.setRidge d r).nvs = s.nvs := rfl
@[simp] theorem State.setRidge_cals (s : State) (d : Nat) (r : RidgeState) : (s.setRidge d r).cals = s.cals := rfl
@[simp] theorem State.setRidge_plls (s : State) (d : Nat) (r : RidgeState) : (s.setRidge d r).plls = s.plls := rfl
@[simp] theorem State.setRidge_ports (s : State) (d : Nat) (r : RidgeState) : (s.setRidge d r).ports = s.ports := rfl
@[simp] theorem State.setRidge_dies (s : State) (d : Nat) (r : RidgeState) : (s.setRidge d r).dies = s.dies := rfl
@[simp] theorem State.setRidge_cells (s : State) (d : Nat) (r : RidgeState) : (s.setRidge d r).cells = s.cells := rfl
@[simp] theorem State.setRidge_nextFrame (s : State) (d : Nat) (r : RidgeState) : (s.setRidge d r).nextFrame = s.nextFrame := rfl
@[simp] theorem State.setRidge_l2 (s : State) (d : Nat) (r : RidgeState) : (s.setRidge d r).l2 = s.l2 := rfl
@[simp] theorem State.setRidge_l2Order (s : State) (d : Nat) (r : RidgeState) : (s.setRidge d r).l2Order = s.l2Order := rfl
@[simp] theorem State.setRidge_tbls (s : State) (d : Nat) (r : RidgeState) : (s.setRidge d r).tbls = s.tbls := rfl
@[simp] theorem State.setRidge_tblOrders (s : State) (d : Nat) (r : RidgeState) : (s.setRidge d r).tblOrders = s.tblOrders := rfl
@[simp] theorem State.setRidge_lanes (s : State) (d : Nat) (r : RidgeState) : (s.setRidge d r).lanes = s.lanes := rfl
@[simp] theorem State.setRidge_links (s : State) (d : Nat) (r : RidgeState) : (s.setRidge d r).links = s.links := rfl
@[simp] theorem State.setRidge_saddles (s : State) (d : Nat) (r : RidgeState) : (s.setRidge d r).saddles = s.saddles := rfl
@[simp] theorem State.setRidge_summit (s : State) (d : Nat) (r : RidgeState) : (s.setRidge d r).summit = s.summit := rfl
@[simp] theorem State.setRidge_gnss (s : State) (d : Nat) (r : RidgeState) : (s.setRidge d r).gnss = s.gnss := rfl
@[simp] theorem State.setRidge_evts (s : State) (d : Nat) (r : RidgeState) : (s.setRidge d r).evts = s.evts := rfl
@[simp] theorem State.setRidge_outs (s : State) (d : Nat) (r : RidgeState) : (s.setRidge d r).outs = s.outs := rfl
@[simp] theorem State.setRidge_therm (s : State) (d : Nat) (r : RidgeState) : (s.setRidge d r).therm = s.therm := rfl
@[simp] theorem State.setRidge_rom (s : State) (d : Nat) (r : RidgeState) : (s.setRidge d r).rom = s.rom := rfl
@[simp] theorem State.setRidge_msgs (s : State) (d : Nat) (r : RidgeState) : (s.setRidge d r).msgs = s.msgs := rfl
@[simp] theorem State.setRidge_lastFn (s : State) (d : Nat) (r : RidgeState) : (s.setRidge d r).lastFn = s.lastFn := rfl
@[simp] theorem State.setRidge_free (s : State) (d : Nat) (r : RidgeState) : (s.setRidge d r).free = s.free := rfl
@[simp] theorem State.setRidge_pending (s : State) (d : Nat) (r : RidgeState) : (s.setRidge d r).pending = s.pending := rfl
@[simp] theorem State.setRidge_eng (s : State) (d : Nat) (r : RidgeState) (e2 : Nat) : (s.setRidge d r).eng e2 = s.eng e2 := rfl
@[simp] theorem State.setRidge_port (s : State) (d : Nat) (r : RidgeState) (p2 : Nat) : (s.setRidge d r).port p2 = s.port p2 := rfl
@[simp] theorem State.setRidge_die (s : State) (d : Nat) (r : RidgeState) (d2 : Nat) : (s.setRidge d r).die d2 = s.die d2 := rfl
@[simp] theorem State.setRidge_host (s : State) (d : Nat) (r : RidgeState) (h2 : Nat) : (s.setRidge d r).host h2 = s.host h2 := rfl
@[simp] theorem State.setRidge_pll (s : State) (d : Nat) (r : RidgeState) (d2 : Nat) : (s.setRidge d r).pll d2 = s.pll d2 := rfl
@[simp] theorem State.setRidge_lane (s : State) (d : Nat) (r : RidgeState) (l2 : Nat) : (s.setRidge d r).lane l2 = s.lane l2 := rfl
@[simp] theorem State.setRidge_link (s : State) (d : Nat) (r : RidgeState) (p2 : Nat) : (s.setRidge d r).link p2 = s.link p2 := rfl
@[simp] theorem State.setRidge_evt (s : State) (d : Nat) (r : RidgeState) (c2 : Nat) : (s.setRidge d r).evt c2 = s.evt c2 := rfl
@[simp] theorem State.setRidge_out (s : State) (d : Nat) (r : RidgeState) (d2 k2 : Nat) : (s.setRidge d r).out d2 k2 = s.out d2 k2 := rfl
@[simp] theorem State.setRidge_l2t (s : State) (d : Nat) (r : RidgeState) (d2 : Nat) : (s.setRidge d r).l2t d2 = s.l2t d2 := rfl
@[simp] theorem State.setRidge_tbl (s : State) (d : Nat) (r : RidgeState) (d2 b2 : Nat) : (s.setRidge d r).tbl d2 b2 = s.tbl d2 b2 := rfl
@[simp] theorem State.setRidge_tblOrder (s : State) (d : Nat) (r : RidgeState) (b2 : Nat) : (s.setRidge d r).tblOrder b2 = s.tblOrder b2 := rfl
@[simp] theorem State.setRidge_nvsOf (s : State) (d : Nat) (r : RidgeState) (d2 : Nat) : (s.setRidge d r).nvsOf d2 = s.nvsOf d2 := rfl
@[simp] theorem State.setRidge_cal (s : State) (d : Nat) (r : RidgeState) (d2 : Nat) : (s.setRidge d r).cal d2 = s.cal d2 := rfl
@[simp] theorem State.setRidge_rf (s : State) (d : Nat) (r : RidgeState) (q : Fld) (d2 i2 : Nat) : (s.setRidge d r).rf q d2 i2 = s.rf q d2 i2 := rfl
@[simp] theorem State.setRidge_rfF (s : State) (d : Nat) (r : RidgeState) (q : Fld) (d2 i2 : Nat) : (s.setRidge d r).rfF q d2 i2 = s.rfF q d2 i2 := rfl

/-! ### State.setHost changes `hosts` alone -/

@[simp] theorem State.setHost_part (s : State) (h : Nat) (x : HostEp) : (s.setHost h x).part = s.part := rfl
@[simp] theorem State.setHost_pins (s : State) (h : Nat) (x : HostEp) : (s.setHost h x).pins = s.pins := rfl
@[simp] theorem State.setHost_resets (s : State) (h : Nat) (x : HostEp) : (s.setHost h x).resets = s.resets := rfl
@[simp] theorem State.setHost_otp (s : State) (h : Nat) (x : HostEp) : (s.setHost h x).otp = s.otp := rfl
@[simp] theorem State.setHost_secNvs (s : State) (h : Nat) (x : HostEp) : (s.setHost h x).secNvs = s.secNvs := rfl
@[simp] theorem State.setHost_sec (s : State) (h : Nat) (x : HostEp) : (s.setHost h x).sec = s.sec := rfl
@[simp] theorem State.setHost_engs (s : State) (h : Nat) (x : HostEp) : (s.setHost h x).engs = s.engs := rfl
@[simp] theorem State.setHost_regs (s : State) (h : Nat) (x : HostEp) : (s.setHost h x).regs = s.regs := rfl
@[simp] theorem State.setHost_inForce (s : State) (h : Nat) (x : HostEp) : (s.setHost h x).inForce = s.inForce := rfl
@[simp] theorem State.setHost_stopAt (s : State) (h : Nat) (x : HostEp) : (s.setHost h x).stopAt = s.stopAt := rfl
@[simp] theorem State.setHost_own (s : State) (h : Nat) (x : HostEp) : (s.setHost h x).own = s.own := rfl
@[simp] theorem State.setHost_nvs (s : State) (h : Nat) (x : HostEp) : (s.setHost h x).nvs = s.nvs := rfl
@[simp] theorem State.setHost_cals (s : State) (h : Nat) (x : HostEp) : (s.setHost h x).cals = s.cals := rfl
@[simp] theorem State.setHost_ridges (s : State) (h : Nat) (x : HostEp) : (s.setHost h x).ridges = s.ridges := rfl
@[simp] theorem State.setHost_plls (s : State) (h : Nat) (x : HostEp) : (s.setHost h x).plls = s.plls := rfl
@[simp] theorem State.setHost_ports (s : State) (h : Nat) (x : HostEp) : (s.setHost h x).ports = s.ports := rfl
@[simp] theorem State.setHost_dies (s : State) (h : Nat) (x : HostEp) : (s.setHost h x).dies = s.dies := rfl
@[simp] theorem State.setHost_cells (s : State) (h : Nat) (x : HostEp) : (s.setHost h x).cells = s.cells := rfl
@[simp] theorem State.setHost_nextFrame (s : State) (h : Nat) (x : HostEp) : (s.setHost h x).nextFrame = s.nextFrame := rfl
@[simp] theorem State.setHost_l2 (s : State) (h : Nat) (x : HostEp) : (s.setHost h x).l2 = s.l2 := rfl
@[simp] theorem State.setHost_l2Order (s : State) (h : Nat) (x : HostEp) : (s.setHost h x).l2Order = s.l2Order := rfl
@[simp] theorem State.setHost_tbls (s : State) (h : Nat) (x : HostEp) : (s.setHost h x).tbls = s.tbls := rfl
@[simp] theorem State.setHost_tblOrders (s : State) (h : Nat) (x : HostEp) : (s.setHost h x).tblOrders = s.tblOrders := rfl
@[simp] theorem State.setHost_lanes (s : State) (h : Nat) (x : HostEp) : (s.setHost h x).lanes = s.lanes := rfl
@[simp] theorem State.setHost_links (s : State) (h : Nat) (x : HostEp) : (s.setHost h x).links = s.links := rfl
@[simp] theorem State.setHost_saddles (s : State) (h : Nat) (x : HostEp) : (s.setHost h x).saddles = s.saddles := rfl
@[simp] theorem State.setHost_summit (s : State) (h : Nat) (x : HostEp) : (s.setHost h x).summit = s.summit := rfl
@[simp] theorem State.setHost_gnss (s : State) (h : Nat) (x : HostEp) : (s.setHost h x).gnss = s.gnss := rfl
@[simp] theorem State.setHost_evts (s : State) (h : Nat) (x : HostEp) : (s.setHost h x).evts = s.evts := rfl
@[simp] theorem State.setHost_outs (s : State) (h : Nat) (x : HostEp) : (s.setHost h x).outs = s.outs := rfl
@[simp] theorem State.setHost_therm (s : State) (h : Nat) (x : HostEp) : (s.setHost h x).therm = s.therm := rfl
@[simp] theorem State.setHost_rom (s : State) (h : Nat) (x : HostEp) : (s.setHost h x).rom = s.rom := rfl
@[simp] theorem State.setHost_msgs (s : State) (h : Nat) (x : HostEp) : (s.setHost h x).msgs = s.msgs := rfl
@[simp] theorem State.setHost_lastFn (s : State) (h : Nat) (x : HostEp) : (s.setHost h x).lastFn = s.lastFn := rfl
@[simp] theorem State.setHost_free (s : State) (h : Nat) (x : HostEp) : (s.setHost h x).free = s.free := rfl
@[simp] theorem State.setHost_pending (s : State) (h : Nat) (x : HostEp) : (s.setHost h x).pending = s.pending := rfl
@[simp] theorem State.setHost_eng (s : State) (h : Nat) (x : HostEp) (e2 : Nat) : (s.setHost h x).eng e2 = s.eng e2 := rfl
@[simp] theorem State.setHost_port (s : State) (h : Nat) (x : HostEp) (p2 : Nat) : (s.setHost h x).port p2 = s.port p2 := rfl
@[simp] theorem State.setHost_die (s : State) (h : Nat) (x : HostEp) (d2 : Nat) : (s.setHost h x).die d2 = s.die d2 := rfl
@[simp] theorem State.setHost_ridge (s : State) (h : Nat) (x : HostEp) (d2 : Nat) : (s.setHost h x).ridge d2 = s.ridge d2 := rfl
@[simp] theorem State.setHost_pll (s : State) (h : Nat) (x : HostEp) (d2 : Nat) : (s.setHost h x).pll d2 = s.pll d2 := rfl
@[simp] theorem State.setHost_lane (s : State) (h : Nat) (x : HostEp) (l2 : Nat) : (s.setHost h x).lane l2 = s.lane l2 := rfl
@[simp] theorem State.setHost_link (s : State) (h : Nat) (x : HostEp) (p2 : Nat) : (s.setHost h x).link p2 = s.link p2 := rfl
@[simp] theorem State.setHost_evt (s : State) (h : Nat) (x : HostEp) (c2 : Nat) : (s.setHost h x).evt c2 = s.evt c2 := rfl
@[simp] theorem State.setHost_out (s : State) (h : Nat) (x : HostEp) (d2 k2 : Nat) : (s.setHost h x).out d2 k2 = s.out d2 k2 := rfl
@[simp] theorem State.setHost_l2t (s : State) (h : Nat) (x : HostEp) (d2 : Nat) : (s.setHost h x).l2t d2 = s.l2t d2 := rfl
@[simp] theorem State.setHost_tbl (s : State) (h : Nat) (x : HostEp) (d2 b2 : Nat) : (s.setHost h x).tbl d2 b2 = s.tbl d2 b2 := rfl
@[simp] theorem State.setHost_tblOrder (s : State) (h : Nat) (x : HostEp) (b2 : Nat) : (s.setHost h x).tblOrder b2 = s.tblOrder b2 := rfl
@[simp] theorem State.setHost_nvsOf (s : State) (h : Nat) (x : HostEp) (d2 : Nat) : (s.setHost h x).nvsOf d2 = s.nvsOf d2 := rfl
@[simp] theorem State.setHost_cal (s : State) (h : Nat) (x : HostEp) (d2 : Nat) : (s.setHost h x).cal d2 = s.cal d2 := rfl
@[simp] theorem State.setHost_rf (s : State) (h : Nat) (x : HostEp) (q : Fld) (d2 i2 : Nat) : (s.setHost h x).rf q d2 i2 = s.rf q d2 i2 := rfl
@[simp] theorem State.setHost_rfF (s : State) (h : Nat) (x : HostEp) (q : Fld) (d2 i2 : Nat) : (s.setHost h x).rfF q d2 i2 = s.rfF q d2 i2 := rfl

/-! ### State.setPll changes `plls` alone -/

@[simp] theorem State.setPll_part (s : State) (d : Nat) (x : PllState) : (s.setPll d x).part = s.part := rfl
@[simp] theorem State.setPll_pins (s : State) (d : Nat) (x : PllState) : (s.setPll d x).pins = s.pins := rfl
@[simp] theorem State.setPll_resets (s : State) (d : Nat) (x : PllState) : (s.setPll d x).resets = s.resets := rfl
@[simp] theorem State.setPll_otp (s : State) (d : Nat) (x : PllState) : (s.setPll d x).otp = s.otp := rfl
@[simp] theorem State.setPll_secNvs (s : State) (d : Nat) (x : PllState) : (s.setPll d x).secNvs = s.secNvs := rfl
@[simp] theorem State.setPll_sec (s : State) (d : Nat) (x : PllState) : (s.setPll d x).sec = s.sec := rfl
@[simp] theorem State.setPll_engs (s : State) (d : Nat) (x : PllState) : (s.setPll d x).engs = s.engs := rfl
@[simp] theorem State.setPll_regs (s : State) (d : Nat) (x : PllState) : (s.setPll d x).regs = s.regs := rfl
@[simp] theorem State.setPll_inForce (s : State) (d : Nat) (x : PllState) : (s.setPll d x).inForce = s.inForce := rfl
@[simp] theorem State.setPll_stopAt (s : State) (d : Nat) (x : PllState) : (s.setPll d x).stopAt = s.stopAt := rfl
@[simp] theorem State.setPll_own (s : State) (d : Nat) (x : PllState) : (s.setPll d x).own = s.own := rfl
@[simp] theorem State.setPll_hosts (s : State) (d : Nat) (x : PllState) : (s.setPll d x).hosts = s.hosts := rfl
@[simp] theorem State.setPll_nvs (s : State) (d : Nat) (x : PllState) : (s.setPll d x).nvs = s.nvs := rfl
@[simp] theorem State.setPll_cals (s : State) (d : Nat) (x : PllState) : (s.setPll d x).cals = s.cals := rfl
@[simp] theorem State.setPll_ridges (s : State) (d : Nat) (x : PllState) : (s.setPll d x).ridges = s.ridges := rfl
@[simp] theorem State.setPll_ports (s : State) (d : Nat) (x : PllState) : (s.setPll d x).ports = s.ports := rfl
@[simp] theorem State.setPll_dies (s : State) (d : Nat) (x : PllState) : (s.setPll d x).dies = s.dies := rfl
@[simp] theorem State.setPll_cells (s : State) (d : Nat) (x : PllState) : (s.setPll d x).cells = s.cells := rfl
@[simp] theorem State.setPll_nextFrame (s : State) (d : Nat) (x : PllState) : (s.setPll d x).nextFrame = s.nextFrame := rfl
@[simp] theorem State.setPll_l2 (s : State) (d : Nat) (x : PllState) : (s.setPll d x).l2 = s.l2 := rfl
@[simp] theorem State.setPll_l2Order (s : State) (d : Nat) (x : PllState) : (s.setPll d x).l2Order = s.l2Order := rfl
@[simp] theorem State.setPll_tbls (s : State) (d : Nat) (x : PllState) : (s.setPll d x).tbls = s.tbls := rfl
@[simp] theorem State.setPll_tblOrders (s : State) (d : Nat) (x : PllState) : (s.setPll d x).tblOrders = s.tblOrders := rfl
@[simp] theorem State.setPll_lanes (s : State) (d : Nat) (x : PllState) : (s.setPll d x).lanes = s.lanes := rfl
@[simp] theorem State.setPll_links (s : State) (d : Nat) (x : PllState) : (s.setPll d x).links = s.links := rfl
@[simp] theorem State.setPll_saddles (s : State) (d : Nat) (x : PllState) : (s.setPll d x).saddles = s.saddles := rfl
@[simp] theorem State.setPll_summit (s : State) (d : Nat) (x : PllState) : (s.setPll d x).summit = s.summit := rfl
@[simp] theorem State.setPll_gnss (s : State) (d : Nat) (x : PllState) : (s.setPll d x).gnss = s.gnss := rfl
@[simp] theorem State.setPll_evts (s : State) (d : Nat) (x : PllState) : (s.setPll d x).evts = s.evts := rfl
@[simp] theorem State.setPll_outs (s : State) (d : Nat) (x : PllState) : (s.setPll d x).outs = s.outs := rfl
@[simp] theorem State.setPll_therm (s : State) (d : Nat) (x : PllState) : (s.setPll d x).therm = s.therm := rfl
@[simp] theorem State.setPll_rom (s : State) (d : Nat) (x : PllState) : (s.setPll d x).rom = s.rom := rfl
@[simp] theorem State.setPll_msgs (s : State) (d : Nat) (x : PllState) : (s.setPll d x).msgs = s.msgs := rfl
@[simp] theorem State.setPll_lastFn (s : State) (d : Nat) (x : PllState) : (s.setPll d x).lastFn = s.lastFn := rfl
@[simp] theorem State.setPll_free (s : State) (d : Nat) (x : PllState) : (s.setPll d x).free = s.free := rfl
@[simp] theorem State.setPll_pending (s : State) (d : Nat) (x : PllState) : (s.setPll d x).pending = s.pending := rfl
@[simp] theorem State.setPll_eng (s : State) (d : Nat) (x : PllState) (e2 : Nat) : (s.setPll d x).eng e2 = s.eng e2 := rfl
@[simp] theorem State.setPll_port (s : State) (d : Nat) (x : PllState) (p2 : Nat) : (s.setPll d x).port p2 = s.port p2 := rfl
@[simp] theorem State.setPll_die (s : State) (d : Nat) (x : PllState) (d2 : Nat) : (s.setPll d x).die d2 = s.die d2 := rfl
@[simp] theorem State.setPll_ridge (s : State) (d : Nat) (x : PllState) (d2 : Nat) : (s.setPll d x).ridge d2 = s.ridge d2 := rfl
@[simp] theorem State.setPll_host (s : State) (d : Nat) (x : PllState) (h2 : Nat) : (s.setPll d x).host h2 = s.host h2 := rfl
@[simp] theorem State.setPll_lane (s : State) (d : Nat) (x : PllState) (l2 : Nat) : (s.setPll d x).lane l2 = s.lane l2 := rfl
@[simp] theorem State.setPll_link (s : State) (d : Nat) (x : PllState) (p2 : Nat) : (s.setPll d x).link p2 = s.link p2 := rfl
@[simp] theorem State.setPll_evt (s : State) (d : Nat) (x : PllState) (c2 : Nat) : (s.setPll d x).evt c2 = s.evt c2 := rfl
@[simp] theorem State.setPll_out (s : State) (d : Nat) (x : PllState) (d2 k2 : Nat) : (s.setPll d x).out d2 k2 = s.out d2 k2 := rfl
@[simp] theorem State.setPll_l2t (s : State) (d : Nat) (x : PllState) (d2 : Nat) : (s.setPll d x).l2t d2 = s.l2t d2 := rfl
@[simp] theorem State.setPll_tbl (s : State) (d : Nat) (x : PllState) (d2 b2 : Nat) : (s.setPll d x).tbl d2 b2 = s.tbl d2 b2 := rfl
@[simp] theorem State.setPll_tblOrder (s : State) (d : Nat) (x : PllState) (b2 : Nat) : (s.setPll d x).tblOrder b2 = s.tblOrder b2 := rfl
@[simp] theorem State.setPll_nvsOf (s : State) (d : Nat) (x : PllState) (d2 : Nat) : (s.setPll d x).nvsOf d2 = s.nvsOf d2 := rfl
@[simp] theorem State.setPll_cal (s : State) (d : Nat) (x : PllState) (d2 : Nat) : (s.setPll d x).cal d2 = s.cal d2 := rfl
@[simp] theorem State.setPll_rf (s : State) (d : Nat) (x : PllState) (q : Fld) (d2 i2 : Nat) : (s.setPll d x).rf q d2 i2 = s.rf q d2 i2 := rfl
@[simp] theorem State.setPll_rfF (s : State) (d : Nat) (x : PllState) (q : Fld) (d2 i2 : Nat) : (s.setPll d x).rfF q d2 i2 = s.rfF q d2 i2 := rfl

/-! ### State.setLane changes `lanes` alone -/

@[simp] theorem State.setLane_part (s : State) (l : Nat) (x : LaneState) : (s.setLane l x).part = s.part := rfl
@[simp] theorem State.setLane_pins (s : State) (l : Nat) (x : LaneState) : (s.setLane l x).pins = s.pins := rfl
@[simp] theorem State.setLane_resets (s : State) (l : Nat) (x : LaneState) : (s.setLane l x).resets = s.resets := rfl
@[simp] theorem State.setLane_otp (s : State) (l : Nat) (x : LaneState) : (s.setLane l x).otp = s.otp := rfl
@[simp] theorem State.setLane_secNvs (s : State) (l : Nat) (x : LaneState) : (s.setLane l x).secNvs = s.secNvs := rfl
@[simp] theorem State.setLane_sec (s : State) (l : Nat) (x : LaneState) : (s.setLane l x).sec = s.sec := rfl
@[simp] theorem State.setLane_engs (s : State) (l : Nat) (x : LaneState) : (s.setLane l x).engs = s.engs := rfl
@[simp] theorem State.setLane_regs (s : State) (l : Nat) (x : LaneState) : (s.setLane l x).regs = s.regs := rfl
@[simp] theorem State.setLane_inForce (s : State) (l : Nat) (x : LaneState) : (s.setLane l x).inForce = s.inForce := rfl
@[simp] theorem State.setLane_stopAt (s : State) (l : Nat) (x : LaneState) : (s.setLane l x).stopAt = s.stopAt := rfl
@[simp] theorem State.setLane_own (s : State) (l : Nat) (x : LaneState) : (s.setLane l x).own = s.own := rfl
@[simp] theorem State.setLane_hosts (s : State) (l : Nat) (x : LaneState) : (s.setLane l x).hosts = s.hosts := rfl
@[simp] theorem State.setLane_nvs (s : State) (l : Nat) (x : LaneState) : (s.setLane l x).nvs = s.nvs := rfl
@[simp] theorem State.setLane_cals (s : State) (l : Nat) (x : LaneState) : (s.setLane l x).cals = s.cals := rfl
@[simp] theorem State.setLane_ridges (s : State) (l : Nat) (x : LaneState) : (s.setLane l x).ridges = s.ridges := rfl
@[simp] theorem State.setLane_plls (s : State) (l : Nat) (x : LaneState) : (s.setLane l x).plls = s.plls := rfl
@[simp] theorem State.setLane_ports (s : State) (l : Nat) (x : LaneState) : (s.setLane l x).ports = s.ports := rfl
@[simp] theorem State.setLane_dies (s : State) (l : Nat) (x : LaneState) : (s.setLane l x).dies = s.dies := rfl
@[simp] theorem State.setLane_cells (s : State) (l : Nat) (x : LaneState) : (s.setLane l x).cells = s.cells := rfl
@[simp] theorem State.setLane_nextFrame (s : State) (l : Nat) (x : LaneState) : (s.setLane l x).nextFrame = s.nextFrame := rfl
@[simp] theorem State.setLane_l2 (s : State) (l : Nat) (x : LaneState) : (s.setLane l x).l2 = s.l2 := rfl
@[simp] theorem State.setLane_l2Order (s : State) (l : Nat) (x : LaneState) : (s.setLane l x).l2Order = s.l2Order := rfl
@[simp] theorem State.setLane_tbls (s : State) (l : Nat) (x : LaneState) : (s.setLane l x).tbls = s.tbls := rfl
@[simp] theorem State.setLane_tblOrders (s : State) (l : Nat) (x : LaneState) : (s.setLane l x).tblOrders = s.tblOrders := rfl
@[simp] theorem State.setLane_links (s : State) (l : Nat) (x : LaneState) : (s.setLane l x).links = s.links := rfl
@[simp] theorem State.setLane_saddles (s : State) (l : Nat) (x : LaneState) : (s.setLane l x).saddles = s.saddles := rfl
@[simp] theorem State.setLane_summit (s : State) (l : Nat) (x : LaneState) : (s.setLane l x).summit = s.summit := rfl
@[simp] theorem State.setLane_gnss (s : State) (l : Nat) (x : LaneState) : (s.setLane l x).gnss = s.gnss := rfl
@[simp] theorem State.setLane_evts (s : State) (l : Nat) (x : LaneState) : (s.setLane l x).evts = s.evts := rfl
@[simp] theorem State.setLane_outs (s : State) (l : Nat) (x : LaneState) : (s.setLane l x).outs = s.outs := rfl
@[simp] theorem State.setLane_therm (s : State) (l : Nat) (x : LaneState) : (s.setLane l x).therm = s.therm := rfl
@[simp] theorem State.setLane_rom (s : State) (l : Nat) (x : LaneState) : (s.setLane l x).rom = s.rom := rfl
@[simp] theorem State.setLane_msgs (s : State) (l : Nat) (x : LaneState) : (s.setLane l x).msgs = s.msgs := rfl
@[simp] theorem State.setLane_lastFn (s : State) (l : Nat) (x : LaneState) : (s.setLane l x).lastFn = s.lastFn := rfl
@[simp] theorem State.setLane_free (s : State) (l : Nat) (x : LaneState) : (s.setLane l x).free = s.free := rfl
@[simp] theorem State.setLane_pending (s : State) (l : Nat) (x : LaneState) : (s.setLane l x).pending = s.pending := rfl
@[simp] theorem State.setLane_eng (s : State) (l : Nat) (x : LaneState) (e2 : Nat) : (s.setLane l x).eng e2 = s.eng e2 := rfl
@[simp] theorem State.setLane_port (s : State) (l : Nat) (x : LaneState) (p2 : Nat) : (s.setLane l x).port p2 = s.port p2 := rfl
@[simp] theorem State.setLane_die (s : State) (l : Nat) (x : LaneState) (d2 : Nat) : (s.setLane l x).die d2 = s.die d2 := rfl
@[simp] theorem State.setLane_ridge (s : State) (l : Nat) (x : LaneState) (d2 : Nat) : (s.setLane l x).ridge d2 = s.ridge d2 := rfl
@[simp] theorem State.setLane_host (s : State) (l : Nat) (x : LaneState) (h2 : Nat) : (s.setLane l x).host h2 = s.host h2 := rfl
@[simp] theorem State.setLane_pll (s : State) (l : Nat) (x : LaneState) (d2 : Nat) : (s.setLane l x).pll d2 = s.pll d2 := rfl
@[simp] theorem State.setLane_link (s : State) (l : Nat) (x : LaneState) (p2 : Nat) : (s.setLane l x).link p2 = s.link p2 := rfl
@[simp] theorem State.setLane_evt (s : State) (l : Nat) (x : LaneState) (c2 : Nat) : (s.setLane l x).evt c2 = s.evt c2 := rfl
@[simp] theorem State.setLane_out (s : State) (l : Nat) (x : LaneState) (d2 k2 : Nat) : (s.setLane l x).out d2 k2 = s.out d2 k2 := rfl
@[simp] theorem State.setLane_l2t (s : State) (l : Nat) (x : LaneState) (d2 : Nat) : (s.setLane l x).l2t d2 = s.l2t d2 := rfl
@[simp] theorem State.setLane_tbl (s : State) (l : Nat) (x : LaneState) (d2 b2 : Nat) : (s.setLane l x).tbl d2 b2 = s.tbl d2 b2 := rfl
@[simp] theorem State.setLane_tblOrder (s : State) (l : Nat) (x : LaneState) (b2 : Nat) : (s.setLane l x).tblOrder b2 = s.tblOrder b2 := rfl
@[simp] theorem State.setLane_nvsOf (s : State) (l : Nat) (x : LaneState) (d2 : Nat) : (s.setLane l x).nvsOf d2 = s.nvsOf d2 := rfl
@[simp] theorem State.setLane_cal (s : State) (l : Nat) (x : LaneState) (d2 : Nat) : (s.setLane l x).cal d2 = s.cal d2 := rfl
@[simp] theorem State.setLane_rf (s : State) (l : Nat) (x : LaneState) (q : Fld) (d2 i2 : Nat) : (s.setLane l x).rf q d2 i2 = s.rf q d2 i2 := rfl
@[simp] theorem State.setLane_rfF (s : State) (l : Nat) (x : LaneState) (q : Fld) (d2 i2 : Nat) : (s.setLane l x).rfF q d2 i2 = s.rfF q d2 i2 := rfl

/-! ### State.setLink changes `links` alone -/

@[simp] theorem State.setLink_part (s : State) (p : Nat) (x : LinkState) : (s.setLink p x).part = s.part := rfl
@[simp] theorem State.setLink_pins (s : State) (p : Nat) (x : LinkState) : (s.setLink p x).pins = s.pins := rfl
@[simp] theorem State.setLink_resets (s : State) (p : Nat) (x : LinkState) : (s.setLink p x).resets = s.resets := rfl
@[simp] theorem State.setLink_otp (s : State) (p : Nat) (x : LinkState) : (s.setLink p x).otp = s.otp := rfl
@[simp] theorem State.setLink_secNvs (s : State) (p : Nat) (x : LinkState) : (s.setLink p x).secNvs = s.secNvs := rfl
@[simp] theorem State.setLink_sec (s : State) (p : Nat) (x : LinkState) : (s.setLink p x).sec = s.sec := rfl
@[simp] theorem State.setLink_engs (s : State) (p : Nat) (x : LinkState) : (s.setLink p x).engs = s.engs := rfl
@[simp] theorem State.setLink_regs (s : State) (p : Nat) (x : LinkState) : (s.setLink p x).regs = s.regs := rfl
@[simp] theorem State.setLink_inForce (s : State) (p : Nat) (x : LinkState) : (s.setLink p x).inForce = s.inForce := rfl
@[simp] theorem State.setLink_stopAt (s : State) (p : Nat) (x : LinkState) : (s.setLink p x).stopAt = s.stopAt := rfl
@[simp] theorem State.setLink_own (s : State) (p : Nat) (x : LinkState) : (s.setLink p x).own = s.own := rfl
@[simp] theorem State.setLink_hosts (s : State) (p : Nat) (x : LinkState) : (s.setLink p x).hosts = s.hosts := rfl
@[simp] theorem State.setLink_nvs (s : State) (p : Nat) (x : LinkState) : (s.setLink p x).nvs = s.nvs := rfl
@[simp] theorem State.setLink_cals (s : State) (p : Nat) (x : LinkState) : (s.setLink p x).cals = s.cals := rfl
@[simp] theorem State.setLink_ridges (s : State) (p : Nat) (x : LinkState) : (s.setLink p x).ridges = s.ridges := rfl
@[simp] theorem State.setLink_plls (s : State) (p : Nat) (x : LinkState) : (s.setLink p x).plls = s.plls := rfl
@[simp] theorem State.setLink_ports (s : State) (p : Nat) (x : LinkState) : (s.setLink p x).ports = s.ports := rfl
@[simp] theorem State.setLink_dies (s : State) (p : Nat) (x : LinkState) : (s.setLink p x).dies = s.dies := rfl
@[simp] theorem State.setLink_cells (s : State) (p : Nat) (x : LinkState) : (s.setLink p x).cells = s.cells := rfl
@[simp] theorem State.setLink_nextFrame (s : State) (p : Nat) (x : LinkState) : (s.setLink p x).nextFrame = s.nextFrame := rfl
@[simp] theorem State.setLink_l2 (s : State) (p : Nat) (x : LinkState) : (s.setLink p x).l2 = s.l2 := rfl
@[simp] theorem State.setLink_l2Order (s : State) (p : Nat) (x : LinkState) : (s.setLink p x).l2Order = s.l2Order := rfl
@[simp] theorem State.setLink_tbls (s : State) (p : Nat) (x : LinkState) : (s.setLink p x).tbls = s.tbls := rfl
@[simp] theorem State.setLink_tblOrders (s : State) (p : Nat) (x : LinkState) : (s.setLink p x).tblOrders = s.tblOrders := rfl
@[simp] theorem State.setLink_lanes (s : State) (p : Nat) (x : LinkState) : (s.setLink p x).lanes = s.lanes := rfl
@[simp] theorem State.setLink_saddles (s : State) (p : Nat) (x : LinkState) : (s.setLink p x).saddles = s.saddles := rfl
@[simp] theorem State.setLink_summit (s : State) (p : Nat) (x : LinkState) : (s.setLink p x).summit = s.summit := rfl
@[simp] theorem State.setLink_gnss (s : State) (p : Nat) (x : LinkState) : (s.setLink p x).gnss = s.gnss := rfl
@[simp] theorem State.setLink_evts (s : State) (p : Nat) (x : LinkState) : (s.setLink p x).evts = s.evts := rfl
@[simp] theorem State.setLink_outs (s : State) (p : Nat) (x : LinkState) : (s.setLink p x).outs = s.outs := rfl
@[simp] theorem State.setLink_therm (s : State) (p : Nat) (x : LinkState) : (s.setLink p x).therm = s.therm := rfl
@[simp] theorem State.setLink_rom (s : State) (p : Nat) (x : LinkState) : (s.setLink p x).rom = s.rom := rfl
@[simp] theorem State.setLink_msgs (s : State) (p : Nat) (x : LinkState) : (s.setLink p x).msgs = s.msgs := rfl
@[simp] theorem State.setLink_lastFn (s : State) (p : Nat) (x : LinkState) : (s.setLink p x).lastFn = s.lastFn := rfl
@[simp] theorem State.setLink_free (s : State) (p : Nat) (x : LinkState) : (s.setLink p x).free = s.free := rfl
@[simp] theorem State.setLink_pending (s : State) (p : Nat) (x : LinkState) : (s.setLink p x).pending = s.pending := rfl
@[simp] theorem State.setLink_eng (s : State) (p : Nat) (x : LinkState) (e2 : Nat) : (s.setLink p x).eng e2 = s.eng e2 := rfl
@[simp] theorem State.setLink_port (s : State) (p : Nat) (x : LinkState) (p2 : Nat) : (s.setLink p x).port p2 = s.port p2 := rfl
@[simp] theorem State.setLink_die (s : State) (p : Nat) (x : LinkState) (d2 : Nat) : (s.setLink p x).die d2 = s.die d2 := rfl
@[simp] theorem State.setLink_ridge (s : State) (p : Nat) (x : LinkState) (d2 : Nat) : (s.setLink p x).ridge d2 = s.ridge d2 := rfl
@[simp] theorem State.setLink_host (s : State) (p : Nat) (x : LinkState) (h2 : Nat) : (s.setLink p x).host h2 = s.host h2 := rfl
@[simp] theorem State.setLink_pll (s : State) (p : Nat) (x : LinkState) (d2 : Nat) : (s.setLink p x).pll d2 = s.pll d2 := rfl
@[simp] theorem State.setLink_lane (s : State) (p : Nat) (x : LinkState) (l2 : Nat) : (s.setLink p x).lane l2 = s.lane l2 := rfl
@[simp] theorem State.setLink_evt (s : State) (p : Nat) (x : LinkState) (c2 : Nat) : (s.setLink p x).evt c2 = s.evt c2 := rfl
@[simp] theorem State.setLink_out (s : State) (p : Nat) (x : LinkState) (d2 k2 : Nat) : (s.setLink p x).out d2 k2 = s.out d2 k2 := rfl
@[simp] theorem State.setLink_l2t (s : State) (p : Nat) (x : LinkState) (d2 : Nat) : (s.setLink p x).l2t d2 = s.l2t d2 := rfl
@[simp] theorem State.setLink_tbl (s : State) (p : Nat) (x : LinkState) (d2 b2 : Nat) : (s.setLink p x).tbl d2 b2 = s.tbl d2 b2 := rfl
@[simp] theorem State.setLink_tblOrder (s : State) (p : Nat) (x : LinkState) (b2 : Nat) : (s.setLink p x).tblOrder b2 = s.tblOrder b2 := rfl
@[simp] theorem State.setLink_nvsOf (s : State) (p : Nat) (x : LinkState) (d2 : Nat) : (s.setLink p x).nvsOf d2 = s.nvsOf d2 := rfl
@[simp] theorem State.setLink_cal (s : State) (p : Nat) (x : LinkState) (d2 : Nat) : (s.setLink p x).cal d2 = s.cal d2 := rfl
@[simp] theorem State.setLink_rf (s : State) (p : Nat) (x : LinkState) (q : Fld) (d2 i2 : Nat) : (s.setLink p x).rf q d2 i2 = s.rf q d2 i2 := rfl
@[simp] theorem State.setLink_rfF (s : State) (p : Nat) (x : LinkState) (q : Fld) (d2 i2 : Nat) : (s.setLink p x).rfF q d2 i2 = s.rfF q d2 i2 := rfl

/-! ### State.setEvt changes `evts` alone -/

@[simp] theorem State.setEvt_part (s : State) (c : Nat) (x : EvtState) : (s.setEvt c x).part = s.part := rfl
@[simp] theorem State.setEvt_pins (s : State) (c : Nat) (x : EvtState) : (s.setEvt c x).pins = s.pins := rfl
@[simp] theorem State.setEvt_resets (s : State) (c : Nat) (x : EvtState) : (s.setEvt c x).resets = s.resets := rfl
@[simp] theorem State.setEvt_otp (s : State) (c : Nat) (x : EvtState) : (s.setEvt c x).otp = s.otp := rfl
@[simp] theorem State.setEvt_secNvs (s : State) (c : Nat) (x : EvtState) : (s.setEvt c x).secNvs = s.secNvs := rfl
@[simp] theorem State.setEvt_sec (s : State) (c : Nat) (x : EvtState) : (s.setEvt c x).sec = s.sec := rfl
@[simp] theorem State.setEvt_engs (s : State) (c : Nat) (x : EvtState) : (s.setEvt c x).engs = s.engs := rfl
@[simp] theorem State.setEvt_regs (s : State) (c : Nat) (x : EvtState) : (s.setEvt c x).regs = s.regs := rfl
@[simp] theorem State.setEvt_inForce (s : State) (c : Nat) (x : EvtState) : (s.setEvt c x).inForce = s.inForce := rfl
@[simp] theorem State.setEvt_stopAt (s : State) (c : Nat) (x : EvtState) : (s.setEvt c x).stopAt = s.stopAt := rfl
@[simp] theorem State.setEvt_own (s : State) (c : Nat) (x : EvtState) : (s.setEvt c x).own = s.own := rfl
@[simp] theorem State.setEvt_hosts (s : State) (c : Nat) (x : EvtState) : (s.setEvt c x).hosts = s.hosts := rfl
@[simp] theorem State.setEvt_nvs (s : State) (c : Nat) (x : EvtState) : (s.setEvt c x).nvs = s.nvs := rfl
@[simp] theorem State.setEvt_cals (s : State) (c : Nat) (x : EvtState) : (s.setEvt c x).cals = s.cals := rfl
@[simp] theorem State.setEvt_ridges (s : State) (c : Nat) (x : EvtState) : (s.setEvt c x).ridges = s.ridges := rfl
@[simp] theorem State.setEvt_plls (s : State) (c : Nat) (x : EvtState) : (s.setEvt c x).plls = s.plls := rfl
@[simp] theorem State.setEvt_ports (s : State) (c : Nat) (x : EvtState) : (s.setEvt c x).ports = s.ports := rfl
@[simp] theorem State.setEvt_dies (s : State) (c : Nat) (x : EvtState) : (s.setEvt c x).dies = s.dies := rfl
@[simp] theorem State.setEvt_cells (s : State) (c : Nat) (x : EvtState) : (s.setEvt c x).cells = s.cells := rfl
@[simp] theorem State.setEvt_nextFrame (s : State) (c : Nat) (x : EvtState) : (s.setEvt c x).nextFrame = s.nextFrame := rfl
@[simp] theorem State.setEvt_l2 (s : State) (c : Nat) (x : EvtState) : (s.setEvt c x).l2 = s.l2 := rfl
@[simp] theorem State.setEvt_l2Order (s : State) (c : Nat) (x : EvtState) : (s.setEvt c x).l2Order = s.l2Order := rfl
@[simp] theorem State.setEvt_tbls (s : State) (c : Nat) (x : EvtState) : (s.setEvt c x).tbls = s.tbls := rfl
@[simp] theorem State.setEvt_tblOrders (s : State) (c : Nat) (x : EvtState) : (s.setEvt c x).tblOrders = s.tblOrders := rfl
@[simp] theorem State.setEvt_lanes (s : State) (c : Nat) (x : EvtState) : (s.setEvt c x).lanes = s.lanes := rfl
@[simp] theorem State.setEvt_links (s : State) (c : Nat) (x : EvtState) : (s.setEvt c x).links = s.links := rfl
@[simp] theorem State.setEvt_saddles (s : State) (c : Nat) (x : EvtState) : (s.setEvt c x).saddles = s.saddles := rfl
@[simp] theorem State.setEvt_summit (s : State) (c : Nat) (x : EvtState) : (s.setEvt c x).summit = s.summit := rfl
@[simp] theorem State.setEvt_gnss (s : State) (c : Nat) (x : EvtState) : (s.setEvt c x).gnss = s.gnss := rfl
@[simp] theorem State.setEvt_outs (s : State) (c : Nat) (x : EvtState) : (s.setEvt c x).outs = s.outs := rfl
@[simp] theorem State.setEvt_therm (s : State) (c : Nat) (x : EvtState) : (s.setEvt c x).therm = s.therm := rfl
@[simp] theorem State.setEvt_rom (s : State) (c : Nat) (x : EvtState) : (s.setEvt c x).rom = s.rom := rfl
@[simp] theorem State.setEvt_msgs (s : State) (c : Nat) (x : EvtState) : (s.setEvt c x).msgs = s.msgs := rfl
@[simp] theorem State.setEvt_lastFn (s : State) (c : Nat) (x : EvtState) : (s.setEvt c x).lastFn = s.lastFn := rfl
@[simp] theorem State.setEvt_free (s : State) (c : Nat) (x : EvtState) : (s.setEvt c x).free = s.free := rfl
@[simp] theorem State.setEvt_pending (s : State) (c : Nat) (x : EvtState) : (s.setEvt c x).pending = s.pending := rfl
@[simp] theorem State.setEvt_eng (s : State) (c : Nat) (x : EvtState) (e2 : Nat) : (s.setEvt c x).eng e2 = s.eng e2 := rfl
@[simp] theorem State.setEvt_port (s : State) (c : Nat) (x : EvtState) (p2 : Nat) : (s.setEvt c x).port p2 = s.port p2 := rfl
@[simp] theorem State.setEvt_die (s : State) (c : Nat) (x : EvtState) (d2 : Nat) : (s.setEvt c x).die d2 = s.die d2 := rfl
@[simp] theorem State.setEvt_ridge (s : State) (c : Nat) (x : EvtState) (d2 : Nat) : (s.setEvt c x).ridge d2 = s.ridge d2 := rfl
@[simp] theorem State.setEvt_host (s : State) (c : Nat) (x : EvtState) (h2 : Nat) : (s.setEvt c x).host h2 = s.host h2 := rfl
@[simp] theorem State.setEvt_pll (s : State) (c : Nat) (x : EvtState) (d2 : Nat) : (s.setEvt c x).pll d2 = s.pll d2 := rfl
@[simp] theorem State.setEvt_lane (s : State) (c : Nat) (x : EvtState) (l2 : Nat) : (s.setEvt c x).lane l2 = s.lane l2 := rfl
@[simp] theorem State.setEvt_link (s : State) (c : Nat) (x : EvtState) (p2 : Nat) : (s.setEvt c x).link p2 = s.link p2 := rfl
@[simp] theorem State.setEvt_out (s : State) (c : Nat) (x : EvtState) (d2 k2 : Nat) : (s.setEvt c x).out d2 k2 = s.out d2 k2 := rfl
@[simp] theorem State.setEvt_l2t (s : State) (c : Nat) (x : EvtState) (d2 : Nat) : (s.setEvt c x).l2t d2 = s.l2t d2 := rfl
@[simp] theorem State.setEvt_tbl (s : State) (c : Nat) (x : EvtState) (d2 b2 : Nat) : (s.setEvt c x).tbl d2 b2 = s.tbl d2 b2 := rfl
@[simp] theorem State.setEvt_tblOrder (s : State) (c : Nat) (x : EvtState) (b2 : Nat) : (s.setEvt c x).tblOrder b2 = s.tblOrder b2 := rfl
@[simp] theorem State.setEvt_nvsOf (s : State) (c : Nat) (x : EvtState) (d2 : Nat) : (s.setEvt c x).nvsOf d2 = s.nvsOf d2 := rfl
@[simp] theorem State.setEvt_cal (s : State) (c : Nat) (x : EvtState) (d2 : Nat) : (s.setEvt c x).cal d2 = s.cal d2 := rfl
@[simp] theorem State.setEvt_rf (s : State) (c : Nat) (x : EvtState) (q : Fld) (d2 i2 : Nat) : (s.setEvt c x).rf q d2 i2 = s.rf q d2 i2 := rfl
@[simp] theorem State.setEvt_rfF (s : State) (c : Nat) (x : EvtState) (q : Fld) (d2 i2 : Nat) : (s.setEvt c x).rfF q d2 i2 = s.rfF q d2 i2 := rfl

/-! ### State.setOut changes `outs` alone -/

@[simp] theorem State.setOut_part (s : State) (d k : Nat) (x : OutState) : (s.setOut d k x).part = s.part := rfl
@[simp] theorem State.setOut_pins (s : State) (d k : Nat) (x : OutState) : (s.setOut d k x).pins = s.pins := rfl
@[simp] theorem State.setOut_resets (s : State) (d k : Nat) (x : OutState) : (s.setOut d k x).resets = s.resets := rfl
@[simp] theorem State.setOut_otp (s : State) (d k : Nat) (x : OutState) : (s.setOut d k x).otp = s.otp := rfl
@[simp] theorem State.setOut_secNvs (s : State) (d k : Nat) (x : OutState) : (s.setOut d k x).secNvs = s.secNvs := rfl
@[simp] theorem State.setOut_sec (s : State) (d k : Nat) (x : OutState) : (s.setOut d k x).sec = s.sec := rfl
@[simp] theorem State.setOut_engs (s : State) (d k : Nat) (x : OutState) : (s.setOut d k x).engs = s.engs := rfl
@[simp] theorem State.setOut_regs (s : State) (d k : Nat) (x : OutState) : (s.setOut d k x).regs = s.regs := rfl
@[simp] theorem State.setOut_inForce (s : State) (d k : Nat) (x : OutState) : (s.setOut d k x).inForce = s.inForce := rfl
@[simp] theorem State.setOut_stopAt (s : State) (d k : Nat) (x : OutState) : (s.setOut d k x).stopAt = s.stopAt := rfl
@[simp] theorem State.setOut_own (s : State) (d k : Nat) (x : OutState) : (s.setOut d k x).own = s.own := rfl
@[simp] theorem State.setOut_hosts (s : State) (d k : Nat) (x : OutState) : (s.setOut d k x).hosts = s.hosts := rfl
@[simp] theorem State.setOut_nvs (s : State) (d k : Nat) (x : OutState) : (s.setOut d k x).nvs = s.nvs := rfl
@[simp] theorem State.setOut_cals (s : State) (d k : Nat) (x : OutState) : (s.setOut d k x).cals = s.cals := rfl
@[simp] theorem State.setOut_ridges (s : State) (d k : Nat) (x : OutState) : (s.setOut d k x).ridges = s.ridges := rfl
@[simp] theorem State.setOut_plls (s : State) (d k : Nat) (x : OutState) : (s.setOut d k x).plls = s.plls := rfl
@[simp] theorem State.setOut_ports (s : State) (d k : Nat) (x : OutState) : (s.setOut d k x).ports = s.ports := rfl
@[simp] theorem State.setOut_dies (s : State) (d k : Nat) (x : OutState) : (s.setOut d k x).dies = s.dies := rfl
@[simp] theorem State.setOut_cells (s : State) (d k : Nat) (x : OutState) : (s.setOut d k x).cells = s.cells := rfl
@[simp] theorem State.setOut_nextFrame (s : State) (d k : Nat) (x : OutState) : (s.setOut d k x).nextFrame = s.nextFrame := rfl
@[simp] theorem State.setOut_l2 (s : State) (d k : Nat) (x : OutState) : (s.setOut d k x).l2 = s.l2 := rfl
@[simp] theorem State.setOut_l2Order (s : State) (d k : Nat) (x : OutState) : (s.setOut d k x).l2Order = s.l2Order := rfl
@[simp] theorem State.setOut_tbls (s : State) (d k : Nat) (x : OutState) : (s.setOut d k x).tbls = s.tbls := rfl
@[simp] theorem State.setOut_tblOrders (s : State) (d k : Nat) (x : OutState) : (s.setOut d k x).tblOrders = s.tblOrders := rfl
@[simp] theorem State.setOut_lanes (s : State) (d k : Nat) (x : OutState) : (s.setOut d k x).lanes = s.lanes := rfl
@[simp] theorem State.setOut_links (s : State) (d k : Nat) (x : OutState) : (s.setOut d k x).links = s.links := rfl
@[simp] theorem State.setOut_saddles (s : State) (d k : Nat) (x : OutState) : (s.setOut d k x).saddles = s.saddles := rfl
@[simp] theorem State.setOut_summit (s : State) (d k : Nat) (x : OutState) : (s.setOut d k x).summit = s.summit := rfl
@[simp] theorem State.setOut_gnss (s : State) (d k : Nat) (x : OutState) : (s.setOut d k x).gnss = s.gnss := rfl
@[simp] theorem State.setOut_evts (s : State) (d k : Nat) (x : OutState) : (s.setOut d k x).evts = s.evts := rfl
@[simp] theorem State.setOut_therm (s : State) (d k : Nat) (x : OutState) : (s.setOut d k x).therm = s.therm := rfl
@[simp] theorem State.setOut_rom (s : State) (d k : Nat) (x : OutState) : (s.setOut d k x).rom = s.rom := rfl
@[simp] theorem State.setOut_msgs (s : State) (d k : Nat) (x : OutState) : (s.setOut d k x).msgs = s.msgs := rfl
@[simp] theorem State.setOut_lastFn (s : State) (d k : Nat) (x : OutState) : (s.setOut d k x).lastFn = s.lastFn := rfl
@[simp] theorem State.setOut_free (s : State) (d k : Nat) (x : OutState) : (s.setOut d k x).free = s.free := rfl
@[simp] theorem State.setOut_pending (s : State) (d k : Nat) (x : OutState) : (s.setOut d k x).pending = s.pending := rfl
@[simp] theorem State.setOut_eng (s : State) (d k : Nat) (x : OutState) (e2 : Nat) : (s.setOut d k x).eng e2 = s.eng e2 := rfl
@[simp] theorem State.setOut_port (s : State) (d k : Nat) (x : OutState) (p2 : Nat) : (s.setOut d k x).port p2 = s.port p2 := rfl
@[simp] theorem State.setOut_die (s : State) (d k : Nat) (x : OutState) (d2 : Nat) : (s.setOut d k x).die d2 = s.die d2 := rfl
@[simp] theorem State.setOut_ridge (s : State) (d k : Nat) (x : OutState) (d2 : Nat) : (s.setOut d k x).ridge d2 = s.ridge d2 := rfl
@[simp] theorem State.setOut_host (s : State) (d k : Nat) (x : OutState) (h2 : Nat) : (s.setOut d k x).host h2 = s.host h2 := rfl
@[simp] theorem State.setOut_pll (s : State) (d k : Nat) (x : OutState) (d2 : Nat) : (s.setOut d k x).pll d2 = s.pll d2 := rfl
@[simp] theorem State.setOut_lane (s : State) (d k : Nat) (x : OutState) (l2 : Nat) : (s.setOut d k x).lane l2 = s.lane l2 := rfl
@[simp] theorem State.setOut_link (s : State) (d k : Nat) (x : OutState) (p2 : Nat) : (s.setOut d k x).link p2 = s.link p2 := rfl
@[simp] theorem State.setOut_evt (s : State) (d k : Nat) (x : OutState) (c2 : Nat) : (s.setOut d k x).evt c2 = s.evt c2 := rfl
@[simp] theorem State.setOut_l2t (s : State) (d k : Nat) (x : OutState) (d2 : Nat) : (s.setOut d k x).l2t d2 = s.l2t d2 := rfl
@[simp] theorem State.setOut_tbl (s : State) (d k : Nat) (x : OutState) (d2 b2 : Nat) : (s.setOut d k x).tbl d2 b2 = s.tbl d2 b2 := rfl
@[simp] theorem State.setOut_tblOrder (s : State) (d k : Nat) (x : OutState) (b2 : Nat) : (s.setOut d k x).tblOrder b2 = s.tblOrder b2 := rfl
@[simp] theorem State.setOut_nvsOf (s : State) (d k : Nat) (x : OutState) (d2 : Nat) : (s.setOut d k x).nvsOf d2 = s.nvsOf d2 := rfl
@[simp] theorem State.setOut_cal (s : State) (d k : Nat) (x : OutState) (d2 : Nat) : (s.setOut d k x).cal d2 = s.cal d2 := rfl
@[simp] theorem State.setOut_rf (s : State) (d k : Nat) (x : OutState) (q : Fld) (d2 i2 : Nat) : (s.setOut d k x).rf q d2 i2 = s.rf q d2 i2 := rfl
@[simp] theorem State.setOut_rfF (s : State) (d k : Nat) (x : OutState) (q : Fld) (d2 i2 : Nat) : (s.setOut d k x).rfF q d2 i2 = s.rfF q d2 i2 := rfl

/-! ### State.setGnss changes `gnss` alone -/

@[simp] theorem State.setGnss_part (s : State) (g : GnssState) : (s.setGnss g).part = s.part := rfl
@[simp] theorem State.setGnss_pins (s : State) (g : GnssState) : (s.setGnss g).pins = s.pins := rfl
@[simp] theorem State.setGnss_resets (s : State) (g : GnssState) : (s.setGnss g).resets = s.resets := rfl
@[simp] theorem State.setGnss_otp (s : State) (g : GnssState) : (s.setGnss g).otp = s.otp := rfl
@[simp] theorem State.setGnss_secNvs (s : State) (g : GnssState) : (s.setGnss g).secNvs = s.secNvs := rfl
@[simp] theorem State.setGnss_sec (s : State) (g : GnssState) : (s.setGnss g).sec = s.sec := rfl
@[simp] theorem State.setGnss_engs (s : State) (g : GnssState) : (s.setGnss g).engs = s.engs := rfl
@[simp] theorem State.setGnss_regs (s : State) (g : GnssState) : (s.setGnss g).regs = s.regs := rfl
@[simp] theorem State.setGnss_inForce (s : State) (g : GnssState) : (s.setGnss g).inForce = s.inForce := rfl
@[simp] theorem State.setGnss_stopAt (s : State) (g : GnssState) : (s.setGnss g).stopAt = s.stopAt := rfl
@[simp] theorem State.setGnss_own (s : State) (g : GnssState) : (s.setGnss g).own = s.own := rfl
@[simp] theorem State.setGnss_hosts (s : State) (g : GnssState) : (s.setGnss g).hosts = s.hosts := rfl
@[simp] theorem State.setGnss_nvs (s : State) (g : GnssState) : (s.setGnss g).nvs = s.nvs := rfl
@[simp] theorem State.setGnss_cals (s : State) (g : GnssState) : (s.setGnss g).cals = s.cals := rfl
@[simp] theorem State.setGnss_ridges (s : State) (g : GnssState) : (s.setGnss g).ridges = s.ridges := rfl
@[simp] theorem State.setGnss_plls (s : State) (g : GnssState) : (s.setGnss g).plls = s.plls := rfl
@[simp] theorem State.setGnss_ports (s : State) (g : GnssState) : (s.setGnss g).ports = s.ports := rfl
@[simp] theorem State.setGnss_dies (s : State) (g : GnssState) : (s.setGnss g).dies = s.dies := rfl
@[simp] theorem State.setGnss_cells (s : State) (g : GnssState) : (s.setGnss g).cells = s.cells := rfl
@[simp] theorem State.setGnss_nextFrame (s : State) (g : GnssState) : (s.setGnss g).nextFrame = s.nextFrame := rfl
@[simp] theorem State.setGnss_l2 (s : State) (g : GnssState) : (s.setGnss g).l2 = s.l2 := rfl
@[simp] theorem State.setGnss_l2Order (s : State) (g : GnssState) : (s.setGnss g).l2Order = s.l2Order := rfl
@[simp] theorem State.setGnss_tbls (s : State) (g : GnssState) : (s.setGnss g).tbls = s.tbls := rfl
@[simp] theorem State.setGnss_tblOrders (s : State) (g : GnssState) : (s.setGnss g).tblOrders = s.tblOrders := rfl
@[simp] theorem State.setGnss_lanes (s : State) (g : GnssState) : (s.setGnss g).lanes = s.lanes := rfl
@[simp] theorem State.setGnss_links (s : State) (g : GnssState) : (s.setGnss g).links = s.links := rfl
@[simp] theorem State.setGnss_saddles (s : State) (g : GnssState) : (s.setGnss g).saddles = s.saddles := rfl
@[simp] theorem State.setGnss_summit (s : State) (g : GnssState) : (s.setGnss g).summit = s.summit := rfl
@[simp] theorem State.setGnss_evts (s : State) (g : GnssState) : (s.setGnss g).evts = s.evts := rfl
@[simp] theorem State.setGnss_outs (s : State) (g : GnssState) : (s.setGnss g).outs = s.outs := rfl
@[simp] theorem State.setGnss_therm (s : State) (g : GnssState) : (s.setGnss g).therm = s.therm := rfl
@[simp] theorem State.setGnss_rom (s : State) (g : GnssState) : (s.setGnss g).rom = s.rom := rfl
@[simp] theorem State.setGnss_msgs (s : State) (g : GnssState) : (s.setGnss g).msgs = s.msgs := rfl
@[simp] theorem State.setGnss_lastFn (s : State) (g : GnssState) : (s.setGnss g).lastFn = s.lastFn := rfl
@[simp] theorem State.setGnss_free (s : State) (g : GnssState) : (s.setGnss g).free = s.free := rfl
@[simp] theorem State.setGnss_pending (s : State) (g : GnssState) : (s.setGnss g).pending = s.pending := rfl
@[simp] theorem State.setGnss_eng (s : State) (g : GnssState) (e2 : Nat) : (s.setGnss g).eng e2 = s.eng e2 := rfl
@[simp] theorem State.setGnss_port (s : State) (g : GnssState) (p2 : Nat) : (s.setGnss g).port p2 = s.port p2 := rfl
@[simp] theorem State.setGnss_die (s : State) (g : GnssState) (d2 : Nat) : (s.setGnss g).die d2 = s.die d2 := rfl
@[simp] theorem State.setGnss_ridge (s : State) (g : GnssState) (d2 : Nat) : (s.setGnss g).ridge d2 = s.ridge d2 := rfl
@[simp] theorem State.setGnss_host (s : State) (g : GnssState) (h2 : Nat) : (s.setGnss g).host h2 = s.host h2 := rfl
@[simp] theorem State.setGnss_pll (s : State) (g : GnssState) (d2 : Nat) : (s.setGnss g).pll d2 = s.pll d2 := rfl
@[simp] theorem State.setGnss_lane (s : State) (g : GnssState) (l2 : Nat) : (s.setGnss g).lane l2 = s.lane l2 := rfl
@[simp] theorem State.setGnss_link (s : State) (g : GnssState) (p2 : Nat) : (s.setGnss g).link p2 = s.link p2 := rfl
@[simp] theorem State.setGnss_evt (s : State) (g : GnssState) (c2 : Nat) : (s.setGnss g).evt c2 = s.evt c2 := rfl
@[simp] theorem State.setGnss_out (s : State) (g : GnssState) (d2 k2 : Nat) : (s.setGnss g).out d2 k2 = s.out d2 k2 := rfl
@[simp] theorem State.setGnss_l2t (s : State) (g : GnssState) (d2 : Nat) : (s.setGnss g).l2t d2 = s.l2t d2 := rfl
@[simp] theorem State.setGnss_tbl (s : State) (g : GnssState) (d2 b2 : Nat) : (s.setGnss g).tbl d2 b2 = s.tbl d2 b2 := rfl
@[simp] theorem State.setGnss_tblOrder (s : State) (g : GnssState) (b2 : Nat) : (s.setGnss g).tblOrder b2 = s.tblOrder b2 := rfl
@[simp] theorem State.setGnss_nvsOf (s : State) (g : GnssState) (d2 : Nat) : (s.setGnss g).nvsOf d2 = s.nvsOf d2 := rfl
@[simp] theorem State.setGnss_cal (s : State) (g : GnssState) (d2 : Nat) : (s.setGnss g).cal d2 = s.cal d2 := rfl
@[simp] theorem State.setGnss_rf (s : State) (g : GnssState) (q : Fld) (d2 i2 : Nat) : (s.setGnss g).rf q d2 i2 = s.rf q d2 i2 := rfl
@[simp] theorem State.setGnss_rfF (s : State) (g : GnssState) (q : Fld) (d2 i2 : Nat) : (s.setGnss g).rfF q d2 i2 = s.rfF q d2 i2 := rfl

/-! ### State.setL2 changes `l2` alone -/

@[simp] theorem State.setL2_part (s : State) (d : Nat) (x : L2State) : (s.setL2 d x).part = s.part := rfl
@[simp] theorem State.setL2_pins (s : State) (d : Nat) (x : L2State) : (s.setL2 d x).pins = s.pins := rfl
@[simp] theorem State.setL2_resets (s : State) (d : Nat) (x : L2State) : (s.setL2 d x).resets = s.resets := rfl
@[simp] theorem State.setL2_otp (s : State) (d : Nat) (x : L2State) : (s.setL2 d x).otp = s.otp := rfl
@[simp] theorem State.setL2_secNvs (s : State) (d : Nat) (x : L2State) : (s.setL2 d x).secNvs = s.secNvs := rfl
@[simp] theorem State.setL2_sec (s : State) (d : Nat) (x : L2State) : (s.setL2 d x).sec = s.sec := rfl
@[simp] theorem State.setL2_engs (s : State) (d : Nat) (x : L2State) : (s.setL2 d x).engs = s.engs := rfl
@[simp] theorem State.setL2_regs (s : State) (d : Nat) (x : L2State) : (s.setL2 d x).regs = s.regs := rfl
@[simp] theorem State.setL2_inForce (s : State) (d : Nat) (x : L2State) : (s.setL2 d x).inForce = s.inForce := rfl
@[simp] theorem State.setL2_stopAt (s : State) (d : Nat) (x : L2State) : (s.setL2 d x).stopAt = s.stopAt := rfl
@[simp] theorem State.setL2_own (s : State) (d : Nat) (x : L2State) : (s.setL2 d x).own = s.own := rfl
@[simp] theorem State.setL2_hosts (s : State) (d : Nat) (x : L2State) : (s.setL2 d x).hosts = s.hosts := rfl
@[simp] theorem State.setL2_nvs (s : State) (d : Nat) (x : L2State) : (s.setL2 d x).nvs = s.nvs := rfl
@[simp] theorem State.setL2_cals (s : State) (d : Nat) (x : L2State) : (s.setL2 d x).cals = s.cals := rfl
@[simp] theorem State.setL2_ridges (s : State) (d : Nat) (x : L2State) : (s.setL2 d x).ridges = s.ridges := rfl
@[simp] theorem State.setL2_plls (s : State) (d : Nat) (x : L2State) : (s.setL2 d x).plls = s.plls := rfl
@[simp] theorem State.setL2_ports (s : State) (d : Nat) (x : L2State) : (s.setL2 d x).ports = s.ports := rfl
@[simp] theorem State.setL2_dies (s : State) (d : Nat) (x : L2State) : (s.setL2 d x).dies = s.dies := rfl
@[simp] theorem State.setL2_cells (s : State) (d : Nat) (x : L2State) : (s.setL2 d x).cells = s.cells := rfl
@[simp] theorem State.setL2_nextFrame (s : State) (d : Nat) (x : L2State) : (s.setL2 d x).nextFrame = s.nextFrame := rfl
@[simp] theorem State.setL2_l2Order (s : State) (d : Nat) (x : L2State) : (s.setL2 d x).l2Order = s.l2Order := rfl
@[simp] theorem State.setL2_tbls (s : State) (d : Nat) (x : L2State) : (s.setL2 d x).tbls = s.tbls := rfl
@[simp] theorem State.setL2_tblOrders (s : State) (d : Nat) (x : L2State) : (s.setL2 d x).tblOrders = s.tblOrders := rfl
@[simp] theorem State.setL2_lanes (s : State) (d : Nat) (x : L2State) : (s.setL2 d x).lanes = s.lanes := rfl
@[simp] theorem State.setL2_links (s : State) (d : Nat) (x : L2State) : (s.setL2 d x).links = s.links := rfl
@[simp] theorem State.setL2_saddles (s : State) (d : Nat) (x : L2State) : (s.setL2 d x).saddles = s.saddles := rfl
@[simp] theorem State.setL2_summit (s : State) (d : Nat) (x : L2State) : (s.setL2 d x).summit = s.summit := rfl
@[simp] theorem State.setL2_gnss (s : State) (d : Nat) (x : L2State) : (s.setL2 d x).gnss = s.gnss := rfl
@[simp] theorem State.setL2_evts (s : State) (d : Nat) (x : L2State) : (s.setL2 d x).evts = s.evts := rfl
@[simp] theorem State.setL2_outs (s : State) (d : Nat) (x : L2State) : (s.setL2 d x).outs = s.outs := rfl
@[simp] theorem State.setL2_therm (s : State) (d : Nat) (x : L2State) : (s.setL2 d x).therm = s.therm := rfl
@[simp] theorem State.setL2_rom (s : State) (d : Nat) (x : L2State) : (s.setL2 d x).rom = s.rom := rfl
@[simp] theorem State.setL2_msgs (s : State) (d : Nat) (x : L2State) : (s.setL2 d x).msgs = s.msgs := rfl
@[simp] theorem State.setL2_lastFn (s : State) (d : Nat) (x : L2State) : (s.setL2 d x).lastFn = s.lastFn := rfl
@[simp] theorem State.setL2_free (s : State) (d : Nat) (x : L2State) : (s.setL2 d x).free = s.free := rfl
@[simp] theorem State.setL2_pending (s : State) (d : Nat) (x : L2State) : (s.setL2 d x).pending = s.pending := rfl
@[simp] theorem State.setL2_eng (s : State) (d : Nat) (x : L2State) (e2 : Nat) : (s.setL2 d x).eng e2 = s.eng e2 := rfl
@[simp] theorem State.setL2_port (s : State) (d : Nat) (x : L2State) (p2 : Nat) : (s.setL2 d x).port p2 = s.port p2 := rfl
@[simp] theorem State.setL2_die (s : State) (d : Nat) (x : L2State) (d2 : Nat) : (s.setL2 d x).die d2 = s.die d2 := rfl
@[simp] theorem State.setL2_ridge (s : State) (d : Nat) (x : L2State) (d2 : Nat) : (s.setL2 d x).ridge d2 = s.ridge d2 := rfl
@[simp] theorem State.setL2_host (s : State) (d : Nat) (x : L2State) (h2 : Nat) : (s.setL2 d x).host h2 = s.host h2 := rfl
@[simp] theorem State.setL2_pll (s : State) (d : Nat) (x : L2State) (d2 : Nat) : (s.setL2 d x).pll d2 = s.pll d2 := rfl
@[simp] theorem State.setL2_lane (s : State) (d : Nat) (x : L2State) (l2 : Nat) : (s.setL2 d x).lane l2 = s.lane l2 := rfl
@[simp] theorem State.setL2_link (s : State) (d : Nat) (x : L2State) (p2 : Nat) : (s.setL2 d x).link p2 = s.link p2 := rfl
@[simp] theorem State.setL2_evt (s : State) (d : Nat) (x : L2State) (c2 : Nat) : (s.setL2 d x).evt c2 = s.evt c2 := rfl
@[simp] theorem State.setL2_out (s : State) (d : Nat) (x : L2State) (d2 k2 : Nat) : (s.setL2 d x).out d2 k2 = s.out d2 k2 := rfl
@[simp] theorem State.setL2_tbl (s : State) (d : Nat) (x : L2State) (d2 b2 : Nat) : (s.setL2 d x).tbl d2 b2 = s.tbl d2 b2 := rfl
@[simp] theorem State.setL2_tblOrder (s : State) (d : Nat) (x : L2State) (b2 : Nat) : (s.setL2 d x).tblOrder b2 = s.tblOrder b2 := rfl
@[simp] theorem State.setL2_nvsOf (s : State) (d : Nat) (x : L2State) (d2 : Nat) : (s.setL2 d x).nvsOf d2 = s.nvsOf d2 := rfl
@[simp] theorem State.setL2_cal (s : State) (d : Nat) (x : L2State) (d2 : Nat) : (s.setL2 d x).cal d2 = s.cal d2 := rfl
@[simp] theorem State.setL2_rf (s : State) (d : Nat) (x : L2State) (q : Fld) (d2 i2 : Nat) : (s.setL2 d x).rf q d2 i2 = s.rf q d2 i2 := rfl
@[simp] theorem State.setL2_rfF (s : State) (d : Nat) (x : L2State) (q : Fld) (d2 i2 : Nat) : (s.setL2 d x).rfF q d2 i2 = s.rfF q d2 i2 := rfl

/-! ### State.setTbl changes `tbls` alone -/

@[simp] theorem State.setTbl_part (s : State) (d blk : Nat) (x : TblState) : (s.setTbl d blk x).part = s.part := rfl
@[simp] theorem State.setTbl_pins (s : State) (d blk : Nat) (x : TblState) : (s.setTbl d blk x).pins = s.pins := rfl
@[simp] theorem State.setTbl_resets (s : State) (d blk : Nat) (x : TblState) : (s.setTbl d blk x).resets = s.resets := rfl
@[simp] theorem State.setTbl_otp (s : State) (d blk : Nat) (x : TblState) : (s.setTbl d blk x).otp = s.otp := rfl
@[simp] theorem State.setTbl_secNvs (s : State) (d blk : Nat) (x : TblState) : (s.setTbl d blk x).secNvs = s.secNvs := rfl
@[simp] theorem State.setTbl_sec (s : State) (d blk : Nat) (x : TblState) : (s.setTbl d blk x).sec = s.sec := rfl
@[simp] theorem State.setTbl_engs (s : State) (d blk : Nat) (x : TblState) : (s.setTbl d blk x).engs = s.engs := rfl
@[simp] theorem State.setTbl_regs (s : State) (d blk : Nat) (x : TblState) : (s.setTbl d blk x).regs = s.regs := rfl
@[simp] theorem State.setTbl_inForce (s : State) (d blk : Nat) (x : TblState) : (s.setTbl d blk x).inForce = s.inForce := rfl
@[simp] theorem State.setTbl_stopAt (s : State) (d blk : Nat) (x : TblState) : (s.setTbl d blk x).stopAt = s.stopAt := rfl
@[simp] theorem State.setTbl_own (s : State) (d blk : Nat) (x : TblState) : (s.setTbl d blk x).own = s.own := rfl
@[simp] theorem State.setTbl_hosts (s : State) (d blk : Nat) (x : TblState) : (s.setTbl d blk x).hosts = s.hosts := rfl
@[simp] theorem State.setTbl_nvs (s : State) (d blk : Nat) (x : TblState) : (s.setTbl d blk x).nvs = s.nvs := rfl
@[simp] theorem State.setTbl_cals (s : State) (d blk : Nat) (x : TblState) : (s.setTbl d blk x).cals = s.cals := rfl
@[simp] theorem State.setTbl_ridges (s : State) (d blk : Nat) (x : TblState) : (s.setTbl d blk x).ridges = s.ridges := rfl
@[simp] theorem State.setTbl_plls (s : State) (d blk : Nat) (x : TblState) : (s.setTbl d blk x).plls = s.plls := rfl
@[simp] theorem State.setTbl_ports (s : State) (d blk : Nat) (x : TblState) : (s.setTbl d blk x).ports = s.ports := rfl
@[simp] theorem State.setTbl_dies (s : State) (d blk : Nat) (x : TblState) : (s.setTbl d blk x).dies = s.dies := rfl
@[simp] theorem State.setTbl_cells (s : State) (d blk : Nat) (x : TblState) : (s.setTbl d blk x).cells = s.cells := rfl
@[simp] theorem State.setTbl_nextFrame (s : State) (d blk : Nat) (x : TblState) : (s.setTbl d blk x).nextFrame = s.nextFrame := rfl
@[simp] theorem State.setTbl_l2 (s : State) (d blk : Nat) (x : TblState) : (s.setTbl d blk x).l2 = s.l2 := rfl
@[simp] theorem State.setTbl_l2Order (s : State) (d blk : Nat) (x : TblState) : (s.setTbl d blk x).l2Order = s.l2Order := rfl
@[simp] theorem State.setTbl_tblOrders (s : State) (d blk : Nat) (x : TblState) : (s.setTbl d blk x).tblOrders = s.tblOrders := rfl
@[simp] theorem State.setTbl_lanes (s : State) (d blk : Nat) (x : TblState) : (s.setTbl d blk x).lanes = s.lanes := rfl
@[simp] theorem State.setTbl_links (s : State) (d blk : Nat) (x : TblState) : (s.setTbl d blk x).links = s.links := rfl
@[simp] theorem State.setTbl_saddles (s : State) (d blk : Nat) (x : TblState) : (s.setTbl d blk x).saddles = s.saddles := rfl
@[simp] theorem State.setTbl_summit (s : State) (d blk : Nat) (x : TblState) : (s.setTbl d blk x).summit = s.summit := rfl
@[simp] theorem State.setTbl_gnss (s : State) (d blk : Nat) (x : TblState) : (s.setTbl d blk x).gnss = s.gnss := rfl
@[simp] theorem State.setTbl_evts (s : State) (d blk : Nat) (x : TblState) : (s.setTbl d blk x).evts = s.evts := rfl
@[simp] theorem State.setTbl_outs (s : State) (d blk : Nat) (x : TblState) : (s.setTbl d blk x).outs = s.outs := rfl
@[simp] theorem State.setTbl_therm (s : State) (d blk : Nat) (x : TblState) : (s.setTbl d blk x).therm = s.therm := rfl
@[simp] theorem State.setTbl_rom (s : State) (d blk : Nat) (x : TblState) : (s.setTbl d blk x).rom = s.rom := rfl
@[simp] theorem State.setTbl_msgs (s : State) (d blk : Nat) (x : TblState) : (s.setTbl d blk x).msgs = s.msgs := rfl
@[simp] theorem State.setTbl_lastFn (s : State) (d blk : Nat) (x : TblState) : (s.setTbl d blk x).lastFn = s.lastFn := rfl
@[simp] theorem State.setTbl_free (s : State) (d blk : Nat) (x : TblState) : (s.setTbl d blk x).free = s.free := rfl
@[simp] theorem State.setTbl_pending (s : State) (d blk : Nat) (x : TblState) : (s.setTbl d blk x).pending = s.pending := rfl
@[simp] theorem State.setTbl_eng (s : State) (d blk : Nat) (x : TblState) (e2 : Nat) : (s.setTbl d blk x).eng e2 = s.eng e2 := rfl
@[simp] theorem State.setTbl_port (s : State) (d blk : Nat) (x : TblState) (p2 : Nat) : (s.setTbl d blk x).port p2 = s.port p2 := rfl
@[simp] theorem State.setTbl_die (s : State) (d blk : Nat) (x : TblState) (d2 : Nat) : (s.setTbl d blk x).die d2 = s.die d2 := rfl
@[simp] theorem State.setTbl_ridge (s : State) (d blk : Nat) (x : TblState) (d2 : Nat) : (s.setTbl d blk x).ridge d2 = s.ridge d2 := rfl
@[simp] theorem State.setTbl_host (s : State) (d blk : Nat) (x : TblState) (h2 : Nat) : (s.setTbl d blk x).host h2 = s.host h2 := rfl
@[simp] theorem State.setTbl_pll (s : State) (d blk : Nat) (x : TblState) (d2 : Nat) : (s.setTbl d blk x).pll d2 = s.pll d2 := rfl
@[simp] theorem State.setTbl_lane (s : State) (d blk : Nat) (x : TblState) (l2 : Nat) : (s.setTbl d blk x).lane l2 = s.lane l2 := rfl
@[simp] theorem State.setTbl_link (s : State) (d blk : Nat) (x : TblState) (p2 : Nat) : (s.setTbl d blk x).link p2 = s.link p2 := rfl
@[simp] theorem State.setTbl_evt (s : State) (d blk : Nat) (x : TblState) (c2 : Nat) : (s.setTbl d blk x).evt c2 = s.evt c2 := rfl
@[simp] theorem State.setTbl_out (s : State) (d blk : Nat) (x : TblState) (d2 k2 : Nat) : (s.setTbl d blk x).out d2 k2 = s.out d2 k2 := rfl
@[simp] theorem State.setTbl_l2t (s : State) (d blk : Nat) (x : TblState) (d2 : Nat) : (s.setTbl d blk x).l2t d2 = s.l2t d2 := rfl
@[simp] theorem State.setTbl_tblOrder (s : State) (d blk : Nat) (x : TblState) (b2 : Nat) : (s.setTbl d blk x).tblOrder b2 = s.tblOrder b2 := rfl
@[simp] theorem State.setTbl_nvsOf (s : State) (d blk : Nat) (x : TblState) (d2 : Nat) : (s.setTbl d blk x).nvsOf d2 = s.nvsOf d2 := rfl
@[simp] theorem State.setTbl_cal (s : State) (d blk : Nat) (x : TblState) (d2 : Nat) : (s.setTbl d blk x).cal d2 = s.cal d2 := rfl
@[simp] theorem State.setTbl_rf (s : State) (d blk : Nat) (x : TblState) (q : Fld) (d2 i2 : Nat) : (s.setTbl d blk x).rf q d2 i2 = s.rf q d2 i2 := rfl
@[simp] theorem State.setTbl_rfF (s : State) (d blk : Nat) (x : TblState) (q : Fld) (d2 i2 : Nat) : (s.setTbl d blk x).rfF q d2 i2 = s.rfF q d2 i2 := rfl

/-! ### State.setTblOrder changes `tblOrders` alone -/

@[simp] theorem State.setTblOrder_part (s : State) (blk : Nat) (x : TblOrder) : (s.setTblOrder blk x).part = s.part := rfl
@[simp] theorem State.setTblOrder_pins (s : State) (blk : Nat) (x : TblOrder) : (s.setTblOrder blk x).pins = s.pins := rfl
@[simp] theorem State.setTblOrder_resets (s : State) (blk : Nat) (x : TblOrder) : (s.setTblOrder blk x).resets = s.resets := rfl
@[simp] theorem State.setTblOrder_otp (s : State) (blk : Nat) (x : TblOrder) : (s.setTblOrder blk x).otp = s.otp := rfl
@[simp] theorem State.setTblOrder_secNvs (s : State) (blk : Nat) (x : TblOrder) : (s.setTblOrder blk x).secNvs = s.secNvs := rfl
@[simp] theorem State.setTblOrder_sec (s : State) (blk : Nat) (x : TblOrder) : (s.setTblOrder blk x).sec = s.sec := rfl
@[simp] theorem State.setTblOrder_engs (s : State) (blk : Nat) (x : TblOrder) : (s.setTblOrder blk x).engs = s.engs := rfl
@[simp] theorem State.setTblOrder_regs (s : State) (blk : Nat) (x : TblOrder) : (s.setTblOrder blk x).regs = s.regs := rfl
@[simp] theorem State.setTblOrder_inForce (s : State) (blk : Nat) (x : TblOrder) : (s.setTblOrder blk x).inForce = s.inForce := rfl
@[simp] theorem State.setTblOrder_stopAt (s : State) (blk : Nat) (x : TblOrder) : (s.setTblOrder blk x).stopAt = s.stopAt := rfl
@[simp] theorem State.setTblOrder_own (s : State) (blk : Nat) (x : TblOrder) : (s.setTblOrder blk x).own = s.own := rfl
@[simp] theorem State.setTblOrder_hosts (s : State) (blk : Nat) (x : TblOrder) : (s.setTblOrder blk x).hosts = s.hosts := rfl
@[simp] theorem State.setTblOrder_nvs (s : State) (blk : Nat) (x : TblOrder) : (s.setTblOrder blk x).nvs = s.nvs := rfl
@[simp] theorem State.setTblOrder_cals (s : State) (blk : Nat) (x : TblOrder) : (s.setTblOrder blk x).cals = s.cals := rfl
@[simp] theorem State.setTblOrder_ridges (s : State) (blk : Nat) (x : TblOrder) : (s.setTblOrder blk x).ridges = s.ridges := rfl
@[simp] theorem State.setTblOrder_plls (s : State) (blk : Nat) (x : TblOrder) : (s.setTblOrder blk x).plls = s.plls := rfl
@[simp] theorem State.setTblOrder_ports (s : State) (blk : Nat) (x : TblOrder) : (s.setTblOrder blk x).ports = s.ports := rfl
@[simp] theorem State.setTblOrder_dies (s : State) (blk : Nat) (x : TblOrder) : (s.setTblOrder blk x).dies = s.dies := rfl
@[simp] theorem State.setTblOrder_cells (s : State) (blk : Nat) (x : TblOrder) : (s.setTblOrder blk x).cells = s.cells := rfl
@[simp] theorem State.setTblOrder_nextFrame (s : State) (blk : Nat) (x : TblOrder) : (s.setTblOrder blk x).nextFrame = s.nextFrame := rfl
@[simp] theorem State.setTblOrder_l2 (s : State) (blk : Nat) (x : TblOrder) : (s.setTblOrder blk x).l2 = s.l2 := rfl
@[simp] theorem State.setTblOrder_l2Order (s : State) (blk : Nat) (x : TblOrder) : (s.setTblOrder blk x).l2Order = s.l2Order := rfl
@[simp] theorem State.setTblOrder_tbls (s : State) (blk : Nat) (x : TblOrder) : (s.setTblOrder blk x).tbls = s.tbls := rfl
@[simp] theorem State.setTblOrder_lanes (s : State) (blk : Nat) (x : TblOrder) : (s.setTblOrder blk x).lanes = s.lanes := rfl
@[simp] theorem State.setTblOrder_links (s : State) (blk : Nat) (x : TblOrder) : (s.setTblOrder blk x).links = s.links := rfl
@[simp] theorem State.setTblOrder_saddles (s : State) (blk : Nat) (x : TblOrder) : (s.setTblOrder blk x).saddles = s.saddles := rfl
@[simp] theorem State.setTblOrder_summit (s : State) (blk : Nat) (x : TblOrder) : (s.setTblOrder blk x).summit = s.summit := rfl
@[simp] theorem State.setTblOrder_gnss (s : State) (blk : Nat) (x : TblOrder) : (s.setTblOrder blk x).gnss = s.gnss := rfl
@[simp] theorem State.setTblOrder_evts (s : State) (blk : Nat) (x : TblOrder) : (s.setTblOrder blk x).evts = s.evts := rfl
@[simp] theorem State.setTblOrder_outs (s : State) (blk : Nat) (x : TblOrder) : (s.setTblOrder blk x).outs = s.outs := rfl
@[simp] theorem State.setTblOrder_therm (s : State) (blk : Nat) (x : TblOrder) : (s.setTblOrder blk x).therm = s.therm := rfl
@[simp] theorem State.setTblOrder_rom (s : State) (blk : Nat) (x : TblOrder) : (s.setTblOrder blk x).rom = s.rom := rfl
@[simp] theorem State.setTblOrder_msgs (s : State) (blk : Nat) (x : TblOrder) : (s.setTblOrder blk x).msgs = s.msgs := rfl
@[simp] theorem State.setTblOrder_lastFn (s : State) (blk : Nat) (x : TblOrder) : (s.setTblOrder blk x).lastFn = s.lastFn := rfl
@[simp] theorem State.setTblOrder_free (s : State) (blk : Nat) (x : TblOrder) : (s.setTblOrder blk x).free = s.free := rfl
@[simp] theorem State.setTblOrder_pending (s : State) (blk : Nat) (x : TblOrder) : (s.setTblOrder blk x).pending = s.pending := rfl
@[simp] theorem State.setTblOrder_eng (s : State) (blk : Nat) (x : TblOrder) (e2 : Nat) : (s.setTblOrder blk x).eng e2 = s.eng e2 := rfl
@[simp] theorem State.setTblOrder_port (s : State) (blk : Nat) (x : TblOrder) (p2 : Nat) : (s.setTblOrder blk x).port p2 = s.port p2 := rfl
@[simp] theorem State.setTblOrder_die (s : State) (blk : Nat) (x : TblOrder) (d2 : Nat) : (s.setTblOrder blk x).die d2 = s.die d2 := rfl
@[simp] theorem State.setTblOrder_ridge (s : State) (blk : Nat) (x : TblOrder) (d2 : Nat) : (s.setTblOrder blk x).ridge d2 = s.ridge d2 := rfl
@[simp] theorem State.setTblOrder_host (s : State) (blk : Nat) (x : TblOrder) (h2 : Nat) : (s.setTblOrder blk x).host h2 = s.host h2 := rfl
@[simp] theorem State.setTblOrder_pll (s : State) (blk : Nat) (x : TblOrder) (d2 : Nat) : (s.setTblOrder blk x).pll d2 = s.pll d2 := rfl
@[simp] theorem State.setTblOrder_lane (s : State) (blk : Nat) (x : TblOrder) (l2 : Nat) : (s.setTblOrder blk x).lane l2 = s.lane l2 := rfl
@[simp] theorem State.setTblOrder_link (s : State) (blk : Nat) (x : TblOrder) (p2 : Nat) : (s.setTblOrder blk x).link p2 = s.link p2 := rfl
@[simp] theorem State.setTblOrder_evt (s : State) (blk : Nat) (x : TblOrder) (c2 : Nat) : (s.setTblOrder blk x).evt c2 = s.evt c2 := rfl
@[simp] theorem State.setTblOrder_out (s : State) (blk : Nat) (x : TblOrder) (d2 k2 : Nat) : (s.setTblOrder blk x).out d2 k2 = s.out d2 k2 := rfl
@[simp] theorem State.setTblOrder_l2t (s : State) (blk : Nat) (x : TblOrder) (d2 : Nat) : (s.setTblOrder blk x).l2t d2 = s.l2t d2 := rfl
@[simp] theorem State.setTblOrder_tbl (s : State) (blk : Nat) (x : TblOrder) (d2 b2 : Nat) : (s.setTblOrder blk x).tbl d2 b2 = s.tbl d2 b2 := rfl
@[simp] theorem State.setTblOrder_nvsOf (s : State) (blk : Nat) (x : TblOrder) (d2 : Nat) : (s.setTblOrder blk x).nvsOf d2 = s.nvsOf d2 := rfl
@[simp] theorem State.setTblOrder_cal (s : State) (blk : Nat) (x : TblOrder) (d2 : Nat) : (s.setTblOrder blk x).cal d2 = s.cal d2 := rfl
@[simp] theorem State.setTblOrder_rf (s : State) (blk : Nat) (x : TblOrder) (q : Fld) (d2 i2 : Nat) : (s.setTblOrder blk x).rf q d2 i2 = s.rf q d2 i2 := rfl
@[simp] theorem State.setTblOrder_rfF (s : State) (blk : Nat) (x : TblOrder) (q : Fld) (d2 i2 : Nat) : (s.setTblOrder blk x).rfF q d2 i2 = s.rfF q d2 i2 := rfl

/-! ### State.setNvs changes `nvs` alone -/

@[simp] theorem State.setNvs_part (s : State) (d : Nat) (x : NvsState) : (s.setNvs d x).part = s.part := rfl
@[simp] theorem State.setNvs_pins (s : State) (d : Nat) (x : NvsState) : (s.setNvs d x).pins = s.pins := rfl
@[simp] theorem State.setNvs_resets (s : State) (d : Nat) (x : NvsState) : (s.setNvs d x).resets = s.resets := rfl
@[simp] theorem State.setNvs_otp (s : State) (d : Nat) (x : NvsState) : (s.setNvs d x).otp = s.otp := rfl
@[simp] theorem State.setNvs_secNvs (s : State) (d : Nat) (x : NvsState) : (s.setNvs d x).secNvs = s.secNvs := rfl
@[simp] theorem State.setNvs_sec (s : State) (d : Nat) (x : NvsState) : (s.setNvs d x).sec = s.sec := rfl
@[simp] theorem State.setNvs_engs (s : State) (d : Nat) (x : NvsState) : (s.setNvs d x).engs = s.engs := rfl
@[simp] theorem State.setNvs_regs (s : State) (d : Nat) (x : NvsState) : (s.setNvs d x).regs = s.regs := rfl
@[simp] theorem State.setNvs_inForce (s : State) (d : Nat) (x : NvsState) : (s.setNvs d x).inForce = s.inForce := rfl
@[simp] theorem State.setNvs_stopAt (s : State) (d : Nat) (x : NvsState) : (s.setNvs d x).stopAt = s.stopAt := rfl
@[simp] theorem State.setNvs_own (s : State) (d : Nat) (x : NvsState) : (s.setNvs d x).own = s.own := rfl
@[simp] theorem State.setNvs_hosts (s : State) (d : Nat) (x : NvsState) : (s.setNvs d x).hosts = s.hosts := rfl
@[simp] theorem State.setNvs_cals (s : State) (d : Nat) (x : NvsState) : (s.setNvs d x).cals = s.cals := rfl
@[simp] theorem State.setNvs_ridges (s : State) (d : Nat) (x : NvsState) : (s.setNvs d x).ridges = s.ridges := rfl
@[simp] theorem State.setNvs_plls (s : State) (d : Nat) (x : NvsState) : (s.setNvs d x).plls = s.plls := rfl
@[simp] theorem State.setNvs_ports (s : State) (d : Nat) (x : NvsState) : (s.setNvs d x).ports = s.ports := rfl
@[simp] theorem State.setNvs_dies (s : State) (d : Nat) (x : NvsState) : (s.setNvs d x).dies = s.dies := rfl
@[simp] theorem State.setNvs_cells (s : State) (d : Nat) (x : NvsState) : (s.setNvs d x).cells = s.cells := rfl
@[simp] theorem State.setNvs_nextFrame (s : State) (d : Nat) (x : NvsState) : (s.setNvs d x).nextFrame = s.nextFrame := rfl
@[simp] theorem State.setNvs_l2 (s : State) (d : Nat) (x : NvsState) : (s.setNvs d x).l2 = s.l2 := rfl
@[simp] theorem State.setNvs_l2Order (s : State) (d : Nat) (x : NvsState) : (s.setNvs d x).l2Order = s.l2Order := rfl
@[simp] theorem State.setNvs_tbls (s : State) (d : Nat) (x : NvsState) : (s.setNvs d x).tbls = s.tbls := rfl
@[simp] theorem State.setNvs_tblOrders (s : State) (d : Nat) (x : NvsState) : (s.setNvs d x).tblOrders = s.tblOrders := rfl
@[simp] theorem State.setNvs_lanes (s : State) (d : Nat) (x : NvsState) : (s.setNvs d x).lanes = s.lanes := rfl
@[simp] theorem State.setNvs_links (s : State) (d : Nat) (x : NvsState) : (s.setNvs d x).links = s.links := rfl
@[simp] theorem State.setNvs_saddles (s : State) (d : Nat) (x : NvsState) : (s.setNvs d x).saddles = s.saddles := rfl
@[simp] theorem State.setNvs_summit (s : State) (d : Nat) (x : NvsState) : (s.setNvs d x).summit = s.summit := rfl
@[simp] theorem State.setNvs_gnss (s : State) (d : Nat) (x : NvsState) : (s.setNvs d x).gnss = s.gnss := rfl
@[simp] theorem State.setNvs_evts (s : State) (d : Nat) (x : NvsState) : (s.setNvs d x).evts = s.evts := rfl
@[simp] theorem State.setNvs_outs (s : State) (d : Nat) (x : NvsState) : (s.setNvs d x).outs = s.outs := rfl
@[simp] theorem State.setNvs_therm (s : State) (d : Nat) (x : NvsState) : (s.setNvs d x).therm = s.therm := rfl
@[simp] theorem State.setNvs_rom (s : State) (d : Nat) (x : NvsState) : (s.setNvs d x).rom = s.rom := rfl
@[simp] theorem State.setNvs_msgs (s : State) (d : Nat) (x : NvsState) : (s.setNvs d x).msgs = s.msgs := rfl
@[simp] theorem State.setNvs_lastFn (s : State) (d : Nat) (x : NvsState) : (s.setNvs d x).lastFn = s.lastFn := rfl
@[simp] theorem State.setNvs_free (s : State) (d : Nat) (x : NvsState) : (s.setNvs d x).free = s.free := rfl
@[simp] theorem State.setNvs_pending (s : State) (d : Nat) (x : NvsState) : (s.setNvs d x).pending = s.pending := rfl
@[simp] theorem State.setNvs_eng (s : State) (d : Nat) (x : NvsState) (e2 : Nat) : (s.setNvs d x).eng e2 = s.eng e2 := rfl
@[simp] theorem State.setNvs_port (s : State) (d : Nat) (x : NvsState) (p2 : Nat) : (s.setNvs d x).port p2 = s.port p2 := rfl
@[simp] theorem State.setNvs_die (s : State) (d : Nat) (x : NvsState) (d2 : Nat) : (s.setNvs d x).die d2 = s.die d2 := rfl
@[simp] theorem State.setNvs_ridge (s : State) (d : Nat) (x : NvsState) (d2 : Nat) : (s.setNvs d x).ridge d2 = s.ridge d2 := rfl
@[simp] theorem State.setNvs_host (s : State) (d : Nat) (x : NvsState) (h2 : Nat) : (s.setNvs d x).host h2 = s.host h2 := rfl
@[simp] theorem State.setNvs_pll (s : State) (d : Nat) (x : NvsState) (d2 : Nat) : (s.setNvs d x).pll d2 = s.pll d2 := rfl
@[simp] theorem State.setNvs_lane (s : State) (d : Nat) (x : NvsState) (l2 : Nat) : (s.setNvs d x).lane l2 = s.lane l2 := rfl
@[simp] theorem State.setNvs_link (s : State) (d : Nat) (x : NvsState) (p2 : Nat) : (s.setNvs d x).link p2 = s.link p2 := rfl
@[simp] theorem State.setNvs_evt (s : State) (d : Nat) (x : NvsState) (c2 : Nat) : (s.setNvs d x).evt c2 = s.evt c2 := rfl
@[simp] theorem State.setNvs_out (s : State) (d : Nat) (x : NvsState) (d2 k2 : Nat) : (s.setNvs d x).out d2 k2 = s.out d2 k2 := rfl
@[simp] theorem State.setNvs_l2t (s : State) (d : Nat) (x : NvsState) (d2 : Nat) : (s.setNvs d x).l2t d2 = s.l2t d2 := rfl
@[simp] theorem State.setNvs_tbl (s : State) (d : Nat) (x : NvsState) (d2 b2 : Nat) : (s.setNvs d x).tbl d2 b2 = s.tbl d2 b2 := rfl
@[simp] theorem State.setNvs_tblOrder (s : State) (d : Nat) (x : NvsState) (b2 : Nat) : (s.setNvs d x).tblOrder b2 = s.tblOrder b2 := rfl
@[simp] theorem State.setNvs_cal (s : State) (d : Nat) (x : NvsState) (d2 : Nat) : (s.setNvs d x).cal d2 = s.cal d2 := rfl
@[simp] theorem State.setNvs_rf (s : State) (d : Nat) (x : NvsState) (q : Fld) (d2 i2 : Nat) : (s.setNvs d x).rf q d2 i2 = s.rf q d2 i2 := rfl
@[simp] theorem State.setNvs_rfF (s : State) (d : Nat) (x : NvsState) (q : Fld) (d2 i2 : Nat) : (s.setNvs d x).rfF q d2 i2 = s.rfF q d2 i2 := rfl

/-! ### State.setCal changes `cals` alone -/

@[simp] theorem State.setCal_part (s : State) (d : Nat) (x : CalState) : (s.setCal d x).part = s.part := rfl
@[simp] theorem State.setCal_pins (s : State) (d : Nat) (x : CalState) : (s.setCal d x).pins = s.pins := rfl
@[simp] theorem State.setCal_resets (s : State) (d : Nat) (x : CalState) : (s.setCal d x).resets = s.resets := rfl
@[simp] theorem State.setCal_otp (s : State) (d : Nat) (x : CalState) : (s.setCal d x).otp = s.otp := rfl
@[simp] theorem State.setCal_secNvs (s : State) (d : Nat) (x : CalState) : (s.setCal d x).secNvs = s.secNvs := rfl
@[simp] theorem State.setCal_sec (s : State) (d : Nat) (x : CalState) : (s.setCal d x).sec = s.sec := rfl
@[simp] theorem State.setCal_engs (s : State) (d : Nat) (x : CalState) : (s.setCal d x).engs = s.engs := rfl
@[simp] theorem State.setCal_regs (s : State) (d : Nat) (x : CalState) : (s.setCal d x).regs = s.regs := rfl
@[simp] theorem State.setCal_inForce (s : State) (d : Nat) (x : CalState) : (s.setCal d x).inForce = s.inForce := rfl
@[simp] theorem State.setCal_stopAt (s : State) (d : Nat) (x : CalState) : (s.setCal d x).stopAt = s.stopAt := rfl
@[simp] theorem State.setCal_own (s : State) (d : Nat) (x : CalState) : (s.setCal d x).own = s.own := rfl
@[simp] theorem State.setCal_hosts (s : State) (d : Nat) (x : CalState) : (s.setCal d x).hosts = s.hosts := rfl
@[simp] theorem State.setCal_nvs (s : State) (d : Nat) (x : CalState) : (s.setCal d x).nvs = s.nvs := rfl
@[simp] theorem State.setCal_ridges (s : State) (d : Nat) (x : CalState) : (s.setCal d x).ridges = s.ridges := rfl
@[simp] theorem State.setCal_plls (s : State) (d : Nat) (x : CalState) : (s.setCal d x).plls = s.plls := rfl
@[simp] theorem State.setCal_ports (s : State) (d : Nat) (x : CalState) : (s.setCal d x).ports = s.ports := rfl
@[simp] theorem State.setCal_dies (s : State) (d : Nat) (x : CalState) : (s.setCal d x).dies = s.dies := rfl
@[simp] theorem State.setCal_cells (s : State) (d : Nat) (x : CalState) : (s.setCal d x).cells = s.cells := rfl
@[simp] theorem State.setCal_nextFrame (s : State) (d : Nat) (x : CalState) : (s.setCal d x).nextFrame = s.nextFrame := rfl
@[simp] theorem State.setCal_l2 (s : State) (d : Nat) (x : CalState) : (s.setCal d x).l2 = s.l2 := rfl
@[simp] theorem State.setCal_l2Order (s : State) (d : Nat) (x : CalState) : (s.setCal d x).l2Order = s.l2Order := rfl
@[simp] theorem State.setCal_tbls (s : State) (d : Nat) (x : CalState) : (s.setCal d x).tbls = s.tbls := rfl
@[simp] theorem State.setCal_tblOrders (s : State) (d : Nat) (x : CalState) : (s.setCal d x).tblOrders = s.tblOrders := rfl
@[simp] theorem State.setCal_lanes (s : State) (d : Nat) (x : CalState) : (s.setCal d x).lanes = s.lanes := rfl
@[simp] theorem State.setCal_links (s : State) (d : Nat) (x : CalState) : (s.setCal d x).links = s.links := rfl
@[simp] theorem State.setCal_saddles (s : State) (d : Nat) (x : CalState) : (s.setCal d x).saddles = s.saddles := rfl
@[simp] theorem State.setCal_summit (s : State) (d : Nat) (x : CalState) : (s.setCal d x).summit = s.summit := rfl
@[simp] theorem State.setCal_gnss (s : State) (d : Nat) (x : CalState) : (s.setCal d x).gnss = s.gnss := rfl
@[simp] theorem State.setCal_evts (s : State) (d : Nat) (x : CalState) : (s.setCal d x).evts = s.evts := rfl
@[simp] theorem State.setCal_outs (s : State) (d : Nat) (x : CalState) : (s.setCal d x).outs = s.outs := rfl
@[simp] theorem State.setCal_therm (s : State) (d : Nat) (x : CalState) : (s.setCal d x).therm = s.therm := rfl
@[simp] theorem State.setCal_rom (s : State) (d : Nat) (x : CalState) : (s.setCal d x).rom = s.rom := rfl
@[simp] theorem State.setCal_msgs (s : State) (d : Nat) (x : CalState) : (s.setCal d x).msgs = s.msgs := rfl
@[simp] theorem State.setCal_lastFn (s : State) (d : Nat) (x : CalState) : (s.setCal d x).lastFn = s.lastFn := rfl
@[simp] theorem State.setCal_free (s : State) (d : Nat) (x : CalState) : (s.setCal d x).free = s.free := rfl
@[simp] theorem State.setCal_pending (s : State) (d : Nat) (x : CalState) : (s.setCal d x).pending = s.pending := rfl
@[simp] theorem State.setCal_eng (s : State) (d : Nat) (x : CalState) (e2 : Nat) : (s.setCal d x).eng e2 = s.eng e2 := rfl
@[simp] theorem State.setCal_port (s : State) (d : Nat) (x : CalState) (p2 : Nat) : (s.setCal d x).port p2 = s.port p2 := rfl
@[simp] theorem State.setCal_die (s : State) (d : Nat) (x : CalState) (d2 : Nat) : (s.setCal d x).die d2 = s.die d2 := rfl
@[simp] theorem State.setCal_ridge (s : State) (d : Nat) (x : CalState) (d2 : Nat) : (s.setCal d x).ridge d2 = s.ridge d2 := rfl
@[simp] theorem State.setCal_host (s : State) (d : Nat) (x : CalState) (h2 : Nat) : (s.setCal d x).host h2 = s.host h2 := rfl
@[simp] theorem State.setCal_pll (s : State) (d : Nat) (x : CalState) (d2 : Nat) : (s.setCal d x).pll d2 = s.pll d2 := rfl
@[simp] theorem State.setCal_lane (s : State) (d : Nat) (x : CalState) (l2 : Nat) : (s.setCal d x).lane l2 = s.lane l2 := rfl
@[simp] theorem State.setCal_link (s : State) (d : Nat) (x : CalState) (p2 : Nat) : (s.setCal d x).link p2 = s.link p2 := rfl
@[simp] theorem State.setCal_evt (s : State) (d : Nat) (x : CalState) (c2 : Nat) : (s.setCal d x).evt c2 = s.evt c2 := rfl
@[simp] theorem State.setCal_out (s : State) (d : Nat) (x : CalState) (d2 k2 : Nat) : (s.setCal d x).out d2 k2 = s.out d2 k2 := rfl
@[simp] theorem State.setCal_l2t (s : State) (d : Nat) (x : CalState) (d2 : Nat) : (s.setCal d x).l2t d2 = s.l2t d2 := rfl
@[simp] theorem State.setCal_tbl (s : State) (d : Nat) (x : CalState) (d2 b2 : Nat) : (s.setCal d x).tbl d2 b2 = s.tbl d2 b2 := rfl
@[simp] theorem State.setCal_tblOrder (s : State) (d : Nat) (x : CalState) (b2 : Nat) : (s.setCal d x).tblOrder b2 = s.tblOrder b2 := rfl
@[simp] theorem State.setCal_nvsOf (s : State) (d : Nat) (x : CalState) (d2 : Nat) : (s.setCal d x).nvsOf d2 = s.nvsOf d2 := rfl
@[simp] theorem State.setCal_rf (s : State) (d : Nat) (x : CalState) (q : Fld) (d2 i2 : Nat) : (s.setCal d x).rf q d2 i2 = s.rf q d2 i2 := rfl
@[simp] theorem State.setCal_rfF (s : State) (d : Nat) (x : CalState) (q : Fld) (d2 i2 : Nat) : (s.setCal d x).rfF q d2 i2 = s.rfF q d2 i2 := rfl

/-! ### State.setWay changes `cells` alone -/

@[simp] theorem State.setWay_part (s : State) (a b : Nat) (l : List Cell) : (s.setWay a b l).part = s.part := rfl
@[simp] theorem State.setWay_pins (s : State) (a b : Nat) (l : List Cell) : (s.setWay a b l).pins = s.pins := rfl
@[simp] theorem State.setWay_resets (s : State) (a b : Nat) (l : List Cell) : (s.setWay a b l).resets = s.resets := rfl
@[simp] theorem State.setWay_otp (s : State) (a b : Nat) (l : List Cell) : (s.setWay a b l).otp = s.otp := rfl
@[simp] theorem State.setWay_secNvs (s : State) (a b : Nat) (l : List Cell) : (s.setWay a b l).secNvs = s.secNvs := rfl
@[simp] theorem State.setWay_sec (s : State) (a b : Nat) (l : List Cell) : (s.setWay a b l).sec = s.sec := rfl
@[simp] theorem State.setWay_engs (s : State) (a b : Nat) (l : List Cell) : (s.setWay a b l).engs = s.engs := rfl
@[simp] theorem State.setWay_regs (s : State) (a b : Nat) (l : List Cell) : (s.setWay a b l).regs = s.regs := rfl
@[simp] theorem State.setWay_inForce (s : State) (a b : Nat) (l : List Cell) : (s.setWay a b l).inForce = s.inForce := rfl
@[simp] theorem State.setWay_stopAt (s : State) (a b : Nat) (l : List Cell) : (s.setWay a b l).stopAt = s.stopAt := rfl
@[simp] theorem State.setWay_own (s : State) (a b : Nat) (l : List Cell) : (s.setWay a b l).own = s.own := rfl
@[simp] theorem State.setWay_hosts (s : State) (a b : Nat) (l : List Cell) : (s.setWay a b l).hosts = s.hosts := rfl
@[simp] theorem State.setWay_nvs (s : State) (a b : Nat) (l : List Cell) : (s.setWay a b l).nvs = s.nvs := rfl
@[simp] theorem State.setWay_cals (s : State) (a b : Nat) (l : List Cell) : (s.setWay a b l).cals = s.cals := rfl
@[simp] theorem State.setWay_ridges (s : State) (a b : Nat) (l : List Cell) : (s.setWay a b l).ridges = s.ridges := rfl
@[simp] theorem State.setWay_plls (s : State) (a b : Nat) (l : List Cell) : (s.setWay a b l).plls = s.plls := rfl
@[simp] theorem State.setWay_ports (s : State) (a b : Nat) (l : List Cell) : (s.setWay a b l).ports = s.ports := rfl
@[simp] theorem State.setWay_dies (s : State) (a b : Nat) (l : List Cell) : (s.setWay a b l).dies = s.dies := rfl
@[simp] theorem State.setWay_nextFrame (s : State) (a b : Nat) (l : List Cell) : (s.setWay a b l).nextFrame = s.nextFrame := rfl
@[simp] theorem State.setWay_l2 (s : State) (a b : Nat) (l : List Cell) : (s.setWay a b l).l2 = s.l2 := rfl
@[simp] theorem State.setWay_l2Order (s : State) (a b : Nat) (l : List Cell) : (s.setWay a b l).l2Order = s.l2Order := rfl
@[simp] theorem State.setWay_tbls (s : State) (a b : Nat) (l : List Cell) : (s.setWay a b l).tbls = s.tbls := rfl
@[simp] theorem State.setWay_tblOrders (s : State) (a b : Nat) (l : List Cell) : (s.setWay a b l).tblOrders = s.tblOrders := rfl
@[simp] theorem State.setWay_lanes (s : State) (a b : Nat) (l : List Cell) : (s.setWay a b l).lanes = s.lanes := rfl
@[simp] theorem State.setWay_links (s : State) (a b : Nat) (l : List Cell) : (s.setWay a b l).links = s.links := rfl
@[simp] theorem State.setWay_saddles (s : State) (a b : Nat) (l : List Cell) : (s.setWay a b l).saddles = s.saddles := rfl
@[simp] theorem State.setWay_summit (s : State) (a b : Nat) (l : List Cell) : (s.setWay a b l).summit = s.summit := rfl
@[simp] theorem State.setWay_gnss (s : State) (a b : Nat) (l : List Cell) : (s.setWay a b l).gnss = s.gnss := rfl
@[simp] theorem State.setWay_evts (s : State) (a b : Nat) (l : List Cell) : (s.setWay a b l).evts = s.evts := rfl
@[simp] theorem State.setWay_outs (s : State) (a b : Nat) (l : List Cell) : (s.setWay a b l).outs = s.outs := rfl
@[simp] theorem State.setWay_therm (s : State) (a b : Nat) (l : List Cell) : (s.setWay a b l).therm = s.therm := rfl
@[simp] theorem State.setWay_rom (s : State) (a b : Nat) (l : List Cell) : (s.setWay a b l).rom = s.rom := rfl
@[simp] theorem State.setWay_msgs (s : State) (a b : Nat) (l : List Cell) : (s.setWay a b l).msgs = s.msgs := rfl
@[simp] theorem State.setWay_lastFn (s : State) (a b : Nat) (l : List Cell) : (s.setWay a b l).lastFn = s.lastFn := rfl
@[simp] theorem State.setWay_free (s : State) (a b : Nat) (l : List Cell) : (s.setWay a b l).free = s.free := rfl
@[simp] theorem State.setWay_pending (s : State) (a b : Nat) (l : List Cell) : (s.setWay a b l).pending = s.pending := rfl
@[simp] theorem State.setWay_eng (s : State) (a b : Nat) (l : List Cell) (e2 : Nat) : (s.setWay a b l).eng e2 = s.eng e2 := rfl
@[simp] theorem State.setWay_port (s : State) (a b : Nat) (l : List Cell) (p2 : Nat) : (s.setWay a b l).port p2 = s.port p2 := rfl
@[simp] theorem State.setWay_die (s : State) (a b : Nat) (l : List Cell) (d2 : Nat) : (s.setWay a b l).die d2 = s.die d2 := rfl
@[simp] theorem State.setWay_ridge (s : State) (a b : Nat) (l : List Cell) (d2 : Nat) : (s.setWay a b l).ridge d2 = s.ridge d2 := rfl
@[simp] theorem State.setWay_host (s : State) (a b : Nat) (l : List Cell) (h2 : Nat) : (s.setWay a b l).host h2 = s.host h2 := rfl
@[simp] theorem State.setWay_pll (s : State) (a b : Nat) (l : List Cell) (d2 : Nat) : (s.setWay a b l).pll d2 = s.pll d2 := rfl
@[simp] theorem State.setWay_lane (s : State) (a b : Nat) (l : List Cell) (l2 : Nat) : (s.setWay a b l).lane l2 = s.lane l2 := rfl
@[simp] theorem State.setWay_link (s : State) (a b : Nat) (l : List Cell) (p2 : Nat) : (s.setWay a b l).link p2 = s.link p2 := rfl
@[simp] theorem State.setWay_evt (s : State) (a b : Nat) (l : List Cell) (c2 : Nat) : (s.setWay a b l).evt c2 = s.evt c2 := rfl
@[simp] theorem State.setWay_out (s : State) (a b : Nat) (l : List Cell) (d2 k2 : Nat) : (s.setWay a b l).out d2 k2 = s.out d2 k2 := rfl
@[simp] theorem State.setWay_l2t (s : State) (a b : Nat) (l : List Cell) (d2 : Nat) : (s.setWay a b l).l2t d2 = s.l2t d2 := rfl
@[simp] theorem State.setWay_tbl (s : State) (a b : Nat) (l : List Cell) (d2 b2 : Nat) : (s.setWay a b l).tbl d2 b2 = s.tbl d2 b2 := rfl
@[simp] theorem State.setWay_tblOrder (s : State) (a b : Nat) (l : List Cell) (b2 : Nat) : (s.setWay a b l).tblOrder b2 = s.tblOrder b2 := rfl
@[simp] theorem State.setWay_nvsOf (s : State) (a b : Nat) (l : List Cell) (d2 : Nat) : (s.setWay a b l).nvsOf d2 = s.nvsOf d2 := rfl
@[simp] theorem State.setWay_cal (s : State) (a b : Nat) (l : List Cell) (d2 : Nat) : (s.setWay a b l).cal d2 = s.cal d2 := rfl
@[simp] theorem State.setWay_rf (s : State) (a b : Nat) (l : List Cell) (q : Fld) (d2 i2 : Nat) : (s.setWay a b l).rf q d2 i2 = s.rf q d2 i2 := rfl
@[simp] theorem State.setWay_rfF (s : State) (a b : Nat) (l : List Cell) (q : Fld) (d2 i2 : Nat) : (s.setWay a b l).rfF q d2 i2 = s.rfF q d2 i2 := rfl

/-! ### State.post changes `msgs` alone -/

@[simp] theorem State.post_part (s : State) (a b : Nat) (m : CtlBody) : (s.post a b m).part = s.part := rfl
@[simp] theorem State.post_pins (s : State) (a b : Nat) (m : CtlBody) : (s.post a b m).pins = s.pins := rfl
@[simp] theorem State.post_resets (s : State) (a b : Nat) (m : CtlBody) : (s.post a b m).resets = s.resets := rfl
@[simp] theorem State.post_otp (s : State) (a b : Nat) (m : CtlBody) : (s.post a b m).otp = s.otp := rfl
@[simp] theorem State.post_secNvs (s : State) (a b : Nat) (m : CtlBody) : (s.post a b m).secNvs = s.secNvs := rfl
@[simp] theorem State.post_sec (s : State) (a b : Nat) (m : CtlBody) : (s.post a b m).sec = s.sec := rfl
@[simp] theorem State.post_engs (s : State) (a b : Nat) (m : CtlBody) : (s.post a b m).engs = s.engs := rfl
@[simp] theorem State.post_regs (s : State) (a b : Nat) (m : CtlBody) : (s.post a b m).regs = s.regs := rfl
@[simp] theorem State.post_inForce (s : State) (a b : Nat) (m : CtlBody) : (s.post a b m).inForce = s.inForce := rfl
@[simp] theorem State.post_stopAt (s : State) (a b : Nat) (m : CtlBody) : (s.post a b m).stopAt = s.stopAt := rfl
@[simp] theorem State.post_own (s : State) (a b : Nat) (m : CtlBody) : (s.post a b m).own = s.own := rfl
@[simp] theorem State.post_hosts (s : State) (a b : Nat) (m : CtlBody) : (s.post a b m).hosts = s.hosts := rfl
@[simp] theorem State.post_nvs (s : State) (a b : Nat) (m : CtlBody) : (s.post a b m).nvs = s.nvs := rfl
@[simp] theorem State.post_cals (s : State) (a b : Nat) (m : CtlBody) : (s.post a b m).cals = s.cals := rfl
@[simp] theorem State.post_ridges (s : State) (a b : Nat) (m : CtlBody) : (s.post a b m).ridges = s.ridges := rfl
@[simp] theorem State.post_plls (s : State) (a b : Nat) (m : CtlBody) : (s.post a b m).plls = s.plls := rfl
@[simp] theorem State.post_ports (s : State) (a b : Nat) (m : CtlBody) : (s.post a b m).ports = s.ports := rfl
@[simp] theorem State.post_dies (s : State) (a b : Nat) (m : CtlBody) : (s.post a b m).dies = s.dies := rfl
@[simp] theorem State.post_cells (s : State) (a b : Nat) (m : CtlBody) : (s.post a b m).cells = s.cells := rfl
@[simp] theorem State.post_nextFrame (s : State) (a b : Nat) (m : CtlBody) : (s.post a b m).nextFrame = s.nextFrame := rfl
@[simp] theorem State.post_l2 (s : State) (a b : Nat) (m : CtlBody) : (s.post a b m).l2 = s.l2 := rfl
@[simp] theorem State.post_l2Order (s : State) (a b : Nat) (m : CtlBody) : (s.post a b m).l2Order = s.l2Order := rfl
@[simp] theorem State.post_tbls (s : State) (a b : Nat) (m : CtlBody) : (s.post a b m).tbls = s.tbls := rfl
@[simp] theorem State.post_tblOrders (s : State) (a b : Nat) (m : CtlBody) : (s.post a b m).tblOrders = s.tblOrders := rfl
@[simp] theorem State.post_lanes (s : State) (a b : Nat) (m : CtlBody) : (s.post a b m).lanes = s.lanes := rfl
@[simp] theorem State.post_links (s : State) (a b : Nat) (m : CtlBody) : (s.post a b m).links = s.links := rfl
@[simp] theorem State.post_saddles (s : State) (a b : Nat) (m : CtlBody) : (s.post a b m).saddles = s.saddles := rfl
@[simp] theorem State.post_summit (s : State) (a b : Nat) (m : CtlBody) : (s.post a b m).summit = s.summit := rfl
@[simp] theorem State.post_gnss (s : State) (a b : Nat) (m : CtlBody) : (s.post a b m).gnss = s.gnss := rfl
@[simp] theorem State.post_evts (s : State) (a b : Nat) (m : CtlBody) : (s.post a b m).evts = s.evts := rfl
@[simp] theorem State.post_outs (s : State) (a b : Nat) (m : CtlBody) : (s.post a b m).outs = s.outs := rfl
@[simp] theorem State.post_therm (s : State) (a b : Nat) (m : CtlBody) : (s.post a b m).therm = s.therm := rfl
@[simp] theorem State.post_rom (s : State) (a b : Nat) (m : CtlBody) : (s.post a b m).rom = s.rom := rfl
@[simp] theorem State.post_lastFn (s : State) (a b : Nat) (m : CtlBody) : (s.post a b m).lastFn = s.lastFn := rfl
@[simp] theorem State.post_free (s : State) (a b : Nat) (m : CtlBody) : (s.post a b m).free = s.free := rfl
@[simp] theorem State.post_pending (s : State) (a b : Nat) (m : CtlBody) : (s.post a b m).pending = s.pending := rfl
@[simp] theorem State.post_eng (s : State) (a b : Nat) (m : CtlBody) (e2 : Nat) : (s.post a b m).eng e2 = s.eng e2 := rfl
@[simp] theorem State.post_port (s : State) (a b : Nat) (m : CtlBody) (p2 : Nat) : (s.post a b m).port p2 = s.port p2 := rfl
@[simp] theorem State.post_die (s : State) (a b : Nat) (m : CtlBody) (d2 : Nat) : (s.post a b m).die d2 = s.die d2 := rfl
@[simp] theorem State.post_ridge (s : State) (a b : Nat) (m : CtlBody) (d2 : Nat) : (s.post a b m).ridge d2 = s.ridge d2 := rfl
@[simp] theorem State.post_host (s : State) (a b : Nat) (m : CtlBody) (h2 : Nat) : (s.post a b m).host h2 = s.host h2 := rfl
@[simp] theorem State.post_pll (s : State) (a b : Nat) (m : CtlBody) (d2 : Nat) : (s.post a b m).pll d2 = s.pll d2 := rfl
@[simp] theorem State.post_lane (s : State) (a b : Nat) (m : CtlBody) (l2 : Nat) : (s.post a b m).lane l2 = s.lane l2 := rfl
@[simp] theorem State.post_link (s : State) (a b : Nat) (m : CtlBody) (p2 : Nat) : (s.post a b m).link p2 = s.link p2 := rfl
@[simp] theorem State.post_evt (s : State) (a b : Nat) (m : CtlBody) (c2 : Nat) : (s.post a b m).evt c2 = s.evt c2 := rfl
@[simp] theorem State.post_out (s : State) (a b : Nat) (m : CtlBody) (d2 k2 : Nat) : (s.post a b m).out d2 k2 = s.out d2 k2 := rfl
@[simp] theorem State.post_l2t (s : State) (a b : Nat) (m : CtlBody) (d2 : Nat) : (s.post a b m).l2t d2 = s.l2t d2 := rfl
@[simp] theorem State.post_tbl (s : State) (a b : Nat) (m : CtlBody) (d2 b2 : Nat) : (s.post a b m).tbl d2 b2 = s.tbl d2 b2 := rfl
@[simp] theorem State.post_tblOrder (s : State) (a b : Nat) (m : CtlBody) (b2 : Nat) : (s.post a b m).tblOrder b2 = s.tblOrder b2 := rfl
@[simp] theorem State.post_nvsOf (s : State) (a b : Nat) (m : CtlBody) (d2 : Nat) : (s.post a b m).nvsOf d2 = s.nvsOf d2 := rfl
@[simp] theorem State.post_cal (s : State) (a b : Nat) (m : CtlBody) (d2 : Nat) : (s.post a b m).cal d2 = s.cal d2 := rfl
@[simp] theorem State.post_rf (s : State) (a b : Nat) (m : CtlBody) (q : Fld) (d2 i2 : Nat) : (s.post a b m).rf q d2 i2 = s.rf q d2 i2 := rfl
@[simp] theorem State.post_rfF (s : State) (a b : Nat) (m : CtlBody) (q : Fld) (d2 i2 : Nat) : (s.post a b m).rfF q d2 i2 = s.rfF q d2 i2 := rfl

/-! ### State.setSecNvs changes `secNvs` alone -/

@[simp] theorem State.setSecNvs_part (s : State) (n : SecNvs) : (s.setSecNvs n).part = s.part := rfl
@[simp] theorem State.setSecNvs_pins (s : State) (n : SecNvs) : (s.setSecNvs n).pins = s.pins := rfl
@[simp] theorem State.setSecNvs_resets (s : State) (n : SecNvs) : (s.setSecNvs n).resets = s.resets := rfl
@[simp] theorem State.setSecNvs_otp (s : State) (n : SecNvs) : (s.setSecNvs n).otp = s.otp := rfl
@[simp] theorem State.setSecNvs_sec (s : State) (n : SecNvs) : (s.setSecNvs n).sec = s.sec := rfl
@[simp] theorem State.setSecNvs_engs (s : State) (n : SecNvs) : (s.setSecNvs n).engs = s.engs := rfl
@[simp] theorem State.setSecNvs_regs (s : State) (n : SecNvs) : (s.setSecNvs n).regs = s.regs := rfl
@[simp] theorem State.setSecNvs_inForce (s : State) (n : SecNvs) : (s.setSecNvs n).inForce = s.inForce := rfl
@[simp] theorem State.setSecNvs_stopAt (s : State) (n : SecNvs) : (s.setSecNvs n).stopAt = s.stopAt := rfl
@[simp] theorem State.setSecNvs_own (s : State) (n : SecNvs) : (s.setSecNvs n).own = s.own := rfl
@[simp] theorem State.setSecNvs_hosts (s : State) (n : SecNvs) : (s.setSecNvs n).hosts = s.hosts := rfl
@[simp] theorem State.setSecNvs_nvs (s : State) (n : SecNvs) : (s.setSecNvs n).nvs = s.nvs := rfl
@[simp] theorem State.setSecNvs_cals (s : State) (n : SecNvs) : (s.setSecNvs n).cals = s.cals := rfl
@[simp] theorem State.setSecNvs_ridges (s : State) (n : SecNvs) : (s.setSecNvs n).ridges = s.ridges := rfl
@[simp] theorem State.setSecNvs_plls (s : State) (n : SecNvs) : (s.setSecNvs n).plls = s.plls := rfl
@[simp] theorem State.setSecNvs_ports (s : State) (n : SecNvs) : (s.setSecNvs n).ports = s.ports := rfl
@[simp] theorem State.setSecNvs_dies (s : State) (n : SecNvs) : (s.setSecNvs n).dies = s.dies := rfl
@[simp] theorem State.setSecNvs_cells (s : State) (n : SecNvs) : (s.setSecNvs n).cells = s.cells := rfl
@[simp] theorem State.setSecNvs_nextFrame (s : State) (n : SecNvs) : (s.setSecNvs n).nextFrame = s.nextFrame := rfl
@[simp] theorem State.setSecNvs_l2 (s : State) (n : SecNvs) : (s.setSecNvs n).l2 = s.l2 := rfl
@[simp] theorem State.setSecNvs_l2Order (s : State) (n : SecNvs) : (s.setSecNvs n).l2Order = s.l2Order := rfl
@[simp] theorem State.setSecNvs_tbls (s : State) (n : SecNvs) : (s.setSecNvs n).tbls = s.tbls := rfl
@[simp] theorem State.setSecNvs_tblOrders (s : State) (n : SecNvs) : (s.setSecNvs n).tblOrders = s.tblOrders := rfl
@[simp] theorem State.setSecNvs_lanes (s : State) (n : SecNvs) : (s.setSecNvs n).lanes = s.lanes := rfl
@[simp] theorem State.setSecNvs_links (s : State) (n : SecNvs) : (s.setSecNvs n).links = s.links := rfl
@[simp] theorem State.setSecNvs_saddles (s : State) (n : SecNvs) : (s.setSecNvs n).saddles = s.saddles := rfl
@[simp] theorem State.setSecNvs_summit (s : State) (n : SecNvs) : (s.setSecNvs n).summit = s.summit := rfl
@[simp] theorem State.setSecNvs_gnss (s : State) (n : SecNvs) : (s.setSecNvs n).gnss = s.gnss := rfl
@[simp] theorem State.setSecNvs_evts (s : State) (n : SecNvs) : (s.setSecNvs n).evts = s.evts := rfl
@[simp] theorem State.setSecNvs_outs (s : State) (n : SecNvs) : (s.setSecNvs n).outs = s.outs := rfl
@[simp] theorem State.setSecNvs_therm (s : State) (n : SecNvs) : (s.setSecNvs n).therm = s.therm := rfl
@[simp] theorem State.setSecNvs_rom (s : State) (n : SecNvs) : (s.setSecNvs n).rom = s.rom := rfl
@[simp] theorem State.setSecNvs_msgs (s : State) (n : SecNvs) : (s.setSecNvs n).msgs = s.msgs := rfl
@[simp] theorem State.setSecNvs_lastFn (s : State) (n : SecNvs) : (s.setSecNvs n).lastFn = s.lastFn := rfl
@[simp] theorem State.setSecNvs_free (s : State) (n : SecNvs) : (s.setSecNvs n).free = s.free := rfl
@[simp] theorem State.setSecNvs_pending (s : State) (n : SecNvs) : (s.setSecNvs n).pending = s.pending := rfl
@[simp] theorem State.setSecNvs_eng (s : State) (n : SecNvs) (e2 : Nat) : (s.setSecNvs n).eng e2 = s.eng e2 := rfl
@[simp] theorem State.setSecNvs_port (s : State) (n : SecNvs) (p2 : Nat) : (s.setSecNvs n).port p2 = s.port p2 := rfl
@[simp] theorem State.setSecNvs_die (s : State) (n : SecNvs) (d2 : Nat) : (s.setSecNvs n).die d2 = s.die d2 := rfl
@[simp] theorem State.setSecNvs_ridge (s : State) (n : SecNvs) (d2 : Nat) : (s.setSecNvs n).ridge d2 = s.ridge d2 := rfl
@[simp] theorem State.setSecNvs_host (s : State) (n : SecNvs) (h2 : Nat) : (s.setSecNvs n).host h2 = s.host h2 := rfl
@[simp] theorem State.setSecNvs_pll (s : State) (n : SecNvs) (d2 : Nat) : (s.setSecNvs n).pll d2 = s.pll d2 := rfl
@[simp] theorem State.setSecNvs_lane (s : State) (n : SecNvs) (l2 : Nat) : (s.setSecNvs n).lane l2 = s.lane l2 := rfl
@[simp] theorem State.setSecNvs_link (s : State) (n : SecNvs) (p2 : Nat) : (s.setSecNvs n).link p2 = s.link p2 := rfl
@[simp] theorem State.setSecNvs_evt (s : State) (n : SecNvs) (c2 : Nat) : (s.setSecNvs n).evt c2 = s.evt c2 := rfl
@[simp] theorem State.setSecNvs_out (s : State) (n : SecNvs) (d2 k2 : Nat) : (s.setSecNvs n).out d2 k2 = s.out d2 k2 := rfl
@[simp] theorem State.setSecNvs_l2t (s : State) (n : SecNvs) (d2 : Nat) : (s.setSecNvs n).l2t d2 = s.l2t d2 := rfl
@[simp] theorem State.setSecNvs_tbl (s : State) (n : SecNvs) (d2 b2 : Nat) : (s.setSecNvs n).tbl d2 b2 = s.tbl d2 b2 := rfl
@[simp] theorem State.setSecNvs_tblOrder (s : State) (n : SecNvs) (b2 : Nat) : (s.setSecNvs n).tblOrder b2 = s.tblOrder b2 := rfl
@[simp] theorem State.setSecNvs_nvsOf (s : State) (n : SecNvs) (d2 : Nat) : (s.setSecNvs n).nvsOf d2 = s.nvsOf d2 := rfl
@[simp] theorem State.setSecNvs_cal (s : State) (n : SecNvs) (d2 : Nat) : (s.setSecNvs n).cal d2 = s.cal d2 := rfl
@[simp] theorem State.setSecNvs_rf (s : State) (n : SecNvs) (q : Fld) (d2 i2 : Nat) : (s.setSecNvs n).rf q d2 i2 = s.rf q d2 i2 := rfl
@[simp] theorem State.setSecNvs_rfF (s : State) (n : SecNvs) (q : Fld) (d2 i2 : Nat) : (s.setSecNvs n).rfF q d2 i2 = s.rfF q d2 i2 := rfl

/-! ### What an accessor reads after its own update -/

theorem State.eng_setEng (s : State) (e e2 : Nat) (g : Engine) : (s.setEng e g).eng e2 = if e = e2 then g else s.eng e2 := Store.get_put _ _ _ _ _
@[simp] theorem State.eng_setEng_self (s : State) (e : Nat) (g : Engine) : (s.setEng e g).eng e = g := Store.get_put_self _ _ _ _
theorem State.eng_setEng_ne (s : State) {e e2 : Nat} (g : Engine) (h : e ≠ e2) : (s.setEng e g).eng e2 = s.eng e2 := Store.get_put_ne _ _ _ _ h
theorem State.port_setPort (s : State) (p p2 : Nat) (x : PortState) : (s.setPort p x).port p2 = if p = p2 then x else s.port p2 := Store.get_put _ _ _ _ _
@[simp] theorem State.port_setPort_self (s : State) (p : Nat) (x : PortState) : (s.setPort p x).port p = x := Store.get_put_self _ _ _ _
theorem State.port_setPort_ne (s : State) {p p2 : Nat} (x : PortState) (h : p ≠ p2) : (s.setPort p x).port p2 = s.port p2 := Store.get_put_ne _ _ _ _ h
theorem State.die_setDie (s : State) (d d2 : Nat) (x : DieState) : (s.setDie d x).die d2 = if d = d2 then x else s.die d2 := Store.get_put _ _ _ _ _
@[simp] theorem State.die_setDie_self (s : State) (d : Nat) (x : DieState) : (s.setDie d x).die d = x := Store.get_put_self _ _ _ _
theorem State.die_setDie_ne (s : State) {d d2 : Nat} (x : DieState) (h : d ≠ d2) : (s.setDie d x).die d2 = s.die d2 := Store.get_put_ne _ _ _ _ h
theorem State.ridge_setRidge (s : State) (d d2 : Nat) (x : RidgeState) : (s.setRidge d x).ridge d2 = if d = d2 then x else s.ridge d2 := Store.get_put _ _ _ _ _
@[simp] theorem State.ridge_setRidge_self (s : State) (d : Nat) (x : RidgeState) : (s.setRidge d x).ridge d = x := Store.get_put_self _ _ _ _
theorem State.ridge_setRidge_ne (s : State) {d d2 : Nat} (x : RidgeState) (h : d ≠ d2) : (s.setRidge d x).ridge d2 = s.ridge d2 := Store.get_put_ne _ _ _ _ h
theorem State.host_setHost (s : State) (d d2 : Nat) (x : HostEp) : (s.setHost d x).host d2 = if d = d2 then x else s.host d2 := Store.get_put _ _ _ _ _
@[simp] theorem State.host_setHost_self (s : State) (d : Nat) (x : HostEp) : (s.setHost d x).host d = x := Store.get_put_self _ _ _ _
theorem State.host_setHost_ne (s : State) {d d2 : Nat} (x : HostEp) (h : d ≠ d2) : (s.setHost d x).host d2 = s.host d2 := Store.get_put_ne _ _ _ _ h
theorem State.pll_setPll (s : State) (d d2 : Nat) (x : PllState) : (s.setPll d x).pll d2 = if d = d2 then x else s.pll d2 := Store.get_put _ _ _ _ _
@[simp] theorem State.pll_setPll_self (s : State) (d : Nat) (x : PllState) : (s.setPll d x).pll d = x := Store.get_put_self _ _ _ _
theorem State.pll_setPll_ne (s : State) {d d2 : Nat} (x : PllState) (h : d ≠ d2) : (s.setPll d x).pll d2 = s.pll d2 := Store.get_put_ne _ _ _ _ h
theorem State.lane_setLane (s : State) (d d2 : Nat) (x : LaneState) : (s.setLane d x).lane d2 = if d = d2 then x else s.lane d2 := Store.get_put _ _ _ _ _
@[simp] theorem State.lane_setLane_self (s : State) (d : Nat) (x : LaneState) : (s.setLane d x).lane d = x := Store.get_put_self _ _ _ _
theorem State.lane_setLane_ne (s : State) {d d2 : Nat} (x : LaneState) (h : d ≠ d2) : (s.setLane d x).lane d2 = s.lane d2 := Store.get_put_ne _ _ _ _ h
theorem State.link_setLink (s : State) (d d2 : Nat) (x : LinkState) : (s.setLink d x).link d2 = if d = d2 then x else s.link d2 := Store.get_put _ _ _ _ _
@[simp] theorem State.link_setLink_self (s : State) (d : Nat) (x : LinkState) : (s.setLink d x).link d = x := Store.get_put_self _ _ _ _
theorem State.link_setLink_ne (s : State) {d d2 : Nat} (x : LinkState) (h : d ≠ d2) : (s.setLink d x).link d2 = s.link d2 := Store.get_put_ne _ _ _ _ h
theorem State.evt_setEvt (s : State) (d d2 : Nat) (x : EvtState) : (s.setEvt d x).evt d2 = if d = d2 then x else s.evt d2 := Store.get_put _ _ _ _ _
@[simp] theorem State.evt_setEvt_self (s : State) (d : Nat) (x : EvtState) : (s.setEvt d x).evt d = x := Store.get_put_self _ _ _ _
theorem State.evt_setEvt_ne (s : State) {d d2 : Nat} (x : EvtState) (h : d ≠ d2) : (s.setEvt d x).evt d2 = s.evt d2 := Store.get_put_ne _ _ _ _ h
theorem State.l2t_setL2 (s : State) (d d2 : Nat) (x : L2State) : (s.setL2 d x).l2t d2 = if d = d2 then x else s.l2t d2 := Store.get_put _ _ _ _ _
@[simp] theorem State.l2t_setL2_self (s : State) (d : Nat) (x : L2State) : (s.setL2 d x).l2t d = x := Store.get_put_self _ _ _ _
theorem State.l2t_setL2_ne (s : State) {d d2 : Nat} (x : L2State) (h : d ≠ d2) : (s.setL2 d x).l2t d2 = s.l2t d2 := Store.get_put_ne _ _ _ _ h
theorem State.nvsOf_setNvs (s : State) (d d2 : Nat) (x : NvsState) : (s.setNvs d x).nvsOf d2 = if d = d2 then x else s.nvsOf d2 := Store.get_put _ _ _ _ _
@[simp] theorem State.nvsOf_setNvs_self (s : State) (d : Nat) (x : NvsState) : (s.setNvs d x).nvsOf d = x := Store.get_put_self _ _ _ _
theorem State.nvsOf_setNvs_ne (s : State) {d d2 : Nat} (x : NvsState) (h : d ≠ d2) : (s.setNvs d x).nvsOf d2 = s.nvsOf d2 := Store.get_put_ne _ _ _ _ h
theorem State.cal_setCal (s : State) (d d2 : Nat) (x : CalState) : (s.setCal d x).cal d2 = if d = d2 then x else s.cal d2 := Store.get_put _ _ _ _ _
@[simp] theorem State.cal_setCal_self (s : State) (d : Nat) (x : CalState) : (s.setCal d x).cal d = x := Store.get_put_self _ _ _ _
theorem State.cal_setCal_ne (s : State) {d d2 : Nat} (x : CalState) (h : d ≠ d2) : (s.setCal d x).cal d2 = s.cal d2 := Store.get_put_ne _ _ _ _ h
@[simp] theorem State.out_setOut_self (s : State) (d k : Nat) (x : OutState) : (s.setOut d k x).out d k = x := Store.get_put_self _ _ _ _
@[simp] theorem State.tbl_setTbl_self (s : State) (d b : Nat) (x : TblState) : (s.setTbl d b x).tbl d b = x := Store.get_put_self _ _ _ _
@[simp] theorem State.tblOrder_setTblOrder_self (s : State) (b : Nat) (x : TblOrder) : (s.setTblOrder b x).tblOrder b = x := Store.get_put_self _ _ _ _
@[simp] theorem State.gnss_setGnss (s : State) (g : GnssState) : (s.setGnss g).gnss = g := rfl
@[simp] theorem State.msgs_post (s : State) (a b : Nat) (m : CtlBody) : (s.post a b m).msgs = s.msgs ++ [⟨a, b, m⟩] := rfl

end Sys2Proof.Machine
end

