-- ==== Sys2Proof/Laws/Regs.lean ====
section
/-!
SUPPORT. Registers read after a write, after an event, and after the operations every meaning shares: which fields an
operation can change, said once.
-/
namespace Sys2Proof.Machine

/-- The two descriptors are of different places of the register maps. -/
def Fld.apart (f g : Fld) : Bool :=
  decide (f.blk < 2 ^ 8) && decide (g.blk < 2 ^ 8) && decide (f.off * 2 ^ 7 + f.lo < 2 ^ 27) &&
    decide (g.off * 2 ^ 7 + g.lo < 2 ^ 27) &&
    !(decide (f.blk = g.blk) && decide (f.off * 2 ^ 7 + f.lo = g.off * 2 ^ 7 + g.lo))

theorem Fld.key_ne_of_apart {f g : Fld} (h : f.apart g = true) (d i d' i' : Nat) : f.key d i ≠ g.key d' i' := by
  unfold Fld.apart at h
  unfold Fld.key
  simp only [Bool.and_eq_true, decide_eq_true_eq, Bool.not_eq_true', Bool.and_eq_false_iff, decide_eq_false_iff_not] at h
  omega

theorem Fld.key_ne_of_die {f : Fld} {d d' : Nat} (_ : f.blk < 2 ^ 8) (_ : f.off * 2 ^ 7 + f.lo < 2 ^ 27) (_ : d ≠ d')
    (i i' : Nat) : f.key d i ≠ f.key d' i' := by
  unfold Fld.key
  omega

theorem Fld.key_ne_of_inst {f : Fld} {i i' : Nat} (h : i % 2 ^ 9 ≠ i' % 2 ^ 9) (d : Nat) : f.key d i ≠ f.key d i' := by
  unfold Fld.key
  omega

theorem Fld.keyBlk_key {f : Fld} (h1 : f.blk < 2 ^ 8) (h2 : f.off * 2 ^ 7 + f.lo < 2 ^ 27) (d i : Nat) :
    keyBlk (f.key d i) = f.blk := by
  unfold keyBlk Fld.key
  omega

@[simp] theorem State.rf_wf_self (s : State) (f : Fld) (d i v : Nat) : (s.wf f d i v).rf f d i = v % 2 ^ f.w :=
  Store.get_put_self _ _ _ _

theorem State.rf_wf_key (s : State) {f g : Fld} {d i d' i' : Nat} (v : Nat) (h : g.key d i ≠ f.key d' i') :
    (s.wf g d i v).rf f d' i' = s.rf f d' i' := Store.get_put_ne _ _ _ _ h

theorem State.rf_wf_apart (s : State) {f g : Fld} (h : g.apart f = true) (d i v d' i' : Nat) :
    (s.wf g d i v).rf f d' i' = s.rf f d' i' := s.rf_wf_key v (Fld.key_ne_of_apart h _ _ _ _)

@[simp] theorem State.rfF_wfF_self (s : State) (f : Fld) (d i v : Nat) : (s.wfF f d i v).rfF f d i = v % 2 ^ f.w :=
  Store.get_put_self _ _ _ _

theorem State.rfF_wfF_apart (s : State) {f g : Fld} (h : g.apart f = true) (d i v d' i' : Nat) :
    (s.wfF g d i v).rfF f d' i' = s.rfF f d' i' := Store.get_put_ne _ _ _ _ (Fld.key_ne_of_apart h _ _ _ _)

/-! ## Events

An occurrence changes event lines, messages on their way and MESH.ERR.EVT_LOST_SEEN alone. -/

theorem EventOnly.refl (s : State) : EventOnly s s := ⟨rfl, fun _ => rfl, fun _ _ _ => rfl⟩

theorem EventOnly.trans {s t u : State} (h : EventOnly s t) (g : EventOnly t u) : EventOnly s u where
  rest := by
    have h1 := g.rest
    rw [h.rest] at h1
    exact h1
  engs e := (g.engs e).trans (h.engs e)
  regs k hk d := (g.regs k hk d).trans (h.regs k hk d)

theorem EventOnly.setLine (s : State) (e l : Nat) : EventOnly s (s.setLine e l) where
  rest := rfl
  engs f := by
    unfold State.setLine
    rw [State.eng_setEng]
    split
    · subst_vars; rfl
    · rfl
  regs _ _ _ := rfl

theorem EventOnly.post (s : State) (a b : Nat) (m : CtlBody) : EventOnly s (s.post a b m) :=
  ⟨rfl, fun _ => rfl, fun _ _ _ => rfl⟩

theorem EventOnly.lost (s : State) (a b : Nat) : EventOnly s (s.setFlag F.MESH.ERR_EVT_LOST_SEEN a b) where
  rest := rfl
  engs _ := rfl
  regs k hk d := by
    unfold State.setFlag State.wf
    dsimp only
    exact Store.get_put_ne (α := Nat) d _ _ _ (hk a b)

theorem EventOnly.foldl {α : Type} (l : List α) (f : State → α → State) (h : ∀ s x, EventOnly s (f s x)) (s : State) :
    EventOnly s (l.foldl f s) := by
  induction l generalizing s with
  | nil => exact .refl s
  | cons x r ih => exact (h s x).trans (ih _)

theorem State.driveQuiet_only (s : State) (die : Nat) (t : Nat × Nat) : EventOnly s (s.driveQuiet die t) := by
  unfold State.driveQuiet
  split
  · exact .setLine s _ _
  · split
    · exact .post s _ _ _
    · exact .refl s

theorem State.loseFrom_only (a n : Nat) (todo seen : List Nat) (s : State) : EventOnly s (State.loseFrom a n todo seen s) := by
  induction n generalizing todo seen s with
  | zero => exact .refl s
  | succ n ih =>
    cases todo with
    | nil => exact .refl s
    | cons b r =>
      exact ((EventOnly.lost s a b).trans (EventOnly.foldl _ _ (fun s t => State.driveQuiet_only s a t) _)).trans (ih _ _ _)

/-- Everything that a lost event message can do. -/
theorem State.eventLost_only (s : State) (a b : Nat) : EventOnly s (s.eventLost a b) := State.loseFrom_only _ _ _ _ _

/-- Everything that `raise` can do. -/
theorem State.raise_only (s : State) (die blk inst ev : Nat) : EventOnly s (s.raise die blk inst ev) := by
  unfold State.raise
  refine EventOnly.foldl _ _ (fun s t => ?_) s
  unfold State.drive
  split
  · exact .setLine s _ _
  · split
    · exact .post s _ _ _
    · exact s.eventLost_only _ _

theorem EventOnly.rf {s t : State} (h : EventOnly s t) {f : Fld} (hf : F.MESH.ERR_EVT_LOST_SEEN.apart f = true)
    (d i : Nat) : t.rf f d i = s.rf f d i := by
  unfold State.rf
  have hp : t.part = s.part := by rw [h.rest]
  rw [hp]
  exact h.regs _ (fun a b => Fld.key_ne_of_apart hf _ _ _ _) _

/-- A field apart from MESH.ERR.EVT_LOST_SEEN reads through an event as before. -/
theorem State.rf_raise (s : State) (die blk inst ev : Nat) {f : Fld} (hf : F.MESH.ERR_EVT_LOST_SEEN.apart f = true)
    (d i : Nat) : (s.raise die blk inst ev).rf f d i = s.rf f d i := (s.raise_only die blk inst ev).rf hf d i

@[simp] theorem State.raise_part (s : State) (die blk inst ev : Nat) : (s.raise die blk inst ev).part = s.part := by
  rw [(s.raise_only die blk inst ev).rest]
@[simp] theorem State.raise_pins (s : State) (die blk inst ev : Nat) : (s.raise die blk inst ev).pins = s.pins := by
  rw [(s.raise_only die blk inst ev).rest]
@[simp] theorem State.raise_resets (s : State) (die blk inst ev : Nat) : (s.raise die blk inst ev).resets = s.resets := by
  rw [(s.raise_only die blk inst ev).rest]
@[simp] theorem State.raise_otp (s : State) (die blk inst ev : Nat) : (s.raise die blk inst ev).otp = s.otp := by
  rw [(s.raise_only die blk inst ev).rest]
@[simp] theorem State.raise_secNvs (s : State) (die blk inst ev : Nat) : (s.raise die blk inst ev).secNvs = s.secNvs := by
  rw [(s.raise_only die blk inst ev).rest]
@[simp] theorem State.raise_sec (s : State) (die blk inst ev : Nat) : (s.raise die blk inst ev).sec = s.sec := by
  rw [(s.raise_only die blk inst ev).rest]
@[simp] theorem State.raise_inForce (s : State) (die blk inst ev : Nat) : (s.raise die blk inst ev).inForce = s.inForce := by
  rw [(s.raise_only die blk inst ev).rest]
@[simp] theorem State.raise_stopAt (s : State) (die blk inst ev : Nat) : (s.raise die blk inst ev).stopAt = s.stopAt := by
  rw [(s.raise_only die blk inst ev).rest]
@[simp] theorem State.raise_own (s : State) (die blk inst ev : Nat) : (s.raise die blk inst ev).own = s.own := by
  rw [(s.raise_only die blk inst ev).rest]
@[simp] theorem State.raise_hosts (s : State) (die blk inst ev : Nat) : (s.raise die blk inst ev).hosts = s.hosts := by
  rw [(s.raise_only die blk inst ev).rest]
@[simp] theorem State.raise_nvs (s : State) (die blk inst ev : Nat) : (s.raise die blk inst ev).nvs = s.nvs := by
  rw [(s.raise_only die blk inst ev).rest]
@[simp] theorem State.raise_cals (s : State) (die blk inst ev : Nat) : (s.raise die blk inst ev).cals = s.cals := by
  rw [(s.raise_only die blk inst ev).rest]
@[simp] theorem State.raise_ridges (s : State) (die blk inst ev : Nat) : (s.raise die blk inst ev).ridges = s.ridges := by
  rw [(s.raise_only die blk inst ev).rest]
@[simp] theorem State.raise_plls (s : State) (die blk inst ev : Nat) : (s.raise die blk inst ev).plls = s.plls := by
  rw [(s.raise_only die blk inst ev).rest]
@[simp] theorem State.raise_ports (s : State) (die blk inst ev : Nat) : (s.raise die blk inst ev).ports = s.ports := by
  rw [(s.raise_only die blk inst ev).rest]
@[simp] theorem State.raise_dies (s : State) (die blk inst ev : Nat) : (s.raise die blk inst ev).dies = s.dies := by
  rw [(s.raise_only die blk inst ev).rest]
@[simp] theorem State.raise_cells (s : State) (die blk inst ev : Nat) : (s.raise die blk inst ev).cells = s.cells := by
  rw [(s.raise_only die blk inst ev).rest]
@[simp] theorem State.raise_nextFrame (s : State) (die blk inst ev : Nat) : (s.raise die blk inst ev).nextFrame = s.nextFrame := by
  rw [(s.raise_only die blk inst ev).rest]
@[simp] theorem State.raise_l2 (s : State) (die blk inst ev : Nat) : (s.raise die blk inst ev).l2 = s.l2 := by
  rw [(s.raise_only die blk inst ev).rest]
@[simp] theorem State.raise_l2Order (s : State) (die blk inst ev : Nat) : (s.raise die blk inst ev).l2Order = s.l2Order := by
  rw [(s.raise_only die blk inst ev).rest]
@[simp] theorem State.raise_tbls (s : State) (die blk inst ev : Nat) : (s.raise die blk inst ev).tbls = s.tbls := by
  rw [(s.raise_only die blk inst ev).rest]
@[simp] theorem State.raise_tblOrders (s : State) (die blk inst ev : Nat) : (s.raise die blk inst ev).tblOrders = s.tblOrders := by
  rw [(s.raise_only die blk inst ev).rest]
@[simp] theorem State.raise_lanes (s : State) (die blk inst ev : Nat) : (s.raise die blk inst ev).lanes = s.lanes := by
  rw [(s.raise_only die blk inst ev).rest]
@[simp] theorem State.raise_links (s : State) (die blk inst ev : Nat) : (s.raise die blk inst ev).links = s.links := by
  rw [(s.raise_only die blk inst ev).rest]
@[simp] theorem State.raise_saddles (s : State) (die blk inst ev : Nat) : (s.raise die blk inst ev).saddles = s.saddles := by
  rw [(s.raise_only die blk inst ev).rest]
@[simp] theorem State.raise_summit (s : State) (die blk inst ev : Nat) : (s.raise die blk inst ev).summit = s.summit := by
  rw [(s.raise_only die blk inst ev).rest]
@[simp] theorem State.raise_gnss (s : State) (die blk inst ev : Nat) : (s.raise die blk inst ev).gnss = s.gnss := by
  rw [(s.raise_only die blk inst ev).rest]
@[simp] theorem State.raise_evts (s : State) (die blk inst ev : Nat) : (s.raise die blk inst ev).evts = s.evts := by
  rw [(s.raise_only die blk inst ev).rest]
@[simp] theorem State.raise_outs (s : State) (die blk inst ev : Nat) : (s.raise die blk inst ev).outs = s.outs := by
  rw [(s.raise_only die blk inst ev).rest]
@[simp] theorem State.raise_therm (s : State) (die blk inst ev : Nat) : (s.raise die blk inst ev).therm = s.therm := by
  rw [(s.raise_only die blk inst ev).rest]
@[simp] theorem State.raise_rom (s : State) (die blk inst ev : Nat) : (s.raise die blk inst ev).rom = s.rom := by
  rw [(s.raise_only die blk inst ev).rest]
@[simp] theorem State.raise_lastFn (s : State) (die blk inst ev : Nat) : (s.raise die blk inst ev).lastFn = s.lastFn := by
  rw [(s.raise_only die blk inst ev).rest]
@[simp] theorem State.raise_free (s : State) (die blk inst ev : Nat) : (s.raise die blk inst ev).free = s.free := by
  rw [(s.raise_only die blk inst ev).rest]
@[simp] theorem State.raise_pending (s : State) (die blk inst ev : Nat) : (s.raise die blk inst ev).pending = s.pending := by
  rw [(s.raise_only die blk inst ev).rest]
@[simp] theorem State.raise_port (s : State) (die blk inst ev p : Nat) : (s.raise die blk inst ev).port p = s.port p := by
  rw [(s.raise_only die blk inst ev).rest]; rfl
@[simp] theorem State.raise_die (s : State) (die blk inst ev d : Nat) : (s.raise die blk inst ev).die d = s.die d := by
  rw [(s.raise_only die blk inst ev).rest]; rfl
@[simp] theorem State.raise_ridge (s : State) (die blk inst ev d : Nat) : (s.raise die blk inst ev).ridge d = s.ridge d := by
  rw [(s.raise_only die blk inst ev).rest]; rfl
@[simp] theorem State.raise_host (s : State) (die blk inst ev h : Nat) : (s.raise die blk inst ev).host h = s.host h := by
  rw [(s.raise_only die blk inst ev).rest]; rfl
@[simp] theorem State.raise_pll (s : State) (die blk inst ev d : Nat) : (s.raise die blk inst ev).pll d = s.pll d := by
  rw [(s.raise_only die blk inst ev).rest]; rfl
@[simp] theorem State.raise_lane (s : State) (die blk inst ev l : Nat) : (s.raise die blk inst ev).lane l = s.lane l := by
  rw [(s.raise_only die blk inst ev).rest]; rfl
@[simp] theorem State.raise_link (s : State) (die blk inst ev p : Nat) : (s.raise die blk inst ev).link p = s.link p := by
  rw [(s.raise_only die blk inst ev).rest]; rfl
@[simp] theorem State.raise_evt (s : State) (die blk inst ev c : Nat) : (s.raise die blk inst ev).evt c = s.evt c := by
  rw [(s.raise_only die blk inst ev).rest]; rfl
@[simp] theorem State.raise_l2t (s : State) (die blk inst ev d : Nat) : (s.raise die blk inst ev).l2t d = s.l2t d := by
  rw [(s.raise_only die blk inst ev).rest]; rfl
@[simp] theorem State.raise_nvsOf (s : State) (die blk inst ev d : Nat) : (s.raise die blk inst ev).nvsOf d = s.nvsOf d := by
  rw [(s.raise_only die blk inst ev).rest]; rfl
@[simp] theorem State.raise_cal (s : State) (die blk inst ev d : Nat) : (s.raise die blk inst ev).cal d = s.cal d := by
  rw [(s.raise_only die blk inst ev).rest]; rfl
@[simp] theorem State.raise_out (s : State) (die blk inst ev d k : Nat) : (s.raise die blk inst ev).out d k = s.out d k := by
  rw [(s.raise_only die blk inst ev).rest]; rfl
@[simp] theorem State.raise_rfF (s : State) (die blk inst ev : Nat) (f : Fld) (d i : Nat) : (s.raise die blk inst ev).rfF f d i = s.rfF f d i := by
  rw [(s.raise_only die blk inst ev).rest]; rfl

/-! ## Changes of registers -/

theorem RegsOnly.of_event {s t : State} (h : EventOnly s t) (fs : List (Fld × Nat × Nat)) : RegsOnly fs s t :=
  ⟨h.rest, h.engs, fun k _ hk d => h.regs k hk d⟩

theorem RegsOnly.refl (fs : List (Fld × Nat × Nat)) (s : State) : RegsOnly fs s s := .of_event (.refl s) fs

theorem RegsOnly.trans {fs : List (Fld × Nat × Nat)} {s t u : State} (h : RegsOnly fs s t) (g : RegsOnly fs t u) :
    RegsOnly fs s u where
  rest := by rw [g.rest, h.rest]
  engs e := (g.engs e).trans (h.engs e)
  regs k a b d := (g.regs k a b d).trans (h.regs k a b d)

theorem RegsOnly.wf {fs : List (Fld × Nat × Nat)} (s : State) (f : Fld) (d i v : Nat) (hf : (f, d, i) ∈ fs) :
    RegsOnly fs s (s.wf f d i v) where
  rest := rfl
  engs _ := rfl
  regs k h _ dd := Store.get_put_ne (α := Nat) dd _ _ _ (h (f, d, i) hf)

theorem RegsOnly.raise {fs : List (Fld × Nat × Nat)} (s : State) (die blk inst ev : Nat) :
    RegsOnly fs s (s.raise die blk inst ev) := .of_event (s.raise_only die blk inst ev) fs

end Sys2Proof.Machine
end

