-- ==== Sys2Proof/Laws/Engine.lean ====
section
/-!
SUPPORT. What the operations of an engine can do: the monitoring that accompanies an instruction (MonitorOnly), issue,
completion, the precise trap.
-/
namespace Sys2Proof.Machine

/-! ## MonitorOnly -/

theorem MonitorOnly.refl (s : State) : MonitorOnly s s := ⟨rfl, fun _ => rfl, fun _ _ _ _ => rfl, fun _ => rfl⟩

theorem MonitorOnly.trans {s t u : State} (h : MonitorOnly s t) (g : MonitorOnly t u) : MonitorOnly s u where
  rest := by
    have h1 := g.rest
    rw [h.rest] at h1
    exact h1
  engs e := (g.engs e).trans (h.engs e)
  regs k h1 h2 d := (g.regs k h1 h2 d).trans (h.regs k h1 h2 d)
  dies d := (g.dies d).trans (h.dies d)

theorem EventOnly.monitor {s t : State} (h : EventOnly s t) : MonitorOnly s t where
  rest := by
    have h1 := h.rest
    have h2 : t.dies = s.dies := by rw [h1]
    have h3 : t.free = s.free := by rw [h1]
    rw [h2, h3]
    exact h1
  engs := h.engs
  regs k _ hm d := h.regs k (fun a b e => hm (by
    rw [← e]; exact Fld.keyBlk_key (f := F.MESH.ERR_EVT_LOST_SEEN) (by decide) (by decide) a b)) d
  dies d := by
    have : t.die d = s.die d := by rw [h.rest]; rfl
    rw [this]

theorem MonitorOnly.wf (s : State) {f : Fld} (hb : f.blk = B.PERF) (hs : f.off * 2 ^ 7 + f.lo < 2 ^ 27) (d i v : Nat) :
    MonitorOnly s (s.wf f d i v) where
  rest := rfl
  engs _ := rfl
  regs k hp _ x := by
    unfold State.wf
    dsimp only
    refine Store.get_put_ne (α := Nat) x _ _ _ (fun e => hp ?_)
    rw [← e, Fld.keyBlk_key (by rw [hb]; decide) hs, hb]
  dies _ := rfl

theorem MonitorOnly.setPerf (s : State) (d : Nat) (p : PerfState) : MonitorOnly s (s.setPerf d p) where
  rest := rfl
  engs _ := rfl
  regs _ _ _ _ := rfl
  dies x := by
    unfold State.setPerf
    rw [State.die_setDie]
    split
    · subst_vars; rfl
    · rfl

theorem MonitorOnly.foldl {α : Type} (l : List α) (f : State → α → State) (h : ∀ s, ∀ x ∈ l, MonitorOnly s (f s x))
    (s : State) : MonitorOnly s (l.foldl f s) := by
  induction l generalizing s with
  | nil => exact .refl s
  | cons x r ih =>
    exact (h s x (by simp)).trans (ih (fun s y hy => h s y (List.mem_cons_of_mem _ hy)) _)

theorem State.raise_monitor (s : State) (die blk inst ev : Nat) : MonitorOnly s (s.raise die blk inst ev) :=
  (s.raise_only die blk inst ev).monitor

theorem State.perfAdd_monitor (s : State) (d c amount : Nat) (hc : c < 8) : MonitorOnly s (s.perfAdd d c amount) := by
  have hcnt : (F.PERF.CNT_COUNT c).off * 2 ^ 7 + (F.PERF.CNT_COUNT c).lo < 2 ^ 27 := by
    simp only [F.PERF.CNT_COUNT]; omega
  have hovf : (F.PERF.CNT_OVF c).off * 2 ^ 7 + (F.PERF.CNT_OVF c).lo < 2 ^ 27 := by
    simp only [F.PERF.CNT_OVF]; omega
  unfold State.perfAdd
  extract_lets old sum cmp hit s1 s2
  have h1 : MonitorOnly s s1 := .wf s rfl hcnt _ _ _
  have h2 : MonitorOnly s s2 := by
    dsimp only [s2]
    split
    · exact (h1.trans (.wf s1 (f := F.PERF.STAT_CMP_HIT) rfl (by decide) _ _ _)).trans (State.raise_monitor _ _ _ _ _)
    · exact h1
  split
  · exact (h2.trans (.wf s2 rfl hovf _ _ _)).trans (State.raise_monitor _ _ _ _ _)
  · exact h2

/-- Everything that an occurrence of an event source can do. -/
theorem State.perfEvent_monitor (s : State) (d src idx w : Nat) : MonitorOnly s (s.perfEvent d src idx w) := by
  unfold State.perfEvent
  split
  · refine MonitorOnly.foldl _ _ (fun s c hc => ?_) s
    split
    · exact s.perfAdd_monitor d c w (List.mem_range.mp hc)
    · exact .refl s
  · exact .refl s

theorem State.tagStore_monitor (s : State) (d : Nat) (t : TagItem) (cycles : Nat) :
    MonitorOnly s (s.tagStore d t cycles) := by
  unfold State.tagStore
  dsimp only
  split
  · exact ((MonitorOnly.setPerf s _ _).trans (.wf _ (f := F.PERF.TAG_STAT_DEPTH) rfl (by decide) _ _ _)).trans
      (State.raise_monitor _ _ _ _ _)
  · refine MonitorOnly.trans ?_ (State.raise_monitor _ _ _ _ _)
    exact ((MonitorOnly.setPerf s _ _).trans (.wf _ (f := F.PERF.TAG_LOST_COUNT) rfl (by decide) _ _ _)).trans
      (.wf _ (f := F.PERF.ERR_TAG_LOST_SEEN) rfl (by decide) _ _ _)

/-- Everything that the count of an engine's issues can do. -/
theorem State.issues_monitor (s : State) (e : Nat) : MonitorOnly s (s.issues e) := by
  unfold State.issues
  dsimp only
  split
  · exact .setPerf s _ _
  · exact .refl s

/-- Everything that the tagging of an issued instruction can do. -/
theorem State.tagIssue_monitor (s : State) (e pc word : Nat) : MonitorOnly s (s.tagIssue e pc word) := by
  unfold State.tagIssue
  refine (s.issues_monitor e).trans ?_
  generalize s.issues e = s
  dsimp only
  split
  · exact .refl s
  · split
    · exact (MonitorOnly.setPerf s _ _).trans (.wf _ (f := F.PERF.TAG_STAT_IN_BUSY) rfl (by decide) _ _ _)
    · exact .setPerf s _ _

theorem State.tagAccess_monitor (s : State) (e stage : Nat) (remote : Bool) : MonitorOnly s (s.tagAccess e stage remote) := by
  unfold State.tagAccess
  dsimp only
  split
  · split
    · exact .setPerf s _ _
    · exact .refl s
  · exact .refl s

/-- Everything that the retiring of a tagged instruction can do. -/
theorem State.tagRetire_monitor (s : State) (e : Nat) (dropped : Bool) : MonitorOnly s (s.tagRetire e dropped) := by
  unfold State.tagRetire
  dsimp only
  split
  · split
    · exact ((MonitorOnly.setPerf s (e / 4) _).trans
        (.wf _ (f := F.PERF.TAG_STAT_IN_BUSY) rfl (by decide) (e / 4) 0 (ofBool false))).trans
        (State.tagStore_monitor _ _ _ _)
    · exact .refl s
  · exact .refl s

/-! ## What a state reads through monitoring -/

theorem MonitorOnly.rf {s t : State} (h : MonitorOnly s t) {f : Fld} (h1 : f.blk < 2 ^ 8) (h2 : f.off * 2 ^ 7 + f.lo < 2 ^ 27)
    (hp : f.blk ≠ B.PERF) (hm : f.blk ≠ B.MESH) (d i : Nat) : t.rf f d i = s.rf f d i := by
  unfold State.rf
  have e : t.part = s.part := by rw [h.rest]
  rw [e]
  exact h.regs _ (by rw [Fld.keyBlk_key h1 h2]; exact hp) (by rw [Fld.keyBlk_key h1 h2]; exact hm) _

theorem MonitorOnly.core {s t : State} (h : MonitorOnly s t) (e : Nat) : (t.eng e).core = (s.eng e).core := by
  show (t.eng e).still.core = (s.eng e).still.core
  rw [h.engs e]

/-- An engine's field that is no event line. -/
theorem MonitorOnly.field {s t : State} {α : Type} (h : MonitorOnly s t) (e : Nat) (p : Engine → α)
    (hp : ∀ g : Engine, p g.still = p g) : p (t.eng e) = p (s.eng e) := by
  rw [← hp (t.eng e), h.engs e, hp]

/-- The same engine changed in the same way, but for its event lines, keeps the relation. -/
theorem MonitorOnly.setEng {s t : State} (h : MonitorOnly s t) (e : Nat) {g g' : Engine}
    (hg : g'.still = g.still) : MonitorOnly (s.setEng e g) (t.setEng e g') where
  rest := by
    have h1 := h.rest
    generalize ht : t.setEng e g' = u
    rw [h1] at ht
    rw [← ht]
    rfl
  engs x := by
    rw [State.eng_setEng, State.eng_setEng]
    split
    · exact hg
    · exact h.engs x
  regs := h.regs
  dies := h.dies

/-! ## Issue and completion -/

theorem State.ready_lt {s : State} {e : Nat} (h : s.ready e = true) : e < Config.nEngines s.part := by
  unfold State.ready at h
  simp only [Bool.and_eq_true, decide_eq_true_eq] at h
  exact h.1.1.1

theorem issueQuiet_ready {s : State} {e : Nat} (h : s.ready e = true) (f : State → Out) : issueQuiet e s f = f s := by
  unfold State.ready at h
  simp only [Bool.and_eq_true, decide_eq_true_eq, bne_iff_ne, ne_eq, beq_iff_eq] at h
  obtain ⟨⟨⟨h1, h2⟩, h3⟩, h4⟩ := h
  unfold issueQuiet
  rw [if_neg (by omega), if_neg (by simp [h2])]
  have hs : s.stepUsed e = s := by unfold State.stepUsed; rw [if_neg h3]
  simp only [hs, h4]

/-- A ready engine issues: the meaning runs on the state with its tagging. -/
theorem issue_ready {s : State} {e : Nat} (h : s.ready e = true) (f : State → Out) :
    issue e s f = f (s.tagIssue e (s.eng e).pc.toNat (s.eng e).word) := issueQuiet_ready h _

theorem State.boundary_calm {s : State} {e : Nat} {b : Bool} (h : (s.eng e).held = []) : s.boundary e b = s := by
  unfold State.boundary
  split
  · rfl
  · simp only [h]

/-- Completion of an instruction on an engine that holds back no trap. -/
theorem State.completeTo_calm {s : State} {e : Nat} (h : (s.eng e).held = []) (next : BitVec 16) :
    MonitorOnly (s.setEng e { s.eng e with lastDone := (s.eng e).pc, pc := next, hold := .none }) (s.completeTo e next) := by
  unfold State.completeTo
  extract_lets g s1
  have h1 : MonitorOnly s1 (((s1.perfEvent (e / 4) 0x20 (e % 4) 1).tagRetire e false)) :=
    (State.perfEvent_monitor _ _ _ _ _).trans (State.tagRetire_monitor _ _ _)
  have h2 : (((s1.perfEvent (e / 4) 0x20 (e % 4) 1).tagRetire e false).eng e).held = [] := by
    rw [h1.field e (fun g => g.held) (fun _ => rfl)]
    dsimp only [s1]
    rw [State.eng_setEng_self]
    exact h
  rw [State.boundary_calm h2]
  exact h1

theorem State.setEng_setEng_still (s : State) (e : Nat) (g h : Engine) :
    MonitorOnly (s.setEng e h) ((s.setEng e g).setEng e h) where
  rest := rfl
  engs x := by
    rw [State.eng_setEng, State.eng_setEng, State.eng_setEng]
    split <;> rfl
  regs _ _ _ _ := rfl
  dies _ := rfl

/-- An instruction that makes `g` of its engine and goes on at `next`, from issue to completion. -/
theorem State.retired_of {s u : State} {e : Nat} (hu : MonitorOnly s u) {g g' : Engine}
    (hg : g'.still = g.still) (hp : g'.held = []) (hpc : g'.pc = (s.eng e).pc) (next : BitVec 16) :
    MonitorOnly (s.retired e g next) ((u.setEng e g').completeTo e next) := by
  have h1 := State.completeTo_calm (s := u.setEng e g') (e := e) (by rw [State.eng_setEng_self]; exact hp) next
  rw [State.eng_setEng_self] at h1
  refine MonitorOnly.trans ?_ h1
  refine MonitorOnly.trans ?_ (State.setEng_setEng_still u e g' _)
  unfold State.retired
  refine hu.setEng e ?_
  rw [hpc]
  have := congrArg (fun x : Engine => { x with lastDone := (s.eng e).pc, pc := next, hold := .none }) hg
  exact this

end Sys2Proof.Machine
end

