-- ==== Sys2Proof/Laws/Exec.lean ====
section
/-!
SUPPORT. What exec runs for each command: the meaning of that command, by rfl.
-/
namespace Sys2Proof.Machine

@[simp] theorem exec_nop (e : Nat) (s : State) : exec (.nop e) s = execNop e s := rfl
@[simp] theorem exec_illegal (e : Nat) (w : Word32) (s : State) : exec (.illegal e w) s = execIllegal e w s := rfl
@[simp] theorem exec_add (e : Nat) (rd rs1 rs2 : Reg) (s : State) : exec (.add e rd rs1 rs2) s = execAdd e rd rs1 rs2 s := rfl
@[simp] theorem exec_sub (e : Nat) (rd rs1 rs2 : Reg) (s : State) : exec (.sub e rd rs1 rs2) s = execSub e rd rs1 rs2 s := rfl
@[simp] theorem exec_and (e : Nat) (rd rs1 rs2 : Reg) (s : State) : exec (.and e rd rs1 rs2) s = execAnd e rd rs1 rs2 s := rfl
@[simp] theorem exec_or (e : Nat) (rd rs1 rs2 : Reg) (s : State) : exec (.or e rd rs1 rs2) s = execOr e rd rs1 rs2 s := rfl
@[simp] theorem exec_xor (e : Nat) (rd rs1 rs2 : Reg) (s : State) : exec (.xor e rd rs1 rs2) s = execXor e rd rs1 rs2 s := rfl
@[simp] theorem exec_sll (e : Nat) (rd rs1 rs2 : Reg) (s : State) : exec (.sll e rd rs1 rs2) s = execSll e rd rs1 rs2 s := rfl
@[simp] theorem exec_srl (e : Nat) (rd rs1 rs2 : Reg) (s : State) : exec (.srl e rd rs1 rs2) s = execSrl e rd rs1 rs2 s := rfl
@[simp] theorem exec_sra (e : Nat) (rd rs1 rs2 : Reg) (s : State) : exec (.sra e rd rs1 rs2) s = execSra e rd rs1 rs2 s := rfl
@[simp] theorem exec_mul (e : Nat) (rd rs1 rs2 : Reg) (s : State) : exec (.mul e rd rs1 rs2) s = execMul e rd rs1 rs2 s := rfl
@[simp] theorem exec_mulhu (e : Nat) (rd rs1 rs2 : Reg) (s : State) : exec (.mulhu e rd rs1 rs2) s = execMulhu e rd rs1 rs2 s := rfl
@[simp] theorem exec_mulhs (e : Nat) (rd rs1 rs2 : Reg) (s : State) : exec (.mulhs e rd rs1 rs2) s = execMulhs e rd rs1 rs2 s := rfl
@[simp] theorem exec_divu (e : Nat) (rd rs1 rs2 : Reg) (s : State) : exec (.divu e rd rs1 rs2) s = execDivu e rd rs1 rs2 s := rfl
@[simp] theorem exec_remu (e : Nat) (rd rs1 rs2 : Reg) (s : State) : exec (.remu e rd rs1 rs2) s = execRemu e rd rs1 rs2 s := rfl
@[simp] theorem exec_clz (e : Nat) (rd rs1 : Reg) (s : State) : exec (.clz e rd rs1) s = execClz e rd rs1 s := rfl
@[simp] theorem exec_popc (e : Nat) (rd rs1 : Reg) (s : State) : exec (.popc e rd rs1) s = execPopc e rd rs1 s := rfl
@[simp] theorem exec_addi (e : Nat) (rd rs1 : Reg) (imm : Imm16) (s : State) : exec (.addi e rd rs1 imm) s = execAddi e rd rs1 imm s := rfl
@[simp] theorem exec_andi (e : Nat) (rd rs1 : Reg) (imm : Imm16) (s : State) : exec (.andi e rd rs1 imm) s = execAndi e rd rs1 imm s := rfl
@[simp] theorem exec_ori (e : Nat) (rd rs1 : Reg) (imm : Imm16) (s : State) : exec (.ori e rd rs1 imm) s = execOri e rd rs1 imm s := rfl
@[simp] theorem exec_xori (e : Nat) (rd rs1 : Reg) (imm : Imm16) (s : State) : exec (.xori e rd rs1 imm) s = execXori e rd rs1 imm s := rfl
@[simp] theorem exec_shi (e : Nat) (rd rs1 : Reg) (op : ShiftOp) (sh : BitVec 6) (s : State) : exec (.shi e rd rs1 op sh) s = execShi e rd rs1 op sh s := rfl
@[simp] theorem exec_cmpi (e : Nat) (rs1 : Reg) (imm : Imm16) (s : State) : exec (.cmpi e rs1 imm) s = execCmpi e rs1 imm s := rfl
@[simp] theorem exec_movz (e : Nat) (rd : Reg) (imm : Imm16) (k : BitVec 2) (s : State) : exec (.movz e rd imm k) s = execMovz e rd imm k s := rfl
@[simp] theorem exec_movk (e : Nat) (rd : Reg) (imm : Imm16) (k : BitVec 2) (s : State) : exec (.movk e rd imm k) s = execMovk e rd imm k s := rfl
@[simp] theorem exec_ld8u (e : Nat) (rd rs1 : Reg) (imm : Imm16) (s : State) : exec (.ld8u e rd rs1 imm) s = execLd8u e rd rs1 imm s := rfl
@[simp] theorem exec_ld16u (e : Nat) (rd rs1 : Reg) (imm : Imm16) (s : State) : exec (.ld16u e rd rs1 imm) s = execLd16u e rd rs1 imm s := rfl
@[simp] theorem exec_ld32u (e : Nat) (rd rs1 : Reg) (imm : Imm16) (s : State) : exec (.ld32u e rd rs1 imm) s = execLd32u e rd rs1 imm s := rfl
@[simp] theorem exec_ld64 (e : Nat) (rd rs1 : Reg) (imm : Imm16) (s : State) : exec (.ld64 e rd rs1 imm) s = execLd64 e rd rs1 imm s := rfl
@[simp] theorem exec_ld8s (e : Nat) (rd rs1 : Reg) (imm : Imm16) (s : State) : exec (.ld8s e rd rs1 imm) s = execLd8s e rd rs1 imm s := rfl
@[simp] theorem exec_ld16s (e : Nat) (rd rs1 : Reg) (imm : Imm16) (s : State) : exec (.ld16s e rd rs1 imm) s = execLd16s e rd rs1 imm s := rfl
@[simp] theorem exec_ld32s (e : Nat) (rd rs1 : Reg) (imm : Imm16) (s : State) : exec (.ld32s e rd rs1 imm) s = execLd32s e rd rs1 imm s := rfl
@[simp] theorem exec_st8 (e : Nat) (rd rs1 : Reg) (imm : Imm16) (s : State) : exec (.st8 e rd rs1 imm) s = execSt8 e rd rs1 imm s := rfl
@[simp] theorem exec_st16 (e : Nat) (rd rs1 : Reg) (imm : Imm16) (s : State) : exec (.st16 e rd rs1 imm) s = execSt16 e rd rs1 imm s := rfl
@[simp] theorem exec_st32 (e : Nat) (rd rs1 : Reg) (imm : Imm16) (s : State) : exec (.st32 e rd rs1 imm) s = execSt32 e rd rs1 imm s := rfl
@[simp] theorem exec_st64 (e : Nat) (rd rs1 : Reg) (imm : Imm16) (s : State) : exec (.st64 e rd rs1 imm) s = execSt64 e rd rs1 imm s := rfl
@[simp] theorem exec_ldt (e : Nat) (td : TReg) (rs1 : Reg) (imm : Imm16) (s : State) : exec (.ldt e td rs1 imm) s = execLdt e td rs1 imm s := rfl
@[simp] theorem exec_stt (e : Nat) (ts : TReg) (rs1 : Reg) (imm : Imm16) (s : State) : exec (.stt e ts rs1 imm) s = execStt e ts rs1 imm s := rfl
@[simp] theorem exec_fld32 (e : Nat) (rd rs1 : Reg) (imm : Imm16) (s : State) : exec (.fld32 e rd rs1 imm) s = execFld32 e rd rs1 imm s := rfl
@[simp] theorem exec_fld64 (e : Nat) (rd rs1 : Reg) (imm : Imm16) (s : State) : exec (.fld64 e rd rs1 imm) s = execFld64 e rd rs1 imm s := rfl
@[simp] theorem exec_fst32 (e : Nat) (rd rs1 : Reg) (imm : Imm16) (s : State) : exec (.fst32 e rd rs1 imm) s = execFst32 e rd rs1 imm s := rfl
@[simp] theorem exec_fst64 (e : Nat) (rd rs1 : Reg) (imm : Imm16) (s : State) : exec (.fst64 e rd rs1 imm) s = execFst64 e rd rs1 imm s := rfl
@[simp] theorem exec_fldt (e : Nat) (td : TReg) (rs1 : Reg) (imm : Imm16) (s : State) : exec (.fldt e td rs1 imm) s = execFldt e td rs1 imm s := rfl
@[simp] theorem exec_fstt (e : Nat) (ts : TReg) (rs1 : Reg) (imm : Imm16) (s : State) : exec (.fstt e ts rs1 imm) s = execFstt e ts rs1 imm s := rfl
@[simp] theorem exec_functionResponseArrive (e : Nat) (s : State) : exec (.functionResponseArrive e) s = execFunctionResponseArrive e s := rfl
@[simp] theorem exec_postedAckArrive (e k : Nat) (s : State) : exec (.postedAckArrive e k) s = execPostedAckArrive e k s := rfl
@[simp] theorem exec_tnow (e : Nat) (td : TReg) (s : State) : exec (.tnow e td) s = execTnow e td s := rfl
@[simp] theorem exec_tnowTk (e : Nat) (rd : Reg) (s : State) : exec (.tnowTk e rd) s = execTnowTk e rd s := rfl
@[simp] theorem exec_tadd (e : Nat) (td ts1 : TReg) (rs2 : Reg) (s : State) : exec (.tadd e td ts1 rs2) s = execTadd e td ts1 rs2 s := rfl
@[simp] theorem exec_tsub (e : Nat) (rd : Reg) (ts1 ts2 : TReg) (s : State) : exec (.tsub e rd ts1 ts2) s = execTsub e rd ts1 ts2 s := rfl
@[simp] theorem exec_tcmp (e : Nat) (ts1 ts2 : TReg) (s : State) : exec (.tcmp e ts1 ts2) s = execTcmp e ts1 ts2 s := rfl
@[simp] theorem exec_tcvtPack (e : Nat) (td : TReg) (rs1 rs2 : Reg) (s : State) : exec (.tcvtPack e td rs1 rs2) s = execTcvtPack e td rs1 rs2 s := rfl
@[simp] theorem exec_tcvtSec (e : Nat) (rd : Reg) (ts1 : TReg) (s : State) : exec (.tcvtSec e rd ts1) s = execTcvtSec e rd ts1 s := rfl
@[simp] theorem exec_tcvtLo (e : Nat) (rd : Reg) (ts1 : TReg) (s : State) : exec (.tcvtLo e rd ts1) s = execTcvtLo e rd ts1 s := rfl
@[simp] theorem exec_tcvtMov (e : Nat) (td ts1 : TReg) (s : State) : exec (.tcvtMov e td ts1) s = execTcvtMov e td ts1 s := rfl
@[simp] theorem exec_tblSrch (e : Nat) (rd rs1 rs2 : Reg) (s : State) : exec (.tblSrch e rd rs1 rs2) s = execTblSrch e rd rs1 rs2 s := rfl
@[simp] theorem exec_tblNext (e : Nat) (rd rs1 rs2 : Reg) (s : State) : exec (.tblNext e rd rs1 rs2) s = execTblNext e rd rs1 rs2 s := rfl
@[simp] theorem exec_tblFlush (e : Nat) (rd rs1 rs2 : Reg) (s : State) : exec (.tblFlush e rd rs1 rs2) s = execTblFlush e rd rs1 rs2 s := rfl
@[simp] theorem exec_tblCmd (e : Nat) (rd rs1 rs2 : Reg) (s : State) : exec (.tblCmd e rd rs1 rs2) s = execTblCmd e rd rs1 rs2 s := rfl
@[simp] theorem exec_fnStop (e : Nat) (rs1 : Reg) (s : State) : exec (.fnStop e rs1) s = execFnStop e rs1 s := rfl
@[simp] theorem exec_fnStart (e : Nat) (rd rs1 : Reg) (s : State) : exec (.fnStart e rd rs1) s = execFnStart e rd rs1 s := rfl
@[simp] theorem exec_fnStat (e : Nat) (rd rs1 : Reg) (s : State) : exec (.fnStat e rd rs1) s = execFnStat e rd rs1 s := rfl
@[simp] theorem exec_runStateRequestArrive (by_ : Option Nat) (die blk inst : Nat) (req : RunReq) (s : State) : exec (.runStateRequestArrive by_ die blk inst req) s = execRunStateRequestArrive by_ die blk inst req s := rfl
@[simp] theorem exec_drainComplete (die blk inst : Nat) (s : State) : exec (.drainComplete die blk inst) s = execDrainComplete die blk inst s := rfl
@[simp] theorem exec_drainLimitExpire (die blk inst : Nat) (s : State) : exec (.drainLimitExpire die blk inst) s = execDrainLimitExpire die blk inst s := rfl
@[simp] theorem exec_enterFault (die blk inst code : Nat) (s : State) : exec (.enterFault die blk inst code) s = execEnterFault die blk inst code s := rfl
@[simp] theorem exec_b (e : Nat) (cc : Cond) (imm : Imm16) (s : State) : exec (.b e cc imm) s = execB e cc imm s := rfl
@[simp] theorem exec_call (e : Nat) (rd : Reg) (imm : Imm16) (s : State) : exec (.call e rd imm) s = execCall e rd imm s := rfl
@[simp] theorem exec_jalr (e : Nat) (rd rs1 : Reg) (imm : Imm16) (s : State) : exec (.jalr e rd rs1 imm) s = execJalr e rd rs1 imm s := rfl
@[simp] theorem exec_rdf (e : Nat) (rd : Reg) (s : State) : exec (.rdf e rd) s = execRdf e rd s := rfl
@[simp] theorem exec_wrf (e : Nat) (rs1 : Reg) (s : State) : exec (.wrf e rs1) s = execWrf e rs1 s := rfl
@[simp] theorem exec_clf (e : Nat) (mask : BitVec 6) (s : State) : exec (.clf e mask) s = execClf e mask s := rfl
@[simp] theorem exec_wait (e : Nat) (rd rs1 rs2 : Reg) (s : State) : exec (.wait e rd rs1 rs2) s = execWait e rd rs1 rs2 s := rfl
@[simp] theorem exec_waitT (e : Nat) (rd rs1 : Reg) (ts2 : TReg) (s : State) : exec (.waitT e rd rs1 ts2) s = execWaitT e rd rs1 ts2 s := rfl
@[simp] theorem exec_waitHit (e : Nat) (s : State) : exec (.waitHit e) s = execWaitHit e s := rfl
@[simp] theorem exec_waitTimeout (e : Nat) (s : State) : exec (.waitTimeout e) s = execWaitTimeout e s := rfl
@[simp] theorem exec_send (e : Nat) (rs1 rs2 : Reg) (s : State) : exec (.send e rs1 rs2) s = execSend e rs1 rs2 s := rfl
@[simp] theorem exec_recv (e : Nat) (rd rs1 rs2 : Reg) (s : State) : exec (.recv e rd rs1 rs2) s = execRecv e rd rs1 rs2 s := rfl
@[simp] theorem exec_mbx (e : Nat) (rd rs1 : Reg) (imm : Imm16) (s : State) : exec (.mbx e rd rs1 imm) s = execMbx e rd rs1 imm s := rfl
@[simp] theorem exec_trap (e : Nat) (n : BitVec 6) (s : State) : exec (.trap e n) s = execTrap e n s := rfl
@[simp] theorem exec_fence (e : Nat) (s : State) : exec (.fence e) s = execFence e s := rfl
@[simp] theorem exec_halt (e : Nat) (s : State) : exec (.halt e) s = execHalt e s := rfl
@[simp] theorem exec_eventOccurrence (src : EvSource) (s : State) : exec (.eventOccurrence src) s = execEventOccurrence src s := rfl
@[simp] theorem exec_eventMessageArrive (e line : Nat) (s : State) : exec (.eventMessageArrive e line) s = execEventMessageArrive e line s := rfl
@[simp] theorem exec_evmapWrite (by_ e k : Nat) (data : Word32) (s : State) : exec (.evmapWrite by_ e k data) s = execEvmapWrite by_ e k data s := rfl
@[simp] theorem exec_engSignalWrite (by_ e : Nat) (data : Word32) (s : State) : exec (.engSignalWrite by_ e data) s = execEngSignalWrite by_ e data s := rfl
@[simp] theorem exec_registerWrite (by_ : Requester) (addr width data : Nat) (s : State) : exec (.registerWrite by_ addr width data) s = execRegisterWrite by_ addr width data s := rfl
@[simp] theorem exec_readClear (by_ : Requester) (addr width : Nat) (s : State) : exec (.readClear by_ addr width) s = execReadClear by_ addr width s := rfl
@[simp] theorem exec_ownCmdSet (e die blk inst part : Nat) (s : State) : exec (.ownCmdSet e die blk inst part) s = execOwnCmdSet e die blk inst part s := rfl
@[simp] theorem exec_ownCmdQuery (e die blk inst : Nat) (s : State) : exec (.ownCmdQuery e die blk inst) s = execOwnCmdQuery e die blk inst s := rfl
@[simp] theorem exec_ownHoldRequest (d : Nat) (s : State) : exec (.ownHoldRequest d) s = execOwnHoldRequest d s := rfl
@[simp] theorem exec_ownHoldReply (s : State) : exec (.ownHoldReply) s = execOwnHoldReply s := rfl
@[simp] theorem exec_ownEntriesApply (d : Nat) (s : State) : exec (.ownEntriesApply d) s = execOwnEntriesApply d s := rfl
@[simp] theorem exec_ownCmdComplete (s : State) : exec (.ownCmdComplete) s = execOwnCmdComplete s := rfl
@[simp] theorem exec_ownResync (d : Nat) (s : State) : exec (.ownResync d) s = execOwnResync d s := rfl
@[simp] theorem exec_policyWrite (e : Nat) (data : Word32) (s : State) : exec (.policyWrite e data) s = execPolicyWrite e data s := rfl
@[simp] theorem exec_policyCopyApply (d : Nat) (s : State) : exec (.policyCopyApply d) s = execPolicyCopyApply d s := rfl
@[simp] theorem exec_loadGo (h : Nat) (spi : Bool) (s : State) : exec (.loadGo h spi) s = execLoadGo h spi s := rfl
@[simp] theorem exec_loadStaged (h : Nat) (bytes : List Byte) (failed : Bool) (s : State) : exec (.loadStaged h bytes failed) s = execLoadStaged h bytes failed s := rfl
@[simp] theorem exec_signatureCheckDone (s : State) : exec (.signatureCheckDone) s = execSignatureCheckDone s := rfl
@[simp] theorem exec_loadEnd (h : Nat) (s : State) : exec (.loadEnd h) s = execLoadEnd h s := rfl
@[simp] theorem exec_mbiPost (h slot len : Nat) (s : State) : exec (.mbiPost h slot len) s = execMbiPost h slot len s := rfl
@[simp] theorem exec_svcPost (h slot len : Nat) (s : State) : exec (.svcPost h slot len) s = execSvcPost h slot len s := rfl
@[simp] theorem exec_mbiTake (e d : Nat) (s : State) : exec (.mbiTake e d) s = execMbiTake e d s := rfl
@[simp] theorem exec_mbiFree (e d : Nat) (slot : BitVec 4) (s : State) : exec (.mbiFree e d slot) s = execMbiFree e d slot s := rfl
@[simp] theorem exec_mboTake (h : Nat) (s : State) : exec (.mboTake h) s = execMboTake h s := rfl
@[simp] theorem exec_mboFree (h : Nat) (slot : BitVec 4) (s : State) : exec (.mboFree h slot) s = execMboFree h slot s := rfl
@[simp] theorem exec_svcTake (e : Nat) (s : State) : exec (.svcTake e) s = execSvcTake e s := rfl
@[simp] theorem exec_svcReply (e : Nat) (data : Word) (s : State) : exec (.svcReply e data) s = execSvcReply e data s := rfl
@[simp] theorem exec_ringCfgWrite (e d k : Nat) (data : Word32) (s : State) : exec (.ringCfgWrite e d k data) s = execRingCfgWrite e d k data s := rfl
@[simp] theorem exec_dbTx (h k : Nat) (prod : BitVec 16) (s : State) : exec (.dbTx h k prod) s = execDbTx h k prod s := rfl
@[simp] theorem exec_dbRx (h k : Nat) (prod : BitVec 16) (s : State) : exec (.dbRx h k prod) s = execDbRx h k prod s := rfl
@[simp] theorem exec_txDescriptorFetched (h k addr length kind queue dest flags tsId : Nat) (s : State) : exec (.txDescriptorFetched h k addr length kind queue dest flags tsId) s = execTxDescriptorFetched h k addr length kind queue dest flags tsId s := rfl
@[simp] theorem exec_txFrameRead (h k : Nat) (bytes : List Byte) (failed : Bool) (s : State) : exec (.txFrameRead h k bytes failed) s = execTxFrameRead h k bytes failed s := rfl
@[simp] theorem exec_injectionServe (d : Nat) (spare : Bool) (s : State) : exec (.injectionServe d spare) s = execInjectionServe d spare s := rfl
@[simp] theorem exec_rxRingDeliver (h k bufLen : Nat) (s : State) : exec (.rxRingDeliver h k bufLen) s = execRxRingDeliver h k bufLen s := rfl
@[simp] theorem exec_msixHoldoffExpire (h k : Nat) (s : State) : exec (.msixHoldoffExpire h k) s = execMsixHoldoffExpire h k s := rfl
@[simp] theorem exec_hostLinkReset (h : Nat) (cause : HostReset) (s : State) : exec (.hostLinkReset h cause) s = execHostLinkReset h cause s := rfl
@[simp] theorem exec_hostLinkUp (h speed width : Nat) (s : State) : exec (.hostLinkUp h speed width) s = execHostLinkUp h speed width s := rfl
@[simp] theorem exec_grantWrite (e p : Nat) (data : Word32) (s : State) : exec (.grantWrite e p data) s = execGrantWrite e p data s := rfl
@[simp] theorem exec_pwrgoodFall (s : State) : exec (.pwrgoodFall) s = execPwrgoodFall s := rfl
@[simp] theorem exec_pwrgoodRise (s : State) : exec (.pwrgoodRise) s = execPwrgoodRise s := rfl
@[simp] theorem exec_resetNFall (s : State) : exec (.resetNFall) s = execResetNFall s := rfl
@[simp] theorem exec_resetNFiltered (s : State) : exec (.resetNFiltered) s = execResetNFiltered s := rfl
@[simp] theorem exec_resetNRise (s : State) : exec (.resetNRise) s = execResetNRise s := rfl
@[simp] theorem exec_resetRelease (secAreaBad : Bool) (s : State) : exec (.resetRelease secAreaBad) s = execResetRelease secAreaBad s := rfl
@[simp] theorem exec_tapReset (low : Bool) (s : State) : exec (.tapReset low) s = execTapReset low s := rfl
@[simp] theorem exec_secSelfTestEnd (ok : Bool) (s : State) : exec (.secSelfTestEnd ok) s = execSecSelfTestEnd ok s := rfl
@[simp] theorem exec_bootD0Locked (s : State) : exec (.bootD0Locked) s = execBootD0Locked s := rfl
@[simp] theorem exec_bootFollowerLocked (d : Nat) (s : State) : exec (.bootFollowerLocked d) s = execBootFollowerLocked d s := rfl
@[simp] theorem exec_lcAdvance (e target confirm : Nat) (s : State) : exec (.lcAdvance e target confirm) s = execLcAdvance e target confirm s := rfl
@[simp] theorem exec_keyEnrol (e slot : Nat) (s : State) : exec (.keyEnrol e slot) s = execKeyEnrol e slot s := rfl
@[simp] theorem exec_keyRevoke (e slot : Nat) (s : State) : exec (.keyRevoke e slot) s = execKeyRevoke e slot s := rfl
@[simp] theorem exec_debugSecretEnrol (e : Nat) (s : State) : exec (.debugSecretEnrol e) s = execDebugSecretEnrol e s := rfl
@[simp] theorem exec_ownerPasswordSet (e len : Nat) (s : State) : exec (.ownerPasswordSet e len) s = execOwnerPasswordSet e len s := rfl
@[simp] theorem exec_keyCmdDone (fuseErr : Bool) (s : State) : exec (.keyCmdDone fuseErr) s = execKeyCmdDone fuseErr s := rfl
@[simp] theorem exec_rollbackAdvance (e new : Nat) (s : State) : exec (.rollbackAdvance e new) s = execRollbackAdvance e new s := rfl
@[simp] theorem exec_rollbackDone (fuseErr : Bool) (blown : Nat) (s : State) : exec (.rollbackDone fuseErr blown) s = execRollbackDone fuseErr blown s := rfl
@[simp] theorem exec_dbgRelock (e : Nat) (pwd chal : Bool) (s : State) : exec (.dbgRelock e pwd chal) s = execDbgRelock e pwd chal s := rfl
@[simp] theorem exec_dbgFailsClr (e : Nat) (pwd chal : Bool) (s : State) : exec (.dbgFailsClr e pwd chal) s = execDbgFailsClr e pwd chal s := rfl
@[simp] theorem exec_spiGo (e : Nat) (wpRel dir : Bool) (addrBytes opcode len : Nat) (s : State) : exec (.spiGo e wpRel dir addrBytes opcode len) s = execSpiGo e wpRel dir addrBytes opcode len s := rfl
@[simp] theorem exec_spiAccessDone (bytes : List Byte) (s : State) : exec (.spiAccessDone bytes) s = execSpiAccessDone bytes s := rfl
@[simp] theorem exec_idcode (s : State) : exec (.idcode) s = execIdcode s := rfl
@[simp] theorem exec_samplePreload (pins preload : List Bool) (s : State) : exec (.samplePreload pins preload) s = execSamplePreload pins preload s := rfl
@[simp] theorem exec_extest (pins drive : List Bool) (s : State) : exec (.extest pins drive) s = execExtest pins drive s := rfl
@[simp] theorem exec_clamp (s : State) : exec (.clamp) s = execClamp s := rfl
@[simp] theorem exec_highz (s : State) : exec (.highz) s = execHighz s := rfl
@[simp] theorem exec_dbgChal (s : State) : exec (.dbgChal) s = execDbgChal s := rfl
@[simp] theorem exec_dbgResp (resp : BitVec 256) (s : State) : exec (.dbgResp resp) s = execDbgResp resp s := rfl
@[simp] theorem exec_dbgPwd (len : Nat) (bytes : List Byte) (s : State) : exec (.dbgPwd len bytes) s = execDbgPwd len bytes s := rfl
@[simp] theorem exec_dbgStatus (s : State) : exec (.dbgStatus) s = execDbgStatus s := rfl
@[simp] theorem exec_dbgAccess (addr : BitVec 40) (write : Bool) (data : Word) (s : State) : exec (.dbgAccess addr write data) s = execDbgAccess addr write data s := rfl
@[simp] theorem exec_dbgEng (e : Nat) (op : DbgOp) (s : State) : exec (.dbgEng e op) s = execDbgEng e op s := rfl
@[simp] theorem exec_bypass (s : State) : exec (.bypass) s = execBypass s := rfl
@[simp] theorem exec_dbgHoldExpire (s : State) : exec (.dbgHoldExpire) s = execDbgHoldExpire s := rfl
@[simp] theorem exec_nonceExpire (s : State) : exec (.nonceExpire) s = execNonceExpire s := rfl
@[simp] theorem exec_phaseReport (l : Nat) (move : Int) (sub : Nat) (s : State) : exec (.phaseReport l move sub) s = execPhaseReport l move sub s := rfl
@[simp] theorem exec_trackerLock (l : Nat) (ppb : Int) (s : State) : exec (.trackerLock l ppb) s = execTrackerLock l ppb s := rfl
@[simp] theorem exec_trackerUnlock (l : Nat) (signal : Bool) (s : State) : exec (.trackerUnlock l signal) s = execTrackerUnlock l signal s := rfl
@[simp] theorem exec_freqWindowEnd (l : Nat) (rate : Int) (s : State) : exec (.freqWindowEnd l rate) s = execFreqWindowEnd l rate s := rfl
@[simp] theorem exec_blockLockAcquire (h : HeaderSearch) (s : State) : exec (.blockLockAcquire h) s = execBlockLockAcquire h s := rfl
@[simp] theorem exec_blockLockLoss (h : HeaderCount) (s : State) : exec (.blockLockLoss h) s = execBlockLockLoss h s := rfl
@[simp] theorem exec_alignLockChange (p : Nat) (lock : Bool) (skew : Nat) (s : State) : exec (.alignLockChange p lock skew) s = execAlignLockChange p lock skew s := rfl
@[simp] theorem exec_hiBerChange (p : Nat) (hi : Bool) (s : State) : exec (.hiBerChange p hi) s = execHiBerChange p hi s := rfl
@[simp] theorem exec_faultOrderedSetReceive (p : Nat) (localFault : Bool) (s : State) : exec (.faultOrderedSetReceive p localFault) s = execFaultOrderedSetReceive p localFault s := rfl
@[simp] theorem exec_pcsLinkUp (p : Nat) (s : State) : exec (.pcsLinkUp p) s = execPcsLinkUp p s := rfl
@[simp] theorem exec_uncorrectableCodeword (p blocks corrected symbols : Nat) (s : State) : exec (.uncorrectableCodeword p blocks corrected symbols) s = execUncorrectableCodeword p blocks corrected symbols s := rfl
@[simp] theorem exec_ctleAdaptStep (l : Nat) (up : Bool) (s : State) : exec (.ctleAdaptStep l up) s = execCtleAdaptStep l up s := rfl
@[simp] theorem exec_adaptFreeze (l : Nat) (g : CodeGroups) (s : State) : exec (.adaptFreeze l g) s = execAdaptFreeze l g s := rfl
@[simp] theorem exec_laneSleepRequest (e l : Nat) (idle : BitVec 16) (s : State) : exec (.laneSleepRequest e l idle) s = execLaneSleepRequest e l idle s := rfl
@[simp] theorem exec_laneWakeRequest (e l : Nat) (idle : BitVec 16) (s : State) : exec (.laneWakeRequest e l idle) s = execLaneWakeRequest e l idle s := rfl
@[simp] theorem exec_txIdleExpire (p : Nat) (s : State) : exec (.txIdleExpire p) s = execTxIdleExpire p s := rfl
@[simp] theorem exec_txWakeDone (p : Nat) (s : State) : exec (.txWakeDone p) s = execTxWakeDone p s := rfl
@[simp] theorem exec_rxSleepEnter (l : Nat) (s : State) : exec (.rxSleepEnter l) s = execRxSleepEnter l s := rfl
@[simp] theorem exec_rxWake (l : Nat) (bad : Bool) (s : State) : exec (.rxWake l bad) s = execRxWake l bad s := rfl
@[simp] theorem exec_prbsLock (b : PatternBits) (s : State) : exec (.prbsLock b) s = execPrbsLock b s := rfl
@[simp] theorem exec_prbsLoss (l : Nat) (x : PatternErrors) (s : State) : exec (.prbsLoss l x) s = execPrbsLoss l x s := rfl
@[simp] theorem exec_pllSelect (e : Nat) (src : BitVec 3) (port : BitVec 8) (s : State) : exec (.pllSelect e src port) s = execPllSelect e src port s := rfl
@[simp] theorem exec_pllSelectBoundary (s : State) : exec (.pllSelectBoundary) s = execPllSelectBoundary s := rfl
@[simp] theorem exec_refValidityChange (ref : Nat) (ppb : Option Int) (s : State) : exec (.refValidityChange ref ppb) s = execRefValidityChange ref ppb s := rfl
@[simp] theorem exec_pllLockAchieved (d : Nat) (err freq : Int) (s : State) : exec (.pllLockAchieved d err freq) s = execPllLockAchieved d err freq s := rfl
@[simp] theorem exec_pllLockLoss (d : Nat) (err : Int) (s : State) : exec (.pllLockLoss d err) s = execPllLockLoss d err s := rfl
@[simp] theorem exec_pllRefQualified (d : Nat) (s : State) : exec (.pllRefQualified d) s = execPllRefQualified d s := rfl
@[simp] theorem exec_histOkSet (d : Nat) (s : State) : exec (.histOkSet d) s = execHistOkSet d s := rfl
@[simp] theorem exec_handoverTimeout (d : Nat) (s : State) : exec (.handoverTimeout d) s = execHandoverTimeout d s := rfl
@[simp] theorem exec_steerWrite (e : Nat) (data : Word) (s : State) : exec (.steerWrite e data) s = execSteerWrite e data s := rfl
@[simp] theorem exec_steerStep (s : State) : exec (.steerStep) s = execSteerStep s := rfl
@[simp] theorem exec_rampGo (e : Nat) (nseg : BitVec 3) (s : State) : exec (.rampGo e nseg) s = execRampGo e nseg s := rfl
@[simp] theorem exec_rampStart (s : State) : exec (.rampStart) s = execRampStart s := rfl
@[simp] theorem exec_rampSegmentEnd (s : State) : exec (.rampSegmentEnd) s = execRampSegmentEnd s := rfl
@[simp] theorem exec_outUpdGo (e : Nat) (s : State) : exec (.outUpdGo e) s = execOutUpdGo e s := rfl
@[simp] theorem exec_outUpdApply (s : State) : exec (.outUpdApply) s = execOutUpdApply s := rfl
@[simp] theorem exec_deltaMeasureBegin (d : Nat) (s : State) : exec (.deltaMeasureBegin d) s = execDeltaMeasureBegin d s := rfl
@[simp] theorem exec_deltaMeasureEnd (d : Nat) (delta : Int) (s : State) : exec (.deltaMeasureEnd d delta) s = execDeltaMeasureEnd d delta s := rfl
@[simp] theorem exec_rateWrite (e d : Nat) (data : Word) (s : State) : exec (.rateWrite e d data) s = execRateWrite e d data s := rfl
@[simp] theorem exec_stepWrite (e d : Nat) (data : Word) (s : State) : exec (.stepWrite e d data) s = execStepWrite e d data s := rfl
@[simp] theorem exec_changeApply (d : Nat) (s : State) : exec (.changeApply d) s = execChangeApply d s := rfl
@[simp] theorem exec_alignMessageArrive (d : Nat) (skew : Int) (s : State) : exec (.alignMessageArrive d skew) s = execAlignMessageArrive d skew s := rfl
@[simp] theorem exec_skewStale (d : Nat) (s : State) : exec (.skewStale d) s = execSkewStale d s := rfl
@[simp] theorem exec_replicaCheck (d : Nat) (bad : Bool) (s : State) : exec (.replicaCheck d bad) s = execReplicaCheck d bad s := rfl
@[simp] theorem exec_millisecondBoundary (d : Nat) (s : State) : exec (.millisecondBoundary d) s = execMillisecondBoundary d s := rfl
@[simp] theorem exec_secondBoundary (d : Nat) (s : State) : exec (.secondBoundary d) s = execSecondBoundary d s := rfl
@[simp] theorem exec_txqMetaRead (e p : Nat) (s : State) : exec (.txqMetaRead e p) s = execTxqMetaRead e p s := rfl
@[simp] theorem exec_linkWindowEnd (p : Nat) (s : State) : exec (.linkWindowEnd p) s = execLinkWindowEnd p s := rfl
@[simp] theorem exec_linkCommit (e p : Nat) (s : State) : exec (.linkCommit e p) s = execLinkCommit e p s := rfl
@[simp] theorem exec_beaconSend (s : State) : exec (.beaconSend) s = execBeaconSend s := rfl
@[simp] theorem exec_beaconReceive (s : State) : exec (.beaconReceive) s = execBeaconReceive s := rfl
@[simp] theorem exec_summitEligible (s : State) : exec (.summitEligible) s = execSummitEligible s := rfl
@[simp] theorem exec_summitTake (e : Nat) (s : State) : exec (.summitTake e) s = execSummitTake e s := rfl
@[simp] theorem exec_summitRenew (e : Nat) (s : State) : exec (.summitRenew e) s = execSummitRenew e s := rfl
@[simp] theorem exec_summitRelease (e : Nat) (s : State) : exec (.summitRelease e) s = execSummitRelease e s := rfl
@[simp] theorem exec_leaseLapse (s : State) : exec (.leaseLapse) s = execLeaseLapse s := rfl
@[simp] theorem exec_pathTimeout (k : Nat) (s : State) : exec (.pathTimeout k) s = execPathTimeout k s := rfl
@[simp] theorem exec_gnssAcquisitionDwell (m : SampleSpan) (visible : BitVec 32) (bin : Option Nat) (s : State) : exec (.gnssAcquisitionDwell m visible bin) s = execGnssAcquisitionDwell m visible bin s := rfl
@[simp] theorem exec_gnssSolution (at_ : SolvedEpoch) (tow est : Nat) (pos : Int × Int × Int) (chans : List (Nat × Nat × Int)) (s : State) : exec (.gnssSolution at_ tow est pos chans) s = execGnssSolution at_ tow est pos chans s := rfl
@[simp] theorem exec_gnssEpochMissed (s : State) : exec (.gnssEpochMissed) s = execGnssEpochMissed s := rfl
@[simp] theorem exec_gnssSlewUpdate (s : State) : exec (.gnssSlewUpdate) s = execGnssSlewUpdate s := rfl
@[simp] theorem exec_surveyDone (s : State) : exec (.surveyDone) s = execSurveyDone s := rfl
@[simp] theorem exec_sparseBurst (s : State) : exec (.sparseBurst) s = execSparseBurst s := rfl
@[simp] theorem exec_gnssClkLost (s : State) : exec (.gnssClkLost) s = execGnssClkLost s := rfl
@[simp] theorem exec_ppsSchedule (s : State) : exec (.ppsSchedule) s = execPpsSchedule s := rfl
@[simp] theorem exec_ppsEdge (s : State) : exec (.ppsEdge) s = execPpsEdge s := rfl
@[simp] theorem exec_gnssAck (e : Nat) (s : State) : exec (.gnssAck e) s = execGnssAck e s := rfl
@[simp] theorem exec_eventCrossing (ch : Nat) (rising : Bool) (taps : Nat) (s : State) : exec (.eventCrossing ch rising taps) s = execEventCrossing ch rising taps s := rfl
@[simp] theorem exec_threshWrite (e ch : Nat) (code : BitVec 12) (s : State) : exec (.threshWrite e ch code) s = execThreshWrite e ch code s := rfl
@[simp] theorem exec_threshSettled (ch : Nat) (s : State) : exec (.threshSettled ch) s = execThreshSettled ch s := rfl
@[simp] theorem exec_armWrite (e ch : Nat) (arm : Bool) (s : State) : exec (.armWrite e ch arm) s = execArmWrite e ch arm s := rfl
@[simp] theorem exec_trainWindowClose (ch : Nat) (s : State) : exec (.trainWindowClose ch) s = execTrainWindowClose ch s := rfl
@[simp] theorem exec_pairedWindowClose (ch : Nat) (s : State) : exec (.pairedWindowClose ch) s = execPairedWindowClose ch s := rfl
@[simp] theorem exec_gatedTimeout (ch : Nat) (s : State) : exec (.gatedTimeout ch) s = execGatedTimeout ch s := rfl
@[simp] theorem exec_evtRecHeadRead (e ch : Nat) (s : State) : exec (.evtRecHeadRead e ch) s = execEvtRecHeadRead e ch s := rfl
@[simp] theorem exec_eventFrameDeliver (ch : Nat) (s : State) : exec (.eventFrameDeliver ch) s = execEventFrameDeliver ch s := rfl
@[simp] theorem exec_frameReceiveStart (p : Nat) (bytes : List Byte) (k : Strobe) (spare : Bool) (s : State) : exec (.frameReceiveStart p bytes k spare) s = execFrameReceiveStart p bytes k spare s := rfl
@[simp] theorem exec_frameCellReceive (p : Nat) (s : State) : exec (.frameCellReceive p) s = execFrameCellReceive p s := rfl
@[simp] theorem exec_frameReceiveEnd (p : Nat) (bad : Bool) (s : State) : exec (.frameReceiveEnd p bad) s = execFrameReceiveEnd p bad s := rfl
@[simp] theorem exec_cellSend (d dest : Nat) (s : State) : exec (.cellSend d dest) s = execCellSend d dest s := rfl
@[simp] theorem exec_cellArrive (d src : Nat) (hdrOk : Bool) (s : State) : exec (.cellArrive d src hdrOk) s = execCellArrive d src hdrOk s := rfl
@[simp] theorem exec_ctlMessageReceive (a b : Nat) (crcOk : Bool) (s : State) : exec (.ctlMessageReceive a b crcOk) s = execCtlMessageReceive a b crcOk s := rfl
@[simp] theorem exec_frameTransmitStart (p : Nat) (k : Strobe) (s : State) : exec (.frameTransmitStart p k) s = execFrameTransmitStart p k s := rfl
@[simp] theorem exec_frameTransmitEnd (p : Nat) (s : State) : exec (.frameTransmitEnd p) s = execFrameTransmitEnd p s := rfl
@[simp] theorem exec_stoppedPortDiscard (p q : Nat) (s : State) : exec (.stoppedPortDiscard p q) s = execStoppedPortDiscard p q s := rfl
@[simp] theorem exec_gateEntryStart (p : Nat) (s : State) : exec (.gateEntryStart p) s = execGateEntryStart p s := rfl
@[simp] theorem exec_mirrRecHeadRead (e d : Nat) (s : State) : exec (.mirrRecHeadRead e d) s = execMirrRecHeadRead e d s := rfl
@[simp] theorem exec_saddleDirectionDown (a b : Nat) (clk : Bool) (s : State) : exec (.saddleDirectionDown a b clk) s = execSaddleDirectionDown a b clk s := rfl
@[simp] theorem exec_saddleTrainingEnd (a b : Nat) (failed : Word32) (clk : Bool) (s : State) : exec (.saddleTrainingEnd a b failed clk) s = execSaddleTrainingEnd a b failed clk s := rfl
@[simp] theorem exec_orderPointArrive (src : Nat) (s : State) : exec (.orderPointArrive src) s = execOrderPointArrive src s := rfl
@[simp] theorem exec_agePeriodExpire (s : State) : exec (.agePeriodExpire) s = execAgePeriodExpire s := rfl
@[simp] theorem exec_l2ChangeArrive (d : Nat) (s : State) : exec (.l2ChangeArrive d) s = execL2ChangeArrive d s := rfl
@[simp] theorem exec_applyLearn (d : Nat) (s : State) : exec (.applyLearn d) s = execApplyLearn d s := rfl
@[simp] theorem exec_applyAge (d upTo : Nat) (s : State) : exec (.applyAge d upTo) s = execApplyAge d upTo s := rfl
@[simp] theorem exec_applyFlush (d upTo : Nat) (s : State) : exec (.applyFlush d upTo) s = execApplyFlush d upTo s := rfl
@[simp] theorem exec_tableScanEnd (d : Nat) (s : State) : exec (.tableScanEnd d) s = execTableScanEnd d s := rfl
@[simp] theorem exec_l2UpdWrite (e : Nat) (s : State) : exec (.l2UpdWrite e) s = execL2UpdWrite e s := rfl
@[simp] theorem exec_l2UpdDelete (e : Nat) (s : State) : exec (.l2UpdDelete e) s = execL2UpdDelete e s := rfl
@[simp] theorem exec_applyUpd (d : Nat) (s : State) : exec (.applyUpd d) s = execApplyUpd d s := rfl
@[simp] theorem exec_rehashGo (e : Nat) (s : State) : exec (.rehashGo e) s = execRehashGo e s := rfl
@[simp] theorem exec_applyRehash (d : Nat) (s : State) : exec (.applyRehash d) s = execApplyRehash d s := rfl
@[simp] theorem exec_rehashResult (s : State) : exec (.rehashResult) s = execRehashResult s := rfl
@[simp] theorem exec_tableSwitchApply (d blk : Nat) (s : State) : exec (.tableSwitchApply d blk) s = execTableSwitchApply d blk s := rfl
@[simp] theorem exec_bankDrainEnd (d blk : Nat) (s : State) : exec (.bankDrainEnd d blk) s = execBankDrainEnd d blk s := rfl
@[simp] theorem exec_l2ResyncStart (d : Nat) (s : State) : exec (.l2ResyncStart d) s = execL2ResyncStart d s := rfl
@[simp] theorem exec_l2ResyncEnd (d : Nat) (s : State) : exec (.l2ResyncEnd d) s = execL2ResyncEnd d s := rfl
@[simp] theorem exec_tableCmdGo (e d blk : Nat) (s : State) : exec (.tableCmdGo e d blk) s = execTableCmdGo e d blk s := rfl
@[simp] theorem exec_insert (d blk : Nat) (s : State) : exec (.insert d blk) s = execInsert d blk s := rfl
@[simp] theorem exec_delete (d blk : Nat) (s : State) : exec (.delete d blk) s = execDelete d blk s := rfl
@[simp] theorem exec_read (d blk : Nat) (s : State) : exec (.read d blk) s = execRead d blk s := rfl
@[simp] theorem exec_rebuildBegin (d blk : Nat) (s : State) : exec (.rebuildBegin d blk) s = execRebuildBegin d blk s := rfl
@[simp] theorem exec_shadowInsert (d blk : Nat) (s : State) : exec (.shadowInsert d blk) s = execShadowInsert d blk s := rfl
@[simp] theorem exec_shadowDelete (d blk : Nat) (s : State) : exec (.shadowDelete d blk) s = execShadowDelete d blk s := rfl
@[simp] theorem exec_commit (d blk : Nat) (s : State) : exec (.commit d blk) s = execCommit d blk s := rfl
@[simp] theorem exec_abort (d blk : Nat) (s : State) : exec (.abort d blk) s = execAbort d blk s := rfl
@[simp] theorem exec_tableReplicaWrite (d blk : Nat) (s : State) : exec (.tableReplicaWrite d blk) s = execTableReplicaWrite d blk s := rfl
@[simp] theorem exec_tableAcksComplete (blk : Nat) (s : State) : exec (.tableAcksComplete blk) s = execTableAcksComplete blk s := rfl
@[simp] theorem exec_tableSyncEnd (blk : Nat) (s : State) : exec (.tableSyncEnd blk) s = execTableSyncEnd blk s := rfl
@[simp] theorem exec_tableResyncStart (d blk : Nat) (s : State) : exec (.tableResyncStart d blk) s = execTableResyncStart d blk s := rfl
@[simp] theorem exec_tableResyncEnd (d blk : Nat) (s : State) : exec (.tableResyncEnd d blk) s = execTableResyncEnd d blk s := rfl
@[simp] theorem exec_prpForget (d i src : Nat) (s : State) : exec (.prpForget d i src) s = execPrpForget d i src s := rfl
@[simp] theorem exec_lanOkExpire (d i : Nat) (onB : Bool) (s : State) : exec (.lanOkExpire d i onB) s = execLanOkExpire d i onB s := rfl
@[simp] theorem exec_tempSample (d : Nat) (t0 t1 t2 t3 : BitVec 16) (s : State) : exec (.tempSample d t0 t1 t2 t3) s = execTempSample d t0 t1 t2 t3 s := rfl
@[simp] theorem exec_calRunGo (e d : Nat) (s : State) : exec (.calRunGo e d) s = execCalRunGo e d s := rfl
@[simp] theorem exec_calPiTimeout (d i : Nat) (s : State) : exec (.calPiTimeout d i) s = execCalPiTimeout d i s := rfl
@[simp] theorem exec_calRunEnd (d : Nat) (meas : List Byte) (s : State) : exec (.calRunEnd d meas) s = execCalRunEnd d meas s := rfl
@[simp] theorem exec_calInterpolate (d : Nat) (s : State) : exec (.calInterpolate d) s = execCalInterpolate d s := rfl
@[simp] theorem exec_calStoreEnd (d : Nat) (s : State) : exec (.calStoreEnd d) s = execCalStoreEnd d s := rfl
@[simp] theorem exec_nvsWrite (e d off width data : Nat) (s : State) : exec (.nvsWrite e d off width data) s = execNvsWrite e d off width data s := rfl
@[simp] theorem exec_nvsWordWriteDone (d : Nat) (s : State) : exec (.nvsWordWriteDone d) s = execNvsWordWriteDone d s := rfl
@[simp] theorem exec_nvsRead (e d off width : Nat) (s : State) : exec (.nvsRead e d off width) s = execNvsRead e d off width s := rfl
@[simp] theorem exec_perfCompareReached (d c amount : Nat) (s : State) : exec (.perfCompareReached d c amount) s = execPerfCompareReached d c amount s := rfl
@[simp] theorem exec_perfCounterWrap (d c amount : Nat) (s : State) : exec (.perfCounterWrap d c amount) s = execPerfCounterWrap d c amount s := rfl
@[simp] theorem exec_bwWindowEnd (d : Nat) (s : State) : exec (.bwWindowEnd d) s = execBwWindowEnd d s := rfl
@[simp] theorem exec_tagStageReport (d : Nat) (s : State) : exec (.tagStageReport d) s = execTagStageReport d s := rfl
@[simp] theorem exec_tagHeadRead (e d : Nat) (s : State) : exec (.tagHeadRead e d) s = execTagHeadRead e d s := rfl
@[simp] theorem exec_histLevelSample (d i : Nat) (s : State) : exec (.histLevelSample d i) s = execHistLevelSample d i s := rfl
@[simp] theorem exec_histClear (e d i : Nat) (hold : Bool) (s : State) : exec (.histClear e d i hold) s = execHistClear e d i hold s := rfl
@[simp] theorem exec_histHold (e d i : Nat) (hold : Bool) (s : State) : exec (.histHold e d i hold) s = execHistHold e d i hold s := rfl
@[simp] theorem exec_fvddLoss (d : Nat) (s : State) : exec (.fvddLoss d) s = execFvddLoss d s := rfl
@[simp] theorem exec_fvddRestore (d : Nat) (s : State) : exec (.fvddRestore d) s = execFvddRestore d s := rfl
@[simp] theorem exec_outputEdgeSchedule (d k : Nat) (s : State) : exec (.outputEdgeSchedule d k) s = execOutputEdgeSchedule d k s := rfl
@[simp] theorem exec_outputEdge (d k : Nat) (s : State) : exec (.outputEdge d k) s = execOutputEdge d k s := rfl
@[simp] theorem exec_outputPulseEnd (d k : Nat) (s : State) : exec (.outputPulseEnd d k) s = execOutputPulseEnd d k s := rfl
@[simp] theorem exec_triggerArm (e d k : Nat) (s : State) : exec (.triggerArm e d k) s = execTriggerArm e d k s := rfl
@[simp] theorem exec_thermAssert (d k : Nat) (s : State) : exec (.thermAssert d k) s = execThermAssert d k s := rfl
@[simp] theorem exec_thermRelease (s : State) : exec (.thermRelease) s = execThermRelease s := rfl
@[simp] theorem exec_clkoSupplyChange (low : Bool) (s : State) : exec (.clkoSupplyChange low) s = execClkoSupplyChange low s := rfl
@[simp] theorem exec_gnssClkRestored (s : State) : exec (.gnssClkRestored) s = execGnssClkRestored s := rfl
@[simp] theorem exec_channelPullInEnd (k cn0 : Nat) (elev : Int) (s : State) : exec (.channelPullInEnd k cn0 elev) s = execChannelPullInEnd k cn0 elev s := rfl
@[simp] theorem exec_channelSignalLost (k : Nat) (s : State) : exec (.channelSignalLost k) s = execChannelSignalLost k s := rfl
@[simp] theorem exec_ephemerisDecoded (k : Nat) (nav : NavMessage) (utc : Option (BitVec 8)) (s : State) : exec (.ephemerisDecoded k nav utc) s = execEphemerisDecoded k nav utc s := rfl

end Sys2Proof.Machine
end

