-- ==== Sys2Proof/Laws/Instr.lean ====
section
/-!
SUPPORT. From issue to completion: one lemma for the instructions that work on their engine alone, and one each for the
shapes built on it.
-/
namespace Sys2Proof.Machine

theorem State.calm_ready {s : State} {e : Nat} (h : s.calm e = true) : s.ready e = true := by
  unfold State.calm at h
  simp only [Bool.and_eq_true] at h
  exact h.1

theorem State.calm_held {s : State} {e : Nat} (h : s.calm e = true) : (s.eng e).held = [] := by
  unfold State.calm at h
  simp only [Bool.and_eq_true, beq_iff_eq] at h
  exact h.2

/-- What an instruction makes of its engine depends on no event line. -/
structure Still (F : Engine → Engine) : Prop where
  still : ∀ g g' : Engine, g.still = g'.still → (F g).still = (F g').still
  held : ∀ g, (F g).held = g.held
  pc : ∀ g, (F g).pc = g.pc

theorem Engine.still_ext {α : Type} {g g' : Engine} (h : g.still = g'.still) (p : Engine → α) (hp : ∀ g : Engine, p g.still = p g) :
    p g = p g' := by rw [← hp g, ← hp g', h]

/-- An instruction that works on its engine alone, on a calm engine. -/
theorem issue_completes {s : State} {e : Nat} (h : s.calm e = true) {F : Engine → Engine} (hF : Still F)
    {N : Engine → BitVec 16} (hN : ∀ g : Engine, N g.still = N g) :
    ∃ t, issue e s (fun s => .next ((s.setEng e (F (s.eng e))).completeTo e (N (s.eng e)))) = .next t ∧
      MonitorOnly (s.retired e (F (s.eng e)) (N (s.eng e))) t := by
  rw [issue_ready (State.calm_ready h)]
  have hu := s.tagIssue_monitor e (s.eng e).pc.toNat (s.eng e).word
  generalize s.tagIssue e (s.eng e).pc.toNat (s.eng e).word = u at hu ⊢
  refine ⟨_, rfl, ?_⟩
  have hs := hu.engs e
  have e1 : N (u.eng e) = N (s.eng e) := Engine.still_ext hs N hN
  rw [e1]
  refine State.retired_of hu (hF.still _ _ hs) ?_ ?_ _
  · rw [hF.held, Engine.still_ext hs (fun g => g.held) (fun _ => rfl)]
    exact State.calm_held h
  · rw [hF.pc]
    exact Engine.still_ext hs (fun g => g.pc) (fun _ => rfl)

/-- The same where execution goes on with the next word. -/
theorem issue_done {s : State} {e : Nat} (h : s.calm e = true) {F : Engine → Engine} (hF : Still F) :
    ∃ t, issue e s (fun s => .next (s.doneWith e (F (s.eng e)))) = .next t ∧
      MonitorOnly (s.retired e (F (s.eng e)) ((s.eng e).pc + 4)) t := by
  have h1 := issue_completes h hF (N := fun g => g.pc + 4) (fun _ => rfl)
  have h2 : (fun s : State => (.next (s.doneWith e (F (s.eng e))) : Out)) =
      fun s => .next ((s.setEng e (F (s.eng e))).completeTo e ((s.eng e).pc + 4)) := by
    funext u
    unfold State.doneWith State.complete
    rw [State.eng_setEng_self, hF.pc]
  rw [h2]
  exact h1

theorem Engine.wv_still (g : Engine) (r : Reg) (x : Word) : (g.wv r x).still = g.still.wv r x := by
  unfold Engine.wv; split <;> rfl
@[simp] theorem Engine.wv_held (g : Engine) (r : Reg) (x : Word) : (g.wv r x).held = g.held := by
  unfold Engine.wv; split <;> rfl
@[simp] theorem Engine.wv_pc (g : Engine) (r : Reg) (x : Word) : (g.wv r x).pc = g.pc := by
  unfold Engine.wv; split <;> rfl
@[simp] theorem Engine.wv_dmem (g : Engine) (r : Reg) (x : Word) : (g.wv r x).dmem = g.dmem := by
  unfold Engine.wv; split <;> rfl
@[simp] theorem Engine.wv_flags (g : Engine) (r : Reg) (x : Word) : (g.wv r x).flags = g.flags := by
  unfold Engine.wv; split <;> rfl
@[simp] theorem Engine.wv_t (g : Engine) (r : Reg) (x : Word) : (g.wv r x).t = g.t := by
  unfold Engine.wv; split <;> rfl

/-- Register r after a write: v0 stays zero, the register written reads the value, every other as before (R58). -/
theorem Engine.rv_wv (g : Engine) (r q : Reg) (x : Word) :
    (g.wv r x).rv q = if q = 0 then 0 else if r = q then x else g.rv q := by
  unfold Engine.wv Engine.rv
  by_cases hq : q = 0
  · simp [hq]
  · by_cases hr : r = 0
    · subst hr
      rw [if_pos rfl, if_neg hq, if_neg hq, if_neg (fun e => hq e.symm)]
    · simp only [hq, hr, if_false]
      rw [Store.get_put]
      by_cases h : r = q
      · simp [h]
      · have : ¬ r.toNat = q.toNat := fun e => h (BitVec.eq_of_toNat_eq e)
        simp [h, this]

theorem Engine.rt_wt (g : Engine) (r q : TReg) (x : XT) : (g.wt r x).rt q = if r = q then x else g.rt q := by
  unfold Engine.wt Engine.rt
  rw [Store.get_put]
  by_cases h : r = q
  · simp [h]
  · have : ¬ r.toNat = q.toNat := fun e => h (BitVec.eq_of_toNat_eq e)
    simp [h, this]

/-- A register result with flags. -/
theorem still_alu (rd : Reg) (r : Engine → Word) (f : Engine → Flags) (hr : ∀ g : Engine, r g.still = r g)
    (hf : ∀ g : Engine, f g.still = f g) : Still fun g => { g.wv rd (r g) with flags := f g } where
  still g g' h := by
    have h1 : ((g.wv rd (r g)).still : Engine) = (g'.wv rd (r g')).still := by
      rw [Engine.wv_still, Engine.wv_still, h, Engine.still_ext h r hr]
    have h2 := Engine.still_ext h f hf
    show { (g.wv rd (r g)).still with flags := f g } = { (g'.wv rd (r g')).still with flags := f g' }
    rw [h1, h2]
  held g := by simp
  pc g := by simp

/-- A register result without flags. -/
theorem still_wv (rd : Reg) (r : Engine → Word) (hr : ∀ g : Engine, r g.still = r g) : Still fun g => g.wv rd (r g) where
  still g g' h := by
    rw [Engine.wv_still, Engine.wv_still, h, Engine.still_ext h r hr]
  held g := by simp
  pc g := by simp

theorem alu_completes {s : State} {e : Nat} (h : s.calm e = true) (rd rs1 rs2 : Reg) (op : Word → Word → Word)
    (fl : Flags → Word → Word → Flags) :
    ∃ t, alu e rd rs1 rs2 op fl s = .next t ∧
      MonitorOnly (s.retired e { (s.eng e).wv rd (op ((s.eng e).rv rs1) ((s.eng e).rv rs2)) with
        flags := fl (s.eng e).flags ((s.eng e).rv rs1) ((s.eng e).rv rs2) } ((s.eng e).pc + 4)) t := by
  unfold alu
  have h1 := issue_done h (still_alu rd (fun g => op (g.rv rs1) (g.rv rs2)) (fun g => fl g.flags (g.rv rs1) (g.rv rs2))
    (fun _ => rfl) (fun _ => rfl))
  exact h1

theorem aluImm_completes {s : State} {e : Nat} (h : s.calm e = true) (rd rs1 : Reg) (b : Word) (op : Word → Word → Word)
    (fl : Flags → Word → Word → Flags) :
    ∃ t, aluImm e rd rs1 b op fl s = .next t ∧
      MonitorOnly (s.retired e { (s.eng e).wv rd (op ((s.eng e).rv rs1) b) with
        flags := fl (s.eng e).flags ((s.eng e).rv rs1) b } ((s.eng e).pc + 4)) t := by
  unfold aluImm
  have h1 := issue_done h (still_alu rd (fun g => op (g.rv rs1) b) (fun g => fl g.flags (g.rv rs1) b) (fun _ => rfl)
    (fun _ => rfl))
  exact h1

theorem aluMove_completes {s : State} {e : Nat} (h : s.calm e = true) (rd : Reg) (val : Word → Word) :
    ∃ t, aluMove e rd val s = .next t ∧
      MonitorOnly (s.retired e ((s.eng e).wv rd (val ((s.eng e).rv rd))) ((s.eng e).pc + 4)) t := by
  unfold aluMove
  have h1 := issue_done h (still_wv rd (fun g => val (g.rv rd)) (fun _ => rfl))
  exact h1

end Sys2Proof.Machine
end

