-- ==== Sys2Proof/Laws/Rom.lean ====
section
/-!
SUPPORT. What a tick leaves alone of the ROM-resident programs' state, by definition, and what it leaves alone of
engines' programs where none of those runs.
-/
namespace Sys2Proof.Machine

theorem rom_foldl {α : Type} (l : List α) (f : State → α → State) (h : ∀ s x, (f s x).rom = s.rom) (s : State) :
    (l.foldl f s).rom = s.rom := by
  induction l generalizing s with
  | nil => rfl
  | cons x r ih => rw [List.foldl_cons, ih, h]
@[simp] theorem rom_ite (c : Prop) [Decidable c] (a b : State) :
    (if c then a else b).rom = if c then a.rom else b.rom := by split <;> rfl
@[simp] theorem rom_snd_ite {α : Type} (c : Prop) [Decidable c] (a b : α × State) :
    (if c then a else b).2.rom = if c then a.2.rom else b.2.rom := by split <;> rfl
@[simp] theorem State.setFlag_rom (s : State) (f : Fld) (die inst : Nat) :
    (State.setFlag s f die inst).rom = s.rom := by
  unfold State.setFlag; simp
@[simp] theorem State.putFlag_rom (s : State) (f : Fld) (die inst : Nat) (b : Bool) :
    (State.putFlag s f die inst b).rom = s.rom := by
  unfold State.putFlag; simp
@[simp] theorem State.addSat_rom (s : State) (f : Fld) (die inst n : Nat) :
    (State.addSat s f die inst n).rom = s.rom := by
  unfold State.addSat; simp
@[simp] theorem State.addWrap_rom (s : State) (f : Fld) (die inst n : Nat) :
    (State.addWrap s f die inst n).rom = s.rom := by
  unfold State.addWrap; simp
@[simp] theorem State.wfRaise_rom (s : State) (f : Fld) (die inst v ev : Nat) :
    (State.wfRaise s f die inst v ev).rom = s.rom := by
  unfold State.wfRaise; simp
@[simp] theorem State.draw_rom (s : State) :
    (State.draw s).2.rom = s.rom := by
  unfold State.draw; simp
@[simp] theorem State.quot_rom (s : State) (num den : Int) :
    (State.quot s num den).2.rom = s.rom := by
  unfold State.quot; simp
@[simp] theorem State.setPerf_rom (s : State) (d : Nat) (p : PerfState) :
    (State.setPerf s d p).rom = s.rom := by
  unfold State.setPerf; simp
@[simp] theorem State.perfAdd_rom (s : State) (d c amount : Nat) :
    (State.perfAdd s d c amount).rom = s.rom := by
  unfold State.perfAdd; simp
@[simp] theorem State.perfEvent_rom (s : State) (d src idx weight : Nat) :
    (State.perfEvent s d src idx weight).rom = s.rom := by
  unfold State.perfEvent; split
  · exact rom_foldl _ _ (fun u c => by split <;> simp) s
  · rfl
@[simp] theorem State.histTake_rom (s : State) (d i : Nat) (x0 : Int) :
    (State.histTake s d i x0).rom = s.rom := by
  unfold State.histTake; simp
@[simp] theorem State.histSample_rom (s : State) (d i : Nat) (x : Int) :
    (State.histSample s d i x).rom = s.rom := by
  unfold State.histSample; simp
@[simp] theorem State.histFeed_rom (s : State) (d src idx : Nat) (x : Int) :
    (State.histFeed s d src idx x).rom = s.rom := by
  unfold State.histFeed; simp [rom_foldl]
@[simp] theorem State.perfCycles_rom (s : State) (d n : Nat) :
    (State.perfCycles s d n).rom = s.rom := by
  unfold State.perfCycles; simp [rom_foldl]
@[simp] theorem State.refreshPort_rom (s : State) (p : Nat) :
    (State.refreshPort s p).rom = s.rom := by
  unfold State.refreshPort; simp
@[simp] theorem State.refreshTg_rom (s : State) (d : Nat) :
    (State.refreshTg s d).rom = s.rom := by
  unfold State.refreshTg
  dsimp only
  split
  · rfl
  · rw [rom_foldl _ _ (fun s i => s.refreshPort_rom _), rom_foldl _ _ (fun s k => State.wf_rom s _ _ _ _)]
    simp
@[simp] theorem State.refreshLane_rom (s : State) (lane : Nat) :
    (State.refreshLane s lane).rom = s.rom := by
  unfold State.refreshLane; simp
@[simp] theorem State.setOpen_rom (s : State) (ch : Nat) (o : Option EvOpen) :
    (State.setOpen s ch o).rom = s.rom := by
  unfold State.setOpen; simp
@[simp] theorem State.gateSample_rom (s : State) (ch : Nat) :
    (State.gateSample s ch).rom = s.rom := by
  unfold State.gateSample; simp
@[simp] theorem State.evStore_rom (s : State) (ch : Nat) (r : EvRecord) :
    (State.evStore s ch r).rom = s.rom := by
  unfold State.evStore; dsimp only; (repeat' split) <;> simp
@[simp] theorem State.evClose_rom (s : State) (ch : Nat) (o : EvOpen) (r : EvRecord) :
    (State.evClose s ch o r).rom = s.rom := by
  unfold State.evClose; simp
@[simp] theorem State.evOpenGated_rom (s : State) (ch : Nat) (a : EvEdge) :
    (State.evOpenGated s ch a).rom = s.rom := by
  unfold State.evOpenGated; simp
@[simp] theorem State.evGatedEnd_rom (s : State) (ch : Nat) (o : EvOpen) (r : EvRecord) :
    (State.evGatedEnd s ch o r).rom = s.rom := by
  unfold State.evGatedEnd; dsimp only; (repeat' split) <;> simp
@[simp] theorem State.evExpire_rom (s : State) (ch : Nat) (o : EvOpen) :
    (State.evExpire s ch o).rom = s.rom := by
  unfold State.evExpire; dsimp only; split <;> simp
@[simp] theorem State.evOverdue_rom (s : State) (ch t : Nat) :
    (State.evOverdue s ch t).rom = s.rom := by
  unfold State.evOverdue; (repeat' split) <;> simp
@[simp] theorem State.evDisarmed_rom (s : State) (ch t : Nat) (o : EvOpen) :
    (State.evDisarmed s ch t o).rom = s.rom := by
  unfold State.evDisarmed; dsimp only; (repeat' split) <;> simp
@[simp] theorem State.evTick_rom (s : State) (ch : Nat) :
    (State.evTick s ch).rom = s.rom := by
  unfold State.evTick; dsimp only; (repeat' split) <;> simp
@[simp] theorem State.setFreq_rom (s : State) (d : Nat) (x : Int) :
    (State.setFreq s d x).rom = s.rom := by
  unfold State.setFreq; simp
@[simp] theorem State.holdMean_rom (s : State) (d : Nat) :
    (State.holdMean s d).rom = s.rom := by
  unfold State.holdMean; simp
@[simp] theorem State.deltaDue_rom (s : State) (d : Nat) :
    (State.deltaDue s d).rom = s.rom := by
  unfold State.deltaDue; simp
@[simp] theorem State.laneBypass_rom (s : State) (d : Nat) :
    (State.laneBypass s d).rom = s.rom := by
  unfold State.laneBypass; simp [rom_foldl]
@[simp] theorem State.rampAbort_rom (s : State) :
    (State.rampAbort s).rom = s.rom := by
  unfold State.rampAbort; simp
@[simp] theorem State.enterMode_rom (s : State) (d m : Nat) (handover : Bool) :
    (State.enterMode s d m handover).rom = s.rom := by
  unfold State.enterMode; simp [rom_foldl]
@[simp] theorem State.sourceLost_rom (s : State) (d : Nat) :
    (State.sourceLost s d).rom = s.rom := by
  unfold State.sourceLost; simp
@[simp] theorem State.deltaBack_rom (s : State) (l : List DeltaMark) :
    (State.deltaBack s l).rom = s.rom :=
  rom_foldl _ _ (fun u m => by simp) s
@[simp] theorem State.lossDecides_rom (s : State) (d : Nat) (x : LockLoss) :
    (State.lossDecides s d x).rom = s.rom := by
  unfold State.lossDecides; dsimp only; (repeat' split) <;> simp
@[simp] theorem State.slewTick_rom (s : State) (d : Nat) :
    (State.slewTick s d).rom = s.rom := by
  unfold State.slewTick; dsimp only; split <;> simp
@[simp] theorem State.sourceAct_rom (s : State) (d : Nat) :
    (State.sourceAct s d).rom = s.rom := by
  unfold State.sourceAct; dsimp only; (repeat' split) <;> simp
@[simp] theorem State.steerToward_rom (s : State) :
    (State.steerToward s).rom = s.rom := by
  unfold State.steerToward; simp
@[simp] theorem State.steerTick_rom (s : State) :
    (State.steerTick s).rom = s.rom := by
  unfold State.steerTick; dsimp only; (repeat' split) <;> simp
@[simp] theorem State.pllTick_rom (s : State) :
    (State.pllTick s).rom = s.rom := by
  unfold State.pllTick
  dsimp only
  rw [State.steerTick_rom, rom_foldl _ _ (fun u d => by split <;> simp),
    rom_foldl _ _ (fun u d => by split <;> simp)]
@[simp] theorem State.idleTick_rom (s : State) (p : Nat) :
    (State.idleTick s p).rom = s.rom := by
  unfold State.idleTick; simp
@[simp] theorem State.issueCycles_rom (s : State) (d n : Nat) : (State.issueCycles s d n).rom = s.rom := by
  unfold State.issueCycles
  exact rom_foldl _ _ (fun u k => by dsimp only; split <;> simp) s
@[simp] theorem State.cycleTick_rom (s : State) (d : Nat) :
    (State.cycleTick s d).rom = s.rom := by
  unfold State.cycleTick; simp
@[simp] theorem State.setFifo_rom (s : State) (d i : Nat) (l : List StgCell) :
    (State.setFifo s d i l).rom = s.rom := by
  unfold State.setFifo; split <;> rfl
@[simp] theorem State.stgDrop_rom (s : State) (d : Nat) (l : List Nat) :
    (State.stgDrop s d l).rom = s.rom :=
  rom_foldl _ _ (fun u k => by simp) s
@[simp] theorem State.tagStore_rom (s : State) (d : Nat) (t : TagItem) (n : Nat) :
    (State.tagStore s d t n).rom = s.rom := by
  unfold State.tagStore; dsimp only; split <;> simp
@[simp] theorem State.tagReport_rom (s : State) (d g T : Nat) (u : TagItem) (done dropped : Bool) :
    (State.tagReport s d g T u done dropped).rom = s.rom := by
  unfold State.tagReport; dsimp only; (repeat' split) <;> simp
@[simp] theorem State.tagTell_rom (s : State) (d : Nat) (m : FrameMeta) (g : Nat) (u : TagItem) (done dropped : Bool) :
    (State.tagTell s d m g u done dropped).rom = s.rom := by
  unfold State.tagTell; dsimp only; (repeat' split) <;> simp
@[simp] theorem State.frameLost_rom (s : State) (d : Nat) (m : FrameMeta) :
    (State.frameLost s d m).rom = s.rom := by
  unfold State.frameLost; simp
@[simp] theorem State.stage_rom (s : State) (d i : Nat) (r : RxFrameCur) (last bad : Bool) :
    (State.stage s d i r last bad).1.rom = s.rom := by
  unfold State.stage; dsimp only; (repeat' split) <;> simp
@[simp] theorem State.injFill_rom (s : State) (d n : Nat) : (State.injFill s d n).rom = s.rom := by
  induction n generalizing s with
  | zero => rfl
  | succ n ih =>
    unfold State.injFill
    dsimp only
    (repeat' split) <;> simp [ih]
@[simp] theorem State.dieTick_rom (s : State) (d : Nat) :
    (State.dieTick s d).rom = s.rom := by
  unfold State.dieTick; simp [rom_foldl]

/-- With no ROM-resident program running, a tick changes no program's state. -/
theorem cores_idle {s : State} (h : s.rom.progs = []) : s.idle.cores = s.cores := by
  unfold State.idle
  split
  · rfl
  · rw [cores_romTick (by rw [State.pllTick_rom, rom_foldl _ _ (fun s d => s.dieTick_rom d)]; exact h), cores_pllTick,
      cores_foldl _ _ (fun s d => cores_dieTick s d)]

end Sys2Proof.Machine
end

