-- ==== Sys2Proof/Laws/Vault.lean ====
section
/-!
SUPPORT. Lemmas on the part of the state that few commands reach (`State.vault`): the notion `Seals` of a command that leaves it alone, with the lemmas that the files Laws/Vault*.lean use.
-/
namespace Sys2Proof.Machine

/-- The outcome, where it is a next state, has the vault of `s`. -/
def Seals (s : State) (o : Out) : Prop := ∀ t, o = .next t → t.vault = s.vault

@[simp] theorem vault_mk (s : State) (secNvs engs regs inForce stopAt own hosts nvs cals ridges plls ports dies cells
    nextFrame l2 l2Order tbls tblOrders lanes links saddles summit gnss evts outs rom msgs lastFn free) :
    State.vault ⟨s.part, s.pins, s.resets, s.otp, secNvs, s.sec, engs, regs, inForce, stopAt, own, hosts, nvs, cals, ridges,
      plls, ports, dies, cells, nextFrame, l2, l2Order, tbls, tblOrders, lanes, links, saddles, summit, gnss, evts, outs,
      s.therm, rom, msgs, lastFn, free, s.pending⟩ = s.vault := rfl
@[simp] theorem vault_mk_sec (s : State) (secNvs engs regs inForce stopAt own hosts nvs cals ridges plls ports dies cells
    nextFrame l2 l2Order tbls tblOrders lanes links saddles summit gnss evts outs rom msgs lastFn free)
    (phase tap nonce hold dbgHalted dbgStep staging spiWin spiWaiting spiActive sigQueue) :
    State.vault ⟨s.part, s.pins, s.resets, s.otp, secNvs,
      ⟨phase, tap, nonce, hold, dbgHalted, dbgStep, staging, spiWin, spiWaiting, spiActive, s.sec.key, s.sec.rollTo, sigQueue⟩,
      engs, regs, inForce, stopAt, own, hosts, nvs, cals, ridges,
      plls, ports, dies, cells, nextFrame, l2, l2Order, tbls, tblOrders, lanes, links, saddles, summit, gnss, evts, outs,
      s.therm, rom, msgs, lastFn, free, s.pending⟩ = s.vault := rfl
@[simp] theorem vault_ite (c : Prop) [Decidable c] (a b : State) :
    (if c then a else b).vault = if c then a.vault else b.vault := by split <;> rfl
@[simp] theorem vault_fst_ite {α : Type} (c : Prop) [Decidable c] (a b : State × α) :
    (if c then a else b).1.vault = if c then a.1.vault else b.1.vault := by split <;> rfl
@[simp] theorem vault_snd_ite {α : Type} (c : Prop) [Decidable c] (a b : α × State) :
    (if c then a else b).2.vault = if c then a.2.vault else b.2.vault := by split <;> rfl
@[simp] theorem seals_next (s t : State) : Seals s (.next t) ↔ t.vault = s.vault :=
  ⟨fun h => h t rfl, fun h u e => by cases e; exact h⟩
@[simp] theorem seals_fault (s : State) (f : Fault) : Seals s (.fault f) := fun _ e => by cases e
@[simp] theorem seals_ite (s : State) (c : Prop) [Decidable c] (a b : Out) :
    Seals s (if c then a else b) ↔ if c then Seals s a else Seals s b := by split <;> rfl
@[simp] theorem vault_foldl {α : Type} (l : List α) (f : State → α → State) (h : ∀ s x, (f s x).vault = s.vault) (s : State) :
    (l.foldl f s).vault = s.vault := by
  induction l generalizing s with
  | nil => rfl
  | cons x r ih => rw [List.foldl_cons, ih, h]
@[simp] theorem vault_foldl_fst {α β : Type} (l : List α) (f : State × β → α → State × β)
    (h : ∀ p x, (f p x).1.vault = p.1.vault) (p : State × β) : (l.foldl f p).1.vault = p.1.vault := by
  induction l generalizing p with
  | nil => rfl
  | cons x r ih => rw [List.foldl_cons, ih, h]
theorem Seals.trans {s t : State} {o : Out} (h : Seals t o) (e : t.vault = s.vault) : Seals s o :=
  fun u hu => (h u hu).trans e
end Sys2Proof.Machine
end

