-- ==== Sys2Proof/Laws/VaultEngine.lean ====
section
/-!
SUPPORT. What leaves `State.vault` alone, by definition: engine instructions, accesses and monitoring.
-/
namespace Sys2Proof.Machine

/-! ## Machine/Ops.lean -/

@[simp] theorem vault_wf (s : State) (f : Fld) (die : Nat) (inst : Nat) (v : Nat) :
    (State.wf s f die inst v).vault = s.vault := by
  unfold State.wf; simp
@[simp] theorem vault_wfF (s : State) (f : Fld) (die : Nat) (inst : Nat) (v : Nat) :
    (State.wfF s f die inst v).vault = s.vault := by
  unfold State.wfF; simp
@[simp] theorem vault_setFlag (s : State) (f : Fld) (die : Nat) (inst : Nat) :
    (State.setFlag s f die inst).vault = s.vault := by
  unfold State.setFlag; simp
@[simp] theorem vault_putFlag (s : State) (f : Fld) (die : Nat) (inst : Nat) (b : Bool) :
    (State.putFlag s f die inst b).vault = s.vault := by
  unfold State.putFlag; simp
@[simp] theorem vault_addSat (s : State) (f : Fld) (die : Nat) (inst : Nat) (n : Nat) :
    (State.addSat s f die inst n).vault = s.vault := by
  unfold State.addSat; simp
@[simp] theorem vault_addWrap (s : State) (f : Fld) (die : Nat) (inst : Nat) (n : Nat) :
    (State.addWrap s f die inst n).vault = s.vault := by
  unfold State.addWrap; simp
@[simp] theorem vault_takeEffect (s : State) (die : Nat) (blk : Nat) (inst : Nat) :
    (State.takeEffect s die blk inst).vault = s.vault := by
  unfold State.takeEffect; simp
@[simp] theorem vault_setEng (s : State) (e : Nat) (g : Engine) :
    (State.setEng s e g).vault = s.vault := by
  unfold State.setEng; simp
@[simp] theorem vault_setLine (s : State) (e : Nat) (line : Nat) :
    (State.setLine s e line).vault = s.vault := by
  unfold State.setLine; simp
@[simp] theorem vault_post (s : State) (src : Nat) (dst : Nat) (b : CtlBody) :
    (State.post s src dst b).vault = s.vault := by
  unfold State.post; simp
@[simp] theorem vault_driveQuiet (s : State) (die : Nat) (t : Nat × Nat) :
    (State.driveQuiet s die t).vault = s.vault := by
  unfold State.driveQuiet; simp
theorem vault_loseFrom (a n : Nat) (todo seen : List Nat) (s : State) :
    (State.loseFrom a n todo seen s).vault = s.vault := by
  induction n generalizing todo seen s with
  | zero => rfl
  | succ n ih =>
    cases todo with
    | nil => rfl
    | cons b r =>
      refine (ih _ _ _).trans ?_
      rw [vault_foldl _ _ (fun s t => vault_driveQuiet s a t)]
      simp
@[simp] theorem vault_eventLost (s : State) (a : Nat) (b : Nat) :
    (State.eventLost s a b).vault = s.vault := by unfold State.eventLost; exact vault_loseFrom _ _ _ _ _
@[simp] theorem vault_drive (s : State) (die : Nat) (t : Nat × Nat) :
    (State.drive s die t).vault = s.vault := by
  unfold State.drive; simp
@[simp] theorem vault_raise (s : State) (die : Nat) (blk : Nat) (inst : Nat) (ev : Nat) :
    (State.raise s die blk inst ev).vault = s.vault := by
  unfold State.raise; simp
@[simp] theorem vault_wfRaise (s : State) (f : Fld) (die : Nat) (inst : Nat) (v : Nat) (ev : Nat) :
    (State.wfRaise s f die inst v ev).vault = s.vault := by
  unfold State.wfRaise; simp
@[simp] theorem vault_setPort (s : State) (p : Nat) (x : PortState) :
    (State.setPort s p x).vault = s.vault := by
  unfold State.setPort; simp
@[simp] theorem vault_setDie (s : State) (d : Nat) (x : DieState) :
    (State.setDie s d x).vault = s.vault := by
  unfold State.setDie; simp
@[simp] theorem vault_setRidge (s : State) (d : Nat) (r : RidgeState) :
    (State.setRidge s d r).vault = s.vault := by
  unfold State.setRidge; simp
@[simp] theorem vault_setPerf (s : State) (d : Nat) (p : PerfState) :
    (State.setPerf s d p).vault = s.vault := by
  unfold State.setPerf; simp
@[simp] theorem vault_perfAdd (s : State) (d : Nat) (c : Nat) (amount : Nat) :
    (State.perfAdd s d c amount).vault = s.vault := by
  unfold State.perfAdd; simp
@[simp] theorem vault_perfEvent (s : State) (d : Nat) (src : Nat) (idx : Nat) (weight : Nat) :
    (State.perfEvent s d src idx weight).vault = s.vault := by
  unfold State.perfEvent; simp
@[simp] theorem vault_tagStore (s : State) (d : Nat) (t : TagItem) (cycles : Nat) :
    (State.tagStore s d t cycles).vault = s.vault := by
  unfold State.tagStore; simp
@[simp] theorem vault_issues (s : State) (e : Nat) : (State.issues s e).vault = s.vault := by
  unfold State.issues; dsimp only; split <;> simp
@[simp] theorem vault_tagIssue (s : State) (e : Nat) (pc : Nat) (word : Nat) :
    (State.tagIssue s e pc word).vault = s.vault := by
  unfold State.tagIssue; simp
@[simp] theorem vault_tagAccess (s : State) (e : Nat) (stage : Nat) (remote : Bool) :
    (State.tagAccess s e stage remote).vault = s.vault := by
  unfold State.tagAccess; dsimp only; (repeat' split) <;> simp
@[simp] theorem vault_tagTarget (s : State) (e : Nat) (d : Nat) (answered : Bool) :
    (State.tagTarget s e d answered).vault = s.vault := by
  unfold State.tagTarget; dsimp only; (repeat' split) <;> simp
@[simp] theorem vault_tagRetire (s : State) (e : Nat) (dropped : Bool) :
    (State.tagRetire s e dropped).vault = s.vault := by
  unfold State.tagRetire; dsimp only; (repeat' split) <;> simp
@[simp] theorem vault_setHost (s : State) (h : Nat) (x : HostEp) :
    (State.setHost s h x).vault = s.vault := by
  unfold State.setHost; simp
@[simp] theorem vault_vector (s : State) (h : Nat) (v : Nat) :
    (State.vector s h v).vault = s.vault := by
  unfold State.vector; simp
@[simp] theorem vault_irq (s : State) (h : Nat) (f : Fld) :
    (State.irq s h f).vault = s.vault := by
  unfold State.irq; simp
@[simp] theorem vault_setRun (s : State) (die : Nat) (blk : Nat) (inst : Nat) (st : Nat) :
    (State.setRun s die blk inst st).vault = s.vault := by
  unfold State.setRun; (repeat' split) <;> simp
@[simp] theorem vault_recordFault (s : State) (die : Nat) (blk : Nat) (inst : Nat) (code : Nat) :
    (State.recordFault s die blk inst code).vault = s.vault := by
  unfold State.recordFault; simp
@[simp] theorem vault_lastPc (s : State) (e : Nat) (pc : BitVec 16) :
    (State.lastPc s e pc).vault = s.vault := by
  unfold State.lastPc; simp
@[simp] theorem vault_trapCause (s : State) (e : Nat) (cause : Nat) :
    (State.trapCause s e cause).vault = s.vault := by
  unfold State.trapCause; simp
@[simp] theorem vault_dropHeld (s : State) (e : Nat) :
    (State.dropHeld s e).vault = s.vault := by
  unfold State.dropHeld; dsimp only; (repeat' split) <;> simp
@[simp] theorem vault_engFault (s : State) (e : Nat) (code : Nat) :
    (State.engFault s e code).vault = s.vault := by
  unfold State.engFault; simp
@[simp] theorem vault_trapAt (s : State) (e : Nat) (cause : Nat) :
    (State.trapAt s e cause).vault = s.vault := by
  unfold State.trapAt; simp
@[simp] theorem vault_setPv (s : State) (e : Nat) :
    (State.setPv s e).vault = s.vault := by
  unfold State.setPv; simp
@[simp] theorem vault_failAt (s : State) (e : Nat) (cause : Nat) :
    (State.failAt s e cause).vault = s.vault := by
  unfold State.failAt; simp
@[simp] theorem vault_takeHeld (s : State) (e : Nat) (h : HeldTrap) :
    (State.takeHeld s e h).vault = s.vault := by
  unfold State.takeHeld; simp
@[simp] theorem vault_boundary (s : State) (e : Nat) (wasInRegion : Bool) :
    (State.boundary s e wasInRegion).vault = s.vault := by
  unfold State.boundary; dsimp only; (repeat' split) <;> simp
@[simp] theorem vault_completeTo (s : State) (e : Nat) (next : BitVec 16) :
    (State.completeTo s e next).vault = s.vault := by
  unfold State.completeTo; simp
@[simp] theorem vault_complete (s : State) (e : Nat) :
    (State.complete s e).vault = s.vault := by
  unfold State.complete; simp
@[simp] theorem vault_doneWith (s : State) (e : Nat) (g : Engine) :
    (State.doneWith s e g).vault = s.vault := by
  unfold State.doneWith; simp
@[simp] theorem vault_dmemTouch (s : State) (e : Nat) (a : Nat) (n : Nat) :
    (State.dmemTouch s e a n).vault = s.vault := by
  unfold State.dmemTouch; simp
@[simp] theorem vault_dmemPart (s : State) (e : Nat) (a : Nat) (n : Nat) :
    (State.dmemPart s e a n).vault = s.vault := by
  unfold State.dmemPart; simp
@[simp] theorem vault_stepUsed (s : State) (e : Nat) :
    (State.stepUsed s e).vault = s.vault := by
  unfold State.stepUsed; simp
@[simp] theorem vault_draw (s : State) :
    (State.draw s).2.vault = s.vault := by
  unfold State.draw; simp
@[simp] theorem vault_quot (s : State) (num : Int) (den : Int) :
    (State.quot s num den).2.vault = s.vault := by
  unfold State.quot; simp
@[simp] theorem vault_fit (s : State) (w : Nat) (x : Int) :
    (State.fit s w x).2.vault = s.vault := by
  unfold State.fit; simp

@[simp] theorem seals_issueQuiet {e : Nat} {s : State} {f : State → Out} (h : ∀ u, Seals u (f u)) :
    Seals s (issueQuiet e s f) := by
  unfold issueQuiet
  simp only [seals_ite, seals_fault, seals_next]
  split
  · trivial
  · split
    · trivial
    · split
      · exact (h _).trans (by simp)
      · exact (h _).trans (by simp)
      · simp

@[simp] theorem seals_issue {e : Nat} {s : State} {f : State → Out} (h : ∀ u, Seals u (f u)) :
    Seals s (issue e s f) := seals_issueQuiet fun u => (h _).trans (by simp)

/-! ## Machine/Alu.lean -/

@[simp] theorem vault_alu (e : Nat) (rd : Reg) (rs1 : Reg) (rs2 : Reg) (op : Word → Word → Word) (fl : Flags → Word → Word → Flags) (s : State) :
    Seals s (alu e rd rs1 rs2 op fl s) := by
  unfold alu; simp
@[simp] theorem vault_aluImm (e : Nat) (rd : Reg) (rs1 : Reg) (b : Word) (op : Word → Word → Word) (fl : Flags → Word → Word → Flags) (s : State) :
    Seals s (aluImm e rd rs1 b op fl s) := by
  unfold aluImm; simp
@[simp] theorem vault_aluMove (e : Nat) (rd : Reg) (val : Word → Word) (s : State) :
    Seals s (aluMove e rd val s) := by
  unfold aluMove; simp
@[simp] theorem vault_execNop (e : Nat) (s : State) :
    Seals s (execNop e s) := by
  unfold execNop; simp
@[simp] theorem vault_execAdd (e : Nat) (rd : Reg) (rs1 : Reg) (rs2 : Reg) (s : State) :
    Seals s (execAdd e rd rs1 rs2 s) := by
  unfold execAdd; simp
@[simp] theorem vault_execSub (e : Nat) (rd : Reg) (rs1 : Reg) (rs2 : Reg) (s : State) :
    Seals s (execSub e rd rs1 rs2 s) := by
  unfold execSub; simp
@[simp] theorem vault_execAnd (e : Nat) (rd : Reg) (rs1 : Reg) (rs2 : Reg) (s : State) :
    Seals s (execAnd e rd rs1 rs2 s) := by
  unfold execAnd; simp
@[simp] theorem vault_execOr (e : Nat) (rd : Reg) (rs1 : Reg) (rs2 : Reg) (s : State) :
    Seals s (execOr e rd rs1 rs2 s) := by
  unfold execOr; simp
@[simp] theorem vault_execXor (e : Nat) (rd : Reg) (rs1 : Reg) (rs2 : Reg) (s : State) :
    Seals s (execXor e rd rs1 rs2 s) := by
  unfold execXor; simp
@[simp] theorem vault_execSll (e : Nat) (rd : Reg) (rs1 : Reg) (rs2 : Reg) (s : State) :
    Seals s (execSll e rd rs1 rs2 s) := by
  unfold execSll; simp
@[simp] theorem vault_execSrl (e : Nat) (rd : Reg) (rs1 : Reg) (rs2 : Reg) (s : State) :
    Seals s (execSrl e rd rs1 rs2 s) := by
  unfold execSrl; simp
@[simp] theorem vault_execSra (e : Nat) (rd : Reg) (rs1 : Reg) (rs2 : Reg) (s : State) :
    Seals s (execSra e rd rs1 rs2 s) := by
  unfold execSra; simp
@[simp] theorem vault_execMul (e : Nat) (rd : Reg) (rs1 : Reg) (rs2 : Reg) (s : State) :
    Seals s (execMul e rd rs1 rs2 s) := by
  unfold execMul; simp
@[simp] theorem vault_execMulhu (e : Nat) (rd : Reg) (rs1 : Reg) (rs2 : Reg) (s : State) :
    Seals s (execMulhu e rd rs1 rs2 s) := by
  unfold execMulhu; simp
@[simp] theorem vault_execMulhs (e : Nat) (rd : Reg) (rs1 : Reg) (rs2 : Reg) (s : State) :
    Seals s (execMulhs e rd rs1 rs2 s) := by
  unfold execMulhs; simp
@[simp] theorem vault_execDivu (e : Nat) (rd : Reg) (rs1 : Reg) (rs2 : Reg) (s : State) :
    Seals s (execDivu e rd rs1 rs2 s) := by
  unfold execDivu; simp
@[simp] theorem vault_execRemu (e : Nat) (rd : Reg) (rs1 : Reg) (rs2 : Reg) (s : State) :
    Seals s (execRemu e rd rs1 rs2 s) := by
  unfold execRemu; simp
@[simp] theorem vault_execClz (e : Nat) (rd : Reg) (rs1 : Reg) (s : State) :
    Seals s (execClz e rd rs1 s) := by
  unfold execClz; simp
@[simp] theorem vault_execPopc (e : Nat) (rd : Reg) (rs1 : Reg) (s : State) :
    Seals s (execPopc e rd rs1 s) := by
  unfold execPopc; simp
@[simp] theorem vault_execAddi (e : Nat) (rd : Reg) (rs1 : Reg) (imm : Imm16) (s : State) :
    Seals s (execAddi e rd rs1 imm s) := by
  unfold execAddi; simp
@[simp] theorem vault_execAndi (e : Nat) (rd : Reg) (rs1 : Reg) (imm : Imm16) (s : State) :
    Seals s (execAndi e rd rs1 imm s) := by
  unfold execAndi; simp
@[simp] theorem vault_execOri (e : Nat) (rd : Reg) (rs1 : Reg) (imm : Imm16) (s : State) :
    Seals s (execOri e rd rs1 imm s) := by
  unfold execOri; simp
@[simp] theorem vault_execXori (e : Nat) (rd : Reg) (rs1 : Reg) (imm : Imm16) (s : State) :
    Seals s (execXori e rd rs1 imm s) := by
  unfold execXori; simp
@[simp] theorem vault_execShi (e : Nat) (rd : Reg) (rs1 : Reg) (op : ShiftOp) (sh : BitVec 6) (s : State) :
    Seals s (execShi e rd rs1 op sh s) := by
  unfold execShi; simp
@[simp] theorem vault_execCmpi (e : Nat) (rs1 : Reg) (imm : Imm16) (s : State) :
    Seals s (execCmpi e rs1 imm s) := by
  unfold execCmpi; simp
@[simp] theorem vault_execMovz (e : Nat) (rd : Reg) (imm : Imm16) (k : BitVec 2) (s : State) :
    Seals s (execMovz e rd imm k s) := by
  unfold execMovz; simp
@[simp] theorem vault_execMovk (e : Nat) (rd : Reg) (imm : Imm16) (k : BitVec 2) (s : State) :
    Seals s (execMovk e rd imm k s) := by
  unfold execMovk; simp

/-! ## Machine/Mem.lean -/

@[simp] theorem vault_loadFrom (e : Nat) (rs1 : Reg) (imm : Imm16) (n : Nat) (put : Engine → Nat → Engine) (s : State) :
    Seals s (loadFrom e rs1 imm n put s) := by
  unfold loadFrom; refine seals_issue fun u => ?_; dsimp only; (repeat' split) <;> simp
@[simp] theorem vault_storeTo (e : Nat) (rs1 : Reg) (imm : Imm16) (n : Nat) (val : Engine → Nat) (s : State) :
    Seals s (storeTo e rs1 imm n val s) := by
  unfold storeTo; refine seals_issue fun u => ?_; dsimp only; (repeat' split) <;> simp
@[simp] theorem vault_execLd8u (e : Nat) (rd : Reg) (rs1 : Reg) (imm : Imm16) (s : State) :
    Seals s (execLd8u e rd rs1 imm s) := by
  unfold execLd8u; simp
@[simp] theorem vault_execLd16u (e : Nat) (rd : Reg) (rs1 : Reg) (imm : Imm16) (s : State) :
    Seals s (execLd16u e rd rs1 imm s) := by
  unfold execLd16u; simp
@[simp] theorem vault_execLd32u (e : Nat) (rd : Reg) (rs1 : Reg) (imm : Imm16) (s : State) :
    Seals s (execLd32u e rd rs1 imm s) := by
  unfold execLd32u; simp
@[simp] theorem vault_execLd64 (e : Nat) (rd : Reg) (rs1 : Reg) (imm : Imm16) (s : State) :
    Seals s (execLd64 e rd rs1 imm s) := by
  unfold execLd64; simp
@[simp] theorem vault_execLd8s (e : Nat) (rd : Reg) (rs1 : Reg) (imm : Imm16) (s : State) :
    Seals s (execLd8s e rd rs1 imm s) := by
  unfold execLd8s; simp
@[simp] theorem vault_execLd16s (e : Nat) (rd : Reg) (rs1 : Reg) (imm : Imm16) (s : State) :
    Seals s (execLd16s e rd rs1 imm s) := by
  unfold execLd16s; simp
@[simp] theorem vault_execLd32s (e : Nat) (rd : Reg) (rs1 : Reg) (imm : Imm16) (s : State) :
    Seals s (execLd32s e rd rs1 imm s) := by
  unfold execLd32s; simp
@[simp] theorem vault_execSt8 (e : Nat) (rd : Reg) (rs1 : Reg) (imm : Imm16) (s : State) :
    Seals s (execSt8 e rd rs1 imm s) := by
  unfold execSt8; simp
@[simp] theorem vault_execSt16 (e : Nat) (rd : Reg) (rs1 : Reg) (imm : Imm16) (s : State) :
    Seals s (execSt16 e rd rs1 imm s) := by
  unfold execSt16; simp
@[simp] theorem vault_execSt32 (e : Nat) (rd : Reg) (rs1 : Reg) (imm : Imm16) (s : State) :
    Seals s (execSt32 e rd rs1 imm s) := by
  unfold execSt32; simp
@[simp] theorem vault_execSt64 (e : Nat) (rd : Reg) (rs1 : Reg) (imm : Imm16) (s : State) :
    Seals s (execSt64 e rd rs1 imm s) := by
  unfold execSt64; simp
@[simp] theorem vault_execLdt (e : Nat) (td : TReg) (rs1 : Reg) (imm : Imm16) (s : State) :
    Seals s (execLdt e td rs1 imm s) := by
  unfold execLdt; simp
@[simp] theorem vault_execStt (e : Nat) (ts : TReg) (rs1 : Reg) (imm : Imm16) (s : State) :
    Seals s (execStt e ts rs1 imm s) := by
  unfold execStt; simp

/-! ## Machine/TimeInstr.lean -/

@[simp] theorem vault_timeOp (e : Nat) (td : TReg) (val : Engine → XT × Bool) (s : State) :
    Seals s (timeOp e td val s) := by
  unfold timeOp; simp
@[simp] theorem vault_execTnow (e : Nat) (td : TReg) (s : State) :
    Seals s (execTnow e td s) := by
  unfold execTnow; simp
@[simp] theorem vault_execTnowTk (e : Nat) (rd : Reg) (s : State) :
    Seals s (execTnowTk e rd s) := by
  unfold execTnowTk; simp
@[simp] theorem vault_execTadd (e : Nat) (td : TReg) (ts1 : TReg) (rs2 : Reg) (s : State) :
    Seals s (execTadd e td ts1 rs2 s) := by
  unfold execTadd; simp
@[simp] theorem vault_execTsub (e : Nat) (rd : Reg) (ts1 : TReg) (ts2 : TReg) (s : State) :
    Seals s (execTsub e rd ts1 ts2 s) := by
  unfold execTsub; simp
@[simp] theorem vault_execTcmp (e : Nat) (ts1 : TReg) (ts2 : TReg) (s : State) :
    Seals s (execTcmp e ts1 ts2 s) := by
  unfold execTcmp; simp
@[simp] theorem vault_execTcvtPack (e : Nat) (td : TReg) (rs1 : Reg) (rs2 : Reg) (s : State) :
    Seals s (execTcvtPack e td rs1 rs2 s) := by
  unfold execTcvtPack; simp
@[simp] theorem vault_execTcvtSec (e : Nat) (rd : Reg) (ts1 : TReg) (s : State) :
    Seals s (execTcvtSec e rd ts1 s) := by
  unfold execTcvtSec; simp
@[simp] theorem vault_execTcvtLo (e : Nat) (rd : Reg) (ts1 : TReg) (s : State) :
    Seals s (execTcvtLo e rd ts1 s) := by
  unfold execTcvtLo; simp
@[simp] theorem vault_execTcvtMov (e : Nat) (td : TReg) (ts1 : TReg) (s : State) :
    Seals s (execTcvtMov e td ts1 s) := by
  unfold execTcvtMov; simp

/-! ## Machine/Control.lean -/

@[simp] theorem vault_execIllegal (e : Nat) (w : Word32) (s : State) :
    Seals s (execIllegal e w s) := by
  unfold execIllegal; simp
@[simp] theorem vault_execB (e : Nat) (cc : Cond) (imm : Imm16) (s : State) :
    Seals s (execB e cc imm s) := by
  unfold execB; simp
@[simp] theorem vault_execCall (e : Nat) (rd : Reg) (imm : Imm16) (s : State) :
    Seals s (execCall e rd imm s) := by
  unfold execCall; simp
@[simp] theorem vault_execJalr (e : Nat) (rd : Reg) (rs1 : Reg) (imm : Imm16) (s : State) :
    Seals s (execJalr e rd rs1 imm s) := by
  unfold execJalr; simp
@[simp] theorem vault_execRdf (e : Nat) (rd : Reg) (s : State) :
    Seals s (execRdf e rd s) := by
  unfold execRdf; simp
@[simp] theorem vault_execWrf (e : Nat) (rs1 : Reg) (s : State) :
    Seals s (execWrf e rs1 s) := by
  unfold execWrf; simp
@[simp] theorem vault_execClf (e : Nat) (mask : BitVec 6) (s : State) :
    Seals s (execClf e mask s) := by
  unfold execClf; simp
@[simp] theorem vault_waitReturn (s : State) (e : Nat) (rd : Reg) (mask : Word) :
    (State.waitReturn s e rd mask).vault = s.vault := by
  unfold State.waitReturn; simp
@[simp] theorem vault_waitExpire (s : State) (e : Nat) (rd : Reg) :
    (State.waitExpire s e rd).vault = s.vault := by
  unfold State.waitExpire; simp
@[simp] theorem vault_waitIssued (s : State) (e : Nat) :
    (State.waitIssued s e).vault = s.vault := by
  unfold State.waitIssued; simp
@[simp] theorem vault_waitFirst (s : State) (e : Nat) (rd : Reg) (mask : Word) (due : Bool) (h : Hold) :
    (State.waitFirst s e rd mask due h).vault = s.vault := by
  unfold State.waitFirst; simp
@[simp] theorem vault_execWait (e : Nat) (rd : Reg) (rs1 : Reg) (rs2 : Reg) (s : State) :
    Seals s (execWait e rd rs1 rs2 s) := by
  unfold execWait; simp
@[simp] theorem vault_execWaitT (e : Nat) (rd : Reg) (rs1 : Reg) (ts2 : TReg) (s : State) :
    Seals s (execWaitT e rd rs1 ts2 s) := by
  unfold execWaitT; simp
@[simp] theorem vault_execWaitHit (e : Nat) (s : State) :
    Seals s (execWaitHit e s) := by
  unfold execWaitHit; (repeat' split) <;> simp
@[simp] theorem vault_execWaitTimeout (e : Nat) (s : State) :
    Seals s (execWaitTimeout e s) := by
  unfold execWaitTimeout; (repeat' split) <;> simp
@[simp] theorem vault_execTrap (e : Nat) (n : BitVec 6) (s : State) :
    Seals s (execTrap e n s) := by
  unfold execTrap; simp
@[simp] theorem vault_haltNow (s : State) (e : Nat) :
    (State.haltNow s e).vault = s.vault := by
  unfold State.haltNow; simp
@[simp] theorem vault_execFence (e : Nat) (s : State) :
    Seals s (execFence e s) := by
  unfold execFence; simp
@[simp] theorem vault_execHalt (e : Nat) (s : State) :
    Seals s (execHalt e s) := by
  unfold execHalt; simp
@[simp] theorem vault_fenceCheck (s : State) (e : Nat) :
    (State.fenceCheck s e).vault = s.vault := by
  unfold State.fenceCheck; dsimp only; (repeat' split) <;> simp
@[simp] theorem vault_postedFailed (s : State) (e : Nat) (cause : Nat) (pc : BitVec 16) :
    (State.postedFailed s e cause pc).vault = s.vault := by
  unfold State.postedFailed; dsimp only; (repeat' split) <;> simp
@[simp] theorem vault_execPostedAckArrive (e : Nat) (k : Nat) (s : State) :
    Seals s (execPostedAckArrive e k s) := by
  unfold execPostedAckArrive; dsimp only; (repeat' split) <;> simp

/-! ## Machine/Arrive.lean -/

@[simp] theorem vault_judged (s : State) (e : Nat) (addr : Nat) (width : Nat) (data : Nat) (cause : Nat) :
    (State.judged s e addr width data cause).vault = s.vault := by
  unfold State.judged; simp
@[simp] theorem vault_answer (s : State) (e : Nat) (addr : Nat) (cause : Nat) (value : Nat) :
    (State.answer s e addr cause value).vault = s.vault := by
  unfold State.answer; dsimp only; (repeat' split) <;> simp

@[simp] theorem seals_arriveWrite {e addr width data : Nat} {s : State} {f : State → State}
    (h : (f s).vault = s.vault) : Seals s (arriveWrite e addr width data s f) := by
  unfold arriveWrite; simp [h]

@[simp] theorem seals_arriveRead {e addr width : Nat} {s : State} {f : State → State × Nat}
    (h : (f s).1.vault = s.vault) : Seals s (arriveRead e addr width s f) := by
  unfold arriveRead; simp [h]

@[simp] theorem vault_held {s : State} {f : State → State} (h : (f s).vault = s.vault) : (s.held f).vault = s.vault := by
  unfold State.held; simp [h]

@[simp] theorem seals_onInst {die blk inst : Nat} {s : State} {f : State → State} (h : (f s).vault = s.vault) :
    Seals s (onInst die blk inst s f) := by unfold onInst; simp [h]

@[simp] theorem seals_onPort {p : Nat} {s : State} {f : State → State} (h : (f s).vault = s.vault) :
    Seals s (onPort p s f) := by unfold onPort; simp [h]

@[simp] theorem seals_onDie {d : Nat} {s : State} {f : State → State} (h : (f s).vault = s.vault) :
    Seals s (onDie d s f) := by unfold onDie; simp [h]

/-! ## Machine/Monitor.lean -/

@[simp] theorem vault_histTake (s : State) (d : Nat) (i : Nat) (x0 : Int) :
    (State.histTake s d i x0).vault = s.vault := by
  unfold State.histTake; simp
@[simp] theorem vault_histSample (s : State) (d : Nat) (i : Nat) (x : Int) :
    (State.histSample s d i x).vault = s.vault := by
  unfold State.histSample; simp
@[simp] theorem vault_histFeed (s : State) (d : Nat) (src : Nat) (idx : Nat) (x : Int) :
    (State.histFeed s d src idx x).vault = s.vault := by
  unfold State.histFeed; simp
@[simp] theorem vault_histClear (s : State) (d : Nat) (i : Nat) :
    (State.histClear s d i).vault = s.vault := by
  unfold State.histClear; simp
@[simp] theorem vault_wrHistCtrl (s : State) (d : Nat) (i : Nat) (data : Nat) :
    (State.wrHistCtrl s d i data).vault = s.vault := by
  unfold State.wrHistCtrl; simp
@[simp] theorem vault_perfCycles (s : State) (d : Nat) (n : Nat) :
    (State.perfCycles s d n).vault = s.vault := by
  unfold State.perfCycles; simp
@[simp] theorem vault_bwLatch (s : State) (d : Nat) :
    (State.bwLatch s d).vault = s.vault := by
  unfold State.bwLatch; simp
@[simp] theorem vault_bwAdd (s : State) (d : Nat) (lp : Nat) (tx : Bool) (len : Nat) :
    (State.bwAdd s d lp tx len).vault = s.vault := by
  have h : ((List.range (s.bwDue d)).foldl (fun s _ => s.bwLatch d) s).vault = s.vault :=
    vault_foldl _ _ (fun u _ => vault_bwLatch u d) s
  unfold State.bwAdd; dsimp only; split <;> simp [h]
@[simp] theorem vault_levelAdd (s : State) (d : Nat) (c : Nat) (amount : Nat) (reach : Bool) :
    (State.levelAdd s d c amount reach).vault = s.vault := by
  unfold State.levelAdd; simp
@[simp] theorem vault_execPerfCompareReached (d : Nat) (c : Nat) (amount : Nat) (s : State) :
    Seals s (execPerfCompareReached d c amount s) := by
  unfold execPerfCompareReached; simp
@[simp] theorem vault_execPerfCounterWrap (d : Nat) (c : Nat) (amount : Nat) (s : State) :
    Seals s (execPerfCounterWrap d c amount s) := by
  unfold execPerfCounterWrap; simp
@[simp] theorem vault_execBwWindowEnd (d : Nat) (s : State) :
    Seals s (execBwWindowEnd d s) := by
  unfold execBwWindowEnd; simp
@[simp] theorem vault_tagHead (s : State) (d : Nat) :
    (State.tagHead s d).1.vault = s.vault := by
  unfold State.tagHead; dsimp only; (repeat' split) <;> simp
@[simp] theorem vault_execTagHeadRead (e : Nat) (d : Nat) (s : State) :
    Seals s (execTagHeadRead e d s) := by
  unfold execTagHeadRead; simp
@[simp] theorem vault_execHistLevelSample (d : Nat) (i : Nat) (s : State) :
    Seals s (execHistLevelSample d i s) := by
  unfold execHistLevelSample; refine seals_onInst ?_; dsimp only; (repeat' split) <;> simp
@[simp] theorem vault_execHistClear (e : Nat) (d : Nat) (i : Nat) (hold : Bool) (s : State) :
    Seals s (execHistClear e d i hold s) := by
  unfold execHistClear; simp
@[simp] theorem vault_execHistHold (e : Nat) (d : Nat) (i : Nat) (hold : Bool) (s : State) :
    Seals s (execHistHold e d i hold s) := by
  unfold execHistHold; simp
@[simp] theorem vault_tagReport (s : State) (d : Nat) (stage : Nat) (T : Nat) (u : TagItem) (done : Bool) (dropped : Bool) :
    (State.tagReport s d stage T u done dropped).vault = s.vault := by
  unfold State.tagReport; dsimp only; (repeat' split) <;> simp
@[simp] theorem vault_tagDest (s : State) (d : Nat) (id : Nat) (dest : Nat) :
    (State.tagDest s d id dest).vault = s.vault := by
  unfold State.tagDest; dsimp only; (repeat' split) <;> simp
@[simp] theorem vault_tagCut (s : State) (a : Nat) (b : Nat) :
    (State.tagCut s a b).vault = s.vault := by
  unfold State.tagCut; (repeat' split) <;> simp
@[simp] theorem vault_execTagStageReport (d : Nat) (s : State) :
    Seals s (execTagStageReport d s) := by
  unfold execTagStageReport; refine seals_onDie ?_; (repeat' split) <;> simp

end Sys2Proof.Machine
end

