-- ==== Sys2Proof/Laws/VaultTime.lean ====
section
/-!
SUPPORT. What leaves `State.vault` alone, by definition: event capture, timing outputs, GNSS, links, PLLs, lanes and ridges.
-/
namespace Sys2Proof.Machine

/-! ## Machine/Timing.lean -/

@[simp] theorem vault_setLink (s : State) (p : Nat) (l : LinkState) :
    (State.setLink s p l).vault = s.vault := by
  unfold State.setLink; simp
@[simp] theorem vault_linkShift (s : State) (d : Nat) (by_ : Int) :
    (State.linkShift s d by_).vault = s.vault := by
  unfold State.linkShift; simp
@[simp] theorem vault_linkGraded (s : State) (p : Nat) (tx : Bool) (t : XT) :
    (State.linkGraded s p tx t).vault = s.vault := by
  unfold State.linkGraded; simp
@[simp] theorem vault_refreshPort (s : State) (p : Nat) :
    (State.refreshPort s p).vault = s.vault := by
  unfold State.refreshPort; simp
@[simp] theorem vault_refreshTg (s : State) (d : Nat) :
    (State.refreshTg s d).vault = s.vault := by
  unfold State.refreshTg; simp
@[simp] theorem vault_refreshAlign (s : State) (d : Nat) :
    (State.refreshAlign s d).vault = s.vault := by
  unfold State.refreshAlign; simp
@[simp] theorem vault_refreshLane (s : State) (lane : Nat) :
    (State.refreshLane s lane).vault = s.vault := by
  unfold State.refreshLane; simp
@[simp] theorem vault_refreshLanes (s : State) (p : Nat) :
    (State.refreshLanes s p).vault = s.vault := by
  unfold State.refreshLanes; simp

/-! ## Machine/Evt.lean -/

@[simp] theorem vault_setEvt (s : State) (ch : Nat) (x : EvtState) :
    (State.setEvt s ch x).vault = s.vault := by
  unfold State.setEvt; simp
@[simp] theorem vault_setOpen (s : State) (ch : Nat) (o : Option EvOpen) :
    (State.setOpen s ch o).vault = s.vault := by
  unfold State.setOpen; simp
@[simp] theorem vault_rxDeliver (s : State) (e : Nat) (f : RxFrame) :
    (State.rxDeliver s e f).vault = s.vault := by
  unfold State.rxDeliver; simp
@[simp] theorem vault_evStore (s : State) (ch : Nat) (r : EvRecord) :
    (State.evStore s ch r).vault = s.vault := by
  unfold State.evStore
  dsimp only
  (repeat' split) <;>
    simp only [vault_wf, vault_wfRaise, vault_setEvt, vault_setFlag, vault_raise, vault_addSat, vault_histFeed]
@[simp] theorem vault_evClose (s : State) (ch : Nat) (o : EvOpen) (r : EvRecord) :
    (State.evClose s ch o r).vault = s.vault := by
  unfold State.evClose; simp
@[simp] theorem vault_evModeEdge (s : State) (ch : Nat) (a : EvEdge) :
    (State.evModeEdge s ch a).vault = s.vault := by
  unfold State.evModeEdge; simp
@[simp] theorem vault_evModeTrain (s : State) (ch : Nat) (a : EvEdge) :
    (State.evModeTrain s ch a).vault = s.vault := by
  unfold State.evModeTrain; (repeat' split) <;> simp
@[simp] theorem vault_evModePaired (s : State) (ch : Nat) (a : EvEdge) (isStart : Bool) :
    (State.evModePaired s ch a isStart).vault = s.vault := by
  unfold State.evModePaired; (repeat' split) <;> simp
@[simp] theorem vault_evOpenGated (s : State) (ch : Nat) (a : EvEdge) :
    (State.evOpenGated s ch a).vault = s.vault := by
  unfold State.evOpenGated; simp
@[simp] theorem vault_evGatedEnd (s : State) (ch : Nat) (o : EvOpen) (r : EvRecord) :
    (State.evGatedEnd s ch o r).vault = s.vault := by
  unfold State.evGatedEnd; (repeat' split) <;> simp
@[simp] theorem vault_evExpire (s : State) (ch : Nat) (o : EvOpen) :
    (State.evExpire s ch o).vault = s.vault := by
  unfold State.evExpire; simp
@[simp] theorem vault_evOverdue (s : State) (ch : Nat) (tick : Nat) :
    (State.evOverdue s ch tick).vault = s.vault := by
  unfold State.evOverdue; (repeat' split) <;> simp
@[simp] theorem vault_evGatedStart (s0 : State) (ch : Nat) (a : EvEdge) :
    (State.evGatedStart s0 ch a).vault = s0.vault := by
  unfold State.evGatedStart; dsimp only; (repeat' split) <;> simp
@[simp] theorem vault_evGatedStop (s0 : State) (ch : Nat) (a : EvEdge) :
    (State.evGatedStop s0 ch a).vault = s0.vault := by
  unfold State.evGatedStop; dsimp only; (repeat' split) <;> simp
@[simp] theorem vault_evEdgeFor (s : State) (ch : Nat) (a : EvEdge) (isStart : Bool) :
    (State.evEdgeFor s ch a isStart).vault = s.vault := by
  unfold State.evEdgeFor; (repeat' split) <;> simp
@[simp] theorem vault_evStart (s : State) (d : Nat) (src : Nat) (a : EvEdge) :
    (State.evStart s d src a).vault = s.vault := by
  unfold State.evStart; simp
@[simp] theorem vault_evDeadIn (s : State) (ch : Nat) (c : Nat) :
    (State.evDeadIn s ch c).vault = s.vault := by
  unfold State.evDeadIn; simp
@[simp] theorem vault_evIgnoreDead (s : State) (ch : Nat) :
    (State.evIgnoreDead s ch).vault = s.vault := by
  unfold State.evIgnoreDead; simp
@[simp] theorem vault_evAccept (s : State) (ch : Nat) (a : EvEdge) :
    (State.evAccept s ch a).vault = s.vault := by
  unfold State.evAccept; simp
@[simp] theorem vault_execEventCrossing (ch : Nat) (rising : Bool) (taps : Nat) (s : State) :
    Seals s (execEventCrossing ch rising taps s) := by
  unfold execEventCrossing; simp
@[simp] theorem vault_gateSample (s : State) (ch : Nat) :
    (State.gateSample s ch).vault = s.vault := by
  unfold State.gateSample; simp
@[simp] theorem vault_evDisarmed (s : State) (ch : Nat) (t : Nat) (o : EvOpen) :
    (State.evDisarmed s ch t o).vault = s.vault := by
  unfold State.evDisarmed; dsimp only; (repeat' split) <;> simp
@[simp] theorem vault_evTick (s : State) (ch : Nat) :
    (State.evTick s ch).vault = s.vault := by
  unfold State.evTick; dsimp only; (repeat' split) <;> simp
@[simp] theorem vault_evStarted (s : State) (ch : Nat) :
    (State.evStarted s ch).vault = s.vault := by
  unfold State.evStarted; simp
@[simp] theorem vault_evApplied (s : State) (d : Nat) (A : Nat) :
    (State.evApplied s d A).vault = s.vault := by unfold State.evApplied; refine vault_foldl _ _ (fun s x => ?_) _; (try dsimp only); (repeat' split) <;> simp
@[simp] theorem vault_execArmWrite (e : Nat) (ch : Nat) (arm : Bool) (s : State) :
    Seals s (execArmWrite e ch arm s) := by
  unfold execArmWrite; simp
@[simp] theorem vault_evOver (s : State) (ch : Nat) (mode : Nat) :
    (State.evOver s ch mode).vault = s.vault := by
  unfold State.evOver; (repeat' split) <;> simp
@[simp] theorem vault_execTrainWindowClose (ch : Nat) (s : State) :
    Seals s (execTrainWindowClose ch s) := by
  unfold execTrainWindowClose; simp
@[simp] theorem vault_execPairedWindowClose (ch : Nat) (s : State) :
    Seals s (execPairedWindowClose ch s) := by
  unfold execPairedWindowClose; simp
@[simp] theorem vault_execGatedTimeout (ch : Nat) (s : State) :
    Seals s (execGatedTimeout ch s) := by
  unfold execGatedTimeout; simp
@[simp] theorem vault_wrThresh (s : State) (ch : Nat) (code : Nat) :
    (State.wrThresh s ch code).vault = s.vault := by
  unfold State.wrThresh; simp
@[simp] theorem vault_execThreshWrite (e : Nat) (ch : Nat) (code : BitVec 12) (s : State) :
    Seals s (execThreshWrite e ch code s) := by
  unfold execThreshWrite; simp
@[simp] theorem vault_execThreshSettled (ch : Nat) (s : State) :
    Seals s (execThreshSettled ch s) := by
  unfold execThreshSettled; (repeat' split) <;> simp
@[simp] theorem vault_evtHead (s : State) (ch : Nat) :
    (State.evtHead s ch).1.vault = s.vault := by
  unfold State.evtHead; dsimp only; (repeat' split) <;> simp
@[simp] theorem vault_execEvtRecHeadRead (e : Nat) (ch : Nat) (s : State) :
    Seals s (execEvtRecHeadRead e ch s) := by
  unfold execEvtRecHeadRead; simp
@[simp] theorem vault_execEventFrameDeliver (ch : Nat) (s : State) :
    Seals s (execEventFrameDeliver ch s) := by
  unfold execEventFrameDeliver; dsimp only; (repeat' split) <;> simp
@[simp] theorem vault_evtLeaveRun (s0 : State) (ch : Nat) :
    (State.evtLeaveRun s0 ch).vault = s0.vault := by
  unfold State.evtLeaveRun; dsimp only; (repeat' split) <;> simp

/-! ## Machine/Field.lean -/

@[simp] theorem vault_setOut (s : State) (d : Nat) (k : Nat) (x : OutState) :
    (State.setOut s d k x).vault = s.vault := by
  unfold State.setOut; simp
@[simp] theorem vault_putBit (s : State) (f : Fld) (d : Nat) (i : Nat) (k : Nat) (b : Bool) :
    (State.putBit s f d i k b).vault = s.vault := by
  unfold State.putBit; simp
@[simp] theorem vault_outLevel (s : State) (d : Nat) (k : Nat) :
    (State.outLevel s d k).vault = s.vault := by
  unfold State.outLevel; simp
@[simp] theorem vault_execOutputEdgeSchedule (d : Nat) (k : Nat) (s : State) :
    Seals s (execOutputEdgeSchedule d k s) := by
  unfold execOutputEdgeSchedule; (repeat' split) <;> simp
@[simp] theorem vault_pulse (s : State) (d : Nat) (k : Nat) (width : Nat) :
    (State.pulse s d k width).vault = s.vault := by
  unfold State.pulse; simp
@[simp] theorem vault_edgeMark (s : State) (d : Nat) (k : Nat) (adj : Int) (qerr : Int → Int) :
    (State.edgeMark s d k adj qerr).vault = s.vault := by
  unfold State.edgeMark; simp
@[simp] theorem vault_disarm (s : State) (d : Nat) (k : Nat) :
    (State.disarm s d k).vault = s.vault := by
  unfold State.disarm; simp
@[simp] theorem vault_driveEdge (s : State) (d : Nat) (k : Nat) (p : OutPlan) :
    (State.driveEdge s d k p).vault = s.vault := by
  unfold State.driveEdge; dsimp only; (repeat' split) <;> simp
@[simp] theorem vault_execOutputEdge (d : Nat) (k : Nat) (s : State) :
    Seals s (execOutputEdge d k s) := by
  unfold execOutputEdge; (repeat' split) <;> simp
@[simp] theorem vault_execOutputPulseEnd (d : Nat) (k : Nat) (s : State) :
    Seals s (execOutputPulseEnd d k s) := by
  unfold execOutputPulseEnd; dsimp only; (repeat' split) <;> simp
@[simp] theorem vault_trigFires (s : State) (d k : Nat) : (State.trigFires s d k).vault = s.vault := by
  unfold State.trigFires; (repeat' split) <;> simp
@[simp] theorem vault_trigJudge (s : State) (d : Nat) (k : Nat) :
    (State.trigJudge s d k).vault = s.vault := by
  unfold State.trigJudge; dsimp only; (repeat' split) <;> simp
@[simp] theorem vault_wrTrigArm (s : State) (d : Nat) (k : Nat) (arm : Bool) :
    (State.wrTrigArm s d k arm).vault = s.vault := by
  unfold State.wrTrigArm; dsimp only; (repeat' split) <;> simp
@[simp] theorem vault_execTriggerArm (e : Nat) (d : Nat) (k : Nat) (s : State) :
    Seals s (execTriggerArm e d k s) := by
  unfold execTriggerArm; simp
@[simp] theorem vault_outLevels (s : State) (d : Nat) :
    (State.outLevels s d).vault = s.vault := by
  unfold State.outLevels; simp
@[simp] theorem vault_execFvddLoss (d : Nat) (s : State) :
    Seals s (execFvddLoss d s) := by
  unfold execFvddLoss; simp
@[simp] theorem vault_execFvddRestore (d : Nat) (s : State) :
    Seals s (execFvddRestore d s) := by
  unfold execFvddRestore; simp
@[simp] theorem vault_fieldStarted (s : State) (d : Nat) :
    (State.fieldStarted s d).vault = s.vault := by
  unfold State.fieldStarted; simp
@[simp] theorem vault_fieldStopped (s : State) (d : Nat) :
    (State.fieldStopped s d).vault = s.vault := by
  unfold State.fieldStopped; simp
@[simp] theorem vault_edgeSkip (s : State) (d k : Nat) : (State.edgeSkip s d k).vault = s.vault := by
  unfold State.edgeSkip; simp
@[simp] theorem vault_edgeReplace (s : State) (d old k : Nat) : (State.edgeReplace s d old k).vault = s.vault := by
  unfold State.edgeReplace; dsimp only; (repeat' split) <;> simp
@[simp] theorem vault_fieldReplace (s : State) (d old : Nat) : (State.fieldReplace s d old).vault = s.vault := by
  unfold State.fieldReplace; exact vault_foldl _ _ (fun s x => by simp) _

/-! ## Machine/Gnss.lean -/

@[simp] theorem vault_setGnss (s : State) (g : GnssState) :
    (State.setGnss s g).vault = s.vault := by
  unfold State.setGnss; simp
@[simp] theorem vault_rebase (s : State) :
    (State.rebase s).vault = s.vault := by
  unfold State.rebase; simp
@[simp] theorem vault_takeFix (s : State) :
    (State.takeFix s).vault = s.vault := by
  unfold State.takeFix; simp
@[simp] theorem vault_endSparse (s : State) :
    (State.endSparse s).vault = s.vault := by
  unfold State.endSparse; simp
@[simp] theorem vault_setG (s : State) (st : Nat) :
    (State.setG s st).vault = s.vault := by
  unfold State.setG; simp
@[simp] theorem vault_gnssHold (s : State) (seen : Bool) :
    (State.gnssHold s seen).vault = s.vault := by
  unfold State.gnssHold; simp
@[simp] theorem vault_idleChannel (s : State) (k : Nat) :
    (State.idleChannel s k).vault = s.vault := by
  unfold State.idleChannel; simp
@[simp] theorem vault_refreshChannels (s : State) :
    (State.refreshChannels s).vault = s.vault := by
  unfold State.refreshChannels; simp
@[simp] theorem vault_idleChannels (s : State) :
    (State.idleChannels s).vault = s.vault := by
  unfold State.idleChannels; simp
@[simp] theorem vault_measureClk (s : State) (m : SampleSpan) :
    (State.measureClk s m).vault = s.vault := by
  unfold State.measureClk; simp
@[simp] theorem vault_searchStep (s : State) (visible : BitVec 32) (bin : Option Nat) :
    (State.searchStep s visible bin).vault = s.vault := by
  unfold State.searchStep; dsimp only; (repeat' split) <;> simp
@[simp] theorem vault_execGnssAcquisitionDwell (m : SampleSpan) (visible : BitVec 32) (bin : Option Nat) (s : State) :
    Seals s (execGnssAcquisitionDwell m visible bin s) := by
  unfold execGnssAcquisitionDwell; simp
@[simp] theorem vault_execChannelPullInEnd (k : Nat) (cn0 : Nat) (elev : Int) (s : State) :
    Seals s (execChannelPullInEnd k cn0 elev s) := by
  unfold execChannelPullInEnd; simp
@[simp] theorem vault_execChannelSignalLost (k : Nat) (s : State) :
    Seals s (execChannelSignalLost k s) := by
  unfold execChannelSignalLost; simp
@[simp] theorem vault_execEphemerisDecoded (k : Nat) (nav : NavMessage) (utc : Option (BitVec 8)) (s : State) :
    Seals s (execEphemerisDecoded k nav utc s) := by
  unfold execEphemerisDecoded; (repeat' split) <;> simp
@[simp] theorem vault_execGnssClkLost (s : State) :
    Seals s (execGnssClkLost s) := by
  unfold execGnssClkLost; simp
@[simp] theorem vault_execGnssClkRestored (s : State) :
    Seals s (execGnssClkRestored s) := by
  unfold execGnssClkRestored; simp
@[simp] theorem vault_ppsForm (s : State) (S : Nat) :
    (State.ppsForm s S).vault = s.vault := by
  unfold State.ppsForm; simp
@[simp] theorem vault_ppsDue (s : State) :
    (State.ppsDue s).vault = s.vault := by
  unfold State.ppsDue; simp
@[simp] theorem vault_execPpsSchedule (s : State) :
    Seals s (execPpsSchedule s) := by
  unfold execPpsSchedule; simp
@[simp] theorem vault_setDrift (s : State) :
    (State.setDrift s).vault = s.vault := by
  unfold State.setDrift; (repeat' split) <;> simp
@[simp] theorem vault_fixValue (s : State) (u : Int) (week : Nat) (tow : Nat) (pos : Int × Int × Int) :
    (State.fixValue s u week tow pos).2.vault = s.vault := by
  unfold State.fixValue; simp
@[simp] theorem vault_newFix (s : State) (u : Int) (fix : Nat) (est : Nat) :
    (State.newFix s u fix est).vault = s.vault := by
  unfold State.newFix; simp
@[simp] theorem vault_setE0 (s : State) (e0 : Nat) :
    (State.setE0 s e0).vault = s.vault := by
  unfold State.setE0; simp
@[simp] theorem vault_slewCheck (s : State) :
    (State.slewCheck s).vault = s.vault := by
  unfold State.slewCheck; simp
@[simp] theorem vault_judgeFix (s : State) (u : Int) (model : Int) (grown : Nat) (est : Nat) :
    (State.judgeFix s u model grown est).vault = s.vault := by
  unfold State.judgeFix; (repeat' split) <;> simp
@[simp] theorem vault_sparseCheck (s : State) :
    (State.sparseCheck s).vault = s.vault := by
  unfold State.sparseCheck; simp
@[simp] theorem vault_surveyAdd (s : State) (pos : Int × Int × Int) :
    (State.surveyAdd s pos).vault = s.vault := by
  unfold State.surveyAdd; simp
@[simp] theorem vault_execGnssSolution (at_ : SolvedEpoch) (tow : Nat) (est : Nat) (pos : Int × Int × Int) (chans : List (Nat × Nat × Int)) (s : State) :
    Seals s (execGnssSolution at_ tow est pos chans s) := by
  unfold execGnssSolution; simp
@[simp] theorem vault_execGnssEpochMissed (s : State) :
    Seals s (execGnssEpochMissed s) := by
  unfold execGnssEpochMissed; simp
@[simp] theorem vault_execGnssSlewUpdate (s : State) :
    Seals s (execGnssSlewUpdate s) := by
  unfold execGnssSlewUpdate; simp
@[simp] theorem vault_execSurveyDone (s : State) :
    Seals s (execSurveyDone s) := by
  unfold execSurveyDone; dsimp only; (repeat' split) <;> simp
@[simp] theorem vault_execSparseBurst (s : State) :
    Seals s (execSparseBurst s) := by
  unfold execSparseBurst; (repeat' split) <;> simp
@[simp] theorem vault_wrGnssCtrl (s : State) (data : Nat) :
    (State.wrGnssCtrl s data).vault = s.vault := by
  unfold State.wrGnssCtrl; simp
@[simp] theorem vault_execGnssAck (e : Nat) (s : State) :
    Seals s (execGnssAck e s) := by
  unfold execGnssAck; simp
@[simp] theorem vault_ppsOut (s : State) (qerr : Int) (k : Nat) :
    (State.ppsOut s qerr k).vault = s.vault := by
  unfold State.ppsOut; simp
@[simp] theorem vault_execPpsEdge (s : State) :
    Seals s (execPpsEdge s) := by
  unfold execPpsEdge; (repeat' split) <;> simp
@[simp] theorem vault_gnssApplied (s : State) (delta : Int) :
    (State.gnssApplied s delta).vault = s.vault := by
  unfold State.gnssApplied; simp
@[simp] theorem vault_gnssStarted (s : State) :
    (State.gnssStarted s).vault = s.vault := by
  unfold State.gnssStarted; simp
@[simp] theorem vault_gnssStopped (s : State) :
    (State.gnssStopped s).vault = s.vault := by
  unfold State.gnssStopped; dsimp only; (repeat' split) <;> simp

/-! ## Machine/Link.lean -/

@[simp] theorem vault_setL (s : State) (p : Nat) (st0 : Nat) :
    (State.setL s p st0).vault = s.vault := by
  unfold State.setL; simp
@[simp] theorem vault_linkGen (s : State) (p : Nat) :
    (State.linkGen s p).vault = s.vault := by
  unfold State.linkGen; dsimp only; (repeat' split) <;> simp
@[simp] theorem vault_linkUpChange (s : State) (p : Nat) (up : Bool) :
    (State.linkUpChange s p up).vault = s.vault := by
  unfold State.linkUpChange; (repeat' split) <;> simp
@[simp] theorem vault_linkTxRef (s : State) (p : Nat) :
    (State.linkTxRef s p).2.vault = s.vault := by
  unfold State.linkTxRef; dsimp only; (repeat' split) <;> simp
@[simp] theorem vault_linkClose (s : State) (p : Nat) :
    (State.linkClose s p).vault = s.vault := by
  unfold State.linkClose; simp
@[simp] theorem vault_linkStale (s : State) (p : Nat) :
    (State.linkStale s p).vault = s.vault := by
  unfold State.linkStale; simp
@[simp] theorem vault_linkRoll (s : State) (p : Nat) :
    (State.linkRoll s p).vault = s.vault := by
  unfold State.linkRoll; simp
@[simp] theorem vault_execLinkWindowEnd (p : Nat) (s : State) :
    Seals s (execLinkWindowEnd p s) := by
  unfold execLinkWindowEnd; simp
@[simp] theorem vault_linkReport (s0 : State) (p : Nat) (phase : Int) (sub : Nat) :
    (State.linkReport s0 p phase sub).vault = s0.vault := by
  unfold State.linkReport; simp
@[simp] theorem vault_linkResults (s : State) (p : Nat) (ein : Int) (eout : Int) :
    (State.linkResults s p ein eout).vault = s.vault := by
  unfold State.linkResults; simp
@[simp] theorem vault_linkResolve (s : State) (p : Nat) (raw : Int) :
    (State.linkResolve s p raw).vault = s.vault := by
  unfold State.linkResolve; dsimp only; (repeat' split) <;> simp
@[simp] theorem vault_linkCoarse (s : State) (p : Nat) :
    (State.linkCoarse s p).vault = s.vault := by
  unfold State.linkCoarse; simp
@[simp] theorem vault_linkPhase (s : State) (p : Nat) (raw : Int) :
    (State.linkPhase s p raw).vault = s.vault := by
  unfold State.linkPhase; simp
@[simp] theorem vault_linkPeer (s : State) (p : Nat) :
    (State.linkPeer s p).vault = s.vault := by
  unfold State.linkPeer; simp
@[simp] theorem vault_linkCommit (s0 : State) (p : Nat) :
    (State.linkCommit s0 p).vault = s0.vault := by
  unfold State.linkCommit; dsimp only; (repeat' split) <;> simp
@[simp] theorem vault_wrCommit (s : State) (p : Nat) (data : Nat) :
    (State.wrCommit s p data).vault = s.vault := by
  unfold State.wrCommit; simp
@[simp] theorem vault_execLinkCommit (e : Nat) (p : Nat) (s : State) :
    Seals s (execLinkCommit e p s) := by
  unfold execLinkCommit; simp
@[simp] theorem vault_wrAsym (s : State) (p : Nat) (data : Nat) :
    (State.wrAsym s p data).vault = s.vault := by
  unfold State.wrAsym; simp
@[simp] theorem vault_setPath (s : State) (k : Nat) (ok : Bool) :
    (State.setPath s k ok).vault = s.vault := by
  unfold State.setPath; simp
@[simp] theorem vault_holderPaths (s : State) :
    (State.holderPaths s).vault = s.vault := by
  unfold State.holderPaths; simp
@[simp] theorem vault_linkStarted (s : State) (p : Nat) :
    (State.linkStarted s p).vault = s.vault := by
  unfold State.linkStarted; simp
@[simp] theorem vault_linkStopped (s : State) (p : Nat) :
    (State.linkStopped s p).vault = s.vault := by
  unfold State.linkStopped; simp

/-! ## Machine/Pll.lean -/

@[simp] theorem vault_setPll (s : State) (d : Nat) (x : PllState) :
    (State.setPll s d x).vault = s.vault := by
  unfold State.setPll; simp
@[simp] theorem vault_setFreq (s : State) (d : Nat) (x : Int) :
    (State.setFreq s d x).vault = s.vault := by
  unfold State.setFreq; simp
@[simp] theorem vault_holdMean (s : State) (d : Nat) :
    (State.holdMean s d).vault = s.vault := by
  unfold State.holdMean; simp
@[simp] theorem vault_slewTick (s : State) (d : Nat) :
    (State.slewTick s d).vault = s.vault := by
  unfold State.slewTick; simp
@[simp] theorem vault_deltaDue (s : State) (d : Nat) :
    (State.deltaDue s d).vault = s.vault := by
  unfold State.deltaDue; simp
@[simp] theorem vault_deltaBack (s : State) (l : List DeltaMark) :
    (State.deltaBack s l).vault = s.vault := by
  unfold State.deltaBack; simp
@[simp] theorem vault_laneBypass (s : State) (d : Nat) :
    (State.laneBypass s d).vault = s.vault := by
  unfold State.laneBypass; simp
@[simp] theorem vault_rampAbort (s : State) :
    (State.rampAbort s).vault = s.vault := by
  unfold State.rampAbort; simp
@[simp] theorem vault_refreshRef (s : State) (d : Nat) :
    (State.refreshRef s d).vault = s.vault := by
  unfold State.refreshRef; simp
@[simp] theorem vault_enterMode (s : State) (d : Nat) (m : Nat) (handover : Bool) :
    (State.enterMode s d m handover).vault = s.vault := by
  unfold State.enterMode; simp
@[simp] theorem vault_sourceLost (s : State) (d : Nat) :
    (State.sourceLost s d).vault = s.vault := by
  unfold State.sourceLost; simp
@[simp] theorem vault_lossDecides (s : State) (d : Nat) (x : LockLoss) :
    (State.lossDecides s d x).vault = s.vault := by
  unfold State.lossDecides; simp
@[simp] theorem vault_sourceAct (s : State) (d : Nat) :
    (State.sourceAct s d).vault = s.vault := by
  unfold State.sourceAct; dsimp only; (repeat' split) <;> simp
@[simp] theorem vault_followRefs (s : State) :
    (State.followRefs s).vault = s.vault := by
  unfold State.followRefs; simp
@[simp] theorem vault_execRefValidityChange (ref : Nat) (ppb : Option Int) (s : State) :
    Seals s (execRefValidityChange ref ppb s) := by
  unfold execRefValidityChange; simp
@[simp] theorem vault_execPllLockAchieved (d : Nat) (err : Int) (freq : Int) (s : State) :
    Seals s (execPllLockAchieved d err freq s) := by
  unfold execPllLockAchieved; simp
@[simp] theorem vault_execPllLockLoss (d : Nat) (err : Int) (s : State) :
    Seals s (execPllLockLoss d err s) := by
  unfold execPllLockLoss; simp
@[simp] theorem vault_execPllRefQualified (d : Nat) (s : State) :
    Seals s (execPllRefQualified d s) := by
  unfold execPllRefQualified; refine seals_onDie ?_; (repeat' split) <;> simp
@[simp] theorem vault_execHistOkSet (d : Nat) (s : State) :
    Seals s (execHistOkSet d s) := by
  unfold execHistOkSet; simp
@[simp] theorem vault_execHandoverTimeout (d : Nat) (s : State) :
    Seals s (execHandoverTimeout d s) := by
  unfold execHandoverTimeout; simp
@[simp] theorem vault_switchTo (s : State) (d : Nat) (src : Nat) (port : Nat) :
    (State.switchTo s d src port).vault = s.vault := by
  unfold State.switchTo; simp
@[simp] theorem vault_selectDone (s : State) :
    (State.selectDone s).vault = s.vault := by
  unfold State.selectDone; simp
@[simp] theorem vault_wrSel (s : State) (data : Nat) :
    (State.wrSel s data).vault = s.vault := by
  unfold State.wrSel; dsimp only; (repeat' split) <;> simp
@[simp] theorem vault_execPllSelect (e : Nat) (src : BitVec 3) (port : BitVec 8) (s : State) :
    Seals s (execPllSelect e src port s) := by
  unfold execPllSelect; simp
@[simp] theorem vault_setLeader (s : State) (lead : Nat) :
    (State.setLeader s lead).vault = s.vault := by
  unfold State.setLeader; simp
@[simp] theorem vault_execPllSelectBoundary (s : State) :
    Seals s (execPllSelectBoundary s) := by
  unfold execPllSelectBoundary; (repeat' split) <;> simp
@[simp] theorem vault_wrSteer (s : State) (data : Nat) :
    (State.wrSteer s data).vault = s.vault := by
  unfold State.wrSteer; simp
@[simp] theorem vault_execSteerWrite (e : Nat) (data : Word) (s : State) :
    Seals s (execSteerWrite e data s) := by
  unfold execSteerWrite; simp
@[simp] theorem vault_execSteerStep (s : State) :
    Seals s (execSteerStep s) := by
  unfold execSteerStep; simp
@[simp] theorem vault_steerToward (s : State) :
    (State.steerToward s).vault = s.vault := by
  unfold State.steerToward; simp
@[simp] theorem vault_steerTick (s : State) :
    (State.steerTick s).vault = s.vault := by
  unfold State.steerTick; dsimp only; (repeat' split) <;> simp
@[simp] theorem vault_wrRamp (s : State) (data : Nat) :
    (State.wrRamp s data).vault = s.vault := by
  unfold State.wrRamp; simp
@[simp] theorem vault_execRampGo (e : Nat) (nseg : BitVec 3) (s : State) :
    Seals s (execRampGo e nseg s) := by
  unfold execRampGo; simp
@[simp] theorem vault_execRampStart (s : State) :
    Seals s (execRampStart s) := by
  unfold execRampStart; (repeat' split) <;> simp
@[simp] theorem vault_rampEnd (s : State) :
    (State.rampEnd s).vault = s.vault := by
  unfold State.rampEnd; simp
@[simp] theorem vault_execRampSegmentEnd (s : State) :
    Seals s (execRampSegmentEnd s) := by
  unfold execRampSegmentEnd; (repeat' split) <;> simp
@[simp] theorem vault_applyDiv (s : State) :
    (State.applyDiv s).vault = s.vault := by
  unfold State.applyDiv; simp
@[simp] theorem vault_wrOutUpd (s : State) (data : Nat) :
    (State.wrOutUpd s data).vault = s.vault := by
  unfold State.wrOutUpd; simp
@[simp] theorem vault_execOutUpdGo (e : Nat) (s : State) :
    Seals s (execOutUpdGo e s) := by
  unfold execOutUpdGo; simp
@[simp] theorem vault_execOutUpdApply (s : State) :
    Seals s (execOutUpdApply s) := by
  unfold execOutUpdApply; (repeat' split) <;> simp
@[simp] theorem vault_pllStarted (s : State) (d : Nat) :
    (State.pllStarted s d).vault = s.vault := by
  unfold State.pllStarted; simp
@[simp] theorem vault_pllStopped (s : State) (d : Nat) :
    (State.pllStopped s d).vault = s.vault := by
  unfold State.pllStopped; simp
@[simp] theorem vault_pllTick (s : State) :
    (State.pllTick s).vault = s.vault := by
  unfold State.pllTick; simp

/-! ## Machine/Lane.lean -/

@[simp] theorem vault_setLane (s : State) (l : Nat) (x : LaneState) :
    (State.setLane s l x).vault = s.vault := by
  unfold State.setLane; simp
@[simp] theorem vault_refreshLink (s : State) (p : Nat) :
    (State.refreshLink s p).vault = s.vault := by
  unfold State.refreshLink; simp
@[simp] theorem vault_ptGen (s : State) (l : Nat) :
    (State.ptGen s l).vault = s.vault := by
  unfold State.ptGen; simp
@[simp] theorem vault_setPtLock (s : State) (l : Nat) (b : Bool) :
    (State.setPtLock s l b).vault = s.vault := by
  unfold State.setPtLock; simp
@[simp] theorem vault_dropLock (s : State) (l : Nat) :
    (State.dropLock s l).vault = s.vault := by
  unfold State.dropLock; simp
@[simp] theorem vault_addUnfit (s : State) (ls : List Nat) (n : Nat) :
    (State.addUnfit s ls n).vault = s.vault := by
  unfold State.addUnfit; simp
@[simp] theorem vault_refreshFrozen (s : State) (l : Nat) :
    (State.refreshFrozen s l).vault = s.vault := by
  unfold State.refreshFrozen; simp
@[simp] theorem vault_refreshFrozens (s : State) (p : Nat) :
    (State.refreshFrozens s p).vault = s.vault := by
  unfold State.refreshFrozens; simp
@[simp] theorem vault_peakStep (s : State) (l : Nat) (n : Nat) :
    (State.peakStep s l n).vault = s.vault := by
  unfold State.peakStep; simp
@[simp] theorem vault_execCtleAdaptStep (l : Nat) (up : Bool) (s : State) :
    Seals s (execCtleAdaptStep l up s) := by
  unfold execCtleAdaptStep; simp
@[simp] theorem vault_execAdaptFreeze (l : Nat) (g : CodeGroups) (s : State) :
    Seals s (execAdaptFreeze l g s) := by
  unfold execAdaptFreeze; simp
@[simp] theorem vault_liftFreeze (s : State) (l : Nat) :
    (State.liftFreeze s l).vault = s.vault := by
  unfold State.liftFreeze; simp
@[simp] theorem vault_laneSkews (s : State) (lead : Nat) :
    (State.laneSkews s lead).vault = s.vault := by
  unfold State.laneSkews; simp
@[simp] theorem vault_clearSkews (s : State) (lead : Nat) :
    (State.clearSkews s lead).vault = s.vault := by
  unfold State.clearSkews; simp
@[simp] theorem vault_execPhaseReport (l : Nat) (move : Int) (sub : Nat) (s : State) :
    Seals s (execPhaseReport l move sub s) := by
  unfold execPhaseReport; simp
@[simp] theorem vault_execTrackerLock (l : Nat) (ppb : Int) (s : State) :
    Seals s (execTrackerLock l ppb s) := by
  unfold execTrackerLock; simp
@[simp] theorem vault_execTrackerUnlock (l : Nat) (signal : Bool) (s : State) :
    Seals s (execTrackerUnlock l signal s) := by
  unfold execTrackerUnlock; simp
@[simp] theorem vault_execFreqWindowEnd (l : Nat) (rate : Int) (s : State) :
    Seals s (execFreqWindowEnd l rate s) := by
  unfold execFreqWindowEnd; refine seals_onPort ?_; dsimp only; (repeat' split) <;> simp
@[simp] theorem vault_setBlockLock (s : State) (l : Nat) (b : Bool) :
    (State.setBlockLock s l b).vault = s.vault := by
  unfold State.setBlockLock; simp
@[simp] theorem vault_execBlockLockAcquire (h : HeaderSearch) (s : State) :
    Seals s (execBlockLockAcquire h s) := by
  unfold execBlockLockAcquire; simp
@[simp] theorem vault_alignLost (s : State) (p : Nat) :
    (State.alignLost s p).vault = s.vault := by
  unfold State.alignLost; simp
@[simp] theorem vault_lockLost (s : State) (l : Nat) :
    (State.lockLost s l).vault = s.vault := by
  unfold State.lockLost; simp
@[simp] theorem vault_execBlockLockLoss (h : HeaderCount) (s : State) :
    Seals s (execBlockLockLoss h s) := by
  unfold execBlockLockLoss; simp
@[simp] theorem vault_execAlignLockChange (p : Nat) (lock : Bool) (skew : Nat) (s : State) :
    Seals s (execAlignLockChange p lock skew s) := by
  unfold execAlignLockChange; simp
@[simp] theorem vault_execHiBerChange (p : Nat) (hi : Bool) (s : State) :
    Seals s (execHiBerChange p hi s) := by
  unfold execHiBerChange; simp
@[simp] theorem vault_execFaultOrderedSetReceive (p : Nat) (localFault : Bool) (s : State) :
    Seals s (execFaultOrderedSetReceive p localFault s) := by
  unfold execFaultOrderedSetReceive; simp
@[simp] theorem vault_execPcsLinkUp (p : Nat) (s : State) :
    Seals s (execPcsLinkUp p s) := by
  unfold execPcsLinkUp; simp
@[simp] theorem vault_execUncorrectableCodeword (p : Nat) (blocks : Nat) (corrected : Nat) (symbols : Nat) (s : State) :
    Seals s (execUncorrectableCodeword p blocks corrected symbols s) := by
  unfold execUncorrectableCodeword; simp
@[simp] theorem vault_execPrbsLock (b : PatternBits) (s : State) :
    Seals s (execPrbsLock b s) := by
  unfold execPrbsLock; simp
@[simp] theorem vault_execPrbsLoss (l : Nat) (x : PatternErrors) (s : State) :
    Seals s (execPrbsLoss l x s) := by
  unfold execPrbsLoss; simp
@[simp] theorem vault_undoStep (s : State) (l : Nat) :
    (State.undoStep s l).vault = s.vault := by
  unfold State.undoStep; simp
@[simp] theorem vault_snapshot (s : State) (l : Nat) :
    (State.snapshot s l).vault = s.vault := by
  unfold State.snapshot; simp
@[simp] theorem vault_txSleep (s : State) (l : Nat) :
    (State.txSleep s l).vault = s.vault := by
  unfold State.txSleep; simp
@[simp] theorem vault_txWake (s : State) (l : Nat) :
    (State.txWake s l).vault = s.vault := by
  unfold State.txWake; simp
@[simp] theorem vault_sleepFollow (s : State) (l : Nat) :
    (State.sleepFollow s l).vault = s.vault := by
  unfold State.sleepFollow; dsimp only; (repeat' split) <;> simp
@[simp] theorem vault_wrSleep (s : State) (l : Nat) (data : Nat) :
    (State.wrSleep s l data).vault = s.vault := by
  unfold State.wrSleep; simp
@[simp] theorem vault_execLaneSleepRequest (e : Nat) (l : Nat) (idle : BitVec 16) (s : State) :
    Seals s (execLaneSleepRequest e l idle s) := by
  unfold execLaneSleepRequest; simp
@[simp] theorem vault_execLaneWakeRequest (e : Nat) (l : Nat) (idle : BitVec 16) (s : State) :
    Seals s (execLaneWakeRequest e l idle s) := by
  unfold execLaneWakeRequest; simp
@[simp] theorem vault_execTxIdleExpire (p : Nat) (s : State) :
    Seals s (execTxIdleExpire p s) := by
  unfold execTxIdleExpire; simp
@[simp] theorem vault_frameWake (s : State) (p : Nat) :
    (State.frameWake s p).vault = s.vault := by
  unfold State.frameWake; dsimp only; split <;> simp
@[simp] theorem vault_execTxWakeDone (p : Nat) (s : State) :
    Seals s (execTxWakeDone p s) := by
  unfold execTxWakeDone; simp
@[simp] theorem vault_execRxSleepEnter (l : Nat) (s : State) :
    Seals s (execRxSleepEnter l s) := by
  unfold execRxSleepEnter; simp
@[simp] theorem vault_execRxWake (l : Nat) (bad : Bool) (s : State) :
    Seals s (execRxWake l bad s) := by
  unfold execRxWake; simp
@[simp] theorem vault_laneStarted (s : State) (l : Nat) :
    (State.laneStarted s l).vault = s.vault := by
  unfold State.laneStarted; simp
@[simp] theorem vault_endSleep (s : State) (l : Nat) :
    (State.endSleep s l).vault = s.vault := by
  unfold State.endSleep; simp
@[simp] theorem vault_laneStopped (s : State) (l : Nat) :
    (State.laneStopped s l).vault = s.vault := by
  unfold State.laneStopped; simp
@[simp] theorem vault_clearLocks (s : State) (p : Nat) :
    (State.clearLocks s p).vault = s.vault := by
  unfold State.clearLocks; simp
@[simp] theorem vault_pcsStarted (s : State) (p : Nat) :
    (State.pcsStarted s p).vault = s.vault := by
  unfold State.pcsStarted; simp
@[simp] theorem vault_pcsStopping (s : State) (p : Nat) (lanes : List Nat) :
    (State.pcsStopping s p lanes).vault = s.vault := by
  unfold State.pcsStopping; simp

/-! ## Machine/Gate.lean -/

@[simp] theorem vault_gateShow (s : State) (p : Nat) :
    (State.gateShow s p).1.vault = s.vault := by
  unfold State.gateShow; (repeat' split) <;> simp
@[simp] theorem vault_gateSync (s : State) (p : Nat) :
    (State.gateSync s p).vault = s.vault := by
  unfold State.gateSync; dsimp only; split <;> simp
@[simp] theorem vault_execGateEntryStart (p : Nat) (s : State) :
    Seals s (execGateEntryStart p s) := by
  unfold execGateEntryStart; simp
@[simp] theorem vault_gateReplace (s : State) (p : Nat) :
    (State.gateReplace s p).vault = s.vault := by
  unfold State.gateReplace; simp
@[simp] theorem vault_gateStarted (s : State) (p : Nat) :
    (State.gateStarted s p).vault = s.vault := by
  unfold State.gateStarted; simp
@[simp] theorem vault_gateStopped (s : State) (p : Nat) :
    (State.gateStopped s p).vault = s.vault := by
  unfold State.gateStopped; simp

/-! ## Machine/Ridge.lean -/

@[simp] theorem vault_mirror (s : State) (f : Fld) (d : Nat) (v : Nat) :
    (State.mirror s f d v).vault = s.vault := by
  unfold State.mirror; simp
@[simp] theorem vault_setScale (s : State) (d : Nat) (offset : Nat) (base : Nat) (rate : Nat) :
    (State.setScale s d offset base rate).vault = s.vault := by
  unfold State.setScale; simp
@[simp] theorem vault_setValid (s : State) (d : Nat) (b : Bool) :
    (State.setValid s d b).vault = s.vault := by
  unfold State.setValid; simp
@[simp] theorem vault_markLine (s : State) (d : Nat) (line : Nat) :
    (State.markLine s d line).vault = s.vault := by
  unfold State.markLine; simp
@[simp] theorem vault_markMs (s : State) (d : Nat) :
    (State.markMs s d).vault = s.vault := by
  unfold State.markMs; simp
@[simp] theorem vault_markSec (s : State) (d : Nat) :
    (State.markSec s d).vault = s.vault := by
  unfold State.markSec; simp
@[simp] theorem vault_execMillisecondBoundary (d : Nat) (s : State) :
    Seals s (execMillisecondBoundary d s) := by
  unfold execMillisecondBoundary; simp
@[simp] theorem vault_execSecondBoundary (d : Nat) (s : State) :
    Seals s (execSecondBoundary d s) := by
  unfold execSecondBoundary; simp
@[simp] theorem vault_changeSeen (s : State) (d : Nat) (A : Nat) (old : Nat) :
    (State.changeSeen s d A old).vault = s.vault := by
  unfold State.changeSeen
  have gates (u : State) :
      ((List.range 24).foldl (fun s i => s.gateReplace (24 * d + i)) u).vault = u.vault :=
    vault_foldl _ _ (fun u _ => vault_gateReplace u _) u
  dsimp only
  split <;> simp only [vault_refreshTg, vault_markSec, vault_markMs, vault_gnssApplied, vault_linkShift, gates, vault_fieldReplace,
    vault_evApplied, vault_raise, vault_wf]
@[simp] theorem vault_follow (s : State) (d : Nat) (A : Nat) (a : AlignState) :
    (State.follow s d A a).vault = s.vault := by
  unfold State.follow; simp
@[simp] theorem vault_announce (s : State) (d : Nat) (A : Nat) :
    (State.announce s d A).vault = s.vault := by
  unfold State.announce; simp
@[simp] theorem vault_refreshPend (s : State) (d : Nat) :
    (State.refreshPend s d).vault = s.vault := by
  unfold State.refreshPend; simp
@[simp] theorem vault_withdraw (s : State) (A : Nat) :
    (State.withdraw s A).vault = s.vault := by
  unfold State.withdraw; simp
@[simp] theorem vault_wrRate (s : State) (by_ : Option Nat) (d : Nat) (data : Nat) :
    (State.wrRate s by_ d data).vault = s.vault := by
  unfold State.wrRate; simp
@[simp] theorem vault_stepRefused (s : State) (d : Nat) (code : Nat) :
    (State.stepRefused s d code).vault = s.vault := by
  unfold State.stepRefused; simp
@[simp] theorem vault_wrStep (s : State) (d : Nat) (data : Nat) :
    (State.wrStep s d data).vault = s.vault := by
  unfold State.wrStep; simp
@[simp] theorem vault_execRateWrite (e : Nat) (d : Nat) (data : Word) (s : State) :
    Seals s (execRateWrite e d data s) := by
  unfold execRateWrite; simp
@[simp] theorem vault_execStepWrite (e : Nat) (d : Nat) (data : Word) (s : State) :
    Seals s (execStepWrite e d data s) := by
  unfold execStepWrite; simp
@[simp] theorem vault_rebaseAt (s : State) (d : Nat) (A : Nat) (rate : Nat) :
    (State.rebaseAt s d A rate).vault = s.vault := by
  unfold State.rebaseAt; simp
@[simp] theorem vault_stepAt (s : State) (d : Nat) (A : Nat) (others : Bool) (x : Int) :
    (State.stepAt s d A others x).1.vault = s.vault := by
  unfold State.stepAt; simp
@[simp] theorem vault_startReply (s : State) (by_ : List Nat) (die : Nat) (blk : Nat) (inst : Nat) (code : Nat) :
    (State.startReply s by_ die blk inst code).vault = s.vault := by
  unfold State.startReply; simp
@[simp] theorem vault_startAt (s : State) (d : Nat) (_A : Nat) (p : PendStart) :
    (State.startAt s d _A p).vault = s.vault := by
  unfold State.startAt; simp
@[simp] theorem vault_stepsAt (s : State) (d A : Nat) (others : Bool) (l : List Int) :
    (s.stepsAt d A others l).1.vault = s.vault := by
  induction l generalizing s others with
  | nil => rfl
  | cons x r ih => unfold State.stepsAt; simp [ih]
@[simp] theorem vault_applyOwn (s : State) (d : Nat) (A : Nat) :
    (State.applyOwn s d A).1.vault = s.vault := by unfold State.applyOwn; (try dsimp only); (repeat' split) <;> (try split) <;> simp
@[simp] theorem vault_applyOther (s : State) (d : Nat) (A : Nat) (a : AlignState) :
    (State.applyOther s d A a).vault = s.vault := by
  unfold State.applyOther; simp
@[simp] theorem vault_changeApply (s : State) (d : Nat) (A : Nat) :
    (State.changeApply s d A).vault = s.vault := by
  unfold State.changeApply; simp
@[simp] theorem vault_execChangeApply (d : Nat) (s : State) :
    Seals s (execChangeApply d s) := by
  unfold execChangeApply; refine seals_onDie ?_; (repeat' split) <;> simp
@[simp] theorem vault_execAlignMessageArrive (d : Nat) (skew : Int) (s : State) :
    Seals s (execAlignMessageArrive d skew s) := by
  unfold execAlignMessageArrive; refine seals_onDie ?_; (repeat' split) <;> simp
@[simp] theorem vault_execSkewStale (d : Nat) (s : State) :
    Seals s (execSkewStale d s) := by
  unfold execSkewStale; simp
@[simp] theorem vault_execDeltaMeasureBegin (d : Nat) (s : State) :
    Seals s (execDeltaMeasureBegin d s) := by
  unfold execDeltaMeasureBegin; simp
@[simp] theorem vault_execDeltaMeasureEnd (d : Nat) (delta : Int) (s : State) :
    Seals s (execDeltaMeasureEnd d delta s) := by
  unfold execDeltaMeasureEnd; simp
@[simp] theorem vault_execReplicaCheck (d : Nat) (bad : Bool) (s : State) :
    Seals s (execReplicaCheck d bad s) := by
  unfold execReplicaCheck; simp
@[simp] theorem vault_ridgePend (s : State) (d : Nat) (by_ : List Nat) :
    (State.ridgePend s d by_).vault = s.vault := by
  unfold State.ridgePend; simp
@[simp] theorem vault_takeRate (s : State) (d : Nat) :
    (State.takeRate s d).vault = s.vault := by
  unfold State.takeRate; (repeat' split) <;> simp
@[simp] theorem vault_ridgeCancel (s : State) (d : Nat) :
    (State.ridgeCancel s d).vault = s.vault := by
  unfold State.ridgeCancel; (repeat' split) <;> simp
@[simp] theorem vault_ridgeStarted (s : State) (d : Nat) :
    (State.ridgeStarted s d).vault = s.vault := by
  unfold State.ridgeStarted; dsimp only; (repeat' split) <;> simp
@[simp] theorem vault_ridgeStopped (s : State) (d : Nat) :
    (State.ridgeStopped s d).vault = s.vault := by
  unfold State.ridgeStopped; simp

end Sys2Proof.Machine
end

