-- ==== Sys2Proof/Laws/VaultPlane.lean ====
section
/-!
SUPPORT. What leaves `State.vault` alone, by definition: tables, frames, redundancy, timestamps, mirroring, switching and queues.
-/
namespace Sys2Proof.Machine

/-! ## Machine/L2.lean -/

theorem vault_withOrder (u : State) (x : L2Order) : State.vault { u with l2Order := x } = u.vault := rfl

@[simp] theorem vault_setL2 (s : State) (d : Nat) (x : L2State) :
    (State.setL2 s d x).vault = s.vault := by
  unfold State.setL2; simp
@[simp] theorem vault_l2SetBank (s : State) (d : Nat) (b : L2Bank) :
    (State.l2SetBank s d b).vault = s.vault := by
  unfold State.l2SetBank; simp
@[simp] theorem vault_l2Fail (s : State) (d : Nat) (key : Nat) :
    (State.l2Fail s d key).vault = s.vault := by
  unfold State.l2Fail; simp
@[simp] theorem vault_l2Write (s : State) (d : Nat) (key : Nat) (word : Nat) :
    (State.l2Write s d key word).1.vault = s.vault := by
  unfold State.l2Write; dsimp only; (repeat' split) <;> simp
@[simp] theorem vault_l2Learn (s : State) (d : Nat) (seq : Nat) (key : Nat) (port : Nat) :
    (State.l2Learn s d seq key port).vault = s.vault := by
  unfold State.l2Learn; simp
@[simp] theorem vault_l2Age (s : State) (d : Nat) (lo : Nat) (hi : Nat) :
    (State.l2Age s d lo hi).vault = s.vault := by
  unfold State.l2Age; simp
@[simp] theorem vault_l2Flush (s : State) (d : Nat) (port : Nat) (all : Bool) (lo : Nat) (hi : Nat) :
    (State.l2Flush s d port all lo hi).vault = s.vault := by
  unfold State.l2Flush; simp
@[simp] theorem vault_l2Status (s : State) :
    (State.l2Status s).vault = s.vault := by
  unfold State.l2Status; simp
@[simp] theorem vault_l2Notice (s : State) (d : Nat) :
    (State.l2Notice s d).vault = s.vault := by
  unfold State.l2Notice; simp
@[simp] theorem vault_l2Miss (s : State) (d : Nat) :
    (State.l2Miss s d).vault = s.vault := by
  unfold State.l2Miss; simp
@[simp] theorem vault_l2Broadcast (s : State) (seq : Nat) (c : L2Change) :
    (State.l2Broadcast s seq c).vault = s.vault := by
  unfold State.l2Broadcast; simp
@[simp] theorem vault_callAnswer (s : State) (c : Option (Nat × Nat)) (v : Nat) (block : List Byte) :
    (State.callAnswer s c v block).vault = s.vault := by
  unfold State.callAnswer; dsimp only; (repeat' split) <;> simp
@[simp] theorem vault_flushAnswer (s : State) (c : Option (Nat × Nat)) (v : Nat) :
    (State.flushAnswer s c v).vault = s.vault := by
  unfold State.flushAnswer; simp
@[simp] theorem vault_l2Number (s : State) (h : L2Held) :
    (State.l2Number s h).vault = s.vault := by
  unfold State.l2Number; (repeat' split) <;> simp
@[simp] theorem vault_learnDrop (s : State) (d : Nat) (key : Nat) :
    (State.learnDrop s d key).vault = s.vault := by
  unfold State.learnDrop; simp
@[simp] theorem vault_l2Turn (s : State) (h : L2Held) :
    (State.l2Turn s h).vault = s.vault := by
  unfold State.l2Turn; (repeat' split) <;> simp
@[simp] theorem vault_l2Offer (s : State) (h : L2Held) :
    (State.l2Offer s h).vault = s.vault := by
  unfold State.l2Offer; (repeat' split) <;> simp
@[simp] theorem vault_l2Serve (s : State) :
    (State.l2Serve s).vault = s.vault := by
  unfold State.l2Serve
  dsimp only
  rw [vault_foldl _ _ (fun s x => by split <;> simp)]
  simp
@[simp] theorem vault_l2SnapAt (s : State) (seq : Nat) :
    (State.l2SnapAt s seq).vault = s.vault := by
  unfold State.l2SnapAt; simp
@[simp] theorem vault_l2Applied (s : State) (d : Nat) (seq : Nat) :
    (State.l2Applied s d seq).vault = s.vault := by
  unfold State.l2Applied; simp
@[simp] theorem vault_l2Rehash (s : State) (d : Nat) (seeds : Nat × Nat) :
    (State.l2Rehash s d seeds).vault = s.vault := by
  unfold State.l2Rehash; dsimp only; (repeat' split) <;> simp
@[simp] theorem vault_l2Switch (s : State) (d : Nat) :
    (State.l2Switch s d).vault = s.vault := by
  unfold State.l2Switch; simp
@[simp] theorem vault_l2Upd (s : State) (d seq : Nat) (c : L2Change) : (s.l2Upd d seq c).1.vault = s.vault := by
  unfold State.l2Upd; cases c <;> dsimp only <;> (repeat' split) <;> simp
@[simp] theorem vault_l2Whole (s : State) (d : Nat) (seq : Nat) (c : L2Change) :
    (State.l2Whole s d seq c).vault = s.vault := by cases c <;> simp [State.l2Whole]
@[simp] theorem vault_execOrderPointArrive (src : Nat) (s : State) :
    Seals s (execOrderPointArrive src s) := by
  unfold execOrderPointArrive; refine seals_onDie ?_; (repeat' split) <;> simp
@[simp] theorem vault_execAgePeriodExpire (s : State) :
    Seals s (execAgePeriodExpire s) := by
  unfold execAgePeriodExpire
  extract_lets p _ s1
  have h1 : s1.vault = s.vault := rfl
  clear_value s1
  split
  · (repeat' split) <;> simp [h1]
  · simp
@[simp] theorem vault_wrAge (s : State) (data : Nat) :
    (State.wrAge s data).vault = s.vault := by
  unfold State.wrAge; simp
@[simp] theorem vault_execL2ChangeArrive (d : Nat) (s : State) :
    Seals s (execL2ChangeArrive d s) := by
  unfold execL2ChangeArrive; refine seals_onDie ?_; dsimp only; (repeat' split) <;> simp
@[simp] theorem vault_execApplyLearn (d : Nat) (s : State) :
    Seals s (execApplyLearn d s) := by
  unfold execApplyLearn; refine seals_onDie ?_; (repeat' split) <;> simp
@[simp] theorem vault_l2Scan (s : State) (d : Nat) (upTo : Nat) (mine : L2Change → Bool) :
    (State.l2Scan s d upTo mine).vault = s.vault := by
  unfold State.l2Scan; dsimp only; (repeat' split) <;> simp
@[simp] theorem vault_execApplyAge (d : Nat) (upTo : Nat) (s : State) :
    Seals s (execApplyAge d upTo s) := by
  unfold execApplyAge; simp
@[simp] theorem vault_execApplyFlush (d : Nat) (upTo : Nat) (s : State) :
    Seals s (execApplyFlush d upTo s) := by
  unfold execApplyFlush; simp
@[simp] theorem vault_execTableScanEnd (d : Nat) (s : State) :
    Seals s (execTableScanEnd d s) := by
  unfold execTableScanEnd; refine seals_onDie ?_; (repeat' split) <;> simp
@[simp] theorem vault_updDone (s : State) (st : Nat) :
    (State.updDone s st).vault = s.vault := by
  unfold State.updDone; simp
@[simp] theorem vault_wrUpdCmd (s : State) (data : Nat) :
    (State.wrUpdCmd s data).vault = s.vault := by
  unfold State.wrUpdCmd; simp
@[simp] theorem vault_execL2UpdWrite (e : Nat) (s : State) :
    Seals s (execL2UpdWrite e s) := by
  unfold execL2UpdWrite; simp
@[simp] theorem vault_execL2UpdDelete (e : Nat) (s : State) :
    Seals s (execL2UpdDelete e s) := by
  unfold execL2UpdDelete; simp
@[simp] theorem vault_execApplyUpd (d : Nat) (s : State) :
    Seals s (execApplyUpd d s) := by
  unfold execApplyUpd; refine seals_onDie ?_; (repeat' split) <;> simp
@[simp] theorem vault_wrRehash (s : State) (data : Nat) :
    (State.wrRehash s data).vault = s.vault := by
  unfold State.wrRehash; simp
@[simp] theorem vault_execRehashGo (e : Nat) (s : State) :
    Seals s (execRehashGo e s) := by
  unfold execRehashGo; simp
@[simp] theorem vault_execApplyRehash (d : Nat) (s : State) :
    Seals s (execApplyRehash d s) := by
  unfold execApplyRehash; refine seals_onDie ?_; (repeat' split) <;> simp
@[simp] theorem vault_rehashEnds (s : State) (failed : Bool) :
    (State.rehashEnds s failed).vault = s.vault := by
  unfold State.rehashEnds; simp
@[simp] theorem vault_execRehashResult (s : State) :
    Seals s (execRehashResult s) := by
  unfold execRehashResult; (repeat' split) <;> simp
@[simp] theorem vault_l2SwitchApply (s : State) (d : Nat) :
    (State.l2SwitchApply s d).vault = s.vault := by
  unfold State.l2SwitchApply; (repeat' split) <;> simp
@[simp] theorem vault_l2CopyBegin (s : State) (d : Nat) :
    (State.l2CopyBegin s d).vault = s.vault := by
  unfold State.l2CopyBegin; simp
@[simp] theorem vault_execL2ResyncStart (d : Nat) (s : State) :
    Seals s (execL2ResyncStart d s) := by
  unfold execL2ResyncStart; simp
@[simp] theorem vault_l2Abandon (s : State) (d : Nat) :
    (State.l2Abandon s d).vault = s.vault := by
  unfold State.l2Abandon; simp
@[simp] theorem vault_l2Copy (s : State) (d : Nat) (base : Nat) (z : L2Snap) :
    (State.l2Copy s d base z).vault = s.vault := by
  unfold State.l2Copy; simp
@[simp] theorem vault_l2Drain (s : State) (d : Nat) (l : List (Nat × L2Change)) : (s.l2Drain d l).vault = s.vault := by
  induction l generalizing s with
  | nil => simp [State.l2Drain]
  | cons x r ih =>
    obtain ⟨seq, c⟩ := x
    unfold State.l2Drain
    dsimp only
    split <;> simp [ih]
@[simp] theorem vault_l2CopyEnd (s : State) (d : Nat) :
    (State.l2CopyEnd s d).vault = s.vault := by
  unfold State.l2CopyEnd; simp
@[simp] theorem vault_execL2ResyncEnd (d : Nat) (s : State) :
    Seals s (execL2ResyncEnd d s) := by
  unfold execL2ResyncEnd; refine seals_onDie ?_; dsimp only; (repeat' split) <;> simp
@[simp] theorem vault_l2Judge (s : State) (d : Nat) (epoch : Nat) (key : Nat) (port : Nat) :
    (State.l2Judge s d epoch key port).vault = s.vault := by
  unfold State.l2Judge; simp
@[simp] theorem vault_l2Started (s : State) (d : Nat) :
    (State.l2Started s d).vault = s.vault := by
  unfold State.l2Started; simp
@[simp] theorem vault_l2Stopped (s : State) (d : Nat) :
    (State.l2Stopped s d).vault = s.vault := by
  unfold State.l2Stopped; simp
@[simp] theorem vault_l2ScanCut (s : State) (d : Nat) :
    (State.l2ScanCut s d).vault = s.vault := by
  unfold State.l2ScanCut; simp

/-! ## Machine/Tables.lean -/

@[simp] theorem seals_onTbl {d blk : Nat} {s : State} {f : State → State} (h : (f s).vault = s.vault) :
    Seals s (onTbl d blk s f) := by unfold onTbl; simp [h]

@[simp] theorem vault_setTbl (s : State) (d : Nat) (blk : Nat) (x : TblState) :
    (State.setTbl s d blk x).vault = s.vault := by
  unfold State.setTbl; simp
@[simp] theorem vault_setTblOrder (s : State) (blk : Nat) (x : TblOrder) :
    (State.setTblOrder s blk x).vault = s.vault := by
  unfold State.setTblOrder; simp
@[simp] theorem vault_tblShow (s : State) (d : Nat) (blk : Nat) :
    (State.tblShow s d blk).vault = s.vault := by
  unfold State.tblShow; simp
@[simp] theorem vault_setTstate (s : State) (d : Nat) (blk : Nat) (v : Nat) :
    (State.setTstate s d blk v).vault = s.vault := by
  unfold State.setTstate; simp
@[simp] theorem vault_tblRespond (s : State) (d : Nat) (blk : Nat) (status : Nat) (seq : Nat) :
    (State.tblRespond s d blk status seq).vault = s.vault := by
  unfold State.tblRespond; dsimp only; (repeat' split) <;> simp
@[simp] theorem vault_tblRefuse (s : State) (d : Nat) (blk : Nat) (status : Nat) :
    (State.tblRefuse s d blk status).vault = s.vault := by
  unfold State.tblRefuse; simp
@[simp] theorem vault_tblGo (s : State) (d : Nat) (blk : Nat) (by_ : Option (Nat × Nat)) :
    (State.tblGo s d blk by_).vault = s.vault := by
  unfold State.tblGo; simp
@[simp] theorem vault_wrTblCmd (s : State) (d : Nat) (blk : Nat) (data : Nat) :
    (State.wrTblCmd s d blk data).vault = s.vault := by
  unfold State.wrTblCmd; simp
@[simp] theorem vault_execTableCmdGo (e : Nat) (d : Nat) (blk : Nat) (s : State) :
    Seals s (execTableCmdGo e d blk s) := by
  unfold execTableCmdGo; simp
@[simp] theorem vault_tblPost (s : State) (blk : Nat) (seq : Nat) (c : TblOp) (step : TblStep) (ds : List Nat) :
    (State.tblPost s blk seq c step ds).vault = s.vault := by
  unfold State.tblPost; simp
@[simp] theorem vault_tblBegin (s : State) (d : Nat) (blk : Nat) (op : Nat) (step : TblStep) :
    (State.tblBegin s d blk op step).vault = s.vault := by
  unfold State.tblBegin; simp
@[simp] theorem vault_execInsert (d : Nat) (blk : Nat) (s : State) :
    Seals s (execInsert d blk s) := by
  unfold execInsert; simp
@[simp] theorem vault_execDelete (d : Nat) (blk : Nat) (s : State) :
    Seals s (execDelete d blk s) := by
  unfold execDelete; simp
@[simp] theorem vault_execRebuildBegin (d : Nat) (blk : Nat) (s : State) :
    Seals s (execRebuildBegin d blk s) := by
  unfold execRebuildBegin; simp
@[simp] theorem vault_execShadowInsert (d : Nat) (blk : Nat) (s : State) :
    Seals s (execShadowInsert d blk s) := by
  unfold execShadowInsert; simp
@[simp] theorem vault_execShadowDelete (d : Nat) (blk : Nat) (s : State) :
    Seals s (execShadowDelete d blk s) := by
  unfold execShadowDelete; simp
@[simp] theorem vault_execCommit (d : Nat) (blk : Nat) (s : State) :
    Seals s (execCommit d blk s) := by
  unfold execCommit; simp
@[simp] theorem vault_execAbort (d : Nat) (blk : Nat) (s : State) :
    Seals s (execAbort d blk s) := by
  unfold execAbort; refine seals_onTbl ?_; dsimp only; (repeat' split) <;> simp
@[simp] theorem vault_execRead (d : Nat) (blk : Nat) (s : State) :
    Seals s (execRead d blk s) := by
  unfold execRead; simp
@[simp] theorem vault_tblApply (s : State) (d : Nat) (blk : Nat) (c : TblOp) :
    (State.tblApply s d blk c).vault = s.vault := by
  unfold State.tblApply; (repeat' split) <;> simp
@[simp] theorem vault_execTableReplicaWrite (d : Nat) (blk : Nat) (s : State) :
    Seals s (execTableReplicaWrite d blk s) := by
  unfold execTableReplicaWrite; refine seals_onTbl ?_; (repeat' split) <;> simp
@[simp] theorem vault_tblFinish (s : State) (blk : Nat) (j : TblJob) :
    (State.tblFinish s blk j).vault = s.vault := by
  unfold State.tblFinish; simp
@[simp] theorem vault_execTableAcksComplete (blk : Nat) (s : State) :
    Seals s (execTableAcksComplete blk s) := by
  unfold execTableAcksComplete; (repeat' split) <;> simp
@[simp] theorem vault_tblSwitchApply (s : State) (d : Nat) (blk : Nat) :
    (State.tblSwitchApply s d blk).vault = s.vault := by
  unfold State.tblSwitchApply; (repeat' split) <;> simp
@[simp] theorem vault_execTableSwitchApply (d : Nat) (blk : Nat) (s : State) :
    Seals s (execTableSwitchApply d blk s) := by
  unfold execTableSwitchApply; simp
@[simp] theorem vault_execBankDrainEnd (d : Nat) (blk : Nat) (s : State) :
    Seals s (execBankDrainEnd d blk s) := by
  unfold execBankDrainEnd
  split
  · refine seals_onInst ?_
    dsimp only
    (repeat' split) <;> simp
  · refine seals_onTbl ?_
    dsimp only
    (repeat' split) <;> simp
@[simp] theorem vault_tblSync (s : State) (d : Nat) (blk : Nat) :
    (State.tblSync s d blk).vault = s.vault := by
  unfold State.tblSync; simp
@[simp] theorem vault_execTableSyncEnd (blk : Nat) (s : State) :
    Seals s (execTableSyncEnd blk s) := by
  unfold execTableSyncEnd; simp
@[simp] theorem vault_tblNotice (s : State) (d : Nat) (blk : Nat) :
    (State.tblNotice s d blk).vault = s.vault := by
  unfold State.tblNotice; simp
@[simp] theorem vault_execTableResyncStart (d : Nat) (blk : Nat) (s : State) :
    Seals s (execTableResyncStart d blk s) := by
  unfold execTableResyncStart; simp
@[simp] theorem vault_tblAbandon (s : State) (d : Nat) (blk : Nat) :
    (State.tblAbandon s d blk).vault = s.vault := by
  unfold State.tblAbandon; simp
@[simp] theorem vault_execTableResyncEnd (d : Nat) (blk : Nat) (s : State) :
    Seals s (execTableResyncEnd d blk s) := by
  unfold execTableResyncEnd; simp
@[simp] theorem vault_tblMiss (s : State) (d : Nat) (blk : Nat) :
    (State.tblMiss s d blk).vault = s.vault := by
  unfold State.tblMiss; simp
@[simp] theorem vault_tblForced (s : State) (d : Nat) (blk : Nat) :
    (State.tblForced s d blk).vault = s.vault := by
  unfold State.tblForced; simp
@[simp] theorem vault_tblCut (s : State) (d : Nat) (blk : Nat) :
    (State.tblCut s d blk).vault = s.vault := by
  unfold State.tblCut; simp
@[simp] theorem vault_tblStarted (s : State) (d : Nat) (blk : Nat) :
    (State.tblStarted s d blk).vault = s.vault := by
  unfold State.tblStarted; simp
@[simp] theorem vault_tblStopped (s : State) (d : Nat) (blk : Nat) :
    (State.tblStopped s d blk).vault = s.vault := by
  unfold State.tblStopped; simp

/-! ## Machine/Frame.lean -/

@[simp] theorem vault_carryFcs (s : State) (old : List Byte) (body : List Byte) (moved : Bool) :
    (State.carryFcs s old body moved).2.vault = s.vault := by
  unfold State.carryFcs; simp

/-! ## Machine/Lookup.lean -/

@[simp] theorem vault_portCount (s : State) (p : Nat) (k : Nat) (n : Nat) :
    (State.portCount s p k n).vault = s.vault := by
  unfold State.portCount; simp
@[simp] theorem vault_forward (s : State) (d : Nat) (ingress : Option Nat) (vlan : Nat) (l : List Byte) (spare : Bool) :
    (State.forward s d ingress vlan l spare).1.vault = s.vault := by
  unfold State.forward; dsimp only; (repeat' split) <;> simp
@[simp] theorem vault_dieCount (s : State) (d : Nat) (k : Nat) (n : Nat) :
    (State.dieCount s d k n).vault = s.vault := by
  unfold State.dieCount; simp
@[simp] theorem vault_settle (s : State) (d : Nat) (part : Nat) (count : Option Nat) (ingress : List Nat) (f : Fate) :
    (State.settle s d part count ingress f).1.vault = s.vault := by
  unfold State.settle; (repeat' split) <;> simp

/-! ## Machine/Prp.lean -/

@[simp] theorem vault_prpShow (s : State) (d : Nat) :
    (State.prpShow s d).vault = s.vault := by
  unfold State.prpShow; simp
@[simp] theorem vault_setPrp (s : State) (d : Nat) (l : List PrpEntry) :
    (State.setPrp s d l).vault = s.vault := by
  unfold State.setPrp; simp
@[simp] theorem vault_prpPut (s : State) (d : Nat) (e : PrpEntry) :
    (State.prpPut s d e).vault = s.vault := by
  unfold State.prpPut; simp
@[simp] theorem vault_prpFull (s : State) (d : Nat) (i : Nat) :
    (State.prpFull s d i).vault = s.vault := by
  unfold State.prpFull; simp
@[simp] theorem vault_prpProxy (s : State) (d : Nat) (i : Nat) (src : Nat) :
    (State.prpProxy s d i src).vault = s.vault := by
  unfold State.prpProxy; (repeat' split) <;> simp
@[simp] theorem vault_prpDeliver (s : State) (d : Nat) (i : Nat) (src : Nat) (seq : Nat) :
    (State.prpDeliver s d i src seq).1.vault = s.vault := by
  unfold State.prpDeliver; dsimp only; (repeat' split) <;> simp
@[simp] theorem vault_prpRing (s : State) (d : Nat) (i : Nat) (src : Nat) (seq : Nat) (onB : Bool) :
    (State.prpRing s d i src seq onB).1.vault = s.vault := by
  unfold State.prpRing; (repeat' split) <;> simp
@[simp] theorem vault_prpTagged (s : State) (d : Nat) (i : Nat) (onB : Bool) :
    (State.prpTagged s d i onB).vault = s.vault := by
  unfold State.prpTagged; simp
@[simp] theorem vault_prpUntagged (s : State) (d : Nat) (i : Nat) (onB : Bool) :
    (State.prpUntagged s d i onB).vault = s.vault := by
  unfold State.prpUntagged; simp
@[simp] theorem vault_prpReceive (s : State) (d : Nat) (i : Nat) (onB : Bool) (l : List Byte) :
    (State.prpReceive s d i onB l).1.vault = s.vault := by
  unfold State.prpReceive; (repeat' split) <;> simp
@[simp] theorem vault_hsrReceive (s : State) (d : Nat) (i : Nat) (onB : Bool) (l : List Byte) :
    (State.hsrReceive s d i onB l).1.vault = s.vault := by
  unfold State.hsrReceive; (repeat' split) <;> simp
@[simp] theorem vault_prpNumber (s : State) (d : Nat) (i : Nat) :
    (State.prpNumber s d i).2.vault = s.vault := by
  unfold State.prpNumber; simp
@[simp] theorem vault_prpStopped (s : State) (d : Nat) (i : Nat) :
    (State.prpStopped s d i).vault = s.vault := by
  unfold State.prpStopped; simp
@[simp] theorem vault_execPrpForget (d : Nat) (i : Nat) (src : Nat) (s : State) :
    Seals s (execPrpForget d i src s) := by
  unfold execPrpForget; refine seals_onInst ?_; (repeat' split) <;> simp
@[simp] theorem vault_execLanOkExpire (d : Nat) (i : Nat) (onB : Bool) (s : State) :
    Seals s (execLanOkExpire d i onB s) := by
  unfold execLanOkExpire; simp

/-! ## Machine/Tsu.lean -/

@[simp] theorem vault_tsqShow (s : State) (p : Nat) :
    (State.tsqShow s p).vault = s.vault := by
  unfold State.tsqShow; simp
@[simp] theorem vault_tsPush (s : State) (p : Nat) (id : Nat) (time : XT) (tg : Bool) (dropped : Bool) :
    (State.tsPush s p id time tg dropped).vault = s.vault := by
  unfold State.tsPush; simp
@[simp] theorem vault_tsDrop (s : State) (p : Nat) (m : FrameMeta) :
    (State.tsDrop s p m).vault = s.vault := by
  unfold State.tsDrop; (repeat' split) <;> simp
@[simp] theorem vault_tsTake (s : State) (p : Nat) :
    (State.tsTake s p).1.vault = s.vault := by
  unfold State.tsTake; dsimp only; (repeat' split) <;> simp
@[simp] theorem vault_execTxqMetaRead (e : Nat) (p : Nat) (s : State) :
    Seals s (execTxqMetaRead e p s) := by
  unfold execTxqMetaRead; simp
@[simp] theorem vault_tsuStopping (s : State) (p : Nat) :
    (State.tsuStopping s p).vault = s.vault := by
  unfold State.tsuStopping; simp
@[simp] theorem vault_correct (s : State) (p : Nat) (m : FrameMeta) (l : List Byte) (egress : Option XT) (tg : Bool) :
    (State.correct s p m l egress tg).1.vault = s.vault := by
  unfold State.correct; (repeat' split) <;> simp

/-! ## Machine/Mirr.lean -/

@[simp] theorem vault_ringDrop (s : State) (h : Nat) (k : Nat) :
    (State.ringDrop s h k).vault = s.vault := by
  unfold State.ringDrop; simp
@[simp] theorem vault_ringOffer (s : State) (h : Nat) (k : Nat) (f : RxFrame) :
    (State.ringOffer s h k f).vault = s.vault := by
  unfold State.ringOffer; simp
@[simp] theorem vault_mirrLost (s : State) (d : Nat) (n : Nat) :
    (State.mirrLost s d n).vault = s.vault := by
  unfold State.mirrLost; simp
@[simp] theorem vault_setMirr (s : State) (d : Nat) (m : MirrState) :
    (State.setMirr s d m).vault = s.vault := by
  unfold State.setMirr; simp
@[simp] theorem vault_mirrStore (s : State) (d : Nat) (r : List Byte) :
    (State.mirrStore s d r).vault = s.vault := by
  unfold State.mirrStore; simp
@[simp] theorem vault_mirrTry (s : State) (d : Nat) (lp : Nat) (why : MirrReason) (i : MirrInfo) :
    (State.mirrTry s d lp why i).vault = s.vault := by
  unfold State.mirrTry; simp
@[simp] theorem vault_mirrIn (s : State) (m : FrameMeta) :
    (State.mirrIn s m).2.vault = s.vault := by
  unfold State.mirrIn; (repeat' split) <;> simp
@[simp] theorem vault_mirrDrop (s : State) (p : Nat) (q : Nat) (m : FrameMeta) (why : MirrReason) (cut : Bool) (bad : Bool) (l : List Byte) :
    (State.mirrDrop s p q m why cut bad l).vault = s.vault := by
  unfold State.mirrDrop; simp
@[simp] theorem vault_mirrRx (s : State) (p : Nat) (r : RxFrameCur) (bad : Bool) :
    (State.mirrRx s p r bad).vault = s.vault := by
  unfold State.mirrRx; simp
@[simp] theorem vault_mirrTx (s : State) (p : Nat) (t : TxCur) (bad : Bool) (l : List Byte) :
    (State.mirrTx s p t bad l).vault = s.vault := by
  unfold State.mirrTx; simp
@[simp] theorem vault_mirrTake (s : State) (d : Nat) :
    (State.mirrTake s d).1.vault = s.vault := by
  unfold State.mirrTake; dsimp only; (repeat' split) <;> simp
@[simp] theorem vault_execMirrRecHeadRead (e : Nat) (d : Nat) (s : State) :
    Seals s (execMirrRecHeadRead e d s) := by
  unfold execMirrRecHeadRead; simp

/-! ## Machine/Switch.lean -/

@[simp] theorem vault_tagTell (s : State) (d : Nat) (m : FrameMeta) (stage : Nat) (u : TagItem) (done : Bool) (dropped : Bool) :
    (State.tagTell s d m stage u done dropped).vault = s.vault := by
  unfold State.tagTell; (repeat' split) <;> simp
@[simp] theorem vault_tagCandidate (s : State) (p : Nat) (tg : Bool) :
    (State.tagCandidate s p tg).1.vault = s.vault := by
  unfold State.tagCandidate; simp
@[simp] theorem vault_setFifo (s : State) (d : Nat) (i : Nat) (l : List StgCell) :
    (State.setFifo s d i l).vault = s.vault := by
  unfold State.setFifo; simp
@[simp] theorem vault_stgDrop (s : State) (d : Nat) (dies : List Nat) :
    (State.stgDrop s d dies).vault = s.vault := by
  unfold State.stgDrop; simp
@[simp] theorem vault_frameLost (s : State) (d : Nat) (m : FrameMeta) :
    (State.frameLost s d m).vault = s.vault := by
  unfold State.frameLost; simp
@[simp] theorem vault_stage (s : State) (d : Nat) (i : Nat) (r : RxFrameCur) (last : Bool) (bad : Bool) :
    (State.stage s d i r last bad).1.vault = s.vault := by
  unfold State.stage; simp
@[simp] theorem vault_rxBegin (s : State) (p : Nat) (m : FrameMeta) (bytes : List Byte) (raw : List Byte) (ovr : Bool) (learn : Option (Nat × Nat)) (prov : Option PrpProv) :
    (State.rxBegin s p m bytes raw ovr learn prov).vault = s.vault := by
  unfold State.rxBegin; dsimp only; (repeat' split) <;> simp
@[simp] theorem vault_prpJudge (s : State) (p : Nat) (l : List Byte) :
    (State.prpJudge s p l).1.vault = s.vault := by
  unfold State.prpJudge; dsimp only; (repeat' split) <;> simp
@[simp] theorem vault_ringForward (s : State) (p : Nat) (m : FrameMeta) (raw : List Byte) :
    (State.ringForward s p m raw).vault = s.vault := by
  unfold State.ringForward; dsimp only; (repeat' split) <;> simp
@[simp] theorem vault_rxForward (s : State) (p : Nat) (m : FrameMeta) (l : List Byte) (raw : List Byte) (ovr : Bool) (spare : Bool) (prov : Option PrpProv) (exempt : Bool) :
    (State.rxForward s p m l raw ovr spare prov exempt).vault = s.vault := by
  unfold State.rxForward; dsimp only; (repeat' split) <;> simp
@[simp] theorem vault_pipeline (s : State) (p : Nat) (m : FrameMeta) (raw : List Byte) (ovr : Bool) (spare : Bool) :
    (State.pipeline s p m raw ovr spare).vault = s.vault := by
  unfold State.pipeline; simp
@[simp] theorem vault_execFrameReceiveStart (p : Nat) (bytes : List Byte) (k : Strobe) (spare : Bool) (s : State) :
    Seals s (execFrameReceiveStart p bytes k spare s) := by
  unfold execFrameReceiveStart; simp
@[simp] theorem vault_rxStep (s : State) (p : Nat) :
    (State.rxStep s p).vault = s.vault := by
  unfold State.rxStep; dsimp only; (repeat' split) <;> simp
@[simp] theorem vault_execFrameCellReceive (p : Nat) (s : State) :
    Seals s (execFrameCellReceive p s) := by
  unfold execFrameCellReceive; simp
@[simp] theorem vault_stageRest (s : State) (d i : Nat) (bad : Bool) (n : Nat) (r : RxFrameCur) :
    (s.stageRest d i bad n r).vault = s.vault := by
  induction n generalizing s r with
  | zero => rfl
  | succ n ih => unfold State.stageRest; split <;> simp [ih]

@[simp] theorem vault_prpUndo (s : State) (d : Nat) (m : Option PrpProv) : (s.prpUndo d m).vault = s.vault := by
  unfold State.prpUndo; (repeat' split) <;> simp
@[simp] theorem vault_rxEnd (s : State) (p : Nat) (bad : Bool) :
    (State.rxEnd s p bad).vault = s.vault := by
  unfold State.rxEnd; (repeat' split) <;> simp
@[simp] theorem vault_execFrameReceiveEnd (p : Nat) (bad : Bool) (s : State) :
    Seals s (execFrameReceiveEnd p bad s) := by
  unfold execFrameReceiveEnd; simp
@[simp] theorem vault_setWay (s : State) (a : Nat) (b : Nat) (l : List Cell) :
    (State.setWay s a b l).vault = s.vault := by
  unfold State.setWay; simp
@[simp] theorem vault_injFill (s : State) (d n : Nat) : (s.injFill d n).vault = s.vault := by
  induction n generalizing s with
  | zero => rfl
  | succ n ih =>
    unfold State.injFill
    split
    · rfl
    · split
      · rfl
      · simp [ih]
@[simp] theorem vault_execCellSend (d : Nat) (dest : Nat) (s : State) :
    Seals s (execCellSend d dest s) := by
  unfold execCellSend; (repeat' split) <;> simp

/-! ## Machine/Queue.lean -/

@[simp] theorem vault_poolShow (s : State) (d : Nat) :
    (State.poolShow s d).vault = s.vault := by
  unfold State.poolShow; simp
@[simp] theorem vault_charge (s : State) (d : Nat) (lp : Nat) (q : Nat) (old : Nat) (new : Nat) :
    (State.charge s d lp q old new).vault = s.vault := by
  unfold State.charge; simp
@[simp] theorem vault_release (s : State) (p : Nat) (c : Copy) :
    (State.release s p c).vault = s.vault := by
  unfold State.release; simp
@[simp] theorem vault_setQueue (s : State) (p : Nat) (q : Nat) (l : List Copy) :
    (State.setQueue s p q l).vault = s.vault := by
  unfold State.setQueue; (repeat' split) <;> simp
@[simp] theorem vault_queueDrop (s : State) (p : Nat) (q : Nat) :
    (State.queueDrop s p q).vault = s.vault := by
  unfold State.queueDrop; simp
@[simp] theorem vault_admCount (s : State) (p q : Nat) : (State.admCount s p q).vault = s.vault := by
  unfold State.admCount; simp
@[simp] theorem vault_admDrop (s : State) (p : Nat) (q : Nat) (m : FrameMeta) (cut : Bool) (bad : Bool) (l : List Byte) :
    (State.admDrop s p q m cut bad l).vault = s.vault := by
  unfold State.admDrop; simp
@[simp] theorem vault_ageDrop (s : State) (p : Nat) (c : Copy) :
    (State.ageDrop s p c).vault = s.vault := by
  unfold State.ageDrop; simp
@[simp] theorem vault_plainDrop (s : State) (p : Nat) (c : Copy) :
    (State.plainDrop s p c).vault = s.vault := by
  unfold State.plainDrop; simp
@[simp] theorem vault_admitCopy (s : State) (p : Nat) (m : FrameMeta) (mark : Option PrpMark) (l : List Byte) (bad : Bool) :
    (State.admitCopy s p m mark l bad).1.vault = s.vault := by
  unfold State.admitCopy; simp
@[simp] theorem vault_targets (s : State) (d : Nat) (m : FrameMeta) (l : List Byte) :
    (State.targets s d m l).1.vault = s.vault := by
  unfold State.targets
  dsimp only
  refine vault_foldl_fst _ _ (fun acc i => ?_) _
  (repeat' split) <;> simp
@[simp] theorem vault_admitEngines (s : State) (d : Nat) (m : FrameMeta) :
    (State.admitEngines s d m).1.vault = s.vault := by
  unfold State.admitEngines; simp
@[simp] theorem vault_admitRing (s : State) (d : Nat) (m : FrameMeta) (engines : List Nat) :
    (State.admitRing s d m engines).1.vault = s.vault := by
  unfold State.admitRing; (repeat' split) <;> simp
@[simp] theorem vault_firstCell (s : State) (d : Nat) (c : Cell) :
    (State.firstCell s d c).vault = s.vault := by
  unfold State.firstCell; simp
@[simp] theorem vault_growPort (s : State) (p : Nat) (id : Nat) (l : List Byte) (last : Bool) (bad : Bool) :
    (State.growPort s p id l last bad).vault = s.vault := by
  unfold State.growPort; dsimp only; (repeat' split) <;> simp
@[simp] theorem vault_growQueue (s : State) (p : Nat) (q : Nat) (id : Nat) (l : List Byte) (last : Bool) (bad : Bool) :
    (State.growQueue s p q id l last bad).vault = s.vault := by
  unfold State.growQueue; dsimp only; (repeat' split) <;> simp
@[simp] theorem vault_enqueue (s : State) (c : Copy) (l : List Byte) (bad : Bool) :
    (State.enqueue s c l bad).vault = s.vault := by
  unfold State.enqueue; simp
@[simp] theorem vault_frameDone (s : State) (d : Nat) (o : OutFrame) (bad : Bool) :
    (State.frameDone s d o bad).vault = s.vault := by
  unfold State.frameDone; (repeat' split) <;> simp
@[simp] theorem vault_nextCell (s : State) (d : Nat) (id : Nat) (l : List Byte) (last : Bool) (bad : Bool) :
    (State.nextCell s d id l last bad).vault = s.vault := by
  unfold State.nextCell; dsimp only; (repeat' split) <;> simp
@[simp] theorem vault_execCellArrive (d : Nat) (src : Nat) (hdrOk : Bool) (s : State) :
    Seals s (execCellArrive d src hdrOk s) := by
  unfold execCellArrive; (repeat' split) <;> simp
@[simp] theorem vault_egress (s : State) (p : Nat) (c : Copy) (head : List Byte) (time : Option XT) (tg : Bool) :
    (State.egress s p c head time tg).1.vault = s.vault := by
  unfold State.egress; (repeat' split) <;> simp
@[simp] theorem vault_txFrame (s : State) (p : Nat) (t : TxCur) :
    (State.txFrame s p t).2.vault = s.vault := by
  unfold State.txFrame; (repeat' split) <;> simp
@[simp] theorem vault_txBegin (s : State) (p : Nat) (c : Copy) (k : Strobe) :
    (State.txBegin s p c k).vault = s.vault := by
  unfold State.txBegin
  extract_lets d i run time tg head e t0 x t s0 len w s1 s2 s3 s4 u
  have h0 : s0.vault = s.vault := by
    dsimp only [s0]
    split <;> simp [x, e]
  clear_value s0 t x
  have h1 : s1.vault = s.vault := by simp [s1, h0]
  clear_value s1
  have h2 : s2.vault = s.vault := by
    dsimp only [s2]
    repeat' split
    all_goals simp [h1]
  clear_value s2
  have h3 : s3.vault = s.vault := by
    dsimp only [s3]
    split <;> simp [h2]
  clear_value s3
  have h4 : s4.vault = s.vault := by
    dsimp only [s4]
    split <;> simp [h3]
  split
  · simp [h4]
  · exact h4
@[simp] theorem vault_txChoose (s : State) (p : Nat) (k : Strobe) (n : Nat) : (s.txChoose p k n).vault = s.vault := by
  induction n generalizing s with
  | zero => rfl
  | succ n ih => unfold State.txChoose; dsimp only; (repeat' split) <;> simp [ih]
@[simp] theorem vault_execFrameTransmitStart (p : Nat) (k : Strobe) (s : State) :
    Seals s (execFrameTransmitStart p k s) := by
  unfold execFrameTransmitStart; refine seals_onPort ?_; split <;> simp
@[simp] theorem vault_execFrameTransmitEnd (p : Nat) (s : State) :
    Seals s (execFrameTransmitEnd p s) := by
  unfold execFrameTransmitEnd; refine seals_onPort ?_; (repeat' split) <;> simp
@[simp] theorem vault_txCutOff (s : State) (p : Nat) :
    (State.txCutOff s p).vault = s.vault := by
  unfold State.txCutOff; (repeat' split) <;> simp
@[simp] theorem vault_execStoppedPortDiscard (p : Nat) (q : Nat) (s : State) :
    Seals s (execStoppedPortDiscard p q s) := by
  unfold execStoppedPortDiscard; refine seals_onPort ?_; (repeat' split) <;> simp
@[simp] theorem vault_queStarted (s : State) (p : Nat) :
    (State.queStarted s p).vault = s.vault := by
  unfold State.queStarted; simp
@[simp] theorem vault_maxfCheck (s : State) (p : Nat) :
    (State.maxfCheck s p).vault = s.vault := by
  unfold State.maxfCheck; simp
@[simp] theorem vault_queFlush (s0 : State) (p : Nat) :
    (State.queFlush s0 p).vault = s0.vault := by
  unfold State.queFlush; (repeat' split) <;> simp
end Sys2Proof.Machine
end

