-- ==== Sys2Proof/Laws/VaultPackage.lean ====
section
/-!
SUPPORT. What leaves `State.vault` alone, by definition: ownership, the mesh, hosts, loading, calibration, run states, security, register access, booting, function-space instructions, debugging and the ROM-resident programs.
-/
namespace Sys2Proof.Machine

/-! ## Machine/Own.lean -/

@[simp] theorem vault_ownEnd (s : State) (status : Nat) :
    (State.ownEnd s status).vault = s.vault := by
  unfold State.ownEnd; simp
@[simp] theorem vault_ownSet (s : State) (die : Nat) (blk : Nat) (inst : Nat) (part : Nat) :
    (State.ownSet s die blk inst part).vault = s.vault := by
  unfold State.ownSet; (repeat' split) <;> simp
@[simp] theorem vault_ownQuery (s : State) (die : Nat) (blk : Nat) (inst : Nat) :
    (State.ownQuery s die blk inst).vault = s.vault := by
  unfold State.ownQuery; simp
@[simp] theorem vault_wrOwnCmd (s : State) (data : Nat) :
    (State.wrOwnCmd s data).vault = s.vault := by
  unfold State.wrOwnCmd; (repeat' split) <;> simp
@[simp] theorem vault_execOwnCmdSet (e : Nat) (die : Nat) (blk : Nat) (inst : Nat) (part : Nat) (s : State) :
    Seals s (execOwnCmdSet e die blk inst part s) := by
  unfold execOwnCmdSet; simp
@[simp] theorem vault_execOwnCmdQuery (e : Nat) (die : Nat) (blk : Nat) (inst : Nat) (s : State) :
    Seals s (execOwnCmdQuery e die blk inst s) := by
  unfold execOwnCmdQuery; simp
@[simp] theorem vault_ownJudge (s : State) (d : Nat) (blk : Nat) (inst : Nat) :
    (State.ownJudge s d blk inst).vault = s.vault := by
  unfold State.ownJudge; simp
@[simp] theorem vault_execOwnHoldRequest (d : Nat) (s : State) :
    Seals s (execOwnHoldRequest d s) := by
  unfold execOwnHoldRequest; refine seals_onDie ?_; (repeat' split) <;> simp
@[simp] theorem vault_ownSend (s : State) (die : Nat) (blk : Nat) (inst : Nat) (part : Nat) :
    (State.ownSend s die blk inst part).vault = s.vault := by
  unfold State.ownSend; simp
@[simp] theorem vault_execOwnHoldReply (s : State) :
    Seals s (execOwnHoldReply s) := by
  unfold execOwnHoldReply; dsimp only; (repeat' split) <;> simp
@[simp] theorem vault_evmapClear (s : State) (d : Nat) (changed : Nat → Bool) :
    (State.evmapClear s d changed).vault = s.vault := by
  unfold State.evmapClear; simp
@[simp] theorem vault_hostOwned (s : State) (d : Nat) :
    (State.hostOwned s d).vault = s.vault := by
  unfold State.hostOwned; (repeat' split) <;> simp
@[simp] theorem vault_ownCopy (s : State) (d : Nat) (m : Store Nat) :
    (State.ownCopy s d m).vault = s.vault := by
  unfold State.ownCopy; simp
@[simp] theorem vault_ownRelease (s : State) (d : Nat) (blk : Nat) (inst : Nat) :
    (State.ownRelease s d blk inst).vault = s.vault := by
  unfold State.ownRelease; simp
@[simp] theorem vault_ownApply (s : State) (d : Nat) (die : Nat) (blk : Nat) (inst : Nat) (part : Nat) :
    (State.ownApply s d die blk inst part).vault = s.vault := by
  unfold State.ownApply; simp
@[simp] theorem vault_execOwnEntriesApply (d : Nat) (s : State) :
    Seals s (execOwnEntriesApply d s) := by
  unfold execOwnEntriesApply; refine seals_onDie ?_; (repeat' split) <;> simp
@[simp] theorem vault_execOwnCmdComplete (s : State) :
    Seals s (execOwnCmdComplete s) := by
  unfold execOwnCmdComplete; (repeat' split) <;> simp
@[simp] theorem vault_grantCopy (s : State) (p : Nat) :
    (State.grantCopy s p).vault = s.vault := by
  unfold State.grantCopy; simp
@[simp] theorem vault_grantBack (s : State) (d : Nat) :
    (State.grantBack s d).vault = s.vault := by
  unfold State.grantBack; (repeat' split) <;> simp
@[simp] theorem vault_execOwnResync (d : Nat) (s : State) :
    Seals s (execOwnResync d s) := by
  unfold execOwnResync; simp
@[simp] theorem vault_policyJudge (s : State) (by_ : Option PolicyWrite) :
    (State.policyJudge s by_).vault = s.vault := by
  unfold State.policyJudge; (repeat' split) <;> simp
@[simp] theorem vault_policyAck (s : State) :
    (State.policyAck s).vault = s.vault := by
  unfold State.policyAck; simp
@[simp] theorem vault_wrPolicy (s : State) (by_ : Option PolicyWrite) (data : Nat) :
    (State.wrPolicy s by_ data).vault = s.vault := by
  unfold State.wrPolicy; simp
theorem seals_arrivePolicy {e addr width data : Nat} {s : State} {f : State → State} (h : (f s).vault = s.vault) :
    Seals s (arrivePolicy e addr width data s f) := by
  unfold arrivePolicy; (repeat' split) <;> simp [h]
@[simp] theorem vault_execPolicyWrite (e : Nat) (data : Word32) (s : State) :
    Seals s (execPolicyWrite e data s) := by unfold execPolicyWrite; exact seals_arrivePolicy (by simp)
@[simp] theorem vault_execPolicyCopyApply (d : Nat) (s : State) :
    Seals s (execPolicyCopyApply d s) := by
  unfold execPolicyCopyApply; refine seals_onDie ?_; (repeat' split) <;> simp
@[simp] theorem vault_ownCut (s : State) (d : Nat) :
    (State.ownCut s d).vault = s.vault := by
  unfold State.ownCut; dsimp only; (repeat' split) <;> simp
@[simp] theorem vault_ownBack (s : State) (d : Nat) :
    (State.ownBack s d).vault = s.vault := by
  unfold State.ownBack; simp

/-! ## Machine/Mesh.lean -/

@[simp] theorem vault_msgFails (s : State) (m : CtlMsg) :
    (State.msgFails s m).vault = s.vault := by
  unfold State.msgFails; (repeat' split) <;> simp
@[simp] theorem vault_engCut (s : State) (d : Nat) (e : Nat) :
    (State.engCut s d e).vault = s.vault := by
  unfold State.engCut; simp
@[simp] theorem vault_accessCut (s : State) (a : Nat) (b : Nat) :
    (State.accessCut s a b).vault = s.vault := by
  unfold State.accessCut; simp
@[simp] theorem vault_heldCut (s : State) (d : Nat) :
    (State.heldCut s d).vault = s.vault := by
  unfold State.heldCut; simp
@[simp] theorem vault_homeCut (s : State) (d : Nat) :
    (State.homeCut s d).vault = s.vault := by
  unfold State.homeCut; simp
@[simp] theorem vault_linkCut (s : State) (a : Nat) (b : Nat) :
    (State.linkCut s a b).vault = s.vault := by
  unfold State.linkCut; simp
@[simp] theorem vault_fifoCut (s : State) (a : Nat) (b : Nat) (i : Nat) :
    (State.fifoCut s a b i).vault = s.vault := by
  unfold State.fifoCut; simp
@[simp] theorem vault_cellsCut (s : State) (a : Nat) (b : Nat) :
    (State.cellsCut s a b).vault = s.vault := by
  unfold State.cellsCut; simp
@[simp] theorem vault_fwdClk (s : State) (a : Nat) (b : Nat) (ok : Bool) :
    (State.fwdClk s a b ok).vault = s.vault := by
  unfold State.fwdClk; simp
@[simp] theorem vault_clockFollows (s : State) (b : Nat) :
    (State.clockFollows s b).vault = s.vault := by
  unfold State.clockFollows; simp
@[simp] theorem vault_dirDown (s : State) (a : Nat) (b : Nat) (clk : Bool) :
    (State.dirDown s a b clk).vault = s.vault := by
  unfold State.dirDown; simp
@[simp] theorem vault_execSaddleDirectionDown (a : Nat) (b : Nat) (clk : Bool) (s : State) :
    Seals s (execSaddleDirectionDown a b clk s) := by
  unfold execSaddleDirectionDown; simp
@[simp] theorem vault_linkBack (s : State) (a : Nat) (b : Nat) :
    (State.linkBack s a b).vault = s.vault := by
  unfold State.linkBack; simp
@[simp] theorem vault_spares (s : State) (a : Nat) (b : Nat) (w : List Nat) :
    (State.spares s a b w).vault = s.vault := by
  unfold State.spares; simp
@[simp] theorem vault_execSaddleTrainingEnd (a : Nat) (b : Nat) (failed : Word32) (clk : Bool) (s : State) :
    Seals s (execSaddleTrainingEnd a b failed clk s) := by
  unfold execSaddleTrainingEnd; simp
@[simp] theorem vault_meshStarted (s : State) (d : Nat) (peer : Nat) :
    (State.meshStarted s d peer).vault = s.vault := by
  unfold State.meshStarted; simp
@[simp] theorem vault_meshStopped (s : State) (d : Nat) (peer : Nat) :
    (State.meshStopped s d peer).vault = s.vault := by
  unfold State.meshStopped; simp
@[simp] theorem vault_execCtlMessageReceive (a : Nat) (b : Nat) (crcOk : Bool) (s : State) :
    Seals s (execCtlMessageReceive a b crcOk s) := by
  unfold execCtlMessageReceive; simp

/-! ## Machine/Comm.lean -/

@[simp] theorem vault_execSend (e : Nat) (rs1 : Reg) (rs2 : Reg) (s : State) :
    Seals s (execSend e rs1 rs2 s) := by
  unfold execSend; refine seals_issue fun u => ?_; dsimp only; (repeat' split) <;> simp
@[simp] theorem vault_inject (s : State) (d : Nat) (m : FrameMeta) (bytes : List Byte) (dies : List Nat) :
    (State.inject s d m bytes dies).vault = s.vault := by
  unfold State.inject; simp
@[simp] theorem vault_injectTo (s : State) (d : Nat) (src : FrameSrc) (part : Nat) (kind : Nat) (dest : Nat) (queue : Nat) (ts : Option Nat) (bytes : List Byte) :
    (State.injectTo s d src part kind dest queue ts bytes).vault = s.vault := by
  unfold State.injectTo; (repeat' split) <;> simp
@[simp] theorem vault_injectSend (s : State) (e : Nat) (w : Word) (a : Nat) :
    (State.injectSend s e w a).vault = s.vault := by
  unfold State.injectSend; simp
@[simp] theorem vault_execRecv (e : Nat) (rd : Reg) (rs1 : Reg) (rs2 : Reg) (s : State) :
    Seals s (execRecv e rd rs1 rs2 s) := by
  unfold execRecv; refine seals_issue fun u => ?_; dsimp only; (repeat' split) <;> simp
@[simp] theorem vault_mboPut (s : State) (h : Nat) (bytes : List Byte) (svc : Bool) :
    (State.mboPut s h bytes svc).vault = s.vault := by
  unfold State.mboPut; simp
@[simp] theorem vault_execMbx (e : Nat) (rd : Reg) (rs1 : Reg) (imm : Imm16) (s : State) :
    Seals s (execMbx e rd rs1 imm s) := by
  unfold execMbx; refine seals_issue fun u => ?_; dsimp only; (repeat' split) <;> simp

/-! ## Machine/Summit.lean -/

theorem vault_withSummit (u : State) (x : SummitState) : State.vault { u with summit := x } = u.vault := rfl

@[simp] theorem vault_setSTime (s : State) (f : Fld) (u : Nat) :
    (State.setSTime s f u).vault = s.vault := by
  unfold State.setSTime; simp
@[simp] theorem vault_setRole (s : State) (r : Nat) :
    (State.setRole s r).vault = s.vault := by
  unfold State.setRole; simp
@[simp] theorem vault_dropEligible (s : State) :
    (State.dropEligible s).vault = s.vault := by
  unfold State.dropEligible; simp
@[simp] theorem vault_execSummitEligible (s : State) :
    Seals s (execSummitEligible s) := by
  unfold execSummitEligible; simp
@[simp] theorem vault_pathFresh (s : State) (k : Nat) (last : Option Nat) :
    (State.pathFresh s k last).vault = s.vault := by
  unfold State.pathFresh; (repeat' split) <;> simp
@[simp] theorem vault_leaveRole (s : State) :
    (State.leaveRole s).vault = s.vault := by
  unfold State.leaveRole; simp
@[simp] theorem vault_lapse (s : State) :
    (State.lapse s).vault = s.vault := by
  unfold State.lapse; simp
@[simp] theorem vault_execLeaseLapse (s : State) :
    Seals s (execLeaseLapse s) := by
  unfold execLeaseLapse; simp
@[simp] theorem vault_beaconInject (s : State) (port : Nat) (queue : Nat) (bytes : List Byte) :
    (State.beaconInject s port queue bytes).vault = s.vault := by
  unfold State.beaconInject; simp
@[simp] theorem vault_beaconOn (s : State) (k : Nat) (subtype : Nat) :
    (State.beaconOn s k subtype).vault = s.vault := by
  unfold State.beaconOn; simp
@[simp] theorem vault_beacons (s : State) (subtype : Nat) :
    (State.beacons s subtype).vault = s.vault := by
  unfold State.beacons; simp
@[simp] theorem vault_execBeaconSend (s : State) :
    Seals s (execBeaconSend s) := by
  unfold execBeaconSend; simp
@[simp] theorem vault_takeLease (s : State) (b : Beacon) :
    (State.takeLease s b).vault = s.vault := by
  unfold State.takeLease; simp
@[simp] theorem vault_foreign (s : State) (b : Beacon) :
    (State.foreign s b).vault = s.vault := by
  unfold State.foreign; simp
@[simp] theorem vault_pathHeard (s : State) (k : Nat) :
    (State.pathHeard s k).vault = s.vault := by
  unfold State.pathHeard; simp
@[simp] theorem vault_beaconJudge (s : State) (b : Beacon) :
    (State.beaconJudge s b).vault = s.vault := by
  unfold State.beaconJudge; simp
@[simp] theorem vault_execBeaconReceive (s : State) :
    Seals s (execBeaconReceive s) := by
  unfold execBeaconReceive; (repeat' split) <;> simp
@[simp] theorem vault_execPathTimeout (k : Nat) (s : State) :
    Seals s (execPathTimeout k s) := by
  unfold execPathTimeout; dsimp only; (repeat' split) <;> simp
@[simp] theorem vault_sumEnd (s : State) (status : Nat) :
    (State.sumEnd s status).vault = s.vault := by
  unfold State.sumEnd; simp
@[simp] theorem vault_sumTake (s : State) :
    (State.sumTake s).vault = s.vault := by
  unfold State.sumTake
  split
  · simp
  · split
    · simp
    · split
      · simp
      · split
        · simp
        · dsimp only
          rw [vault_sumEnd, vault_holderPaths, vault_dropEligible, vault_withSummit]
          simp
@[simp] theorem vault_sumRenew (s : State) :
    (State.sumRenew s).vault = s.vault := by
  unfold State.sumRenew; simp
@[simp] theorem vault_sumRelease (s : State) :
    (State.sumRelease s).vault = s.vault := by
  unfold State.sumRelease; simp
@[simp] theorem vault_wrSummitCmd (s : State) (data : Nat) :
    (State.wrSummitCmd s data).vault = s.vault := by
  unfold State.wrSummitCmd; (repeat' split) <;> simp
@[simp] theorem vault_execSummitTake (e : Nat) (s : State) :
    Seals s (execSummitTake e s) := by
  unfold execSummitTake; simp
@[simp] theorem vault_execSummitRenew (e : Nat) (s : State) :
    Seals s (execSummitRenew e s) := by
  unfold execSummitRenew; simp
@[simp] theorem vault_execSummitRelease (e : Nat) (s : State) :
    Seals s (execSummitRelease e s) := by
  unfold execSummitRelease; simp
@[simp] theorem vault_summitStarted (s : State) :
    (State.summitStarted s).vault = s.vault := by
  unfold State.summitStarted
  extract_lets was ended s1 r s2 m o s3
  have h1 : s1.vault = s.vault := by dsimp only [s1]; split <;> simp
  clear_value s1
  have h2 : s2.vault = s.vault := by dsimp only [s2]; simp [h1]
  clear_value s2
  have h3 : s3.vault = s.vault := by dsimp only [s3]; rw [vault_withSummit, vault_dropEligible, h2]
  clear_value s3
  split <;> simp [h3]

/-! ## Machine/Host.lean -/

@[simp] theorem seals_onHost {h : Nat} {s : State} {f : State → State} (hf : (f s).vault = s.vault) :
    Seals s (onHost h s f) := by unfold onHost; simp [hf]

@[simp] theorem seals_onRing {h k : Nat} {s : State} {f : State → State} (hf : (f s).vault = s.vault) :
    Seals s (onRing h k s f) := by unfold onRing; simp [hf]

@[simp] theorem vault_hostEvent (s : State) (h : Nat) (ev : Nat) :
    (State.hostEvent s h ev).vault = s.vault := by
  unfold State.hostEvent; simp
@[simp] theorem vault_setMbiFree (s : State) (h : Nat) (slot : Nat) (b : Bool) :
    (State.setMbiFree s h slot b).vault = s.vault := by
  unfold State.setMbiFree; simp
@[simp] theorem vault_mbiFreed (s : State) (h : Nat) (slot : Nat) :
    (State.mbiFreed s h slot).vault = s.vault := by
  unfold State.mbiFreed; simp
@[simp] theorem vault_line63 (s : State) (h : Nat) :
    (State.line63 s h).vault = s.vault := by
  unfold State.line63; simp
@[simp] theorem vault_mbErr (s : State) (h : Nat) :
    (State.mbErr s h).vault = s.vault := by
  unfold State.mbErr; simp
@[simp] theorem vault_mbiPost (s : State) (h : Nat) (slot : Nat) (len : Nat) :
    (State.mbiPost s h slot len).vault = s.vault := by
  unfold State.mbiPost; simp
@[simp] theorem vault_svcPost (s : State) (h : Nat) (slot : Nat) (len : Nat) :
    (State.svcPost s h slot len).vault = s.vault := by
  unfold State.svcPost; simp
@[simp] theorem vault_wrMbiPost (s : State) (h : Nat) (data : Nat) :
    (State.wrMbiPost s h data).vault = s.vault := by
  unfold State.wrMbiPost; simp
@[simp] theorem vault_execMbiPost (h : Nat) (slot : Nat) (len : Nat) (s : State) :
    Seals s (execMbiPost h slot len s) := by
  unfold execMbiPost; simp
@[simp] theorem vault_execSvcPost (h : Nat) (slot : Nat) (len : Nat) (s : State) :
    Seals s (execSvcPost h slot len s) := by
  unfold execSvcPost; simp
@[simp] theorem vault_mbiTake (s : State) (d : Nat) :
    (State.mbiTake s d).1.vault = s.vault := by
  unfold State.mbiTake; dsimp only; (repeat' split) <;> simp
@[simp] theorem vault_execMbiTake (e : Nat) (d : Nat) (s : State) :
    Seals s (execMbiTake e d s) := by
  unfold execMbiTake; simp
@[simp] theorem vault_wrMbiFree (s : State) (d : Nat) (data : Nat) :
    (State.wrMbiFree s d data).vault = s.vault := by
  unfold State.wrMbiFree; simp
@[simp] theorem vault_execMbiFree (e : Nat) (d : Nat) (slot : BitVec 4) (s : State) :
    Seals s (execMbiFree e d slot s) := by
  unfold execMbiFree; simp
@[simp] theorem vault_mboTake (s : State) (h : Nat) :
    (State.mboTake s h).1.vault = s.vault := by
  unfold State.mboTake; dsimp only; (repeat' split) <;> simp
@[simp] theorem vault_execMboTake (h : Nat) (s : State) :
    Seals s (execMboTake h s) := by
  unfold execMboTake; simp
@[simp] theorem vault_wrMboFree (s : State) (h : Nat) (data : Nat) :
    (State.wrMboFree s h data).vault = s.vault := by
  unfold State.wrMboFree; simp
@[simp] theorem vault_execMboFree (h : Nat) (slot : BitVec 4) (s : State) :
    Seals s (execMboFree h slot s) := by
  unfold execMboFree; simp
@[simp] theorem vault_svcTake (s : State) :
    (State.svcTake s).1.vault = s.vault := by
  unfold State.svcTake; dsimp only; (repeat' split) <;> simp
@[simp] theorem vault_execSvcTake (e : Nat) (s : State) :
    Seals s (execSvcTake e s) := by
  unfold execSvcTake; simp
@[simp] theorem vault_wrSvcReply (s : State) (data : Nat) :
    (State.wrSvcReply s data).vault = s.vault := by
  unfold State.wrSvcReply; simp
@[simp] theorem vault_execSvcReply (e : Nat) (data : Word) (s : State) :
    Seals s (execSvcReply e data s) := by
  unfold execSvcReply; simp
@[simp] theorem vault_setRing (s : State) (h : Nat) (k : Nat) (r : RingState) :
    (State.setRing s h k r).vault = s.vault := by
  unfold State.setRing; simp
@[simp] theorem vault_txEnable (s : State) (d : Nat) (k : Nat) (log2 : Nat) (en : Bool) :
    (State.txEnable s d k log2 en).vault = s.vault := by
  unfold State.txEnable; simp
@[simp] theorem vault_ringKeep (s : State) (h : Nat) (k : Nat) (n : Nat) :
    (State.ringKeep s h k n).vault = s.vault := by
  unfold State.ringKeep; simp
@[simp] theorem vault_rxEnable (s : State) (d : Nat) (k : Nat) (log2 : Nat) (en : Bool) :
    (State.rxEnable s d k log2 en).vault = s.vault := by
  unfold State.rxEnable; simp
@[simp] theorem vault_wrRingCfg (s : State) (d : Nat) (k : Nat) (data : Nat) :
    (State.wrRingCfg s d k data).vault = s.vault := by
  unfold State.wrRingCfg; simp
@[simp] theorem vault_execRingCfgWrite (e : Nat) (d : Nat) (k : Nat) (data : Word32) (s : State) :
    Seals s (execRingCfgWrite e d k data s) := by
  unfold execRingCfgWrite; simp
@[simp] theorem vault_dbErr (s : State) (h : Nat) :
    (State.dbErr s h).vault = s.vault := by
  unfold State.dbErr; simp
@[simp] theorem vault_wrDbTx (s : State) (h : Nat) (k : Nat) (data : Nat) :
    (State.wrDbTx s h k data).vault = s.vault := by
  unfold State.wrDbTx; simp
@[simp] theorem vault_wrDbRx (s : State) (h : Nat) (k : Nat) (data : Nat) :
    (State.wrDbRx s h k data).vault = s.vault := by
  unfold State.wrDbRx; simp
@[simp] theorem vault_execDbTx (h : Nat) (k : Nat) (prod : BitVec 16) (s : State) :
    Seals s (execDbTx h k prod s) := by
  unfold execDbTx; simp
@[simp] theorem vault_execDbRx (h : Nat) (k : Nat) (prod : BitVec 16) (s : State) :
    Seals s (execDbRx h k prod s) := by
  unfold execDbRx; simp
@[simp] theorem vault_ringIrq (s : State) (h : Nat) (k : Nat) :
    (State.ringIrq s h k).vault = s.vault := by
  unfold State.ringIrq; simp
@[simp] theorem vault_execMsixHoldoffExpire (h : Nat) (k : Nat) (s : State) :
    Seals s (execMsixHoldoffExpire h k s) := by
  unfold execMsixHoldoffExpire; simp
@[simp] theorem vault_txDone (s : State) (h : Nat) (k : Nat) (status : Nat) (int : Bool) :
    (State.txDone s h k status int).vault = s.vault := by
  unfold State.txDone; simp
@[simp] theorem vault_execTxDescriptorFetched (h : Nat) (k : Nat) (addr : Nat) (length : Nat) (kind : Nat) (queue : Nat) (dest : Nat) (flags : Nat) (tsId : Nat) (s : State) :
    Seals s (execTxDescriptorFetched h k addr length kind queue dest flags tsId s) := by
  unfold execTxDescriptorFetched; refine seals_onRing ?_; dsimp only; (repeat' split) <;> simp
@[simp] theorem vault_execTxFrameRead (h : Nat) (k : Nat) (bytes : List Byte) (failed : Bool) (s : State) :
    Seals s (execTxFrameRead h k bytes failed s) := by
  unfold execTxFrameRead; refine seals_onRing ?_; (repeat' split) <;> simp
@[simp] theorem vault_injectLookup (s : State) (d : Nat) (h : Nat) (k : Nat) (t : TxDesc) (bytes : List Byte) (spare : Bool) :
    (State.injectLookup s d h k t bytes spare).vault = s.vault := by
  unfold State.injectLookup; dsimp only; (repeat' split) <;> simp
@[simp] theorem vault_injectDesc (s : State) (d : Nat) (h : Nat) (k : Nat) (t : TxDesc) (bytes : List Byte) (spare : Bool) :
    (State.injectDesc s d h k t bytes spare).vault = s.vault := by
  unfold State.injectDesc; simp
@[simp] theorem vault_execInjectionServe (d : Nat) (spare : Bool) (s : State) :
    Seals s (execInjectionServe d spare s) := by
  unfold execInjectionServe; refine seals_onDie ?_; dsimp only; (repeat' split) <;> simp
@[simp] theorem vault_execRxRingDeliver (h : Nat) (k : Nat) (bufLen : Nat) (s : State) :
    Seals s (execRxRingDeliver h k bufLen s) := by
  unfold execRxRingDeliver; refine seals_onRing ?_; dsimp only; (repeat' split) <;> simp
@[simp] theorem vault_ringsDrop (s : State) (h : Nat) :
    (State.ringsDrop s h).vault = s.vault := by
  unfold State.ringsDrop; simp
@[simp] theorem vault_wrGrant (s : State) (p : Nat) (data : Nat) :
    (State.wrGrant s p data).vault = s.vault := by
  unfold State.wrGrant; simp
@[simp] theorem vault_execGrantWrite (e : Nat) (p : Nat) (data : Word32) (s : State) :
    Seals s (execGrantWrite e p data s) := by
  unfold execGrantWrite; simp
@[simp] theorem vault_execHostLinkUp (h : Nat) (speed : Nat) (width : Nat) (s : State) :
    Seals s (execHostLinkUp h speed width s) := by
  unfold execHostLinkUp; simp

/-! ## Machine/Loader.lean -/

@[simp] theorem vault_enterRun (s : State) (die : Nat) (blk : Nat) (inst : Nat) :
    (State.enterRun s die blk inst).vault = s.vault := by
  unfold State.enterRun; simp
@[simp] theorem vault_engStop (s : State) (e : Nat) :
    (State.engStop s e).vault = s.vault := by
  unfold State.engStop; simp
@[simp] theorem vault_engStopped (s : State) (e : Nat) :
    (State.engStopped s e).vault = s.vault := by
  unfold State.engStopped; simp
@[simp] theorem vault_hookDone (s : State) (e : Nat) :
    (State.hookDone s e).vault = s.vault := by
  unfold State.hookDone; simp
@[simp] theorem vault_engStartedAt (s : State) (e : Nat) (at_ : Nat) :
    (State.engStartedAt s e at_).vault = s.vault := by
  unfold State.engStartedAt; simp
@[simp] theorem vault_engStarted (s : State) (e : Nat) :
    (State.engStarted s e).vault = s.vault := by
  unfold State.engStarted; simp
@[simp] theorem vault_engStart (s : State) (e : Nat) :
    (State.engStart s e).vault = s.vault := by
  unfold State.engStart; simp
@[simp] theorem vault_romReplaced (s : State) (e : Nat) :
    (State.romReplaced s e).vault = s.vault := by
  unfold State.romReplaced; simp
@[simp] theorem vault_setLoad (s : State) (h : Nat) (l : Option Load) :
    (State.setLoad s h l).vault = s.vault := by
  unfold State.setLoad; simp
@[simp] theorem vault_loadResult (s : State) (h : Nat) (code : Nat) (seg : Option Nat) :
    (State.loadResult s h code seg).vault = s.vault := by
  unfold State.loadResult; (repeat' split) <;> simp
@[simp] theorem vault_bootDone (s : State) :
    (State.bootDone s).vault = s.vault := by
  unfold State.bootDone; simp
@[simp] theorem vault_bootLoad (s : State) (slot : Nat) (second : Bool) :
    (State.bootLoad s slot second).vault = s.vault := by
  unfold State.bootLoad; simp
@[simp] theorem vault_bootTake (s : State) (code n : Nat) : (s.bootTake code n).vault = s.vault := by
  induction n generalizing s code with
  | zero => rfl
  | succ n ih => unfold State.bootTake; dsimp only; (repeat' split) <;> simp [ih]
@[simp] theorem vault_bootFrom (s : State) (slot : Nat) :
    (State.bootFrom s slot).vault = s.vault := by
  unfold State.bootFrom
  dsimp only
  split <;> simp
@[simp] theorem vault_bootStep5 (s : State) :
    (State.bootStep5 s).vault = s.vault := by
  unfold State.bootStep5; simp
@[simp] theorem vault_loadFinish (s : State) (h : Nat) (code : Nat) (seg : Option Nat) :
    (State.loadFinish s h code seg).vault = s.vault := by
  unfold State.loadFinish; simp
@[simp] theorem vault_wrLoadGo (s : State) (h : Nat) (spi : Bool) :
    (State.wrLoadGo s h spi).vault = s.vault := by
  unfold State.wrLoadGo; simp
@[simp] theorem vault_execLoadGo (h : Nat) (spi : Bool) (s : State) :
    Seals s (execLoadGo h spi s) := by
  unfold execLoadGo; simp
@[simp] theorem vault_spiRelease (s : State) :
    (State.spiRelease s).vault = s.vault := by
  unfold State.spiRelease; simp
@[simp] theorem vault_stagingRead (s : State) (h : Nat) (j : Load) :
    (State.stagingRead s h j).1.vault = s.vault := by
  unfold State.stagingRead; simp
@[simp] theorem vault_staged (s : State) (h : Nat) (j : Load) (l : List Byte) (failed : Bool) :
    (State.staged s h j l failed).vault = s.vault := by
  unfold State.staged; (repeat' split) <;> simp
@[simp] theorem vault_execLoadStaged (h : Nat) (bytes : List Byte) (failed : Bool) (s : State) :
    Seals s (execLoadStaged h bytes failed s) := by
  unfold execLoadStaged; (repeat' split) <;> simp
@[simp] theorem vault_loadHold (s : State) (h : Nat) (j : Load) :
    (State.loadHold s h j).vault = s.vault := by
  unfold State.loadHold
  dsimp only
  rw [vault_foldl _ _ (fun s x => by split <;> simp)]
  simp
@[simp] theorem vault_execSignatureCheckDone (s : State) :
    Seals s (execSignatureCheckDone s) := by
  unfold execSignatureCheckDone; dsimp only; (repeat' split) <;> simp
@[simp] theorem vault_loadStart (s : State) (l : List Byte) (e : Nat) (ran : Option Nat) :
    (State.loadStart s l e ran).vault = s.vault := by
  unfold State.loadStart; (repeat' split) <;> simp
@[simp] theorem vault_execLoadEnd (h : Nat) (s : State) :
    Seals s (execLoadEnd h s) := by
  unfold execLoadEnd; (repeat' split) <;> simp
@[simp] theorem vault_loadFault (s : State) (h : Nat) :
    (State.loadFault s h).vault = s.vault := by
  unfold State.loadFault; (repeat' split) <;> simp
@[simp] theorem vault_linkReset (s : State) (h : Nat) :
    (State.linkReset s h).vault = s.vault := by
  unfold State.linkReset; dsimp only; (repeat' split) <;> simp
@[simp] theorem vault_linkDown (s : State) (d : Nat) :
    (State.linkDown s d).vault = s.vault := by
  unfold State.linkDown; simp
@[simp] theorem vault_execHostLinkReset (h : Nat) (cause : HostReset) (s : State) :
    Seals s (execHostLinkReset h cause s) := by
  unfold execHostLinkReset; (repeat' split) <;> simp
/-! ## Machine/Cal.lean -/

@[simp] theorem vault_setNvs (s : State) (d : Nat) (n : NvsState) :
    (State.setNvs s d n).vault = s.vault := by
  unfold State.setNvs; simp
@[simp] theorem vault_setCal (s : State) (d : Nat) (c : CalState) :
    (State.setCal s d c).vault = s.vault := by
  unfold State.setCal; simp
@[simp] theorem vault_setCalSeq (s : State) (d : Nat) (c : CalSeq) :
    (State.setCalSeq s d c).vault = s.vault := by
  unfold State.setCalSeq; simp
@[simp] theorem vault_calAsk (s : State) (d : Nat) :
    (State.calAsk s d).vault = s.vault := by
  unfold State.calAsk; simp
@[simp] theorem vault_refreshAlarm (s : State) (d : Nat) :
    (State.refreshAlarm s d).vault = s.vault := by
  unfold State.refreshAlarm; simp
@[simp] theorem vault_refreshDt (s : State) (d : Nat) :
    (State.refreshDt s d).vault = s.vault := by
  unfold State.refreshDt; simp
@[simp] theorem vault_refreshCovered (s : State) (d : Nat) :
    (State.refreshCovered s d).vault = s.vault := by
  unfold State.refreshCovered; simp
@[simp] theorem vault_sensor (s : State) (d : Nat) (k : Nat) (t : BitVec 16) :
    (State.sensor s d k t).vault = s.vault := by
  unfold State.sensor; simp
@[simp] theorem vault_execTempSample (d : Nat) (t0 : BitVec 16) (t1 : BitVec 16) (t2 : BitVec 16) (t3 : BitVec 16) (s : State) :
    Seals s (execTempSample d t0 t1 t2 t3 s) := by
  unfold execTempSample; simp
@[simp] theorem vault_wrTempCfg (s : State) (d : Nat) (data : Nat) :
    (State.wrTempCfg s d data).vault = s.vault := by
  unfold State.wrTempCfg; simp
@[simp] theorem vault_nvsTouch (s : State) (d : Nat) (off : Nat) (n : Nat) :
    (State.nvsTouch s d off n).vault = s.vault := by unfold State.nvsTouch; refine vault_foldl _ _ (fun s x => ?_) _; (try dsimp only); (repeat' split) <;> simp
@[simp] theorem vault_nvsPut (s : State) (d : Nat) (off : Nat) (n : Nat) (data : Nat) :
    (State.nvsPut s d off n data).vault = s.vault := by
  unfold State.nvsPut; simp
@[simp] theorem vault_nvsPend (s : State) (d : Nat) :
    (State.nvsPend s d).vault = s.vault := by
  unfold State.nvsPend; simp
@[simp] theorem vault_storeFail (s : State) (d : Nat) :
    (State.storeFail s d).vault = s.vault := by
  unfold State.storeFail; simp
@[simp] theorem vault_storeDrop (s : State) (d : Nat) :
    (State.storeDrop s d).vault = s.vault := by
  unfold State.storeDrop; simp
@[simp] theorem vault_nvsBegin (s : State) (d : Nat) :
    (State.nvsBegin s d).vault = s.vault := by
  unfold State.nvsBegin; simp
@[simp] theorem vault_nvsAck (s : State) (d : Nat) (w : NvsWrite) :
    (State.nvsAck s d w).vault = s.vault := by
  unfold State.nvsAck; (repeat' split) <;> simp
@[simp] theorem vault_nvsWordDone (s : State) (d : Nat) :
    (State.nvsWordDone s d).vault = s.vault := by
  unfold State.nvsWordDone; (repeat' split) <;> simp
@[simp] theorem vault_execNvsWordWriteDone (d : Nat) (s : State) :
    Seals s (execNvsWordWriteDone d s) := by
  unfold execNvsWordWriteDone; simp
@[simp] theorem vault_nvsCut (s : State) (d : Nat) :
    (State.nvsCut s d).vault = s.vault := by
  unfold State.nvsCut; simp
@[simp] theorem vault_nvsPost (s : State) (by_ : Option Nat) (d : Nat) (off : Nat) (width : Nat) (data : Nat) :
    (State.nvsPost s by_ d off width data).1.vault = s.vault := by
  unfold State.nvsPost; simp
@[simp] theorem vault_execNvsWrite (e : Nat) (d : Nat) (off : Nat) (width : Nat) (data : Nat) (s : State) :
    Seals s (execNvsWrite e d off width data s) := by
  unfold execNvsWrite; dsimp only; (repeat' split) <;> simp
@[simp] theorem vault_nvsGet (s : State) (d : Nat) (off : Nat) (width : Nat) :
    (State.nvsGet s d off width).1.vault = s.vault := by
  unfold State.nvsGet; simp
@[simp] theorem vault_execNvsRead (e : Nat) (d : Nat) (off : Nat) (width : Nat) (s : State) :
    Seals s (execNvsRead e d off width s) := by
  unfold execNvsRead; simp
@[simp] theorem vault_nearPoint (s : State) (t : Int) (l : List CalPoint) :
    (State.nearPoint s t l).2.vault = s.vault := by
  unfold State.nearPoint; (repeat' split) <;> simp
@[simp] theorem vault_showSet (s : State) (d : Nat) (seq : Nat) (pts : List CalPoint) :
    (State.showSet s d seq pts).vault = s.vault := by
  unfold State.showSet; simp
@[simp] theorem vault_setTLast (s : State) (d : Nat) (v : Nat) :
    (State.setTLast s d v).vault = s.vault := by
  unfold State.setTLast; simp
@[simp] theorem vault_markBank (s : State) (d : Nat) (b : Nat) :
    (State.markBank s d b).vault = s.vault := by
  unfold State.markBank; simp
@[simp] theorem vault_wrCalRun (s : State) (d : Nat) (data : Nat) :
    (State.wrCalRun s d data).vault = s.vault := by
  unfold State.wrCalRun; simp
@[simp] theorem vault_execCalRunGo (e : Nat) (d : Nat) (s : State) :
    Seals s (execCalRunGo e d s) := by
  unfold execCalRunGo; simp
@[simp] theorem vault_execCalPiTimeout (d : Nat) (i : Nat) (s : State) :
    Seals s (execCalPiTimeout d i s) := by
  unfold execCalPiTimeout; simp
@[simp] theorem vault_runEnds (s : State) (d : Nat) (status : Nat) :
    (State.runEnds s d status).vault = s.vault := by
  unfold State.runEnds; simp
@[simp] theorem vault_drawBytes (s : State) (n : Nat) :
    (State.drawBytes s n).2.vault = s.vault := by
  unfold State.drawBytes; simp
@[simp] theorem vault_runPoint (s : State) (d : Nat) (t : Int) (seq : Nat) (meas : List Byte) (old : Option CalPoint) :
    (State.runPoint s d t seq meas old).2.vault = s.vault := by
  unfold State.runPoint; (repeat' split) <;> simp
@[simp] theorem vault_storeBegin (s : State) (d : Nat) :
    (State.storeBegin s d).vault = s.vault := by
  unfold State.storeBegin; simp
@[simp] theorem vault_execCalRunEnd (d : Nat) (meas : List Byte) (s : State) :
    Seals s (execCalRunEnd d meas s) := by
  unfold execCalRunEnd; simp
@[simp] theorem vault_execCalStoreEnd (d : Nat) (s : State) :
    Seals s (execCalStoreEnd d s) := by
  unfold execCalStoreEnd; simp
@[simp] theorem vault_between (s : State) (t : Int) (a : CalPoint) (b : CalPoint) (i : Nat) :
    (State.between s t a b i).2.vault = s.vault := by
  unfold State.between; simp
@[simp] theorem vault_allItems (s : State) (t : Int) (a : CalPoint) (b : CalPoint) :
    (State.allItems s t a b).2.vault = s.vault := by
  unfold State.allItems
  have h : ∀ (l : List Nat) (p : List Int × State),
      (l.foldl (fun x i => let r := x.2.between t a b i; (x.1 ++ [r.1], r.2)) p).2.vault = p.2.vault := by
    intro l
    induction l with
    | nil => intro p; rfl
    | cons x r ih => intro p; rw [List.foldl_cons, ih]; simp
  exact h _ _
@[simp] theorem vault_showCoeffs (s : State) (d : Nat) :
    (State.showCoeffs s d).vault = s.vault := by
  unfold State.showCoeffs; simp
@[simp] theorem vault_execCalInterpolate (d : Nat) (s : State) :
    Seals s (execCalInterpolate d s) := by
  unfold execCalInterpolate; refine seals_onDie ?_; (repeat' split) <;> simp
@[simp] theorem vault_calStarted (s : State) (d : Nat) :
    (State.calStarted s d).vault = s.vault := by
  unfold State.calStarted; dsimp only; (repeat' split) <;> simp
@[simp] theorem vault_calStopping (s : State) (d : Nat) :
    (State.calStopping s d).vault = s.vault := by
  unfold State.calStopping; simp
@[simp] theorem vault_calForced (s : State) (d : Nat) :
    (State.calForced s d).vault = s.vault := by
  unfold State.calForced; simp

/-! ## Machine/Run.lean -/

@[simp] theorem vault_perfStarted (s : State) (d : Nat) :
    (State.perfStarted s d).vault = s.vault := by
  unfold State.perfStarted; simp
@[simp] theorem vault_perfStopping (s : State) (d : Nat) :
    (State.perfStopping s d).vault = s.vault := by
  unfold State.perfStopping; simp
@[simp] theorem vault_blockStarted (s : State) (die : Nat) (blk : Nat) (inst : Nat) :
    (State.blockStarted s die blk inst).vault = s.vault := by
  unfold State.blockStarted; (repeat' split) <;> simp
@[simp] theorem vault_blockLeaves (s : State) (die : Nat) (blk : Nat) (inst : Nat) :
    (State.blockLeaves s die blk inst).vault = s.vault := by
  unfold State.blockLeaves; (repeat' split) <;> simp
@[simp] theorem vault_txAbandon (s : State) (h : Nat) (k : Nat) :
    (State.txAbandon s h k).vault = s.vault := by
  unfold State.txAbandon; simp
@[simp] theorem vault_flightCut (s : State) (a : Nat) (b : Nat) :
    (State.flightCut s a b).vault = s.vault := by
  unfold State.flightCut; simp
@[simp] theorem vault_blockForced (s : State) (die : Nat) (blk : Nat) (inst : Nat) :
    (State.blockForced s die blk inst).vault = s.vault := by
  unfold State.blockForced; (repeat' split) <;> simp
@[simp] theorem vault_blockStopped (s : State) (die : Nat) (blk : Nat) (inst : Nat) :
    (State.blockStopped s die blk inst).vault = s.vault := by
  unfold State.blockStopped; (repeat' split) <;> simp
@[simp] theorem vault_startRefused (s : State) (die : Nat) (blk : Nat) (inst : Nat) (code : Nat) :
    (State.startRefused s die blk inst code).vault = s.vault := by
  unfold State.startRefused; simp
@[simp] theorem vault_startRequest (s : State) (by_ : Option Nat) (die : Nat) (blk : Nat) (inst : Nat) :
    (State.startRequest s by_ die blk inst).vault = s.vault := by
  unfold State.startRequest; (repeat' split) <;> simp
@[simp] theorem vault_stopRequest (s : State) (die : Nat) (blk : Nat) (inst : Nat) :
    (State.stopRequest s die blk inst).vault = s.vault := by
  unfold State.stopRequest; (repeat' split) <;> simp
@[simp] theorem vault_execRunStateRequestArrive (by_ : Option Nat) (die : Nat) (blk : Nat) (inst : Nat) (req : RunReq) (s : State) :
    Seals s (execRunStateRequestArrive by_ die blk inst req s) := by
  unfold execRunStateRequestArrive; (repeat' split) <;> simp
@[simp] theorem vault_enterStopped (s : State) (die : Nat) (blk : Nat) (inst : Nat) :
    (State.enterStopped s die blk inst).vault = s.vault := by
  unfold State.enterStopped; simp
@[simp] theorem vault_execDrainComplete (die : Nat) (blk : Nat) (inst : Nat) (s : State) :
    Seals s (execDrainComplete die blk inst s) := by
  unfold execDrainComplete; simp
@[simp] theorem vault_execDrainLimitExpire (die : Nat) (blk : Nat) (inst : Nat) (s : State) :
    Seals s (execDrainLimitExpire die blk inst s) := by
  unfold execDrainLimitExpire; simp
@[simp] theorem vault_faultAnyway (s : State) (die : Nat) (blk : Nat) (inst : Nat) :
    (State.faultAnyway s die blk inst).vault = s.vault := by
  unfold State.faultAnyway; simp
@[simp] theorem vault_hostFault (s : State) (die : Nat) :
    (State.hostFault s die).vault = s.vault := by
  unfold State.hostFault; (repeat' split) <;> simp
@[simp] theorem vault_execEnterFault (die : Nat) (blk : Nat) (inst : Nat) (code : Nat) (s : State) :
    Seals s (execEnterFault die blk inst code s) := by
  unfold execEnterFault; simp

/-! ## Machine/Sec.lean -/

@[simp] theorem vault_secEvent (s : State) (ev : Nat) :
    (State.secEvent s ev).vault = s.vault := by
  unfold State.secEvent; simp
@[simp] theorem vault_pickCode (s : State) (l : List Nat) :
    (State.pickCode s l).2.vault = s.vault := by
  unfold State.pickCode; (repeat' split) <;> simp
@[simp] theorem vault_setSecNvs (s : State) (n : SecNvs) :
    (State.setSecNvs s n).vault = s.vault := by
  unfold State.setSecNvs; simp
@[simp] theorem vault_dbgClose (s : State) :
    (State.dbgClose s).vault = s.vault := by
  unfold State.dbgClose; simp
@[simp] theorem vault_salt (s : State) :
    (State.salt s).2.vault = s.vault := by
  unfold State.salt; simp
@[simp] theorem vault_wrDbg (s : State) (data : Nat) :
    (State.wrDbg s data).vault = s.vault := by
  unfold State.wrDbg; simp
@[simp] theorem vault_execDbgRelock (e : Nat) (pwd : Bool) (chal : Bool) (s : State) :
    Seals s (execDbgRelock e pwd chal s) := by
  unfold execDbgRelock; simp
@[simp] theorem vault_execDbgFailsClr (e : Nat) (pwd : Bool) (chal : Bool) (s : State) :
    Seals s (execDbgFailsClr e pwd chal s) := by
  unfold execDbgFailsClr; simp
@[simp] theorem vault_wrSpiCmd (s : State) (data : Nat) :
    (State.wrSpiCmd s data).vault = s.vault := by
  unfold State.wrSpiCmd; simp
@[simp] theorem vault_execSpiGo (e : Nat) (wpRel : Bool) (dir : Bool) (addrBytes : Nat) (opcode : Nat) (len : Nat) (s : State) :
    Seals s (execSpiGo e wpRel dir addrBytes opcode len s) := by
  unfold execSpiGo; simp
@[simp] theorem vault_execSpiAccessDone (bytes : List Byte) (s : State) :
    Seals s (execSpiAccessDone bytes s) := by
  unfold execSpiAccessDone; simp

/-! ## Machine/Access.lean -/

@[simp] theorem vault_rcClear (s : State) (f : Fld) (die : Nat) (inst : Nat) :
    (State.rcClear s f die inst).vault = s.vault := by
  unfold State.rcClear; simp
@[simp] theorem vault_readReg (s : State) (die : Nat) (blk : Nat) (inst : Nat) (off : Nat) (fs : List Fld) (o : Nat) (n : Nat) :
    (State.readReg s die blk inst off fs o n).1.vault = s.vault := by
  unfold State.readReg
  have hr : ∀ f : Fld, (s.rcClear f die inst).vault = s.vault := fun f => by simp
  extract_lets whole here
  split
  · rename_i r h
    have : r.1.vault = s.vault := by
      unfold State.headTake at h
      split at h <;> first | (cases h; simp; done) | cases h
    dsimp only
    split
    · exact this
    · rfl
  · dsimp only
    split
    · exact vault_foldl _ _ (fun s f => by simp) _
    · rfl
@[simp] theorem vault_readRegs (s : State) (die : Nat) (blk : Nat) (inst : Nat) (o : Nat) (n : Nat) :
    (State.readRegs s die blk inst o n).1.vault = s.vault := by
  unfold State.readRegs; simp
@[simp] theorem vault_readWindow (s : State) (q : Nat) (die : Nat) (blk : Nat) (inst : Nat) (o : Nat) (n : Nat) :
    (State.readWindow s q die blk inst o n).1.vault = s.vault := by
  unfold State.readWindow; (repeat' split) <;> simp
@[simp] theorem vault_readAt (s : State) (q : Nat) (die : Nat) (blk : Nat) (inst : Nat) (o : Nat) (n : Nat) :
    (State.readAt s q die blk inst o n).1.vault = s.vault := by
  unfold State.readAt; simp
@[simp] theorem vault_wrEvmap (s : State) (e : Nat) (k : Nat) (data : Nat) :
    (State.wrEvmap s e k data).vault = s.vault := by
  unfold State.wrEvmap; simp
@[simp] theorem vault_wrSignal (s : State) (e : Nat) (data : Nat) :
    (State.wrSignal s e data).vault = s.vault := by
  unfold State.wrSignal; simp
@[simp] theorem vault_wrField (s : State) (die : Nat) (inst : Nat) (w : Nat) (m : Nat) (f : Fld) :
    (State.wrField s die inst w m f).vault = s.vault := by
  unfold State.wrField; (repeat' split) <;> simp
@[simp] theorem vault_writeWindow (s : State) (die : Nat) (blk : Nat) (inst : Nat) (o : Nat) (n : Nat) (data : Nat) :
    (State.writeWindow s die blk inst o n data).vault = s.vault := by
  unfold State.writeWindow; (repeat' split) <;> simp
@[simp] theorem vault_hostRead (s : State) (h : Nat) (o : Nat) (n : Nat) :
    (State.hostRead s h o n).1.vault = s.vault := by
  unfold State.hostRead; simp
@[simp] theorem vault_execReadClear (by_ : Requester) (addr : Nat) (width : Nat) (s : State) :
    Seals s (execReadClear by_ addr width s) := by
  unfold execReadClear; (repeat' split) <;> simp
@[simp] theorem vault_execEvmapWrite (by_ : Nat) (e : Nat) (k : Nat) (data : Word32) (s : State) :
    Seals s (execEvmapWrite by_ e k data s) := by
  unfold execEvmapWrite; simp
@[simp] theorem vault_execEngSignalWrite (by_ : Nat) (e : Nat) (data : Word32) (s : State) :
    Seals s (execEngSignalWrite by_ e data s) := by
  unfold execEngSignalWrite; simp

/-! ## Machine/Boot.lean -/

@[simp] theorem vault_secArea (s : State) (bad : Bool) :
    (State.secArea s bad).vault = s.vault := by
  unfold State.secArea; simp
@[simp] theorem vault_startAll (s : State) (blk : Nat) :
    (State.startAll s blk).vault = s.vault := by
  unfold State.startAll; simp
@[simp] theorem vault_execSecSelfTestEnd (ok : Bool) (s : State) :
    Seals s (execSecSelfTestEnd ok s) := by
  unfold execSecSelfTestEnd; simp
@[simp] theorem vault_startMesh (s : State) :
    (State.startMesh s).vault = s.vault := by
  unfold State.startMesh; simp
@[simp] theorem vault_execBootD0Locked (s : State) :
    Seals s (execBootD0Locked s) := by
  unfold execBootD0Locked; simp
@[simp] theorem vault_romCopy (s : State) (d : Nat) (k : Nat) :
    (State.romCopy s d k).vault = s.vault := by
  unfold State.romCopy; simp
@[simp] theorem vault_bootPrograms (s : State) :
    (State.bootPrograms s).vault = s.vault := by
  unfold State.bootPrograms; simp
@[simp] theorem vault_execBootFollowerLocked (d : Nat) (s : State) :
    Seals s (execBootFollowerLocked d s) := by
  unfold execBootFollowerLocked; refine seals_onDie ?_; (repeat' split) <;> simp

/-! ## Machine/Func.lean -/

theorem seals_issuePosted {e : Nat} {s : State} {addr : Engine → Nat} {f : State → Nat → Out}
    (h : ∀ u a, Seals u (f u a)) : Seals s (issuePosted e s addr f) := by
  unfold issuePosted
  simp only [seals_ite, seals_next]
  split
  · trivial
  · refine seals_issue fun u => ?_
    simp only [seals_ite, seals_next, vault_trapAt]
    split
    · trivial
    · exact h _ _

theorem seals_issueBlocking {e : Nat} {s : State} {addr : Engine → Nat} {zero : Engine → Engine} {f : State → Nat → Out}
    (h : ∀ u a, Seals u (f u a)) : Seals s (issueBlocking e s addr zero f) := by
  unfold issueBlocking
  refine seals_issue fun u => ?_
  simp only [seals_ite, seals_next, vault_trapAt, vault_setEng]
  split
  · trivial
  · exact h _ _

theorem seals_issueTbl {e : Nat} {rs1 : Reg} {ok : State → Engine → Nat → Bool} {f : State → Nat → Out} {s : State}
    (h : ∀ u a, Seals u (f u a)) : Seals s (issueTbl e rs1 ok f s) := by
  unfold issueTbl
  refine seals_issueBlocking fun u a => ?_
  simp only [seals_ite, seals_next, vault_trapAt]
  split
  · exact h _ _
  · trivial

@[simp] theorem vault_answer' (s : State) (e a c v : Nat) : (s.answer e a c v).vault = s.vault := by simp

theorem vault_reach {s : State} {e a : Nat} {f : State → State} (h : ∀ u : State, (f u).vault = u.vault) :
    (s.reach e a f).vault = s.vault := by
  unfold State.reach; simp [h]
@[simp] theorem vault_pushPosted (s : State) (e : Nat) (addr : Nat) (width : Nat) (data : Nat) :
    (State.pushPosted s e addr width data).vault = s.vault := by
  unfold State.pushPosted; simp
@[simp] theorem vault_storeFun (e : Nat) (rs1 : Reg) (imm : Imm16) (width : Nat) (val : Engine → Nat) (s : State) :
    Seals s (storeFun e rs1 imm width val s) := by
  unfold storeFun; refine seals_issuePosted fun u a => ?_; simp
@[simp] theorem vault_await (s : State) (e : Nat) (op : BlockOp) (addr : Nat) :
    (State.await s e op addr).vault = s.vault := by
  unfold State.await; simp
@[simp] theorem vault_loadFun (e : Nat) (rs1 : Reg) (imm : Imm16) (op : BlockOp) (zero : Engine → Engine) (s : State) :
    Seals s (loadFun e rs1 imm op zero s) := by
  unfold loadFun; refine seals_issue fun u => ?_; simp
@[simp] theorem vault_execFld32 (e : Nat) (rd : Reg) (rs1 : Reg) (imm : Imm16) (s : State) :
    Seals s (execFld32 e rd rs1 imm s) := by
  unfold execFld32; simp
@[simp] theorem vault_execFld64 (e : Nat) (rd : Reg) (rs1 : Reg) (imm : Imm16) (s : State) :
    Seals s (execFld64 e rd rs1 imm s) := by
  unfold execFld64; simp
@[simp] theorem vault_execFldt (e : Nat) (td : TReg) (rs1 : Reg) (imm : Imm16) (s : State) :
    Seals s (execFldt e td rs1 imm s) := by
  unfold execFldt; simp
@[simp] theorem vault_execFst32 (e : Nat) (rd : Reg) (rs1 : Reg) (imm : Imm16) (s : State) :
    Seals s (execFst32 e rd rs1 imm s) := by
  unfold execFst32; simp
@[simp] theorem vault_execFst64 (e : Nat) (rd : Reg) (rs1 : Reg) (imm : Imm16) (s : State) :
    Seals s (execFst64 e rd rs1 imm s) := by
  unfold execFst64; simp
@[simp] theorem vault_execFstt (e : Nat) (ts : TReg) (rs1 : Reg) (imm : Imm16) (s : State) :
    Seals s (execFstt e ts rs1 imm s) := by
  unfold execFstt; simp
@[simp] theorem vault_noteFn (s : State) (e : Nat) (a : Nat) :
    (State.noteFn s e a).vault = s.vault := by
  unfold State.noteFn; simp
@[simp] theorem vault_execFnStop (e : Nat) (rs1 : Reg) (s : State) :
    Seals s (execFnStop e rs1 s) := by
  unfold execFnStop
  split
  · split
    · exact (vault_execHalt _ _).trans (by simp)
    · exact vault_execHalt _ _
  · exact seals_issuePosted fun u a => by simp
@[simp] theorem vault_execFnStart (e : Nat) (rd : Reg) (rs1 : Reg) (s : State) :
    Seals s (execFnStart e rd rs1 s) := by
  unfold execFnStart; refine seals_issue fun u => ?_; simp
@[simp] theorem vault_execFnStat (e : Nat) (rd : Reg) (rs1 : Reg) (s : State) :
    Seals s (execFnStat e rd rs1 s) := by
  unfold execFnStat; refine seals_issue fun u => ?_; simp
@[simp] theorem vault_execTblSrch (e : Nat) (rd : Reg) (rs1 : Reg) (rs2 : Reg) (s : State) :
    Seals s (execTblSrch e rd rs1 rs2 s) := by
  unfold execTblSrch; refine seals_issueTbl fun u a => ?_; simp
@[simp] theorem vault_execTblNext (e : Nat) (rd : Reg) (rs1 : Reg) (rs2 : Reg) (s : State) :
    Seals s (execTblNext e rd rs1 rs2 s) := by
  unfold execTblNext; refine seals_issueTbl fun u a => ?_; simp
@[simp] theorem vault_execTblFlush (e : Nat) (rd : Reg) (rs1 : Reg) (rs2 : Reg) (s : State) :
    Seals s (execTblFlush e rd rs1 rs2 s) := by
  unfold execTblFlush
  split
  · simp
  · refine seals_issueTbl fun u a => ?_
    rw [seals_next, vault_reach]
    · simp
    · intro u; split <;> simp
@[simp] theorem vault_execTblCmd (e : Nat) (rd : Reg) (rs1 : Reg) (rs2 : Reg) (s : State) :
    Seals s (execTblCmd e rd rs1 rs2 s) := by
  unfold execTblCmd
  split
  · simp
  · refine seals_issueTbl fun u a => ?_
    dsimp only
    split
    · simp
    · rw [seals_next, vault_reach]
      · simp
      · intro u; split <;> simp
@[simp] theorem vault_accept (s : State) (e : Nat) (addr : Nat) (op : BlockOp) (v : Nat) :
    (State.accept s e addr op v).vault = s.vault := by
  unfold State.accept; (repeat' split) <;> simp
@[simp] theorem vault_respond (s : State) (e : Nat) (addr : Nat) (op : BlockOp) (r : Resp) :
    (State.respond s e addr op r).vault = s.vault := by
  unfold State.respond; simp
theorem vault_serve {s : State} {e addr : Nat} {op : BlockOp} {r : State × Resp} (h : s.serve e addr op = some r) :
    r.1.vault = s.vault := by
  unfold State.serve at h
  dsimp only at h
  cases op <;> dsimp only at h <;> first
    | (cases h; rfl)
    | (cases h; split <;> simp; done)
    | cases h
@[simp] theorem vault_execFunctionResponseArrive (e : Nat) (s : State) :
    Seals s (execFunctionResponseArrive e s) := by
  unfold execFunctionResponseArrive
  split
  · simp
  · split
    · simp
    · split
      · simp
      · split
        · rename_i r h
          rw [seals_next, vault_respond, vault_tagTarget]
          exact vault_serve h
        · simp
    · simp
@[simp] theorem vault_execEventOccurrence (src : EvSource) (s : State) :
    Seals s (execEventOccurrence src s) := by
  unfold execEventOccurrence; (repeat' split) <;> simp
@[simp] theorem vault_execEventMessageArrive (e : Nat) (line : Nat) (s : State) :
    Seals s (execEventMessageArrive e line s) := by
  unfold execEventMessageArrive; (repeat' split) <;> simp

/-! ## Machine/Debug.lean -/

@[simp] theorem seals_onTap {s : State} {f : State → State} (hf : (f s).vault = s.vault) :
    Seals s (onTap s f) := by unfold onTap; simp [hf]

@[simp] theorem vault_tapSet (s : State) (ir : Nat) (out : Nat) :
    (State.tapSet s ir out).vault = s.vault := by
  unfold State.tapSet; simp
@[simp] theorem vault_execIdcode (s : State) :
    Seals s (execIdcode s) := by
  unfold execIdcode; simp
@[simp] theorem vault_execSamplePreload (pins : List Bool) (preload : List Bool) (s : State) :
    Seals s (execSamplePreload pins preload s) := by
  unfold execSamplePreload; simp
@[simp] theorem vault_execExtest (pins : List Bool) (drive : List Bool) (s : State) :
    Seals s (execExtest pins drive s) := by
  unfold execExtest; simp
@[simp] theorem vault_execClamp (s : State) :
    Seals s (execClamp s) := by
  unfold execClamp; simp
@[simp] theorem vault_execHighz (s : State) :
    Seals s (execHighz s) := by
  unfold execHighz; simp
@[simp] theorem vault_execBypass (s : State) :
    Seals s (execBypass s) := by
  unfold execBypass; simp
@[simp] theorem vault_execDbgChal (s : State) :
    Seals s (execDbgChal s) := by
  unfold execDbgChal; simp
@[simp] theorem vault_dbgAttempt (s : State) (matches_ : Bool) :
    (State.dbgAttempt s matches_).vault = s.vault := by
  unfold State.dbgAttempt; simp
@[simp] theorem vault_execDbgResp (resp : BitVec 256) (s : State) :
    Seals s (execDbgResp resp s) := by
  unfold execDbgResp; refine seals_onTap ?_; (repeat' split) <;> simp
@[simp] theorem vault_execDbgPwd (len : Nat) (bytes : List Byte) (s : State) :
    Seals s (execDbgPwd len bytes s) := by
  unfold execDbgPwd; simp
@[simp] theorem vault_execDbgStatus (s : State) :
    Seals s (execDbgStatus s) := by
  unfold execDbgStatus; simp
@[simp] theorem vault_execDbgHoldExpire (s : State) :
    Seals s (execDbgHoldExpire s) := by
  unfold execDbgHoldExpire; (repeat' split) <;> simp
@[simp] theorem vault_execNonceExpire (s : State) :
    Seals s (execNonceExpire s) := by
  unfold execNonceExpire; (repeat' split) <;> simp
@[simp] theorem vault_execDbgEng (e : Nat) (op : DbgOp) (s : State) :
    Seals s (execDbgEng e op s) := by
  unfold execDbgEng; (repeat' split) <;> simp

/-! ## Machine/Rom.lean -/

@[simp] theorem vault_hookCall (s : State) (e : Nat) (k : Nat) (entry : Nat) (args : List Nat) (wait : HookWait) :
    (State.hookCall s e k entry args wait).vault = s.vault := by
  unfold State.hookCall; simp
theorem vault_wrTrigger {s : State} {by_ : Option Nat} {die blk inst off data : Nat} {hi : Bool} {t : State}
    (h : s.wrTrigger by_ die blk inst off data hi = some t) (hb : blk ≠ 4) : t.vault = s.vault := by
  unfold State.wrTrigger at h
  dsimp only at h
  split at h <;> first
    | exact absurd rfl hb
    | (split at h <;> first | (cases h; done) | (cases h; simp; done) | (cases h; split <;> simp; done))
    | (cases h; simp; done)
    | (cases h; done)

/-- A write to an instance other than SEC leaves the vault. -/

theorem vault_writeAt {blk : Nat} (hb : blk ≠ 4) (s : State) (by_ : Option Nat) (die inst o n data : Nat) :
    (s.writeAt by_ die blk inst o n data).vault = s.vault := by
  unfold State.writeAt
  split
  · unfold State.writeWindow
    dsimp only
    split <;> first
      | exact absurd rfl hb
      | (simp; done)
      | (split <;> first
          | exact vault_foldl _ _ (fun s j => by simp) _
          | (simp; done)
          | ((repeat' split) <;> simp))
  · unfold State.writeRegs
    refine vault_foldl _ _ (fun s off => ?_) _
    unfold State.wrReg
    dsimp only
    split
    · rename_i t h
      exact vault_wrTrigger h hb
    · have hf : ∀ (l : List Fld) (s : State) (w m : Nat), (l.foldl (fun s f => s.wrField die inst w m f) s).vault = s.vault :=
        fun l s w m => vault_foldl _ _ (fun s f => by simp) _
      split
      · simp [hf]
      · exact hf _ _ _ _

theorem faBlk_mkFa {die blk inst off : Nat} (h1 : blk < 256) (h2 : inst < 512) (h3 : off < 2 ^ 20) :
    faBlk (mkFa die blk inst off) = blk := by
  unfold faBlk mkFa
  omega

/-- A program's write to such an instance. -/

theorem vault_romWrite {blk inst off : Nat} (h1 : blk < 256) (h2 : inst < 512) (h3 : off < 2 ^ 20) (h : blk ≠ 4)
    (s : State) (e die w data : Nat) : (s.romWrite e (mkFa die blk inst off) w data).vault = s.vault := by
  unfold State.romWrite
  rw [faBlk_mkFa h1 h2 h3]
  split
  · exact vault_writeAt h _ _ _ _ _ _ _
  · rfl

@[simp] theorem vault_romSend (s : State) (e p : Nat) (ts : Option Nat) (l : List Byte) :
    (s.romSend e p ts l).vault = s.vault := by unfold State.romSend; split <;> simp

@[simp] theorem vault_setExch (s : State) (p : Nat) (x : Exchange) : (s.setExch p x).vault = s.vault := rfl

@[simp] theorem vault_setHandler (s : State) (p : Nat) (x : HandlerState) : (s.setHandler p x).vault = s.vault := rfl

@[simp] theorem vault_setServo (s : State) (x : ServoState) : (s.setServo x).vault = s.vault := rfl

@[simp] theorem vault_linkSend (s : State) (p a b c : Nat) (ts : Option Nat) : (s.linkSend p a b c ts).vault = s.vault := by
  simp [State.linkSend]

@[simp] theorem vault_linkWrite (s : State) (p t1 t2 t3 t4 a b c : Nat) :
    (s.linkWrite p t1 t2 t3 t4 a b c).vault = s.vault := by
  unfold State.linkWrite
  have h (s : State) (off w data : Nat) (ho : off < 2 ^ 20) :
      (s.romWrite (s.handlerOf p) (mkFa (p / 24) B.LINK (p % 24) off) w data).vault = s.vault :=
    vault_romWrite (by decide) (by omega) ho (by decide) _ _ _ _ _
  dsimp only
  repeat rw [h _ _ _ _ (by decide)]

@[simp] theorem vault_ptpServe (s : State) (p : Nat) (m : Option (List Byte × Nat)) (t : Option (Nat × Nat)) :
    (s.ptpServe p m t).vault = s.vault := by
  unfold State.ptpServe; simp
@[simp] theorem vault_pdSend (s : State) (p : Nat) (t : Nat) (flags : Nat) (corr : Int) (seq : Nat) (body : List Byte) (ts : Option Nat) :
    (State.pdSend s p t flags corr seq body ts).vault = s.vault := by
  unfold State.pdSend; simp
@[simp] theorem vault_pdTake (s : State) (p : Nat) (h : Nat) (f : RxFrame) :
    (State.pdTake s p h f).vault = s.vault := by
  unfold State.pdTake; dsimp only; (repeat' split) <;> simp
@[simp] theorem vault_linkDropped (s : State) (d : Nat) : (s.linkDropped d).vault = s.vault := rfl

@[simp] theorem vault_linkTake (s : State) (p o : Nat) (f : RxFrame) : (s.linkTake p o f).vault = s.vault := by
  unfold State.linkTake
  extract_lets l seq time x peer y
  clear_value y seq time peer
  split
  · simp
  · simp
  · split
    · split <;> simp
    · simp
  · simp

@[simp] theorem vault_handlerTake (s : State) (d : Nat) (f : RxFrame) : (s.handlerTake d f).vault = s.vault := by
  unfold State.handlerTake
  extract_lets l p o other
  have h (u : State) : (other u).vault = u.vault := rfl
  clear_value other
  split
  · split
    · simp
    · split <;> simp
  · split
    · split
      · simp
      · rw [h]
    · rw [h]

@[simp] theorem vault_filterDone (s : State) (d : Nat) (v : Nat) (f : RxFrame) :
    (State.filterDone s d v f).vault = s.vault := by
  unfold State.filterDone; simp
@[simp] theorem vault_handlerTick (s : State) (d : Nat) : (s.handlerTick d).vault = s.vault := by
  unfold State.handlerTick; dsimp only; (repeat' split) <;> simp
@[simp] theorem vault_pdStamp (s : State) (p : Nat) (t : TsEntry) :
    (State.pdStamp s p t).vault = s.vault := by
  unfold State.pdStamp; dsimp only; (repeat' split) <;> simp
@[simp] theorem vault_portStamp (s : State) (p : Nat) : (s.portStamp p).vault = s.vault := by
  unfold State.portStamp; dsimp only; (repeat' split) <;> simp
@[simp] theorem vault_portAsk (s : State) (p : Nat) : (s.portAsk p).vault = s.vault := by
  unfold State.portAsk
  dsimp only
  split <;> simp

@[simp] theorem vault_portPeer (s : State) (p : Nat) :
    (State.portPeer s p).vault = s.vault := by
  unfold State.portPeer; simp
@[simp] theorem vault_asymDone (s : State) (p : Nat) (v : Nat) :
    (State.asymDone s p v).vault = s.vault := by
  unfold State.asymDone
  dsimp only
  rw [vault_ptpServe]
  split
  · rfl
  · exact vault_romWrite (by decide) (by omega) (by decide) (by decide) _ _ _ _ _
@[simp] theorem vault_portWindow (s : State) (p : Nat) : (s.portWindow p).vault = s.vault := by
  unfold State.portWindow; dsimp only; (repeat' split) <;> simp
@[simp] theorem vault_portTick (s : State) (p : Nat) : (s.portTick p).vault = s.vault := by
  unfold State.portTick; simp
@[simp] theorem vault_runDone (s : State) (d : Nat) (v : Nat) :
    (State.runDone s d v).vault = s.vault := by
  unfold State.runDone
  dsimp only
  rw [vault_ite, vault_setCalSeq, vault_romWrite (by decide) (by decide) (by decide) (by decide), vault_setCalSeq, ite_self]
@[simp] theorem vault_calSeqTick (s : State) (d : Nat) : (s.calSeqTick d).vault = s.vault := by
  unfold State.calSeqTick
  dsimp only
  (repeat' split) <;> simp
@[simp] theorem vault_servoParams (s : State) (first : Bool) : (s.servoParams first).vault = s.vault := by
  rw [State.servoParams, vault_ite, vault_setServo]
  split <;> rfl

@[simp] theorem vault_servoPublish (s : State) : s.servoPublish.vault = s.vault := by
  unfold State.servoPublish; simp
@[simp] theorem vault_servoHold (s : State) (st source hops : Nat) : (s.servoHold st source hops).vault = s.vault := by
  unfold State.servoHold
  dsimp only
  split <;> rfl

@[simp] theorem vault_servoSel (s : State) (src : Nat) (port : Nat) :
    (State.servoSel s src port).vault = s.vault :=
  vault_romWrite (by decide) (by decide) (by decide) (by decide) _ _ _ _ _
@[simp] theorem vault_servoXo (s : State) (source : Nat) :
    (State.servoXo s source).vault = s.vault := by
  unfold State.servoXo; split <;> simp
@[simp] theorem vault_servoFollow (s : State) (c : Candidate) : (s.servoFollow c).vault = s.vault := by
  unfold State.servoFollow
  extract_lets v hops s1
  split
  · rfl
  · split
    · rfl
    · split
      · rw [vault_servoXo]; rfl
      · rw [vault_servoSel]; rfl
@[simp] theorem vault_servoUse (s : State) (c : Option Candidate) :
    (State.servoUse s c).vault = s.vault := by
  unfold State.servoUse
  dsimp only
  (repeat' split) <;> simp
@[simp] theorem vault_servoTell (s : State) : s.servoTell.vault = s.vault := by
  unfold State.servoTell
  dsimp only
  split <;> simp

@[simp] theorem vault_servoStop (s : State) : s.servoStop.vault = s.vault := by
  unfold State.servoStop
  dsimp only
  split <;> simp

@[simp] theorem vault_servoRestart (s : State) : s.servoRestart.vault = s.vault := by
  unfold State.servoRestart
  extract_lets v l u s1 s2
  split
  · rfl
  · split
    · rfl
    · have h1 : s1.vault = s.vault :=
        vault_romWrite (by decide) (by decide) (by decide) (by decide) s 2 l 128 (xtOfInt u).toNat
      have h2 : s2.vault = s1.vault :=
        vault_romWrite (by decide) (by decide) (by decide) (by decide) s1 2 l 64 (s1.rf F.RIDGE.BASE_BASE l 0)
      clear_value s2 s1
      rw [vault_startRequest, vault_setServo, h2, h1]
  · split
    · rfl
    · split <;> rfl

@[simp] theorem vault_servoRate (s : State) (theta step : Int) : (s.servoRate theta step).vault = s.vault := by
  unfold State.servoRate
  extract_lets v l now on
  have h (u : State) (m : Option (Nat × Int × Int)) : (on u m).vault = u.vault := rfl
  clear_value on
  split
  · rfl
  · split
    · exact h _ _
    · extract_lets n
      split
      · exact h _ _
      · rw [vault_romWrite (by decide) (by decide) (by decide) (by decide), h]

@[simp] theorem vault_servoResult (s : State) (theta : Int) : (s.servoResult theta).vault = s.vault := by
  unfold State.servoResult
  extract_lets v l s0 x _ s1 s2
  have h0 : s0.vault = s.vault := rfl
  split
  · exact h0
  · split
    · split <;> simp [h0]
    · have h1 : s1.vault = s.vault := by simp [s1, h0]
      clear_value s1
      have h2 : s2.vault = s.vault := by
        dsimp only [s2]
        split
        · exact (vault_romWrite (by decide) (by decide) (by decide) (by decide) _ _ _ _ _).trans h1
        · simp [h1]
      exact (vault_romWrite (by decide) (by decide) (by decide) (by decide) _ _ _ _ _).trans h2

@[simp] theorem vault_servoPending (s : State) : s.servoPending.vault = s.vault := by
  unfold State.servoPending
  dsimp only
  split <;> simp

@[simp] theorem vault_servoRead (s : State) (off : Nat) :
    (State.servoRead s off).1.vault = s.vault := by
  unfold State.servoRead; simp
@[simp] theorem vault_readSlot (s : State) (k : Nat) :
    (State.readSlot s k).1.vault = s.vault := by
  unfold State.readSlot; simp
@[simp] theorem vault_newestSlot (s : State) :
    (State.newestSlot s).1.vault = s.vault := by
  unfold State.newestSlot; simp
@[simp] theorem vault_servoCheckpoint (s : State) : s.servoCheckpoint.vault = s.vault := by
  unfold State.servoCheckpoint
  extract_lets v l word s1
  refine (vault_setServo _ _).trans (vault_foldl _ _ (fun s w => ?_) _)
  dsimp only [word]
  split
  · exact vault_nvsPost _ _ _ _ _ _
  · rfl

@[simp] theorem vault_servoStart (s : State) : s.servoStart.vault = s.vault := by
  unfold State.servoStart
  extract_lets s1 n
  have hn : n.1.vault = s.vault := by rw [vault_newestSlot, vault_servoParams, vault_setServo]
  generalize n = m at hn ⊢
  match m, hn with
  | (u, none), hn => exact hn
  | (u, some (c, freq)), hn =>
    dsimp only at hn ⊢
    rw [vault_ite, vault_romWrite (by decide) (by decide) (by decide) (by decide), vault_setServo, hn, ite_self]
@[simp] theorem vault_servoRest (s : State) (ranked : Bool) (news : List Nat) (sol : Bool) (second : Bool) :
    (State.servoRest s ranked news sol second).vault = s.vault := by
  unfold State.servoRest; (repeat' split) <;> simp
@[simp] theorem vault_servoRank (s : State) (news : List Nat) (sol : Bool) (second : Bool) :
    (State.servoRank s news sol second).vault = s.vault := by
  unfold State.servoRank
  dsimp only
  (repeat' split) <;> simp
@[simp] theorem vault_servoTick (s : State) : s.servoTick.vault = s.vault := by
  unfold State.servoTick
  split
  · rfl
  · extract_lets s0 v able ports news sol second role ranks seen s1 fresh
    have h0 : s0.vault = s.vault := by
      dsimp only [s0]
      split <;> simp
    have h1 : s1.vault = s.vault := (vault_setServo _ _).trans h0
    split
    · rw [vault_servoRank, vault_servoParams, h1]
    · rw [vault_servoRest, h1]
@[simp] theorem vault_leaseCmd (s : State) (op : Nat) : (s.leaseCmd op).vault = s.vault :=
  vault_romWrite (by decide) (by decide) (by decide) (by decide) _ _ _ _ _

@[simp] theorem vault_leaseDone (s : State) (renew : Bool) (v : Nat) :
    (State.leaseDone s renew v).vault = s.vault := by
  unfold State.leaseDone; simp
@[simp] theorem vault_leaseAsk (s : State) (renew : Bool) : (s.leaseAsk renew).vault = s.vault := by
  unfold State.leaseAsk
  split <;> simp
@[simp] theorem vault_leaseTick (s : State) : s.leaseTick.vault = s.vault := by
  unfold State.leaseTick
  split
  · rfl
  · extract_lets able v half put
    have h (u : State) (x : Nat) : (put u x).vault = u.vault := rfl
    clear_value put
    split
    · rw [vault_leaseAsk, h]
    · split
      · rw [vault_leaseAsk, h]
      · exact h _ _
@[simp] theorem vault_hookTick (s : State) (e : Nat) : (s.hookTick e).vault = s.vault := by
  unfold State.hookTick
  split
  · rfl
  · dsimp only
    split
    · split <;> simp
    · split <;> simp
    · simp
    · simp
    · simp
@[simp] theorem vault_romTick (s : State) : s.romTick.vault = s.vault := by
  unfold State.romTick
  split
  · rfl
  · dsimp only
    rw [vault_leaseTick, vault_servoTick, vault_foldl _ _ (fun s d => vault_calSeqTick s d),
      vault_foldl _ _ (fun s d => vault_portTick s d), vault_foldl _ _ (fun s d => vault_handlerTick s d),
      vault_foldl _ _ (fun s e => vault_hookTick s e)]
/-! ## Machine/Idle.lean -/

@[simp] theorem vault_idleTick (s : State) (p : Nat) :
    (State.idleTick s p).vault = s.vault := by
  unfold State.idleTick; simp
@[simp] theorem vault_issueCycles (s : State) (d n : Nat) : (State.issueCycles s d n).vault = s.vault := by
  unfold State.issueCycles
  simp only [vault_setPerf]
  exact vault_foldl _ _ (fun u k => by split <;> simp) s
@[simp] theorem vault_cycleTick (s : State) (d : Nat) :
    (State.cycleTick s d).vault = s.vault := by
  unfold State.cycleTick; simp
@[simp] theorem vault_dieTick (s : State) (d : Nat) :
    (State.dieTick s d).vault = s.vault := by
  unfold State.dieTick; simp
@[simp] theorem vault_idle (s : State) :
    (State.idle s).vault = s.vault := by
  unfold State.idle; simp
end Sys2Proof.Machine
end

