-- ==== Sys2Proof/WellFormed.lean ====
section
/-!
DEFINITION. Well-formed commands: every operand names a part of the hardware that the part in question has, and fits the
width the spec gives it (R2, R5, R16, R44, R61, R65).
-/
namespace Sys2Proof

/-- A number below a bound. -/
def below (n b : Nat) : Bool := decide (n < b)

/-- A die, an engine, a port or lane, an event channel, an endpoint of the part (R2, R16, R44). -/
def okDie (p : Part) (d : Nat) : Bool := below d (Config.nDies p)
def okEng (p : Part) (e : Nat) : Bool := below e (Config.nEngines p)
def okPort (p : Part) (n : Nat) : Bool := below n (Config.nPorts p)
def okChan (p : Part) (n : Nat) : Bool := below n (Config.nChannels p)
def okHost (p : Part) (h : Nat) : Bool := below h (Config.nHosts p)
/-- A span between two different sample edges (R295). -/
def okSpan (m : SampleSpan) : Bool := below 0 m.blocks && below 0 m.ticks

/-- The access widths of R61. -/
def okWidth (w : Nat) : Bool := w == 32 || w == 64 || w == 128

/-- A requester of the part. -/
def okBy (p : Part) : Requester → Bool
  | .engine e => okEng p e
  | .host h => okHost p h

/-- An event number, or a fixed line of R77, of the part. -/
def okSource (p : Part) : EvSource → Bool
  | .block d b i ev => okDie p d && below b 256 && below i 512 && below ev 64
  | .line e n => okEng p e && decide (58 ≤ n) && below n 64

/-- The LPM and MCG tables, and with L2T those that switch banks (R360). -/
def okTbl (b : Nat) : Bool := b == 0x15 || b == 0x16
def okTblOrL2 (b : Nat) : Bool := b == 0x14 || okTbl b

/-- A command whose operands are in range. -/
def Instr.wellFormed (p : Part) : Instr → Bool
  | .nop e => okEng p e
  | .illegal e _ => okEng p e
  | .add e _ _ _ => okEng p e
  | .sub e _ _ _ => okEng p e
  | .and e _ _ _ => okEng p e
  | .or e _ _ _ => okEng p e
  | .xor e _ _ _ => okEng p e
  | .sll e _ _ _ => okEng p e
  | .srl e _ _ _ => okEng p e
  | .sra e _ _ _ => okEng p e
  | .mul e _ _ _ => okEng p e
  | .mulhu e _ _ _ => okEng p e
  | .mulhs e _ _ _ => okEng p e
  | .divu e _ _ _ => okEng p e
  | .remu e _ _ _ => okEng p e
  | .clz e _ _ => okEng p e
  | .popc e _ _ => okEng p e
  | .addi e _ _ _ => okEng p e
  | .andi e _ _ _ => okEng p e
  | .ori e _ _ _ => okEng p e
  | .xori e _ _ _ => okEng p e
  | .shi e _ _ _ _ => okEng p e
  | .cmpi e _ _ => okEng p e
  | .movz e _ _ _ => okEng p e
  | .movk e _ _ _ => okEng p e
  | .ld8u e _ _ _ => okEng p e
  | .ld16u e _ _ _ => okEng p e
  | .ld32u e _ _ _ => okEng p e
  | .ld64 e _ _ _ => okEng p e
  | .ld8s e _ _ _ => okEng p e
  | .ld16s e _ _ _ => okEng p e
  | .ld32s e _ _ _ => okEng p e
  | .st8 e _ _ _ => okEng p e
  | .st16 e _ _ _ => okEng p e
  | .st32 e _ _ _ => okEng p e
  | .st64 e _ _ _ => okEng p e
  | .ldt e _ _ _ => okEng p e
  | .stt e _ _ _ => okEng p e
  | .fld32 e _ _ _ => okEng p e
  | .fld64 e _ _ _ => okEng p e
  | .fst32 e _ _ _ => okEng p e
  | .fst64 e _ _ _ => okEng p e
  | .fldt e _ _ _ => okEng p e
  | .fstt e _ _ _ => okEng p e
  | .functionResponseArrive e => okEng p e
  | .postedAckArrive e _ => okEng p e
  | .tnow e _ => okEng p e
  | .tnowTk e _ => okEng p e
  | .tadd e _ _ _ => okEng p e
  | .tsub e _ _ _ => okEng p e
  | .tcmp e _ _ => okEng p e
  | .tcvtPack e _ _ _ => okEng p e
  | .tcvtSec e _ _ => okEng p e
  | .tcvtLo e _ _ => okEng p e
  | .tcvtMov e _ _ => okEng p e
  | .tblSrch e _ _ _ => okEng p e
  | .tblNext e _ _ _ => okEng p e
  | .tblFlush e _ _ _ => okEng p e
  | .tblCmd e _ _ _ => okEng p e
  | .fnStop e _ => okEng p e
  | .fnStart e _ _ => okEng p e
  | .fnStat e _ _ => okEng p e
  | .runStateRequestArrive by_ die blk inst _ => by_.all (okEng p) && okDie p die && below blk 256 && below inst 512
  | .drainComplete die blk inst => okDie p die && below blk 256 && below inst 512
  | .drainLimitExpire die blk inst => okDie p die && below blk 256 && below inst 512
  | .enterFault die blk inst code => okDie p die && below blk 256 && below inst 512 && below code 256
  | .b e _ _ => okEng p e
  | .call e _ _ => okEng p e
  | .jalr e _ _ _ => okEng p e
  | .rdf e _ => okEng p e
  | .wrf e _ => okEng p e
  | .clf e _ => okEng p e
  | .wait e _ _ _ => okEng p e
  | .waitT e _ _ _ => okEng p e
  | .waitHit e => okEng p e
  | .waitTimeout e => okEng p e
  | .send e _ _ => okEng p e
  | .recv e _ _ _ => okEng p e
  | .mbx e _ _ _ => okEng p e
  | .trap e _ => okEng p e
  | .fence e => okEng p e
  | .halt e => okEng p e
  | .eventOccurrence src => okSource p src
  | .eventMessageArrive e line => okEng p e && below line 64
  | .evmapWrite by_ e k _ => okEng p by_ && okEng p e && below k 56
  | .engSignalWrite by_ e _ => okEng p by_ && okEng p e
  | .registerWrite by_ addr width data => okBy p by_ && below addr (2 ^ 40) && okWidth width && below data (2 ^ width)
  | .readClear by_ addr width => okBy p by_ && below addr (2 ^ 40) && okWidth width
  | .ownCmdSet e die blk inst part => okEng p e && okDie p die && below blk 256 && below inst 512 && below part 4
  | .ownCmdQuery e die blk inst => okEng p e && okDie p die && below blk 256 && below inst 512
  | .ownHoldRequest d => okDie p d
  | .ownHoldReply => true
  | .ownEntriesApply d => okDie p d
  | .ownCmdComplete => true
  | .ownResync d => okDie p d
  | .policyWrite e _ => okEng p e
  | .policyCopyApply d => okDie p d
  | .loadGo h _ => okHost p h
  | .loadStaged h _ _ => okHost p h
  | .signatureCheckDone => true
  | .loadEnd h => okHost p h
  | .mbiPost h slot len => okHost p h && below slot 16 && below len 512
  | .svcPost h slot len => okHost p h && below slot 16 && below len 512
  | .mbiTake e d => okEng p e && okDie p d
  | .mbiFree e d _ => okEng p e && okDie p d
  | .mboTake h => okHost p h
  | .mboFree h _ => okHost p h
  | .svcTake e => okEng p e
  | .svcReply e _ => okEng p e
  | .ringCfgWrite e d k _ => okEng p e && okDie p d && below k 16
  | .dbTx h k _ => okHost p h && below k 16
  | .dbRx h k _ => okHost p h && below k 16
  | .txDescriptorFetched h k addr length kind queue dest flags tsId => okHost p h && below k 16 &&
      below addr (2 ^ 64) && below length (2 ^ 16) && below kind 256 && below queue 256 && below dest (2 ^ 32) && below flags 256 && below tsId (2 ^ 16)
  | .txFrameRead h k _ _ => okHost p h && below k 16
  | .injectionServe d _ => okDie p d
  | .rxRingDeliver h k bufLen => okHost p h && below k 16 && below bufLen (2 ^ 16)
  | .msixHoldoffExpire h k => okHost p h && below k 16
  | .hostLinkReset h _ => okHost p h
  | .hostLinkUp h speed width => okHost p h && decide (1 ≤ speed) && below speed 5 && [1, 2, 4, 8].contains width
  | .grantWrite e n _ => okEng p e && below n 4
  | .pwrgoodFall => true
  | .pwrgoodRise => true
  | .resetNFall => true
  | .resetNFiltered => true
  | .resetNRise => true
  | .resetRelease _ => true
  | .tapReset _ => true
  | .secSelfTestEnd _ => true
  | .bootD0Locked => true
  | .bootFollowerLocked d => okDie p d
  | .lcAdvance e target confirm => okEng p e && below target 16 && below confirm 256
  | .keyEnrol e slot => okEng p e && below slot 4
  | .keyRevoke e slot => okEng p e && below slot 4
  | .debugSecretEnrol e => okEng p e
  | .ownerPasswordSet e len => okEng p e && below len 128
  | .keyCmdDone _ => true
  | .rollbackAdvance e new => okEng p e && below new 512
  | .rollbackDone _ blown => below blown 257
  | .dbgRelock e _ _ => okEng p e
  | .dbgFailsClr e _ _ => okEng p e
  | .spiGo e _ _ addrBytes opcode len => okEng p e && below addrBytes 4 && below opcode 256 && below len 512
  | .spiAccessDone bytes => decide (bytes.length ≤ 256)
  | .idcode => true
  | .samplePreload _ _ => true
  | .extest _ _ => true
  | .clamp => true
  | .highz => true
  | .dbgChal => true
  | .dbgResp _ => true
  | .dbgPwd len bytes => below len 256 && bytes.length == 64
  | .dbgStatus => true
  | .dbgAccess _ _ _ => true
  | .dbgEng e _ => okEng p e
  | .bypass => true
  | .dbgHoldExpire => true
  | .nonceExpire => true
  | .phaseReport l _ _ => okPort p l
  | .trackerLock l _ => okPort p l
  | .trackerUnlock l _ => okPort p l
  | .freqWindowEnd l _ => okPort p l
  | .blockLockAcquire h => okPort p h.lane
  | .blockLockLoss h => okPort p h.lane
  | .alignLockChange n _ _ => okPort p n
  | .hiBerChange n _ => okPort p n
  | .faultOrderedSetReceive n _ => okPort p n
  | .pcsLinkUp n => okPort p n
  | .uncorrectableCodeword n _ _ _ => okPort p n
  | .ctleAdaptStep l _ => okPort p l
  | .adaptFreeze l _ => okPort p l
  | .laneSleepRequest e l _ => okEng p e && okPort p l
  | .laneWakeRequest e l _ => okEng p e && okPort p l
  | .txIdleExpire n => okPort p n
  | .txWakeDone n => okPort p n
  | .rxSleepEnter l => okPort p l
  | .rxWake l _ => okPort p l
  | .prbsLock x => okPort p x.lane
  | .prbsLoss l _ => okPort p l
  | .pllSelect e _ _ => okEng p e
  | .pllSelectBoundary => true
  | .refValidityChange ref _ => (ref == 1 || ref == 2)
  | .pllLockAchieved d _ _ => okDie p d
  | .pllLockLoss d _ => okDie p d
  | .pllRefQualified d => okDie p d
  | .histOkSet d => okDie p d
  | .handoverTimeout d => okDie p d
  | .steerWrite e _ => okEng p e
  | .steerStep => true
  | .rampGo e _ => okEng p e
  | .rampStart => true
  | .rampSegmentEnd => true
  | .outUpdGo e => okEng p e
  | .outUpdApply => true
  | .deltaMeasureBegin d => okDie p d
  | .deltaMeasureEnd d _ => okDie p d
  | .rateWrite e d _ => okEng p e && okDie p d
  | .stepWrite e d _ => okEng p e && okDie p d
  | .changeApply d => okDie p d
  | .alignMessageArrive d _ => okDie p d
  | .skewStale d => okDie p d
  | .replicaCheck d _ => okDie p d
  | .millisecondBoundary d => okDie p d
  | .secondBoundary d => okDie p d
  | .txqMetaRead e n => okEng p e && okPort p n
  | .linkWindowEnd n => okPort p n
  | .linkCommit e n => okEng p e && okPort p n
  | .beaconSend => true
  | .beaconReceive => true
  | .summitEligible => true
  | .summitTake e => okEng p e
  | .summitRenew e => okEng p e
  | .summitRelease e => okEng p e
  | .leaseLapse => true
  | .pathTimeout k => below k 2
  | .gnssAcquisitionDwell m _ bin => okSpan m && bin.all (below · 8)
  | .gnssSolution e _ _ _ _ => okSpan e.span
  | .gnssEpochMissed => true
  | .gnssSlewUpdate => true
  | .surveyDone => true
  | .sparseBurst => true
  | .gnssClkLost => true
  | .ppsSchedule => true
  | .ppsEdge => true
  | .gnssAck e => okEng p e
  | .eventCrossing ch _ _ => okChan p ch
  | .threshWrite e ch _ => okEng p e && okChan p ch
  | .threshSettled ch => okChan p ch
  | .armWrite e ch _ => okEng p e && okChan p ch
  | .trainWindowClose ch => okChan p ch
  | .pairedWindowClose ch => okChan p ch
  | .gatedTimeout ch => okChan p ch
  | .evtRecHeadRead e ch => okEng p e && okChan p ch
  | .eventFrameDeliver ch => okChan p ch
  | .frameReceiveStart n _ _ _ => okPort p n
  | .frameCellReceive n => okPort p n
  | .frameReceiveEnd n _ => okPort p n
  | .cellSend d dest => okDie p d && okDie p dest
  | .cellArrive d src _ => okDie p d && okDie p src
  | .ctlMessageReceive x y _ => okDie p x && okDie p y && x != y
  | .frameTransmitStart n _ => okPort p n
  | .frameTransmitEnd n => okPort p n
  | .stoppedPortDiscard n q => okPort p n && below q 16
  | .gateEntryStart n => okPort p n
  | .mirrRecHeadRead e d => okEng p e && okDie p d
  | .saddleDirectionDown x y _ => okDie p x && okDie p y && x != y
  | .saddleTrainingEnd x y _ _ => okDie p x && okDie p y && x != y
  | .orderPointArrive src => okDie p src
  | .agePeriodExpire => true
  | .l2ChangeArrive d => okDie p d
  | .applyLearn d => okDie p d
  | .applyAge d _ => okDie p d
  | .applyFlush d _ => okDie p d
  | .tableScanEnd d => okDie p d
  | .l2UpdWrite e => okEng p e
  | .l2UpdDelete e => okEng p e
  | .applyUpd d => okDie p d
  | .rehashGo e => okEng p e
  | .applyRehash d => okDie p d
  | .rehashResult => true
  | .tableSwitchApply d blk => okDie p d && okTblOrL2 blk
  | .bankDrainEnd d blk => okDie p d && okTblOrL2 blk
  | .l2ResyncStart d => okDie p d
  | .l2ResyncEnd d => okDie p d
  | .tableCmdGo e d blk => okEng p e && okDie p d && okTbl blk
  | .insert d blk => okDie p d && okTbl blk
  | .delete d blk => okDie p d && okTbl blk
  | .read d blk => okDie p d && okTbl blk
  | .rebuildBegin d blk => okDie p d && okTbl blk
  | .shadowInsert d blk => okDie p d && okTbl blk
  | .shadowDelete d blk => okDie p d && okTbl blk
  | .commit d blk => okDie p d && okTbl blk
  | .abort d blk => okDie p d && okTbl blk
  | .tableReplicaWrite d blk => okDie p d && okTbl blk
  | .tableAcksComplete blk => okTbl blk
  | .tableSyncEnd blk => okTbl blk
  | .tableResyncStart d blk => okDie p d && okTbl blk
  | .tableResyncEnd d blk => okDie p d && okTbl blk
  | .prpForget d i _ => okDie p d && below i 12
  | .lanOkExpire d i _ => okDie p d && below i 12
  | .tempSample d _ _ _ _ => okDie p d
  | .calRunGo e d => okEng p e && okDie p d
  | .calPiTimeout d i => okDie p d && below i 24
  | .calRunEnd d _ => okDie p d
  | .calInterpolate d => okDie p d
  | .calStoreEnd d => okDie p d
  | .nvsWrite e d off width data => okEng p e && okDie p d && below off (2 ^ 20) && okWidth width && below data (2 ^ width)
  | .nvsWordWriteDone d => okDie p d
  | .nvsRead e d off width => okEng p e && okDie p d && below off (2 ^ 20) && okWidth width
  | .perfCompareReached d c _ => okDie p d && below c 8
  | .perfCounterWrap d c _ => okDie p d && below c 8
  | .bwWindowEnd d => okDie p d
  | .tagStageReport d => okDie p d
  | .tagHeadRead e d => okEng p e && okDie p d
  | .histLevelSample d i => okDie p d && below i 32
  | .histClear e d i _ => okEng p e && okDie p d && below i 32
  | .histHold e d i _ => okEng p e && okDie p d && below i 32
  | .fvddLoss d => okDie p d
  | .fvddRestore d => okDie p d
  | .outputEdgeSchedule d k => okDie p d && below k 4
  | .outputEdge d k => okDie p d && below k 4
  | .outputPulseEnd d k => okDie p d && below k 4
  | .triggerArm e d k => okEng p e && okDie p d && below k 4
  | .thermAssert d k => okDie p d && below k 4
  | .thermRelease => true
  | .clkoSupplyChange _ => true
  | .gnssClkRestored => true
  | .channelPullInEnd k _ _ => below k 16
  | .channelSignalLost k => below k 16
  | .ephemerisDecoded k _ _ => below k 16

end Sys2Proof
end

