-- ==== Sys2Proof/Tests/Slice0.lean ====
section
/-!
SUPPORT. Tests of the model: terms that WellFormed refuses, instruction words written out from their encodings, and for
each statement of Certificates/Slice0/Obligations.lean with hypotheses a concrete state and operands that meet them,
clause by clause.
-/
namespace Sys2Proof.Tests
open Sys2Proof Sys2Proof.Machine
set_option Elab.async false

/-! ## WellFormed: a term for each check -/

/-- Commands of part 9192 with every operand in range are well formed. -/
theorem test_wellFormed_accepts :
    [Instr.nop 31, .phaseReport 191 0 0, .eventCrossing 63 true 0, .loadGo 3 false, .ownResync 7,
      .runStateRequestArrive (some 31) 7 255 511 .start, .registerWrite (.engine 31) (2 ^ 40 - 1) 128 (2 ^ 128 - 1),
      .eventOccurrence (.block 7 255 511 63), .eventOccurrence (.line 31 63), .eventMessageArrive 31 63,
      .evmapWrite 31 31 55 0, .ownCmdSet 31 7 255 511 3, .refValidityChange 2 (some (-5)), .insert 7 0x16,
      .bankDrainEnd 7 0x14, .cellArrive 7 6 true, .dbgPwd 64 (List.replicate 64 0)].all (Instr.wellFormed .xu9192) = true := by
  decide +kernel

/-- Dies, engines, ports, channels, endpoints and tables that the part lacks are refused. -/
theorem test_wellFormed_refuses_parts :
    [Instr.nop 32, .ownResync 8, .phaseReport 192 0 0, .eventCrossing 64 true 0, .loadGo 4 false,
      .registerWrite (.engine 32) 0 32 0, .registerWrite (.host 4) 0 32 0, .eventOccurrence (.block 8 0 0 0),
      .eventOccurrence (.line 32 60), .runStateRequestArrive (some 32) 0 0 0 .stop, .runStateRequestArrive none 8 0 0 .stop,
      .insert 0 0x14, .tableSwitchApply 0 0x17, .tableAcksComplete 0x13, .ctlMessageReceive 3 3 true, .saddleDirectionDown 0 0 true,
      .saddleTrainingEnd 1 1 0 true, .refValidityChange 0 none, .refValidityChange 3 none].any (Instr.wellFormed .xu9192) =
      false := by decide +kernel

/-- The smaller parts lack what the larger ones have. -/
theorem test_wellFormed_refuses_smaller :
    ([Instr.nop 8, .ownResync 2, .phaseReport 48 0 0, .eventCrossing 16 true 0, .loadGo 2 false].any (Instr.wellFormed .xu9048) ||
      [Instr.nop 16, .ownResync 4, .phaseReport 96 0 0, .eventCrossing 32 true 0, .loadGo 4 false].any
        (Instr.wellFormed .xu9096)) = false := by decide +kernel

/-- Numbers beyond their fields are refused: blocks, instances, codes, lines, events, EVMAP entries, addresses, widths, data. -/
theorem test_wellFormed_refuses_numbers :
    [Instr.drainComplete 0 256 0, .drainLimitExpire 0 0 512, .enterFault 0 0 0 256, .eventMessageArrive 0 64,
      .eventOccurrence (.line 0 57), .eventOccurrence (.line 0 64), .eventOccurrence (.block 0 256 0 0),
      .eventOccurrence (.block 0 0 512 0), .eventOccurrence (.block 0 0 0 64), .evmapWrite 0 0 56 0,
      .registerWrite (.engine 0) (2 ^ 40) 32 0, .registerWrite (.engine 0) 0 16 0, .registerWrite (.engine 0) 0 32 (2 ^ 32),
      .readClear (.host 0) (2 ^ 40) 64, .readClear (.host 0) 0 8, .ownCmdSet 0 0 0 0 4, .ownCmdQuery 0 0 256 0,
      .mbiPost 0 16 8, .svcPost 0 0 512, .ringCfgWrite 0 0 16 0, .dbTx 0 16 0, .dbRx 0 16 0, .txFrameRead 0 16 [] true,
      .rxRingDeliver 0 0 (2 ^ 16), .rxRingDeliver 0 16 0, .msixHoldoffExpire 0 16, .hostLinkUp 0 0 1, .hostLinkUp 0 5 1, .hostLinkUp 0 1 3,
      .grantWrite 0 4 0].any (Instr.wellFormed .xu9192) = false := by decide +kernel

theorem test_wellFormed_refuses_descriptors :
    [Instr.txDescriptorFetched 0 16 0 0 0 0 0 0 0, .txDescriptorFetched 0 0 (2 ^ 64) 0 0 0 0 0 0,
      .txDescriptorFetched 0 0 0 (2 ^ 16) 0 0 0 0 0, .txDescriptorFetched 0 0 0 0 256 0 0 0 0,
      .txDescriptorFetched 0 0 0 0 0 256 0 0 0, .txDescriptorFetched 0 0 0 0 0 0 (2 ^ 32) 0 0,
      .txDescriptorFetched 0 0 0 0 0 0 0 256 0, .txDescriptorFetched 0 0 0 0 0 0 0 0 (2 ^ 16), .lcAdvance 0 16 0,
      .lcAdvance 0 0 256, .keyEnrol 0 4, .keyRevoke 0 4, .ownerPasswordSet 0 128, .rollbackAdvance 0 512, .rollbackDone true 257,
      .spiGo 0 true true 4 0 0, .spiGo 0 true true 0 256 0, .spiGo 0 true true 0 0 512,
      .spiAccessDone (List.replicate 257 0), .dbgPwd 256 (List.replicate 64 0), .dbgPwd 0 (List.replicate 63 0)].any
      (Instr.wellFormed .xu9192) = false := by decide +kernel

theorem test_wellFormed_refuses_instances :
    [Instr.pathTimeout 2, .channelPullInEnd 16 0 0, .channelSignalLost 16, .ephemerisDecoded 16 ⟨true, false, none⟩ none, .stoppedPortDiscard 0 16,
      .prpForget 0 12 0, .lanOkExpire 0 12 true, .calPiTimeout 0 24, .nvsWrite 0 0 (2 ^ 20) 32 0, .nvsWrite 0 0 0 8 0,
      .nvsWrite 0 0 0 32 (2 ^ 32), .nvsRead 0 0 (2 ^ 20) 32, .nvsRead 0 0 0 24, .perfCompareReached 0 8 0, .perfCounterWrap 0 8 0,
      .histLevelSample 0 32, .histClear 0 0 32 true, .histHold 0 0 32 true, .outputEdgeSchedule 0 4, .outputEdge 0 4,
      .outputPulseEnd 0 4, .triggerArm 0 0 4, .thermAssert 0 4, .gnssSolution ⟨⟨0, 1, 0, 0, 0, 0, 0, 0⟩, 0⟩ 0 0 (0, 0, 0) [], .gnssAcquisitionDwell ⟨1, 0, 0, 0, 0, 0, 0, 0⟩ 0 none,
      .gnssAcquisitionDwell ⟨1, 1, 0, 0, 0, 0, 0, 0⟩ 0 (some 8)].any (Instr.wellFormed .xu9192) = false := by decide +kernel

/-! ## Words (R94 to R97), field by field: opcode, rd, rs1, rs2 and funct or imm16 -/

/-- NOP and the register-register family (R96, R101). -/
theorem test_decode_register :
    decodeUmmus 5 0b000000_00000_00000_00000_00000000000#32 = some (.nop 5) ∧
    decodeUmmus 5 0b000001_00011_00001_00010_00000000000#32 = some (.add 5 3 1 2) ∧
    decodeUmmus 5 0b000001_11111_00001_11110_00000000001#32 = some (.sub 5 31 1 30) ∧
    decodeUmmus 5 0b000001_00011_00001_00010_00000001000#32 = some (.sra 5 3 1 2) ∧
    decodeUmmus 5 0b000001_00011_00001_00010_00000010010#32 = some (.mulhs 5 3 1 2) ∧
    decodeUmmus 5 0b000001_00011_00001_00000_00000100001#32 = some (.popc 5 3 1) ∧
    decodeUmmus 5 0b000001_00011_00001_00010_00000100001#32 = none ∧
    decodeUmmus 5 0b000001_00011_00001_00010_00000000010#32 = none := by decide +kernel

/-- The immediate family (R102). -/
theorem test_decode_immediate :
    decodeUmmus 0 0b000010_00011_00001_1111111111111110#32 = some (.addi 0 3 1 0xFFFE) ∧
    decodeUmmus 0 0b000110_00011_00001_00000000_01_000101#32 = some (.shi 0 3 1 .srl 5) ∧
    decodeUmmus 0 0b000110_00011_00001_00000000_11_000101#32 = none ∧
    decodeUmmus 0 0b000111_00000_00001_0000000000000111#32 = some (.cmpi 0 1 7) ∧
    decodeUmmus 0 0b001001_00011_000_10_1000000000000001#32 = some (.movk 0 3 0x8001 2) := by decide +kernel

/-- Loads and stores, local and over the function space (R103, R104). -/
theorem test_decode_memory :
    decodeUmmus 0 0b010101_00011_00001_0000000000000010#32 = some (.ld16s 0 3 1 2) ∧
    decodeUmmus 0 0b010111_00011_00001_0000000000000010#32 = some (.st8 0 3 1 2) ∧
    decodeUmmus 0 0b011100_00111_00001_0000000000010000#32 = some (.stt 0 7 1 16) ∧
    decodeUmmus 0 0b011100_01000_00001_0000000000010000#32 = none ∧
    decodeUmmus 0 0b100001_00011_00001_0000000000001000#32 = some (.fld64 0 3 1 8) ∧
    decodeUmmus 0 0b100101_00111_00001_0000000000010000#32 = some (.fstt 0 7 1 16) := by decide +kernel

/-- The time, table and function families (R106, R109, R112). -/
theorem test_decode_time_table_function :
    decodeUmmus 0 0b101000_00011_00000_00000_00000000001#32 = some (.tnowTk 0 3) ∧
    decodeUmmus 0 0b101000_00010_00001_00011_00000000010#32 = some (.tadd 0 2 1 3) ∧
    decodeUmmus 0 0b101000_00010_00001_00000_00000001011#32 = some (.tcvtMov 0 2 1) ∧
    decodeUmmus 0 0b101100_00011_00001_00010_00000000010#32 = some (.tblFlush 0 3 1 2) ∧
    decodeUmmus 0 0b101101_00011_00001_00000_00000000001#32 = some (.fnStart 0 3 1) := by decide +kernel

/-- Control, waits, messages and the single-word instructions (R115 to R118, R121, R122, R126 to R128). -/
theorem test_decode_control :
    decodeUmmus 0 0b110000_00011_00000_1111111111111111#32 = some (.b 0 .lt 0xFFFF) ∧
    decodeUmmus 0 0b110001_00001_00000_0000000000000100#32 = some (.call 0 1 4) ∧
    decodeUmmus 0 0b110010_00001_00010_0000000000000100#32 = some (.jalr 0 1 2 4) ∧
    decodeUmmus 0 0b110011_00011_00001_00010_00000000001#32 = some (.waitT 0 3 1 2) ∧
    decodeUmmus 0 0b110100_00000_00001_00000_00000000001#32 = some (.wrf 0 1) ∧
    decodeUmmus 0 0b110101_00000_00000_0000000000_010001#32 = some (.clf 0 17) ∧
    decodeUmmus 0 0b111000_00000_00001_00010_00000000000#32 = some (.send 0 1 2) ∧
    decodeUmmus 0 0b111010_00011_00001_0000000000001000#32 = some (.mbx 0 3 1 8) ∧
    decodeUmmus 0 0b111011_00000_00000_0000000000_000101#32 = some (.trap 0 5) ∧
    decodeUmmus 0 0b111101_00000_00000_0000000000000000#32 = some (.halt 0) ∧
    decodeUmmus 0 0b111111_00000_00000_0000000000000000#32 = none := by decide +kernel

/-! ## States of the tests -/

/-- An instance brought into a run state: 0 STOPPED, 1 RUN, 2 STOPPING, 3 FAULT. -/
def state (blk d i r : Nat) (s : State) : State := s.wf (F.BLOCK.FSTATE_STATE blk) d i r

/-- Engine 0 in RUN with the given contents. -/
def engine (g : Engine) : State := (state B.ENG 0 0 1 State.reset).setEng 0 g

/-- Engine 0 waits for the response to a blocking access at a function address. -/
def waiting (a : Nat) (s : State) : State := s.setEng 0 { s.eng 0 with hold := .access (.fld 32 1) a none }

/-- A message on its way. -/
def sent (src dst : Nat) (b : CtlBody) (s : State) : State := { s with msgs := s.msgs ++ [⟨src, dst, b⟩] }

/-- Both directions of the saddle link between two dies up, at both ends. -/
def linked (a b : Nat) (s : State) : State :=
  (((s.setFlag F.MESH.STATUS_TX_UP a b).setFlag F.MESH.STATUS_RX_UP a b).setFlag F.MESH.STATUS_TX_UP b a).setFlag
    F.MESH.STATUS_RX_UP b a

/-- An instance given to a partition, by its own die's copy of the ownership entries. -/
def owned (die blk inst part : Nat) (s : State) : State :=
  let entries := Store.put 0 (Store.get [] s.own.copies die) (instKey die blk inst) part
  { s with own := { s.own with copies := Store.put [] s.own.copies die entries } }

/-- An outcome that is a next state names one. -/
theorem next_of (o : Host.Outcome State Fault Refusal)
    (h : (match o with
      | .next _ => true
      | .fault _ => false
      | .refused _ => false) = true) : ∃ t, o = .next t := by
  cases o with
  | next t => exact ⟨t, rfl⟩
  | fault r => cases h
  | refused r => cases h

/-! ## Witnesses: engines -/

theorem witness_StepRunsFrontCommand :
    ({ State.reset with pending := [.nop 0, .nop 1] } : State).pending = .nop 0 :: [.nop 1] := by decide +kernel

/-- The one hypothesis of RegisterInstructions, ImmediateInstructions, ControlInstructions and TimeInstructions. -/
theorem witness_calm : (engine {}).calm 0 = true ∧ (state B.ENG 7 3 1 State.reset).calm 31 = true := by decide +kernel

theorem witness_RegisterInstructions :
    let x : Engine := { v := [(1, BitVec.allOnes 64), (2, 7)] }
    (engine x).calm 0 = true ∧ x.rv 2 ≠ 0 ∧ x.rv 0 = 0 ∧
    (18446744073709551614 : Word).toNat = (x.rv 1).toNat * (x.rv 1).toNat / 2 ^ 64 ∧
    (0 : Word).toInt = (x.rv 1).toInt * (x.rv 1).toInt / 2 ^ 64 ∧
    (x.rv 1).getLsbD 63 = true ∧ (∀ i, i < 64 → (x.rv 0).getLsbD i = false) ∧
    (x.rv 2).getLsbD (63 - 61) = true ∧ (∀ i, i < 64 → 64 - 61 ≤ i → (x.rv 2).getLsbD i = false) := by decide +kernel

theorem witness_TimeInstructions :
    let big : XT := xtOf (2 ^ 64 - 1) 999999999 (2 ^ 32 - 1)
    let x : Engine := { v := [(1, BitVec.allOnes 64), (2, BitVec.ofNat 64 (10 ^ 9 * 2 ^ 32)), (3, 1)], t := [(1, big)] }
    let u (r : TReg) : Int := XT.units (x.rt r)
    (engine x).calm 0 = true ∧
    u 0 + (x.rv 1).toInt * 2 ^ 16 < 0 ∧ u 0 + (x.rv 0).toInt * 2 ^ 16 = 0 ∧ u 1 + (x.rv 0).toInt * 2 ^ 16 = unitsMax ∧
    (unitsMax : Int) < u 1 + (x.rv 3).toInt * 2 ^ 16 ∧
    (u 0 - u 1) / 2 ^ 16 < -2 ^ 63 ∧ (u 0 - u 0) / 2 ^ 16 = 0 ∧ 2 ^ 63 ≤ (u 1 - u 0) / 2 ^ 16 ∧
    (x.rv 1).toNat + (x.rv 0).toNat / 2 ^ 32 / 10 ^ 9 = 2 ^ 64 - 1 ∧
    2 ^ 64 ≤ (x.rv 1).toNat + (x.rv 2).toNat / 2 ^ 32 / 10 ^ 9 := by decide +kernel

/-- Addresses at both ends of DMEM pass the checks of each width. -/
theorem witness_LoadsAndStores :
    let x : Engine := { v := [(1, 0xFFFF), (2, 0xFFFE), (3, 0xFFFC), (4, 0xFFF8), (5, 0xFFF0)] }
    let ok (a : Reg) (n : Nat) : Bool := let ea := (x.rv a + (0 : Imm16).signExtend 64).toNat
      decide (ea ≤ 0x10000 - n) && decide (ea % n = 0) && !x.dmemDouble ea n && !x.dmemSingle ea n
    (engine x).calm 0 = true ∧
    ([1, 2, 4, 8, 16].all (ok 0) && ok 1 1 && ok 2 2 && ok 3 4 && ok 4 8 && ok 5 16) = true ∧
    (let y : Engine := { v := [(1, 0xFFFC)], dmemEcc := [(8191, .single)] };
      (engine y).calm 0 = true ∧ y.dmemSingle (y.rv 1).toNat 4 = true) := by
  decide +kernel

theorem witness_LocalMemoryTrapsAndEcc :
    let x : Engine := { v := [(1, 0xFFF9), (2, 0xFFF1), (3, 0xFFF8)], dmemEcc := [(8191, .double)] }
    (engine x).ready 0 = true ∧ inTrapRegion x.pc = false ∧
    0x10000 - 8 < (x.rv 1).toNat ∧ (x.rv 2).toNat ≤ 0x10000 - 8 ∧ (x.rv 2).toNat % 8 ≠ 0 ∧
    (x.rv 3).toNat ≤ 0x10000 - 8 ∧ (x.rv 3).toNat % 8 = 0 ∧ x.dmemDouble (x.rv 3).toNat 8 = true := by decide +kernel

theorem witness_LocalMemoryTrapsAndEcc_ecc :
    let x : Engine := { v := [(1, 0xFFF8)], dmemEcc := [(8191, .single)] }
    let y (m : EccMark) : State := engine { imemEcc := [(0, m)] }
    (engine x).calm 0 = true ∧ (x.rv 1).toNat ≤ 0x10000 - 8 ∧ (x.rv 1).toNat % 8 = 0 ∧ x.dmemDouble (x.rv 1).toNat 8 = false ∧
    x.dmemSingle (x.rv 1).toNat 8 = true ∧
    (∀ m ∈ [EccMark.single, EccMark.double], (y m).canIssue 0 = true ∧ (y m).sec.dbgStep ≠ some 0 ∧
      ((y m).eng 0).imemMark ((y m).eng 0).pc.toNat = m ∧ ((y m).eng 0).held = []) := by decide +kernel

theorem witness_TrapsOfAnEngine :
    (engine {}).ready 0 = true ∧ inTrapRegion ((engine {}).eng 0).pc = false ∧ decodeUmmus 0 0xFFFFFFFF = none ∧
    (engine { pc := 4 }).ready 0 = true ∧ (engine { pc := 0xFF }).ready 0 = true ∧ inTrapRegion 4 = true ∧ inTrapRegion 0xFF = true ∧
    (engine { pc := 0x100, held := [⟨7, 0x200⟩] }).ready 0 = true ∧ inTrapRegion 0x100 = false ∧ inTrapRegion 0 = false := by
  decide +kernel

theorem witness_WaitInstructions :
    let x : Engine := { v := [(1, 2), (2, BitVec.allOnes 64), (3, 1), (4, BitVec.ofNat 64 (2 ^ 64 - 2))], t := [(1, 1)], pending := 2 }
    let s := engine x
    let w (h : Hold) : State := engine { hold := h, pending := 2 }
    s.calm 0 = true ∧ x.pending &&& x.rv 1 ≠ 0 ∧ x.pending &&& x.rv 0 = 0 ∧ (x.rv 0).toNat = 0 ∧
    XT.units (x.rt 0) ≤ s.now 0 ∧ (x.rv 2).toNat = 2 ^ 64 - 1 ∧ 0 < (x.rv 3).toNat ∧ (x.rv 4).toNat < 2 ^ 64 - 1 ∧
    0 < (x.rv 4).toNat ∧ (x.rv 3).toNat < 2 ^ 64 - 1 ∧ s.now 0 < XT.units (x.rt 1) ∧
    (∀ h ∈ [Hold.waitTick 1 2 (some 0), .waitTime 1 2 0], ((w h).eng 0).hold = h ∧ ((w h).eng 0).held = [] ∧
      ((w h).eng 0).pending &&& 2 ≠ 0 ∧ ((w h).eng 0).pending &&& 4 = 0) ∧
    0 ≤ s.tick 0 ∧ 0 ≤ s.now 0 ∧ 0 < Config.nEngines s.part ∧ s.inRun 0 B.PERF 0 = false ∧ (s.perf 0).instr = none := by
  decide +kernel

theorem witness_AccessesIssue :
    let x : Engine := { v := [(1, BitVec.ofNat 64 (mkFa 0 B.L2T 0 0)), (2, BitVec.ofNat 64 (2 ^ 60 - 1)), (3, 262143)],
                        posted := List.replicate 7 ⟨0, 0, 32, 0, none⟩ }
    let s := engine x
    let ia (a : Reg) : Nat := (x.rv a).toNat % 2 ^ 40 / 2 ^ 20 * 2 ^ 20
    s.calm 0 = true ∧ x.posted.length < 8 ∧ s.has (faDie (ia 0)) (faBlk (ia 0)) (faInst (ia 0)) = true ∧
    s.has (faDie (ia 1)) (faBlk (ia 1)) (faInst (ia 1)) = true ∧ faBlk (ia 1) = B.L2T ∧ (x.rv 2).toNat < 2 ^ 60 ∧
    (x.rv 3).toNat ≤ 262143 ∧ (28 : Reg).toNat % 4 = 0 ∧ (4 : Reg) ≠ 0 ∧
    s.linkUp (0 / 4) (faDie (ia 0)) = true ∧ s.linkUp (0 / 4) 7 = false ∧
    ¬ (faDie (ia 0) = 0 ∧ faBlk (ia 0) = B.ENG ∧ faInst (ia 0) = 0) ∧
    (let z := { x with posted := List.replicate 8 ⟨0, 0, 32, 0, none⟩ }; (engine z).calm 0 = true ∧ 8 ≤ z.posted.length) := by
  decide +kernel

theorem witness_OperandAndAbsenceTraps :
    let gone := BitVec.ofNat 64 (mkFa 7 0xFF 0 0)
    let x : Engine := { v := [(1, gone), (2, 0xFFC8), (3, 60), (4, 0xFFC1), (5, 0xFFC0), (6, 59), (7, BitVec.ofNat 64 (2 ^ 60)),
                              (8, 31), (9, 32), (10, 0xFFE1), (11, BitVec.ofNat 64 (mkFa 0 B.L2T 0 0)), (12, 0xFFE0),
                              (13, 0xFFF0), (14, 0xFFF8), (15, 0xFFF9), (16, 15997),
                              (17, BitVec.ofNat 64 (mkFa 0 B.LPM 0 0)), (18, 192)] }
    let s := engine x
    let n (r : Reg) : Nat := (x.rv r).toNat
    let len (r : Reg) : Nat := (x.rv r).toNat % 2 ^ 14
    s.calm 0 = true ∧ s.ready 0 = true ∧ inTrapRegion x.pc = false ∧ x.posted.length < 8 ∧
    s.has (faDie (n 1)) (faBlk (n 1)) (faInst (n 1)) = false ∧
    -- SEND, RECV, MBX: beyond DMEM, misaligned, illegal length
    0x10000 < n 2 + len 3 ∧ (n 4 + len 3 ≤ 0x10000 ∧ n 4 % 8 ≠ 0) ∧ (n 5 + len 6 ≤ 0x10000 ∧ n 5 % 8 = 0 ∧ len 6 < 60) ∧
    (n 0 + len 16 ≤ 0x10000 ∧ n 0 % 8 = 0 ∧ 15996 < len 16) ∧
    0x10000 < n 10 + n 9 ∧ (n 10 + n 8 ≤ 0x10000 ∧ n 10 % 16 ≠ 0) ∧ (n 12 + n 8 ≤ 0x10000 ∧ n 12 % 16 = 0 ∧ n 8 < 32) ∧
    0x10000 < n 15 + 8 ∧ (n 15 + 7 ≤ 0x10000 ∧ n 15 % 8 ≠ 0) ∧ (n 14 + 7 ≤ 0x10000 ∧ n 14 % 8 = 0 ∧ (7 : Imm16).toNat < 8) ∧
    -- TBL.SRCH: a key beyond 60 bits, an instance that is no L2T
    s.has (faDie (n 11)) (faBlk (n 11)) (faInst (n 11)) = true ∧ 2 ^ 60 ≤ n 7 ∧
    s.has (faDie (n 0)) (faBlk (n 0)) (faInst (n 0)) = true ∧ faBlk (n 0) ≠ B.L2T ∧
    -- rows 3 to 6 of R63 at an instance that is there; SEND to a port of another partition
    s.behind 0 (n 1) = false ∧
    (∀ o ∈ [BlockOp.fld 32 1, .fld 64 1, .fldt 1], let u := s.setEng 0 { x with hold := .access o 0 none }
      o ∈ [BlockOp.fld 32 1, .fld 64 1, .fldt 1] ∧ u.accessCause 0 (mkFa 7 B.ENG 0 0) 32 false = 0x09 ∧
      (owned 0 B.L2T 0 1 u).accessCause 0 (n 11) 32 false = 0x0A ∧ u.accessCause 0 (n 11 + 2) 32 false = 0x0B ∧
      u.accessCause 0 (n 11) 128 false = 0x0C) ∧
    (owned 0 B.PCS 0 1 (owned 0 B.LANE 0 1 s)).calm 0 = true ∧
    (owned 0 B.PCS 0 1 (owned 0 B.LANE 0 1 s)).sendCause 0 (n 5) (n 3) = 0x0A ∧
    -- the other table instructions
    (18 : Reg).toNat % 4 ≠ 0 ∧ 262143 < n 7 ∧ s.behind 0 (n 11) = false ∧ s.behind 0 (n 17) = false ∧ 2 ^ 9 ≤ n 7 ∧
    s.portExists (n 18 % 256) = false ∧ s.has (faDie (n 17)) (faBlk (n 17)) (faInst (n 17)) = true ∧ faBlk (n 17) = B.LPM ∧
    0x10000 - 64 < n 2 ∧ n 4 % 16 ≠ 0 ∧ n 4 ≤ 0x10000 := by
  decide +kernel

theorem witness_FenceAndHalt :
    let x : Engine := { v := [(1, BitVec.ofNat 64 (mkFa 0 B.ENG 0 0))] }
    (engine x).calm 0 = true ∧ x.posted = [] ∧ faDie (x.rv 1).toNat = 0 ∧ faBlk (x.rv 1).toNat = B.ENG ∧
    faInst (x.rv 1).toNat = 0 ∧ (engine { posted := [⟨0, 0, 32, 0, none⟩] }).calm 0 = true := by decide +kernel

theorem witness_AcknowledgementsAndResponses :
    let p : Posted := ⟨0, 0, 32, 0, some 0⟩
    p.result = some 0 ∧ 31 < Config.nEngines State.reset.part ∧
    (∀ h ∈ [Hold.none, .fence], ∀ r ∈ [[], [p]], ((engine { posted := p :: r, hold := h }).eng 0).posted = p :: r ∧
      ((engine { posted := p :: r, hold := h }).eng 0).held = [] ∧ ((engine { posted := p :: r, hold := h }).eng 0).hold = h) ∧
    (∀ o ∈ [BlockOp.fld 32 1, .fldt 1, .fnStat 1, .fnStart 1], ∀ c ∈ [0, 1, 255],
      ((engine { hold := .access o 0 (some ⟨c, 5⟩) }).eng 0).hold = .access o 0 (some ⟨c, 5⟩)) ∧
    (engine {}).inRun 0 B.ENG 0 = true ∧ inTrapRegion 0 = false ∧
    -- failed acknowledgements: taken at once, held back, recorded alone
    (let q : Posted := ⟨0, 0, 32, 0, some 0x0A⟩
     let u (pc : BitVec 16) (h : Hold) : State := (engine { posted := [p], hold := h, pc := pc }).setEng 0
       { posted := [q], hold := h, pc := pc }
     (u 0x100 .none).run 0 B.ENG 0 = 1 ∧ inTrapRegion 0x100 = false ∧ inTrapRegion 4 = true ∧ (u 4 .none).run 0 B.ENG 0 = 1 ∧
     (u 0x100 (.access (.fld 32 1) 0 none)).run 0 B.ENG 0 = 1 ∧
     (∀ r ∈ [0, 2], (state B.ENG 0 0 r (u 0x100 .none)).run 0 B.ENG 0 = r) ∧ (Hold.none ≠ .fence ∧ Hold.none ≠ .halt)) ∧
    -- responses to table instructions, with an entry at the cursor and with none
    (let b : L2Bank := [(5, 7, 1)]
     b.nextUsed 5 = some (5, 7, 1) ∧ b.nextUsed 6 = none ∧
     ∀ o ∈ [BlockOp.srch 1 0, .tnext 4 5, .flush 1 0, .tcmd 1 0xFFC0], ∀ c ∈ [0, 1, 255],
       ((engine { hold := .access o 0 (some ⟨c, 255⟩) }).eng 0).hold = .access o 0 (some ⟨c, 255⟩)) := by
  decide +kernel

theorem witness_EventLines :
    let map (d : Nat) : Engine := { evLive := [(0, ⟨true, d, B.LANE, 0, 5⟩)] }
    let s := (State.reset.setEng 0 (map 0)).setEng 4 (map 0)
    let up := (s.setFlag F.MESH.STATUS_TX_UP 0 1).setFlag F.MESH.STATUS_RX_UP 0 1
    let m : CtlMsg := ⟨1, 0, .event 0 7⟩
    s.resets.asserted = false ∧ 31 < Config.nEngines s.part ∧ s.has 0 B.LANE 0 = true ∧
    (0, 0) ∈ s.drives 0 B.LANE 0 5 ∧ (4, 0) ∈ s.drives 0 B.LANE 0 5 ∧ s.linkUp 0 (4 / 4) = false ∧ up.linkUp 0 (4 / 4) = true ∧
    (∀ y ∈ up.drives 0 B.LANE 0 5, up.linkUp 0 (y.1 / 4) = true) ∧
    ({ s with msgs := [⟨1, 0, .event 0 8⟩, m] } : State).msgs = [⟨1, 0, .event 0 8⟩] ++ m :: [] ∧
    (∀ y ∈ [(⟨1, 0, .event 0 8⟩ : CtlMsg)], ¬ (y.dst = 0 / 4 ∧ y.body = .event 0 7)) := by decide +kernel

theorem witness_EngineRegisterWrites :
    let s := State.reset
    let sig := mkFa 0 B.ENG 0 0x0C
    let on : Word32 := 0x80000000
    s.grantsWrite 0 (mkFa 0 B.ENG 0 0x100) 32 on.toNat = true ∧
    s.grantsWrite 0 (mkFa 7 B.ENG 3 (0x100 + 4 * 55)) 32 on.toNat = false ∧
    s.grantsWrite 31 (mkFa 7 B.ENG 3 (0x100 + 4 * 55)) 32 on.toNat = true ∧ s.grantsWrite 0 sig 32 on.toNat = true ∧
    on.getLsbD 31 = true ∧ s.has 0 0 0 = true ∧ s.ownerAt 0 0 0 0 = s.engPart 0 ∧ s.has 0 0xFF 0 = false := by decide +kernel

/-! ## Witnesses: registers by address, tables and frames of an engine -/

theorem witness_RegistersByAccessType :
    let s := State.reset
    -- PCS.CFG (RW-S), PRP.FORGET (RW-L), PCS.ERR (W1C)
    (∀ a ∈ [mkFa 0 B.PCS 0 0, mkFa 0 B.PRP 0 4, mkFa 0 B.PCS 23 8], (∀ data ∈ [0, 2 ^ 32 - 1], s.grantsWrite 0 a 32 data = true) ∧ faOff a < 0xFFF00 ∧
      inWindow (faDie a) (faBlk a) (faOff a) = false ∧ fieldsAt s.part (faDie a) (faBlk a) (faInst a) (faOff a) 4 ≠ [] ∧
      (∀ f ∈ fieldsAt s.part (faDie a) (faBlk a) (faInst a) (faOff a) 4,
        f.blk = faBlk a ∧ f.off = faOff a ∧ f.regw = 32 ∧ f.lo + f.w ≤ 32) ∧
      ((fieldsAt s.part (faDie a) (faBlk a) (faInst a) (faOff a) 4).map (·.lo)).Nodup) ∧
    (∃ f ∈ fieldsAt s.part 0 B.PCS 0 0 4, f.acc = .rwS) ∧ (state B.PCS 0 0 1 s).run 0 B.PCS 0 ≠ 0 ∧ s.run 0 B.PCS 0 = 0 ∧
    s.served 0 = true ∧ 0 < Config.nHosts s.part ∧ s.resets.asserted = false ∧ 4088 + 8 ≤ 4096 := by decide +kernel

/-- A write of these registers starts nothing of its own. -/
theorem witness_RegistersByAccessType_plain : ∀ x hi,
    State.reset.wrTrigger (some 0) 0 B.PCS 0 0 x hi = none ∧ State.reset.wrTrigger (some 0) 0 B.PRP 0 4 x hi = none ∧
    State.reset.wrTrigger (some 0) 0 B.PCS 23 8 x hi = none := fun _ _ => ⟨rfl, rfl, rfl⟩

theorem witness_RegistersByAccessType_read :
    let a := mkFa 0 B.PCS 0 0x10
    let s := waiting a State.reset
    let fs := fieldsAt s.part 0 B.PCS 0 0x10 4
    s.grants 0 a 32 = true ∧ inWindow 0 B.PCS 0x10 = false ∧ fs ≠ [] ∧ (s.headTake 0 B.PCS 0 0x10).isNone = true ∧
    (∀ f ∈ fs, f.blk = B.PCS ∧ f.off = 0x10 ∧ f.regw = 32 ∧ f.lo + f.w ≤ 32) ∧ (fs.map (·.lo)).Nodup ∧
    (s.eng 0).hold = .access (.fld 32 1) a none ∧ (∃ f ∈ fs, f.acc = .rc) ∧
    (∃ f ∈ fieldsAt s.part 0 B.PCS 0 0 4, f.acc ≠ .rc) ∧ s.served 0 = true := by decide +kernel

/-- Registers of 32, 64 and 128 bits that an engine may read and write. -/
theorem witness_RegistersByAccessType_wide :
    let s := State.reset
    (∀ x ∈ [(mkFa 0 B.QUE 0 0x18, 4), (mkFa 0 B.TEMP 0 0, 4), (mkFa 0 B.RIDGE 0 0x20, 8), (mkFa 0 B.RIDGE 0 0x30, 16)],
      let fs := fieldsAt s.part 0 (faBlk x.1) 0 (faOff x.1) x.2
      fs ≠ [] ∧ s.grantsWrite 0 x.1 (8 * x.2) 0 = true ∧ faOff x.1 < 0xFFF00 ∧ inWindow 0 (faBlk x.1) (faOff x.1) = false ∧
      s.grants 0 x.1 (8 * x.2) = true ∧ (s.headTake 0 (faBlk x.1) 0 (faOff x.1)).isNone = true ∧
      (∀ f ∈ fs, f.blk = faBlk x.1 ∧ f.off = faOff x.1 ∧ f.regw = 8 * x.2 ∧ f.lo + f.w ≤ 8 * x.2) ∧ (fs.map (·.lo)).Nodup) := by
  decide +kernel

theorem witness_RegistersByAccessType_widePlain : ∀ x hi,
    State.reset.wrTrigger (some 0) 0 B.RIDGE 0 0x20 x hi = none ∧ State.reset.wrTrigger (some 0) 0 B.RIDGE 0 0x30 x hi = none :=
  fun _ _ => ⟨rfl, rfl⟩

/-- The windows of an engine, at both ends, from another engine; its DMEM with a single-bit error. -/
theorem witness_RegistersByAccessType_windows :
    let s := (state B.ENG 0 1 1 State.reset).setEng 2 { dmemEcc := [(0, .single)] }
    (∀ n ∈ [4, 8], ∀ o ∈ [0x10000, 0x20000 - n, 0x20000, 0x30000 - n],
      s.grants 0 (mkFa 0 B.ENG 2 o) (8 * n) = true ∧ s.grantsWrite 0 (mkFa 0 B.ENG 2 o) (8 * n) 5 = true ∧
      s.grantsWrite 0 (mkFa 0 B.ENG 1 o) (8 * n) 5 = true ∧ (waiting (mkFa 0 B.ENG 2 o) s).grants 0 (mkFa 0 B.ENG 2 o) (8 * n) = true ∧
      ((waiting (mkFa 0 B.ENG 2 o) s).eng 0).hold = .access (.fld 32 1) (mkFa 0 B.ENG 2 o) none) ∧
    s.run 0 B.ENG 2 = 0 ∧ s.run 0 B.ENG 1 = 1 ∧ (∀ n ∈ [4, 8], (s.eng 2).dmemSingle 0 n = true) := by decide +kernel

theorem witness_TableRequests :
    let x : Engine := { v := [(1, BitVec.ofNat 64 (mkFa 0 B.L2T 0 0)), (2, 447), (3, BitVec.ofNat 64 (mkFa 0 B.LPM 0 0)),
                              (4, 0xFFC0)] }
    -- at 0xFFC0 OP 0x03 (READ); at 0 no command
    let s := engine { x with dmem := [(0xFFC0, 0x03)] }
    let busy := s.setFlag (fCmdBusy B.LPM) 0 0
    let filled (m : Nat) : TblState := { s.tbl 0 B.LPM with blk := Store.putList 0 (s.tbl 0 B.LPM).blk 0 ((s.eng 0).dmemBytes m 64) }
    let ia (r : Reg) : Nat := (x.rv r).toNat % 2 ^ 40 / 2 ^ 20 * 2 ^ 20
    s.calm 0 = true ∧ busy.calm 0 = true ∧
    (∀ r ∈ [(1 : Nat), 3], s.has (faDie (ia (BitVec.ofNat 5 r))) (faBlk (ia (BitVec.ofNat 5 r))) (faInst (ia (BitVec.ofNat 5 r))) = true ∧
      s.behind 0 (ia (BitVec.ofNat 5 r)) = false ∧ s.accessCause 0 (ia (BitVec.ofNat 5 r)) 0 false = 0) ∧
    faBlk (ia 1) = B.L2T ∧ faBlk (ia 3) = B.LPM ∧
    447 < 2 ^ 9 ∧ s.portExists (447 % 256) = true ∧ s.portExists 192 = false ∧ s.linkUp 0 0 = true ∧ (x.rv 4).toNat ≤ 0x10000 - 64 ∧ (x.rv 4).toNat % 16 = 0 ∧
    (s.eng 0).dmemDouble (x.rv 4).toNat 64 = false ∧ busy.flag (fCmdBusy B.LPM) 0 0 = true ∧ s.flag (fCmdBusy B.LPM) 0 0 = false ∧
    ((filled 0).cmd B.LPM).bad B.LPM = true ∧ ((filled 0xFFC0).cmd B.LPM).bad B.LPM = false := by decide +kernel

theorem witness_EngineMessages :
    let word : Word := 60
    let f : RxFrame := ⟨0, 0, false, false, List.replicate 64 0⟩
    let x : Engine := { v := [(1, word), (2, 32), (3, 0xFFE0), (4, 0xFFF8), (5, 0xFF00)] }
    let s := engine x
    let y := s.setEng 0 { x with rxq := [f, f] }
    let h := state B.HOST 0 0 1 s
    let full := h.setHost 0 { mboUsed := List.range 16 }
    s.calm 0 = true ∧ s.sendCause 0 0 word = 0 ∧ (x.rv 3).toNat + (x.rv 2).toNat = 0x10000 ∧ (x.rv 3).toNat % 16 = 0 ∧
    32 ≤ (x.rv 2).toNat ∧ x.rxq = [] ∧ y.calm 0 = true ∧ (y.eng 0).rxq = f :: [f] ∧
    (y.eng 0).dmemDouble 0xFFE0 0 = false ∧ (x.rv 4).toNat + 8 = 0x10000 ∧ (x.rv 4).toNat % 8 = 0 ∧ (x.rv 5).toNat + 256 = 0x10000 ∧
    x.dmemDouble 0xFFF8 8 = false ∧ s.hostServes 0 (s.engPart 0) = false ∧ h.calm 0 = true ∧ h.hostServes 0 (h.engPart 0) = true ∧
    (h.host 0).mboFree ≠ [] ∧ full.calm 0 = true ∧ full.hostServes 0 (full.engPart 0) = true ∧ (full.host 0).mboFree = [] := by
  decide +kernel

/-! ## Witnesses: ownership and policy -/

theorem witness_OwnershipOfInstances :
    let s := State.reset
    let code (s : State) (die blk inst part : Nat) : Nat := if Config.nHosts s.part ≤ part then 4
      else if s.ownHas die blk inst = false then 3 else if s.mayGive die blk inst part = false then 2
      else if s.linkUp 0 die = false then 5 else 0
    let busy := s.setFlag F.SYS.OWN_CMD_BUSY 0 0
    (∀ w ∈ [0, 2 ^ 32 - 1], s.grantsWrite 0 (mkFa 0 B.SYS 0 0x10) 32 w = true) ∧ s.flag F.SYS.OWN_CMD_BUSY 0 0 = false ∧ busy.flag F.SYS.OWN_CMD_BUSY 0 0 = true ∧
    code s 0 B.ENG 3 3 = 0 ∧ code { s with part := .xu9048 } 0 B.ENG 0 2 = 4 ∧ code s 7 255 24 0 = 3 ∧ code s 0 B.SYS 0 1 = 2 ∧
    code s 7 B.ENG 3 3 = 5 ∧ code (linked 0 7 s) 7 B.ENG 3 3 = 0 ∧ s.ownHas 7 255 23 = true ∧ s.ownHas 7 255 24 = false ∧
    s.hasDie 7 = true ∧ s.resets.asserted = false ∧ s.own.resync.contains 7 = false ∧
    (sent 0 7 (.ownHold B.ENG 3 3) (sent 0 6 (.ownHold B.ENG 0 0) s)).msgs =
      [⟨0, 6, .ownHold B.ENG 0 0⟩] ++ ⟨0, 7, .ownHold B.ENG 3 3⟩ :: [] ∧
    (∀ m ∈ [(⟨0, 6, .ownHold B.ENG 0 0⟩ : CtlMsg)], ¬ (m.dst = 7 ∧ m.body.isOwnHold = true)) ∧
    (∀ ok ∈ [true, false], (sent 7 0 (.ownReply ok) s).msgs = [] ++ ⟨7, 0, .ownReply ok⟩ :: []) ∧
    ({ s with own := { s.own with phase := .sent 7 B.ENG 3 3 } } : State).own.phase = .sent 7 B.ENG 3 3 ∧
    ({ s with own := { s.own with phase := .entries [] true } } : State).own.phase = .entries [] true := by decide +kernel

theorem witness_OwnershipOfInstances_copies :
    let s := State.reset
    let away := { s with own := { s.own with resync := [7] } }
    s.resets.asserted = false ∧ s.hasDie 7 = true ∧ s.own.resync.contains 7 = false ∧
    (sent 0 7 (.ownEntries 0 B.ENG 3 3) s).msgs = [] ++ ⟨0, 7, .ownEntries 0 B.ENG 3 3⟩ :: [] ∧
    away.own.resync.contains 7 = true ∧ (linked 0 7 away).linkUp 0 7 = true ∧ (linked 0 7 away).own.resync.contains 7 = true ∧
    s.grantsWrite 0 (mkFa 0 B.SYS 0 0x14) 32 0x8421 = true ∧ (sent 0 7 (.policy 0x8421) s).msgs = [] ++ ⟨0, 7, .policy 0x8421⟩ :: [] := by
  decide +kernel

/-! ## Witnesses: run states -/

theorem witness_RunStateRequests :
    let s := State.reset
    let code (s : State) (die blk inst : Nat) : Nat := let r := s.run die blk inst
      if r = 3 then 0x02 else if r = 2 then 0x01 else if s.ownHeld die blk inst = true then 0x03
      else if blk = B.ENG ∧ s.loaderHolds (4 * die + inst) = true then 0x10 else s.blockStartErr die blk inst
    let a := mkFa 0 B.TEMP 0 0
    let w := waiting a s
    s.has 0 B.TEMP 0 = true ∧ s.has 0 B.RIDGE 0 = true ∧ s.has 7 B.ENG 3 = true ∧ s.resets.asserted = false ∧
    B.TEMP ≠ B.SYS ∧ B.TEMP ≠ B.SEC ∧
    s.run 0 B.TEMP 0 = 0 ∧ code s 0 B.TEMP 0 = 0 ∧ s.run 7 B.ENG 3 = 0 ∧ code s 7 B.ENG 3 = 0 ∧
    (state B.TEMP 0 0 1 s).run 0 B.TEMP 0 = 1 ∧ (state B.TEMP 0 0 2 s).run 0 B.TEMP 0 = 2 ∧ code (state B.TEMP 0 0 2 s) 0 B.TEMP 0 = 1 ∧
    (state B.TEMP 0 0 3 s).run 0 B.TEMP 0 = 3 ∧ code (state B.TEMP 0 0 3 s) 0 B.TEMP 0 = 2 ∧
    (state B.ENG 0 0 1 s).run 0 B.ENG 0 = 1 ∧ s.run 0 B.RIDGE 0 = 0 ∧ s.leader = 0 ∧ (s.ridge 0).pendStart = none ∧
    code s 0 B.RIDGE 0 = 0 ∧ (s.regs.map (·.1)).Nodup ∧ s.grantsWrite 0 a 0 0 = true ∧
    w.grants 0 a 0 = true ∧ (w.eng 0).hold = .access (.fld 32 1) a none ∧
    (∀ b ∈ [B.LANE, B.PCS, B.PLL, B.RIDGE, B.LINK, B.SUMMIT, B.GNSS, B.EVT, B.FIELD, B.QUE, B.GATE, B.MIRR, B.PRP, B.PERF, B.HIST,
      B.CAL, B.ENG, B.HOST, B.NVS, B.TSU, B.L2T, B.LPM, B.MCG, B.TEMP], s.has 0 b 0 = true ∧ b ≠ B.SYS ∧ b ≠ B.SEC) ∧ s.has 0 B.MESH 1 = true := by
  decide +kernel

theorem witness_DrainsAndFaults :
    let s := State.reset
    let e := state B.ENG 0 0 2 s
    let busy := e.setEng 0 { e.eng 0 with posted := [⟨0, 0, 32, 0, none⟩] }
    let limit := 625
    let lateAt (t : Nat) : State := busy.setRidge 0 { s.ridge 0 with tick := t }
    s.has 0 B.ENG 0 = true ∧ s.has 0 B.TEMP 0 = true ∧ s.resets.asserted = false ∧
    e.run 0 B.ENG 0 = 2 ∧ e.blockDrained 0 B.ENG 0 = true ∧ busy.run 0 B.ENG 0 = 2 ∧ busy.blockDrained 0 B.ENG 0 = false ∧
    (state B.TEMP 0 0 2 s).run 0 B.TEMP 0 = 2 ∧ (state B.TEMP 0 0 2 s).blockDrained 0 B.TEMP 0 = true ∧ s.run 0 B.TEMP 0 ≠ 2 ∧
    ¬ Store.get 0 (lateAt 623).stopAt (instKey 0 B.ENG 0) + limit ≤ (lateAt 623).tick 0 + 1 ∧
    Store.get 0 (lateAt 624).stopAt (instKey 0 B.ENG 0) + limit ≤ (lateAt 624).tick 0 + 1 ∧
    s.run 0 B.ENG 0 ≠ 3 ∧ (∀ r ∈ [0, 1, 2, 3], (state B.TEMP 0 0 r s).run 0 B.TEMP 0 = r) ∧
    B.TEMP ≠ B.RIDGE ∧ (s.ridge 0).pendStart = none := by decide +kernel

/-! ## Witnesses: hosts -/

theorem witness_HostMessages :
    let s := State.reset
    let one := owned 2 B.HOST 0 1 s
    let m : MboxMsg := ⟨3, 8, false, 0⟩
    let take := mkFa 0 B.HOST 0 0x10
    let taken := s.setHost 0 { mbiTaken := [5] }
    let held := s.setHost 0 { mbiQ := [m] }
    let svc := mkFa 0 B.HOST 0 0x20
    let pend := s.setHost 0 { svcQ := [⟨1, 8, true, 1⟩] }
    let reply : Nat := 2 ^ 62 + 3 * 2 ^ 59
    (∀ n ∈ [8, 256], 8 ≤ n ∧ n ≤ 256 ∧ n % 8 = 0) ∧ 15 < 16 ∧ 256 < 512 ∧ 0 < Config.nHosts s.part ∧ s.resets.asserted = false ∧
    s.served 0 = true ∧ (s.rf F.HBAR.MBI_FREE_FREE 0 0).testBit 15 = true ∧
    ((s.wf F.HBAR.MBI_FREE_FREE 0 0 0xFFFE).rf F.HBAR.MBI_FREE_FREE 0 0).testBit 0 = false ∧
    one.served 1 = true ∧ (one.rf F.HBAR.MBI_FREE_FREE 1 0).testBit 15 = true ∧ (linked 2 0 one).served 1 = true ∧
    (linked 2 0 one).linkUp ((linked 2 0 one).hDie 1) 0 = true ∧ (linked 2 0 one).svcFree 1 ≠ [] ∧
    ((linked 2 0 one).rf F.HBAR.MBI_FREE_FREE 1 0).testBit 15 = true ∧
    Config.dieHost s.part 0 = some 0 ∧ (waiting take held).grants 0 take 32 = true ∧
    ((waiting take held).eng 0).hold = .access (.fld 32 1) take none ∧ ((waiting take held).host 0).mbiQ = m :: [] ∧
    (waiting take s).grants 0 take 32 = true ∧ ((waiting take s).host 0).mbiQ = [] ∧
    taken.grantsWrite 0 (mkFa 0 B.HOST 0 0x14) 32 5 = true ∧ taken.grantsWrite 0 (mkFa 0 B.HOST 0 0x14) 32 15 = true ∧ (taken.host 0).mbiTaken.contains (5 : BitVec 4).toNat = true ∧
    (taken.host 0).mbiTaken.contains (15 : BitVec 4).toNat = false ∧
    ((s.setHost 0 { mboQ := [m] }).host 0).mboQ = m :: [] ∧ (s.setHost 0 { mboQ := [m] }).served 0 = true ∧
    ((s.setHost 0 { mboUsed := [15] }).host 0).mboUsed.contains (15 : BitVec 4).toNat = true ∧
    (∀ k ∈ ((s.setHost 0 { mboUsed := [15] }).host 0).mboQ, k.slot ≠ (15 : BitVec 4).toNat) ∧
    (waiting svc pend).grants 0 svc 32 = true ∧ ((waiting svc pend).host 0).svcQ = ⟨1, 8, true, 1⟩ :: [] ∧
    reply / 2 ^ 62 = 1 ∧ reply / 2 ^ 59 % 8 = 3 ∧ (linked 0 2 pend).grantsWrite 0 (mkFa 0 B.HOST 0 0x28) 64 reply = true ∧ (linked 0 2 (owned 2 B.HOST 0 1 pend)).served 1 = true ∧
    (linked 0 2 pend).linkUp 0 ((linked 0 2 pend).hDie 1) = true ∧ (∀ k ∈ ((linked 0 2 pend).host 0).svcQ, k.slot ≠ 3) ∧
    ((linked 0 2 pend).host 1).mboFree ≠ [] ∧
    (linked 0 2 (owned 2 B.HOST 0 1 pend)).ownsHost 1 = true ∧ (linked 0 2 (owned 2 B.HOST 0 1 pend)).linkUp 0 2 = true ∧
    (linked 0 2 (owned 2 B.HOST 0 1 pend)).grantsWrite 0 (mkFa 0 B.HOST 0 0x28) 64 reply = true ∧
    ((linked 0 2 (owned 2 B.HOST 0 1 pend)).host 1).mboFree ≠ [] ∧ (linked 0 2 (owned 2 B.HOST 0 1 pend)).hDie 1 = 2 := by
  decide +kernel

theorem witness_RingRegistersAndLinks :
    let s := state B.HOST 0 0 1 State.reset
    let on := (s.setFlag (F.HOST.RING_CFG_TX_EN 15) 0 0).setFlag (F.HOST.RING_CFG_RX_EN 15) 0 0
    let size (n : Nat) : Bool := decide (6 ≤ n) && decide (n ≤ 12)
    let cfg (tx rx : Nat) : Word32 := BitVec.ofNat 32 (3 * 2 ^ 30 + tx * 2 ^ 20 + rx * 2 ^ 16)
    let load (p : LoadPhase) (spi : Bool) : Load := ⟨spi, 0, p, [], [], []⟩
    Config.dieHost s.part 0 = some 0 ∧ Config.hostDie s.part 0 = 0 ∧ (∀ w ∈ [0, (cfg 6 12).toNat], s.grantsWrite 0 (mkFa 0 B.HOST 0 (0x1010 + 0x40 * 15)) 32 w = true) ∧
    (0 : Word32).getLsbD 31 = false ∧ (0 : Word32).getLsbD 30 = false ∧
    (∀ n ∈ [6, 12], (cfg n n).getLsbD 31 = true ∧ (cfg n n).getLsbD 30 = true ∧ size ((cfg n n).toNat / 2 ^ 20 % 16) = true ∧
      size ((cfg n n).toNat / 2 ^ 16 % 16) = true) ∧
    (∀ n ∈ [5, 13], size ((cfg n n).toNat / 2 ^ 20 % 16) = false) ∧ s.flag (F.HOST.RING_CFG_TX_EN 15) 0 0 = false ∧
    s.flag (F.HOST.RING_CFG_RX_EN 15) 0 0 = false ∧
    s.served 0 = true ∧ s.resets.asserted = false ∧ on.inRun 0 B.HOST 0 = true ∧ on.flag (F.HOST.RING_CFG_TX_EN 15) 0 0 = true ∧
    on.flag (F.HOST.RING_CFG_RX_EN 15) 0 0 = true ∧ (64 + 2 ^ 16 - on.rf (F.HBAR.CONS_TX_CONS 15) 0 0) % 2 ^ 16 ≤ 2 ^ (on.ring 0 15).txLog2 ∧
    ¬ (65 + 2 ^ 16 - on.rf (F.HBAR.CONS_RX_CONS 15) 0 0) % 2 ^ 16 ≤ 2 ^ (on.ring 0 15).rxLog2 ∧
    ((s.setRing 0 15 { holdoff := true, waiting := true }).ring 0 15).holdoff = true ∧
    s.flag F.HOST.LINK_UP 0 0 = false ∧ (s.host 0).load = none ∧
    ((s.setHost 1 { load := some (load .staging false) }).host 1).load = some (load .staging false) ∧
    ((s.setHost 0 { load := some (load .signature false) }).host 0).load = some (load .signature false) ∧
    (∀ p ∈ [1, 3], s.grantsWrite 0 (mkFa 0 B.HOST 0 (0x100 + 4 * p)) 32 0x01FFFFFF = true ∧ p < Config.nHosts s.part ∧
      s.linkUp 0 (Config.hostDie s.part p) = false ∧ (linked 0 (Config.hostDie s.part p) s).linkUp 0 (Config.hostDie s.part p) = true) ∧
    (∀ speed ∈ [1, 4], 1 ≤ speed ∧ speed ≤ 4) ∧ (8 ∈ [1, 2, 4, 8]) ∧
    (s.host 0).perstN = true ∧ ((s.setHost 0 { perstN := false }).host 0).perstN = false ∧
    (∀ n ∈ [5, 13], size ((cfg n n).toNat / 2 ^ 16 % 16) = false) ∧
    ({ s with resets := { asserted := true } } : State).resets.asserted = true ∧
    (∀ x ∈ [HostReset.linkDown, .hotReset, .functionReset, .perst false], x ≠ .perst true) := by
  intro s on size cfg load; decide +kernel

theorem witness_RingTransfers :
    let f : RxFrame := ⟨0, 0, false, false, List.replicate 64 0⟩
    let s := state B.HOST 0 0 1 State.reset
    let ready := (((s.setFlag (F.HOST.RING_CFG_TX_EN 15) 0 0).setFlag F.HOST.LINK_UP 0 0).wf (F.HBAR.DB_TX_PROD 15) 0 0 1)
    let d (length kind dest : Nat) : TxDesc := { addr := 0, length := length, kind := kind, queue := 0, dest := dest, flags := 0, tsId := 0, injVid := 0, injPcp := 0 }
    let j := d 60 0 0
    let some_ := s.setRing 0 15 { txJob := some j }
    ready.txFetches 0 15 = true ∧ ready.descStatus 0 (d 60 1 0) = 0 ∧ ready.descStatus 0 (d 15996 1 0) = 0 ∧
    ready.descStatus 0 (d 59 1 0) ≠ 0 ∧ ready.descStatus 0 (d 15997 1 0) ≠ 0 ∧ ready.descStatus 0 (d 60 3 0) = 0x01 ∧
    (some_.ring 0 15).txJob = some j ∧ (List.replicate 60 (0 : Byte)).length = j.length ∧
    s.served 0 = true ∧ s.run 0 B.HOST 0 = 1 ∧
    ((s.setDie 0 { rings := [⟨0, 15, f⟩] }).die 0).rings = ⟨0, 15, f⟩ :: [] := by decide +kernel

theorem witness_InjectionServesInOrder :
    let t : TxDesc := { addr := 0, length := 60, kind := 1, queue := 0, dest := 0, flags := 0, tsId := 0, injVid := 0, injPcp := 0 }
    let r := (state B.HOST 0 0 1 State.reset).setRing 0 15 { txReady := some (t, List.replicate 60 0) }
    let s := engine { hold := .send 60 0 }
    let b := engine { hold := .send 60 0, dmemEcc := [(7, .double)] }
    State.reset.hasDie 0 = true ∧ State.reset.resets.asserted = false ∧ (State.reset.die 0).inj = none ∧
    (∀ k, k < 20 → State.reset.injReady 0 k = false) ∧
    r.injReady 0 15 = true ∧ (∀ k, k < 20 → r.injReady 0 (((r.die 0).injPtr + k) % 20) = true → (15 + 20 - (r.die 0).injPtr % 20) % 20 ≤ k) ∧
    (r.ring (r.hostAt 0) 15).txReady = some (t, List.replicate 60 0) ∧
    s.injReady 0 16 = true ∧ (∀ k, k < 20 → s.injReady 0 (((s.die 0).injPtr + k) % 20) = true → (16 + 20 - (s.die 0).injPtr % 20) % 20 ≤ k) ∧
    (s.eng 0).hold = .send 60 0 ∧ (s.eng 0).dmemDouble 0 (sendLen 60) = false ∧ (s.eng 0).held = [] ∧
    (b.eng 0).dmemDouble 0 (sendLen 60) = true ∧ b.inRun 0 B.ENG 0 = true ∧ inTrapRegion (b.eng 0).pc = false ∧
    b.injReady 0 16 = true := by decide +kernel

theorem witness_ImageLoads :
    let s := State.reset
    let j (p : LoadPhase) (spi : Bool) (l : List (Nat × Option Nat)) : Load := ⟨spi, 0, p, [], l, []⟩
    let busy := s.setFlag F.HBAR.LOAD_STATUS_BUSY 0 0
    let done (s : State) : State := { s with sec := { s.sec with phase := .done } }
    let fault := state B.SEC 0 0 3 s
    s.resets.asserted = false ∧ s.served 0 = true ∧ busy.flag F.HBAR.LOAD_STATUS_BUSY 0 0 = true ∧
    s.flag F.HBAR.LOAD_STATUS_BUSY 0 0 = false ∧ s.run (s.hDie 0) B.HOST 0 ≠ 3 ∧
    (state B.HOST 0 0 3 s).run 0 B.HOST 0 = 3 ∧ (owned 2 B.HOST 0 1 s).served 1 = true ∧
    (owned 2 B.HOST 0 1 s).flag F.HBAR.LOAD_STATUS_BUSY 1 0 = false ∧
    ((s.setHost 1 { load := some (j .staging false []) }).host 1).load = some (j .staging false []) ∧
    (done s).sec.phase = .done ∧ imgHeaderOk [] = false ∧
    ({ fault with sec := { fault.sec with sigQueue := [1] } } : State).sec.sigQueue = 1 :: [] ∧ fault.run 0 B.SEC 0 = 3 ∧ s.run 0 B.SEC 0 ≠ 3 ∧
    (∀ p ∈ (j .signature false []).ecc, p.2 ≠ .double) ∧ ¬ (∀ p ∈ [((0 : Nat), EccMark.double)], p.2 ≠ .double) ∧
    ((s.setHost 1 { load := some (j .writing false [(3, some 16)]) }).host 1).load = some (j .writing false [(3, some 16)]) ∧
    (((j .writing false [(3, some 16)]).targets.map (·.1)).Nodup) ∧
    (∀ t ∈ (j .writing false [(3, some 16)]).targets, s.run (t.1 / 4) B.ENG (t.1 % 4) = 0) ∧
    s.ownsHost 0 = true ∧ (s.setHost 0 { load := some (j .staging false []) }).ownsHost 0 = true ∧ s.ownsHost 1 = false ∧
    (let u := owned 2 B.HOST 0 1 s; u.ownsHost 1 = true ∧ ((u.setHost 1 { load := some (j .writing false [(3, some 16)]) }).ownsHost 1 = true)) ∧
    (∀ u ∈ [owned 2 B.HOST 0 1 s, owned 2 B.HOST 0 1 fault], ({ u with sec := { u.sec with sigQueue := [1] } } : State).ownsHost 1 = true) ∧
    stagedWhole (List.replicate 64 0) = true ∧ imgHeaderOk (List.replicate 64 0) = false := by
  decide +kernel

/-! ## Witnesses: pins, boot and SEC -/

theorem witness_PinsAndReset :
    let s := State.reset
    let pins (p : Pins) : State := { s with pins := p }
    let resets (r : ResetState) : State := { s with resets := r }
    s.pins.pwrgood = true ∧ (pins { pwrgood := false }).pins.pwrgood = false ∧ s.pins.resetN = true ∧
    (resets { filtering := true }).resets.filtering = true ∧ (resets { filtering := true }).resets.asserted = false ∧
    (pins { resetN := false }).pins.resetN = false ∧ (pins { resetN := false }).resets.filtering = false ∧
    s.hasDie 7 = true ∧ 3 < 4 := by decide +kernel

theorem witness_ReleaseAndBoot :
    let s := State.reset
    let wait (p : BootPhase) : State := { s with sec := { s.sec with phase := p } }
    let held : State := { s with resets := { asserted := true, releasing := true } }
    let f := (wait (.waitFollowers [1, 2])).setFlag F.MESH.STATUS_RX_UP 1 0
    let g := f.setFlag F.MESH.STATUS_FWD_CLK_OK 1 0
    let k := (state B.PLL 1 0 1 g).wf F.PLL.STATUS_MODE 1 0 1
    held.resets.asserted = true ∧ held.resets.releasing = true ∧ held.pins.pwrgood = true ∧ held.pins.resetN = true ∧
    s.secNvs.ok = true ∧ s.resets.asserted = false ∧ s.sec.phase = .selfTest ∧
    (wait .waitD0).sec.phase = .waitD0 ∧ ((wait .waitD0).wf F.PLL.STATUS_MODE 0 0 1).pllMode 0 = 1 ∧
    s.hasDie 1 = true ∧ g.sec.phase = .waitFollowers [1, 2] ∧ 1 ∈ [1, 2] ∧ g.inRun 1 B.PLL 0 = false ∧
    g.flag F.MESH.STATUS_RX_UP 1 0 = true ∧ g.flag F.MESH.STATUS_FWD_CLK_OK 1 0 = true ∧
    k.inRun 1 B.PLL 0 = true ∧ k.pllMode 1 = 1 ∧ k.sec.phase = .waitFollowers [1, 2] ∧
    ((wait .waitD0).wf F.PLL.STATUS_MODE 0 0 1).sec.phase = .waitD0 := by
  decide +kernel

theorem witness_LifecycleAndRollback :
    let s := State.reset
    let key : State := { s with otp := { keys := [(0, .enrolled [])] } }
    let rb (n : Nat) : State := { s with otp := { rollback := n } }
    s.grants 0 (mkFa 0 B.SEC 0 0x00) 32 = true ∧ s.secFault = false ∧ (state B.SEC 0 0 3 s).secFault = true ∧
    (state B.SEC 0 0 3 s).grants 0 (mkFa 0 B.SEC 0 0x00) 32 = true ∧
    (2 = s.otp.lifecycle + 1 ∧ 2 ≤ 3) ∧ key.liveSlots ≠ [] ∧ s.liveSlots = [] ∧ ¬ (3 = s.otp.lifecycle + 1 ∧ 3 ≤ 3) ∧
    s.grants 0 (mkFa 0 B.SEC 0 0x40) 32 = true ∧ s.flag F.SEC.ROLLBACK_BUSY 0 0 = false ∧
    (s.otp.rollback ≤ 256 ∧ 256 ≤ 256) ∧ 255 < (rb 256).otp.rollback ∧ (s.otp.rollback ≤ 257 ∧ 256 < 257) ∧
    ({ s with sec := { s.sec with rollTo := some 256 } } : State).sec.rollTo = some 256 ∧
    ({ state B.SEC 0 0 3 s with sec := { s.sec with rollTo := some 256 } } : State).secFault = true ∧
    (state B.SEC 0 0 3 s).grantsWrite 0 (mkFa 0 B.SEC 0 0x40) 32 256 = true ∧ (state B.SEC 0 0 3 s).flag F.SEC.ROLLBACK_BUSY 0 0 = false ∧
    (0, 63) ∈ (s.setEng 0 { evLive := [(63, ⟨true, 0, B.SEC, 0, 4⟩)] }).drives 0 B.SEC 0 4 := by
  decide +kernel

theorem witness_KeyAndFlashCommands :
    let s := State.reset
    let a := mkFa 0 B.SEC 0 0x10
    let job (op : Nat) : KeyJob := ⟨op, 3, 0, []⟩
    let keyed : State := { s with otp := { keys := [(0, .enrolled []), (1, .enrolled [])] } }
    let spi : State := { s with sec := { s.sec with spiActive := true } }
    s.grants 0 a 32 = true ∧ s.flag F.SEC.KEY_CMD_BUSY 0 0 = false ∧ (state B.SEC 0 0 3 s).secFault = true ∧ s.secFault = false ∧
    s.keyRefusals 3 0 0 = [] ∧ s.keyRefusals 4 0 0 = [] ∧ s.keyRefusals 4 0 64 = [] ∧ keyed.keyRefusals 2 1 0 = [] ∧
    (s.keyRefusals 4 0 65).length = 1 ∧ (s.keyRefusals 4 0 65).all (· < 8) = true ∧
    (∀ op ∈ [1, 2, 3, 4], ({ s with sec := { s.sec with key := some (job op) } } : State).sec.key = some (job op) ∧ (job op).op = op) ∧
    s.grants 0 (mkFa 0 B.SEC 0 0x50) 32 = true ∧ s.flag F.SEC.SPI_CMD_BUSY 0 0 = false ∧ 257 < 512 ∧ spi.sec.spiActive = true ∧
    ([] : List Byte).length = spi.rf F.SEC.SPI_CMD_LEN 0 0 ∧ (spi.setFlag F.SEC.SPI_CMD_DIR 0 0).flag F.SEC.SPI_CMD_DIR 0 0 = true ∧
    (state B.SEC 0 0 3 { s with sec := { s.sec with key := some (job 1) } }).sec.key = some (job 1) ∧
    (state B.SEC 0 0 3 { s with sec := { s.sec with key := some (job 1) } }).secFault = true ∧
    ({ s with sec := { s.sec with key := some (job 1) } } : State).secFault = false ∧
    s.grantsWrite 0 a 32 (2 ^ 31) = true ∧ (s.keyRefusals 4 0 65) ≠ [] := by
  decide +kernel

theorem witness_TapInstructions :
    let s := State.reset
    let o := s.setFlag F.SEC.DBG_OPEN 0 0
    s.pins.pwrgood = true ∧ s.pins.trstN = true ∧ (o.flag F.SEC.DBG_OPEN 0 0 = true ∧ o.resets.asserted = false) ∧
    (s.wf F.SEC.DBG_OPEN 0 0 0).flag F.SEC.DBG_OPEN 0 0 = false ∧ o.dbgCause (mkFa 0 B.ENG 0 0x10000) false = 0 ∧ o.dbgCause (mkFa 0 0xFF 0 0) false ≠ 0 ∧
    o.dbgCause (mkFa 0 B.ENG 0 0x20000) true = 0 ∧ 31 < Config.nEngines s.part ∧
    31 ∈ ({ o with sec := { o.sec with dbgHalted := [31] } } : State).sec.dbgHalted ∧
    Config.nEngines s.part ≤ 32 := by
  decide +kernel

theorem witness_DebugUnlocking :
    let s : State := { State.reset with otp := { lifecycle := 2, secret := some [] } }
    let secret (k : Option (List Byte)) : State := { State.reset with otp := { lifecycle := 2, secret := k } }
    let pwd : State := { s with secNvs := { password := some ([], 0) } }
    let at_ (t : Nat) : State := s.setRidge 0 { tick := t }
    let with_ (x : SecState) (s : State) : State := { s with sec := x }
    (s.pins.pwrgood = true ∧ s.pins.trstN = true) ∧ (with_ { nonce := some (0, 0) } s).sec.nonce = some (0, 0) ∧
    (s.resets.asserted = false ∧ s.sec.hold = none ∧ s.secNvs.allowChal = true ∧ s.secNvs.allowPwd = true ∧ s.secFault = false ∧
      s.secNvs.lockout = false ∧ s.otp.lifecycle = 2) ∧ s.otp.secret = some [] ∧ (secret none).otp.secret = none ∧
    s.sec.nonce = none ∧ State.reset.otp.lifecycle ≠ 2 ∧
    pwd.secNvs.password = some ([], 0) ∧ s.secNvs.password = none ∧ 64 < 65 ∧
    (with_ { hold := some 0 } (at_ 625000000)).sec.hold = some 0 ∧ 0 + 625000000 ≤ (with_ { hold := some 0 } (at_ 625000000)).tick 0 ∧
    (with_ { nonce := some (0, 0) } (at_ 37500000000)).sec.nonce = some (0, 0) ∧
    0 + 37500000000 ≤ (with_ { nonce := some (0, 0) } (at_ 37500000000)).tick 0 ∧
    s.grants 0 (mkFa 0 B.SEC 0 0x48) 32 = true := by decide +kernel

/-! ## Witnesses: lanes, PCS and PLLs -/

/-- LANE and PCS of port 0 in RUN. -/
def port0 : State := state B.PCS 0 0 1 (state B.LANE 0 0 1 State.reset)

/-- `n` bits of the sequence of x^7 + x^6 + 1 (R202), newest first, after seven ones. -/
def prbsBits : Nat → List Bool
  | 0 => []
  | n + 1 =>
    let l := prbsBits n
    (if n < 7 then true else (l.getD 6 false) != (l.getD 5 false)) :: l

theorem witness_LaneReceivers :
    let s := port0
    let locked := s.setFlag F.LANE.STATUS_PT_LOCK 0 0
    let block := s.wf F.PCS.STATUS_BLOCK_LOCK 0 0 1
    let one := s.wfF F.PCS.CFG_MODE 0 0 1
    let pat := s.wfF F.LANE.TEST_RX_PAT 0 0 1
    let bits := prbsBits 71
    let stepped := block.setLane 0 { s.lane 0 with qual := 65536 }
    let window (t : Nat) : State := (locked.setLane 0 { winAt := some (0, 0) }).setRidge 0 { tick := t }
    191 < Config.nPorts s.part ∧ s.resets.asserted = false ∧ (s.lane 0).genAt ≠ s.tick 0 + 1 ∧
    (s.laneRun 0 = true ∧ s.flag F.LANE.SLEEP_RX_ASLEEP 0 0 = false) ∧ locked.laneRun 0 = true ∧
    locked.flag F.LANE.STATUS_PT_LOCK 0 0 = true ∧ s.flag F.LANE.STATUS_PT_LOCK 0 0 = false ∧
    (200000 : Int).natAbs ≤ 200000 ∧ 200000 < (-200001 : Int).natAbs ∧ s.rfF F.LANE.CFG_SSC_TOL 0 0 ≠ 1 ∧
    (stepped.laneRun 0 = true ∧ stepped.flag F.LANE.SLEEP_RX_ASLEEP 0 0 = false) ∧ stepped.rfF F.LANE.EQ_RX_MODE 0 0 = 0 ∧
    (stepped.setFlag F.LANE.STATUS_PT_LOCK 0 0).qualifies 0 = true ∧ 65536 ≤ (stepped.lane 0).qual ∧
    (stepped.lane 0).sleepAt ≠ stepped.tick 0 + 1 ∧ (s.lane 0).qual < 65536 ∧
    (locked.lane 0).winAt = none ∧ ((window 625000).lane 0).winAt = some (0, 0) ∧ (window 625000).tick 0 = 0 + 625000 ∧
    (window 625000).flag F.LANE.STATUS_PT_LOCK 0 0 = true ∧ (window 624999).tick 0 < 0 + 625000 ∧
    phaseRate ((window 625000).rfS F.LANE.PT_SAMPLE_PHASE 0 0 - 0) ((window 625000).tick 0 - 0) 1 = false ∧
    one.laneRun 0 = true ∧ one.mode (one.portOf 0) = 1 ∧ pat.rfF F.LANE.TEST_RX_PAT 0 0 ≠ 0 ∧
    pat.laneRun 0 = true ∧ prbsClean (pat.rfF F.LANE.TEST_RX_PAT 0 0) 64 (bits.map (· != (pat.rfF F.LANE.CFG_POL_RX 0 0 == 1))) = true ∧
    prbsClean (pat.rfF F.LANE.TEST_RX_PAT 0 0) 64 (bits.drop 1) = false ∧
    (s.setFlag F.LANE.PRBS_STAT_LOCK 0 0).flag F.LANE.PRBS_STAT_LOCK 0 0 = true ∧
    64 ≤ 24 + (((s.setLane 0 { errs := [(0, 40)] }).errsNear 0).map (·.2)).sum := by
  decide +kernel

theorem witness_PcsLocks :
    let s := port0
    let on := (s.wf F.PCS.STATUS_BLOCK_LOCK 0 0 1).setLane 0 { clean := true }
    let four := (s.wfF F.PCS.CFG_MODE 0 0 4).wf F.PCS.STATUS_BLOCK_LOCK 0 0 15
    let fec := s.wfF F.PCS.CFG_FEC 0 0 1
    s.resets.asserted = false ∧ on.portUp 0 ≠ on.linkHolds 0 ∧ s.portUp 0 = s.linkHolds 0 ∧ on.linkHolds 0 = true ∧
    (on.setFlag F.PCS.STATUS_HI_BER 0 0).linkHolds 0 = false ∧
    ((on.setFlag F.PCS.STATUS_HI_BER 0 0).setFlag F.PCS.STATUS_LINK_UP 0 0).portUp 0 = true ∧
    s.laneRun 0 = true ∧ s.pcsRun (s.portOf 0) = true ∧ s.byHeaders 0 = true ∧ fec.byHeaders 0 = false ∧
    (64 : Nat) ≤ 64 ∧ (63 : Nat) < 64 ∧ (15 : Nat) < 16 ∧ ((16 : Nat) ≤ 16 ∧ 64 ≤ 64) ∧ on.byHeaders 0 = true ∧ four.portOf 3 = 0 ∧ 3 - four.portOf 3 < 4 ∧
    bitSet (on.rf F.PCS.STATUS_BLOCK_LOCK 0 0) 0 = true ∧
    four.mode 0 = 4 ∧ four.pcsRun 0 = true ∧ four.blocksLocked 0 = true ∧ 180000 ≤ 180000 ∧
    (four.setFlag F.PCS.STATUS_ALIGN_LOCK 0 0).flag F.PCS.STATUS_ALIGN_LOCK 0 0 = true ∧
    s.flag F.PCS.STATUS_HI_BER 0 0 ≠ true ∧ (s.setFlag F.PCS.STATUS_HI_BER 0 0).flag F.PCS.STATUS_HI_BER 0 0 ≠ false ∧
    on.mode 0 ≠ 1 ∧ on.blocksLocked 0 = true ∧ on.pcsRun 0 = true ∧ fec.pcsRun 0 = true ∧ fec.fec 0 = true ∧
    fec.rfF F.PCS.CFG_FEC_BYP_IND 0 0 ≠ 1 ∧ (fec.wfF F.PCS.CFG_FEC_BYP_IND 0 0 1).rfF F.PCS.CFG_FEC_BYP_IND 0 0 = 1 ∧
    (0 : Nat) ∈ s.lanesOf 0 := by
  decide +kernel

theorem witness_LaneSleep :
    let s := port0
    let a := mkFa 0 B.LANE 0 0xC
    let tx := s.setFlag F.LANE.SLEEP_TX_ASLEEP 0 0
    let rx := s.setFlag F.LANE.SLEEP_RX_ASLEEP 0 0
    let auto (t : Nat) : State := (s.wf F.LANE.SLEEP_TX_MODE 0 0 2).setRidge 0 { tick := t }
    s.resets.asserted = false ∧ (s.laneRun 0 = true ∧ s.pcsRun 0 = true ∧ s.canSleep 0 = true) ∧
    s.flag F.LANE.SLEEP_TX_ASLEEP 0 0 = false ∧ tx.flag F.LANE.SLEEP_TX_ASLEEP 0 0 = true ∧ s.canSleep 0 = true ∧
    (∀ w ∈ [65535 * 2 ^ 16 + 16 + 8, 16], s.grantsWrite 0 a 32 w = true ∧ (s.wfF F.PCS.CFG_MODE 0 0 1).grantsWrite 0 a 32 w = true) ∧
    (s.wfF F.PCS.CFG_MODE 0 0 1).canSleep 0 = false ∧
    (auto 625).rf F.LANE.SLEEP_TX_MODE 0 0 = 2 ∧ (auto 625).queuesEmpty 0 = true ∧
    ((auto (625 * 101)).lane 0).idleFrom + 625 * max 1 ((auto (625 * 101)).rf F.LANE.SLEEP_TX_IDLE 0 0) < (auto (625 * 101)).tick 0 ∧
    s.flag F.LANE.SLEEP_RX_ASLEEP 0 0 = false ∧ rx.flag F.LANE.SLEEP_RX_ASLEEP 0 0 = true ∧
    (s.setFlag F.LANE.STATUS_PT_LOCK 0 0).flag F.LANE.STATUS_PT_LOCK 0 0 = true ∧ (s.lane 0).snap = false ∧
    ((s.setLane 0 { snap := true }).lane 0).snap = true ∧ (s.lane 0).stepAt ≠ s.tick 0 + 1 ∧
    ((s.setLane 0 { stepAt := 1 }).lane 0).stepAt = (s.setLane 0 { stepAt := 1 }).tick 0 + 1 ∧
    (auto 0).canSleep 0 = true ∧ (auto 0).tick 0 ≤ ((auto 0).lane 0).idleFrom + 625 * max 1 ((auto 0).rf F.LANE.SLEEP_TX_IDLE 0 0) := by
  decide +kernel

theorem witness_PllModes :
    let s := state B.PLL 0 0 1 State.reset
    let a := mkFa 0 B.PLL 0 0x10
    let busy := s.setFlag F.PLL.SEL_BUSY 0 0
    let code (s : State) (src port : Nat) : Nat :=
      let lead := if src = 3 then port / 24 else 0
      if src = 3 ∧ s.portExists port = false then 2
      else if src = 3 ∧ s.rfF F.LANE.CFG_SSC_TOL (port / 24) (port % 24) = 1 then 3
      else if s.refValid src port = false then 1 else if s.inRun lead B.PLL 0 = false then 4 else 0
    let sel (x : PllSelect) : State := s.setPll 0 { s.pll 0 with select := some x }
    let mode (m t : Nat) : State := (s.wf F.PLL.STATUS_MODE 0 0 m).setRidge 0 { tick := t }
    (∀ w ∈ [2 ^ 30, 2 ^ 30 + 7 * 2 ^ 24 + 255 * 2 ^ 16], s.grantsWrite 0 a 32 w = true ∧ busy.grantsWrite 0 a 32 w = true) ∧
    s.resets.asserted = false ∧ busy.flag F.PLL.SEL_BUSY 0 0 = true ∧
    s.flag F.PLL.SEL_BUSY 0 0 = false ∧ code s 0 0 = 0 ∧ code s 1 0 = 1 ∧ code s 2 0 = 1 ∧ code s 4 0 = 1 ∧ code s 3 192 = 2 ∧
    code (s.wfF F.LANE.CFG_SSC_TOL 7 23 1) 3 191 = 3 ∧ code State.reset 0 0 = 4 ∧
    ((sel ⟨0, 0, 0, 0⟩).pll 0).select = some ⟨0, 0, 0, 0⟩ ∧ 0 ≤ (sel ⟨0, 0, 0, 0⟩).tick 0 ∧
    s.hasDie 0 = true ∧ (mode 0 625000).pllMode 0 = 0 ∧ (mode 0 625000).sourceValid 0 = true ∧
    (Int.ofNat (s.lockWin 0)).natAbs ≤ s.lockWin 0 ∧
    ((mode 0 (10 ^ 15)).pll 0).freq / 625000000 = 0 ∧
    (10000 : Int).natAbs ≤ 1000 * s.rfF F.PLL.QUAL_REF_TOL 0 0 ∧ ¬ (255001 : Int).natAbs ≤ 1000 * s.rfF F.PLL.QUAL_REF_TOL 0 0 ∧
    ((mode 0 (10 ^ 15)).pll 0).acquireFrom + max 625000 ((mode 0 (10 ^ 15)).lockTicks 0) ≤ (mode 0 (10 ^ 15)).tick 0 ∧
    (mode 1 0).pllMode 0 = 1 ∧ 4 * s.lockWin 0 < (Int.ofNat (4 * s.lockWin 0) + 1).natAbs ∧
    (∀ m ∈ [2, 3], let u := (mode m (10 ^ 15)).setPll 0 { validFrom := some 0 }
      u.pllMode 0 = m ∧ (u.pll 0).validFrom = some 0 ∧ u.sourceValid 0 = true ∧ 0 + u.rfF F.PLL.QUAL_REF_QUAL 0 0 * 625000 ≤ u.tick 0) ∧
    ((mode 1 (10 ^ 15)).pll 0).lockedFrom + (mode 1 (10 ^ 15)).holdTicks 0 ≤ (mode 1 (10 ^ 15)).tick 0 ∧
    ((mode 0 (10 ^ 15)).setFlag F.PLL.STATUS_HANDOVER 0 0).flag F.PLL.STATUS_HANDOVER 0 0 = true ∧
    ((mode 0 (10 ^ 15)).pll 0).acquireFrom + max 6250000 ((mode 0 (10 ^ 15)).handTicks 0) < (mode 0 (10 ^ 15)).tick 0 ∧
    ((((mode 3 0).wfF F.PLL.CFG_HOLD_EN 0 0 1).setFlag F.PLL.STATUS_HIST_OK 0 0).sourceLost 0).pllMode 0 = 2 ∧
    (⟨true, []⟩ : LockLoss).seen = true ∧ 7 < Config.nDies s.part ∧ (state B.PLL 7 0 1 s).inRun 7 B.PLL 0 = true ∧ (s.wf F.PLL.STATUS_MODE 7 0 1).pllMode 7 ≠ 4 := by
  decide +kernel

theorem witness_PllSteering :
    let s := (state B.PLL 0 0 1 State.reset).wf F.PLL.STATUS_MODE 0 0 1
    let steep := s.wf (F.PLL.RAMP_SEG_RATE 0) 0 0 (2 ^ 31 - 1)
    let small : State := { s with part := .xu9096 }
    let ramp (r : PllRamp) : State := s.setPll 0 { ramp := some r }
    let upd := s.setPll 0 { updAt := some 0 }
    s.grantsWrite 0 (mkFa 0 B.PLL 0 0x18) 64 655360001 = true ∧ (655360001 : BitVec 64).toInt ≠ max (-655360000) (min 655360000 (655360001 : BitVec 64).toInt) ∧
    small.part ≠ .xu9192 ∧ small.steers = true ∧ ((small.setRidge 0 { tick := 62500000 }).pll 0).stepAt + 62500000 ≤ (small.setRidge 0 { tick := 62500000 }).tick 0 ∧
    s.part = .xu9192 ∧ (∀ n ∈ [0, 7], s.grantsWrite 0 (mkFa 0 B.PLL 0 0x100) 32 (2 ^ 30 + n) = true) ∧ s.flag F.PLL.RAMP_CTL_BUSY 0 0 = false ∧ s.steers = true ∧
    State.reset.steers = false ∧ steep.steers = true ∧
    s.rfF F.PLL.FSLEW_RATE 0 0 * 1024 < (steep.rfS (F.PLL.RAMP_SEG_RATE 0) 0 0).natAbs ∧
    (∀ k, k ≤ 7 → ¬ s.rfF F.PLL.FSLEW_RATE 0 0 * 1024 < (s.rfS (F.PLL.RAMP_SEG_RATE k) 0 0).natAbs) ∧
    ((ramp ⟨0, none, 0, 0⟩).pll 0).ramp = some ⟨0, none, 0, 0⟩ ∧ ((ramp ⟨0, some 0, 0, 0⟩).pll 0).ramp = some ⟨0, some 0, 0, 0⟩ ∧
    0 + s.rf (F.PLL.RAMP_SEG_DURATION 0) 0 0 * 625000 ≤ (s.setRidge 0 { tick := 2 ^ 60 }).tick 0 ∧
    0 < (s.wf F.PLL.RAMP_CTL_NSEG 0 0 1).rf F.PLL.RAMP_CTL_NSEG 0 0 ∧ s.rf F.PLL.RAMP_CTL_NSEG 0 0 ≤ 0 ∧
    s.grantsWrite 0 (mkFa 0 B.PLL 0 0x40) 32 (2 ^ 30) = true ∧ s.inRun 0 B.PLL 0 = true ∧ (s.pll 0).updAt = none ∧
    (upd.pll 0).updAt = some 0 ∧ upd.inRun 0 B.PLL 0 = true ∧ 0 ≤ upd.tick 0 := by decide +kernel

/-! ## Witnesses: the time scale, timestamps, the link exchange, the summit role and the satellite reference -/

theorem witness_RidgeScale :
    let s := state B.RIDGE 0 0 1 State.reset
    let n := s.ridge 0
    let has (r : RidgeState) : State := s.setRidge 0 r
    let arm := state B.RIDGE 1 0 1 (s.setRidge 1 { armed := [256] })
    s.hasDie 0 = true ∧ s.resets.asserted = false ∧ (∀ x ∈ [0, 0x1999999999A], s.grantsWrite 0 (mkFa 0 B.RIDGE 0 0x10) 64 x = true) ∧ s.leader = 0 ∧
    State.reset.grantsWrite 4 (mkFa 1 B.RIDGE 0 0x10) 64 0 = true ∧ s.inRun 0 B.RIDGE 0 = true ∧
    ((0x1999999999A : Int) - 0x1999999999A).natAbs * 1000 ≤ 0x1999999999A ∧ ¬ ((0 : Int) - 0x1999999999A).natAbs * 1000 ≤ 0x1999999999A ∧
    rateYields n.rates 256 (some 0) = false ∧ rateYields [(256, some 1, 0)] 256 (some 0) = true ∧
    s.grantsWrite 0 (mkFa 0 B.RIDGE 0 0x18) 64 1 = true ∧ State.reset.inRun 0 B.RIDGE 0 = false ∧
    State.reset.grantsWrite 0 (mkFa 0 B.RIDGE 0 0x18) 64 1 = true ∧ State.reset.grantsWrite 4 (mkFa 1 B.RIDGE 0 0x18) 64 1 = true ∧
    arm.inRun 1 B.RIDGE 0 = true ∧ 1 ≠ arm.leader ∧
    n.nextApply = none ∧ ((has { rates := [(0, some 0, 5)] }).ridge 0).rates = [(0, some 0, 5)] ∧ ((has { rates := [(0, some 0, 5)] }).ridge 0).pendSteps = [] ∧
    ((has { rates := [(0, some 0, 5)] }).ridge 0).pendStart = none ∧ 0 ≤ (has { rates := [(0, some 0, 5)] }).pkgTick 0 ∧
    ((has { pendSteps := [(0, 1), (0, 2)] }).ridge 0).pendSteps = [(0, 1), (0, 2)] ∧
    (1 : Int).natAbs + ((has { pendSteps := [(0, 1)] }).ridge 0).stepSum 0 ≤
      (s.wfF F.RIDGE.JUMP_LIMIT_LIMIT 0 0 1).rfF F.RIDGE.JUMP_LIMIT_LIMIT 0 0 * 65536 ∧
    (0 : Int) ≤ s.unitsAt 0 0 + 1 * 65536 ∧ (s.unitsAt 0 0 : Int) + (-1) * 65536 < 0 ∧
    ((has { pendStart := some ⟨0, []⟩ }).ridge 0).pendStart = some ⟨0, []⟩ ∧ ((has { pendStart := some ⟨0, []⟩ }).ridge 0).rates = [] ∧
    State.reset.leader = 0 ∧ State.reset.grantsWrite 0 (mkFa 0 B.RIDGE 0 0x10) 64 5 = true ∧
    ((has { pendSteps := [(0, 1), (256, 2)] }).ridge 0).pendSteps = [(0, 1), (256, 2)] ∧ 0 < 256 ∧
    ((has { pendSteps := [(0, 1), (256, 2)] }).ridge 0).rates = [] := by
  decide +kernel

theorem witness_RidgeScale_arrivals :
    let s := state B.RIDGE 0 0 1 State.reset
    let a : AlignState := ⟨0, 0, 0x1999999999A, 1, true, [], true⟩
    let has (r : RidgeState) : State := s.setRidge 0 r
    let arm := state B.RIDGE 1 0 1 (s.setRidge 1 { armed := [256] })
    (arm.ridge 1).armed.contains 256 = true ∧ (s.alignNext 0).isNone = true ∧
    (sent 0 1 (.align 256 a) s).alignNext 1 = some (256, a, []) ∧ (sent 0 1 (.align 256 a) s).pkgTick 1 < 256 ∧
    (let late := (sent 0 1 (.align 256 a) (state B.RIDGE 1 0 1 s)).setRidge 1 { tick := 256 };
      late.alignNext 1 = some (256, a, []) ∧ 256 ≤ late.pkgTick 1 ∧ late.stillWaits 256 = false ∧ late.inRun 1 B.RIDGE 0 = true ∧
      (late.alignOf 1).same a = false) ∧ s.tick 0 ≤ (s.ridge 0).skewAt + 6250 ∧
    ((has { tick := 6251 }).ridge 0).skewAt + 6250 < (has { tick := 6251 }).tick 0 ∧
    ((has { tick := 65536 }).ridge 0).repAt + 65536 ≤ (has { tick := 65536 }).tick 0 ∧
    (let due := linked 0 1 ((((state B.RIDGE 1 0 1 s).setRidge 1 { deltaDue := true }).wf F.PLL.STATUS_MODE 0 0 1).wf F.PLL.STATUS_MODE 1 0 2);
      (due.ridge 1).deltaDue = true ∧ due.inRun 1 B.RIDGE 0 = true ∧ due.pllMode 1 = 2 ∧ due.pllMode 0 = 1 ∧
      due.pkgTick 0 % 256 = 0 ∧ due.linkUp 1 0 = true) ∧
    ((has { deltaFrom := some 0 }).ridge 0).deltaFrom.isSome = true ∧ s.now 0 / (10 ^ 6 * 2 ^ 32) ≤ (s.ridge 0).lastMs ∧
    (let later := has { tick := 625000000 };
      (later.ridge 0).lastMs < later.now 0 / (10 ^ 6 * 2 ^ 32)) := by decide +kernel

theorem witness_TimestampsAndLinks :
    let s := state B.LINK 0 0 1 State.reset
    let q := mkFa 0 B.TSU 0 0x10
    let a := mkFa 0 B.LINK 0 0x68
    let t : TsEntry := ⟨1, true, false, 2, 0⟩
    let later := s.setRidge 0 { tick := 625000000 }
    let full := later.setLink 0 { count := 1, sum := 65536 }
    let st (k : Nat) : State := s.wf F.LINK.STATUS_LSTATE 0 0 k
    let mean (k : Nat) : State := ((st k).setLink 0 { win := 0, means := [⟨2 ^ 32 - 1, 0, 5⟩] }).wf F.LINK.X_INFO_WIN 0 0 (2 ^ 32 - 1)
    let ok (k : Nat) : State := (mean k).wf F.LINK.X_INFO_FLAGS 0 0 16
    s.resets.asserted = false ∧ s.grants 0 q 64 = true ∧ (s.port 0).tsq = [] ∧
    (s.setPort 0 { tsq := [t] }).grants 0 q 64 = true ∧ ((s.setPort 0 { tsq := [t] }).port 0).tsq = t :: [] ∧
    s.inRun 0 B.LINK 0 = true ∧ s.linkWin 0 = (s.link 0).win ∧ later.linkWin 0 ≠ (later.link 0).win ∧ full.linkWin 0 ≠ (full.link 0).win ∧
    (full.link 0).count ≠ 0 ∧ (full.link 0).broken = false ∧ (later.link 0).count = 0 ∧
    ((later.setLink 0 { grid := some 5 }).link 0).grid = some 5 ∧ ((later.setLink 0 { grid := some 5 }).link 0).count = 0 ∧
    (later.setLink 0 { grid := some 5 }).linkWin 0 ≠ ((later.setLink 0 { grid := some 5 }).link 0).win ∧ s.grantsWrite 0 a 32 (2 ^ 31) = true ∧
    State.reset.grantsWrite 0 a 32 (2 ^ 31) = true ∧ State.reset.inRun 0 B.LINK 0 = false ∧ ((st 2).linkRoll 0).commitBad 0 = true ∧
    (∀ k ∈ [1, 4], ((st k).linkRoll 0).commitBad 0 = false ∧ (((st k).linkRoll 0).linkPeer 0).lstate 0 = k) ∧
    (∀ k ∈ [2, 3], ((ok k).linkRoll 0).commitBad 0 = false ∧ (((ok k).linkRoll 0).linkPeer 0).lstate 0 = k ∧
      (((ok k).linkRoll 0).linkPeer 0).ownMean 0 = some ⟨2 ^ 32 - 1, 0, 5⟩) ∧
    (-2 ^ 63 ≤ (0 : Int) ∧ (0 : Int) < 2 ^ 63) ∧ 2 ^ s.rfF F.LINK.CFG_RES_N 0 0 ≤ 2 ^ 8 := by decide +kernel

theorem witness_SummitRole :
    let s := state B.SUMMIT 0 0 1 State.reset
    let a := mkFa 0 B.SUMMIT 0 0x28
    let el := (s.setFlag F.SUMMIT.STATUS_ELIGIBLE 0 0).wf F.RIDGE.STATUS_TG 0 0 1
    let role (r : Nat) : State := s.wf F.SUMMIT.STATUS_ROLE 0 0 r
    let at_ (t : Nat) (s : State) : State := (state B.RIDGE 0 0 1 s).setRidge 0 { s.ridge 0 with tick := t }
    let ends (s : State) : Nat := XT.units (BitVec.ofNat 128 (s.rf F.SUMMIT.RENEWED_TIME 0 0)) + s.rfF F.SUMMIT.CFG_TERM 0 0 * (10 ^ 6 * 2 ^ 32)
    let code (s : State) : Nat := if ¬ s.inRun 0 B.SUMMIT 0 = true then 5 else if s.rfF F.SUMMIT.CFG_PRIORITY 0 0 = 0 then 2
      else if s.flag F.SUMMIT.STATUS_ELIGIBLE 0 0 = false then 1 else if s.tg 0 = false then 3 else 0
    let wait (s : State) : Nat := XT.units (BitVec.ofNat 128 (s.rf F.SUMMIT.LEASE_EXP_TIME 0 0)) +
      (s.rfF F.SUMMIT.GUARD_GUARD 0 0 + (255 - s.rfF F.SUMMIT.CFG_PRIORITY 0 0)) * (10 ^ 6 * 2 ^ 32)
    s.resets.asserted = false ∧ s.inRun 0 B.SUMMIT 0 = true ∧ (at_ (10 ^ 12) (role 1)).role = 1 ∧
    (at_ (10 ^ 12) (role 1)).flag F.SUMMIT.STATUS_ELIGIBLE 0 0 = false ∧ wait (at_ (10 ^ 12) (role 1)) ≤ (at_ (10 ^ 12) (role 1)).sNow ∧
    (at_ (10 ^ 12) (role 2)).role = 2 ∧ ends (at_ (10 ^ 12) (role 2)) ≤ (at_ (10 ^ 12) (role 2)).sNow ∧
    (role 2).role = 2 ∧ (role 2).sNow < ends (role 2) ∧ (role 2).summit.nextBeacon ≤ (role 2).sNow ∧
    (role 2).sNow < (role 2).summit.nextBeacon + (role 2).rfF F.SUMMIT.CFG_BCN_INT 0 0 * (10 ^ 6 * 2 ^ 32) ∧
    ((s.wfF (F.SUMMIT.PATH_EN 1) 0 0 1).rfF (F.SUMMIT.PATH_EN 1) 0 0 = 1) ∧
    s.rfF (F.SUMMIT.PATH_PORT 1) 0 0 < Config.nPorts s.part ∧ s.portExists (s.rfF (F.SUMMIT.PATH_PORT 1) 0 0) = true ∧
    (∀ op ∈ [1, 2, 3], s.grantsWrite 0 a 32 (op * 2 ^ 26) = true ∧ (role 2).grantsWrite 0 a 32 (op * 2 ^ 26) = true) ∧ s.role ≠ 2 ∧
    (let prio := el.wfF F.SUMMIT.CFG_PRIORITY 0 0 1;
      code prio = 0 ∧ prio.grantsWrite 0 a 32 (1 * 2 ^ 26) = true ∧ prio.role ≠ 2) ∧ code State.reset = 5 ∧ code (s.wfF F.SUMMIT.CFG_PRIORITY 0 0 0) = 2 ∧
    code (s.wfF F.SUMMIT.CFG_PRIORITY 0 0 1) = 1 ∧
    code ((s.wfF F.SUMMIT.CFG_PRIORITY 0 0 1).setFlag F.SUMMIT.STATUS_ELIGIBLE 0 0) = 3 ∧
    (let old := at_ (10 ^ 12) { s with summit := { lastB := some 0 } };
      old.summit.lastB = some 0 ∧ 0 + 3 * old.rfF F.SUMMIT.CFG_BCN_INT 0 0 * (10 ^ 6 * 2 ^ 32) ≤ old.sNow) := by
  decide +kernel

theorem witness_SummitRole_beacons :
    let s := state B.SUMMIT 0 0 1 { State.reset with regs := [(F.SUMMIT.DEV_ID_DEVICE_ID.key 0 0, 7)] }
    let role (r : Nat) : State := s.wf F.SUMMIT.STATUS_ROLE 0 0 r
    let l (sub prio holder sec : Byte) : List Byte := withFcs (List.replicate 14 0#8 ++ [sub, 1#8, 1#8, prio, 0#8, 0#8] ++
      List.replicate 7 0#8 ++ [holder] ++ List.replicate 31 0#8 ++ [sec] ++ List.replicate 8 0#8)
    let b (x : List Byte) : Beacon := beaconOf x
    let ok (x : List Byte) : Bool := fcsGood x && (b x).valid 7
    s.inRun 0 B.SUMMIT 0 = true ∧ s.resets.asserted = false ∧ s.rf F.SUMMIT.DEV_ID_DEVICE_ID 0 0 = 7 ∧
    (role 1).role = 1 ∧ (role 2).role = 2 ∧
    (role 2).sNow < XT.units (BitVec.ofNat 128 ((role 2).rf F.SUMMIT.RENEWED_TIME 0 0)) + (role 2).rfF F.SUMMIT.CFG_TERM 0 0 * (10 ^ 6 * 2 ^ 32) ∧
    fcsGood (l 0x10 1 7 1) = true ∧ (b (l 0x10 1 7 1)).valid 7 = false ∧
    ok (l 0x11 1 9 1) = true ∧ (b (l 0x11 1 9 1)).release = true ∧ (b (l 0x11 1 9 1)).path = 1 ∧
    ok (l 0x10 1 9 1) = true ∧ (b (l 0x10 1 9 1)).release = false ∧
    XT.units (BitVec.ofNat 128 ((role 1).rf F.SUMMIT.LEASE_EXP_TIME 0 0)) < (b (l 0x10 1 9 1)).expiry ∧
    (role 2).sNow < (b (l 0x10 1 9 1)).expiry ∧ (role 2).outranked (b (l 0x10 0xFF 9 1)) = true ∧ ok (l 0x10 0xFF 9 1) = true ∧
    (((role 2).wfF F.SUMMIT.CFG_PRIORITY 0 0 255).outranked (b (l 0x10 1 9 1)) = false) := by decide +kernel

/-! ## Witnesses: the satellite reference, event channels, outputs and monitors -/

theorem witness_SatelliteReference :
    let s := (state B.GNSS 0 0 1 State.reset).wfF F.GNSS.IF_RATE_RATE 0 0 16384000
    let g (x : GnssState) : State := s.setGnss x
    let st (n : Nat) : State := s.wf F.GNSS.STATUS_GSTATE 0 0 n
    let c (k n : Nat) : State := s.wf (F.GNSS.CH_CSTATE k) 0 0 n
    let m : SampleSpan := ⟨10 ^ 6, 5 * 10 ^ 11, 0, 0, 0, 0, 0, 0⟩
    let off : SampleSpan := { m with blocks := 1001000 }
    s.resets.asserted = false ∧ s.inRun 0 B.GNSS 0 = true ∧ s.gnss.clkLost = false ∧
    -- on a scale of 2 ns a tick
    (let u := s.setRidge 0 { rate := 2 ^ 41 }
     0 < ((u.rfF F.GNSS.IF_RATE_RATE 0 0 : Nat) : Int) * u.sampleSpan m ∧ (u.measureClk m).gnss.range = false ∧
     (u.measureClk off).gnss.range = true ∧ u.inRun 0 B.GNSS 0 = true ∧ u.gnss.clkLost = false ∧ (u.measureClk m).chRun = true) ∧
    s.searchNow 0 = some (1, 0) ∧ (g { search := (32, 2) }).searchNow 0 = some (32, 2) ∧
    (g { search := (32, 2), almanac := true, located := true }).searchNow 1 = some (1, 0) ∧
    s.rf (F.GNSS.CH_CSTATE 0) 0 0 = 0 ∧ s.chRun = true ∧ (c 15 1).chRun = true ∧ (c 15 1).inRun 0 B.GNSS 0 = true ∧
    (c 0 2).hears = true ∧ (c 0 2).chRun = true ∧ State.reset.inRun 0 B.GNSS 0 = false ∧ s.ppsIsDue = false ∧
    (st 3).ppsIsDue = false ∧ (st 1).ppsIsDue = false ∧
    (let full := (List.range 15).foldl (fun s j => s.wf (F.GNSS.CH_CSTATE j) 0 0 1) s;
      full.rf (F.GNSS.CH_CSTATE 15) 0 0 = 0 ∧ ∀ j, j < 15 → full.rf (F.GNSS.CH_CSTATE j) 0 0 ≠ 0) ∧
    (c 15 1).hears = true ∧ (c 15 1).rf (F.GNSS.CH_CSTATE 15) 0 0 = 1 ∧ 2 ≤ (c 0 2).rf (F.GNSS.CH_CSTATE 0) 0 0 ∧
    s.hears = true ∧ s.flag F.GNSS.STATUS_SPARSE_ON 0 0 = false ∧
    s.resets.asserted = false := by decide +kernel

theorem witness_SatelliteReference_model :
    let s := (state B.GNSS 0 0 1 State.reset).wfF F.GNSS.IF_RATE_RATE 0 0 16384000
    let g (x : GnssState) : State := s.setGnss x
    let st (n : Nat) : State := s.wf F.GNSS.STATUS_GSTATE 0 0 n
    ¬ (if s.refreshChannels.fixedMode then 1 else 4) ≤ s.refreshChannels.rf F.GNSS.STATUS_NSV_USED 0 0 ∧
    (st 0).gstate = 0 ∧ (st 1).gstate = 1 ∧ (st 1).gnss.take = false ∧ (st 2).gstate = 2 ∧
    ((st 2).newestFix * 1000 - 0).natAbs ≤ (st 2).rfF F.GNSS.JUMP_LIMIT 0 0 * 65536 * 1000 ∧
    ¬ ((st 2).newestFix * 1000 - 2 ^ 80).natAbs ≤ (st 2).rfF F.GNSS.JUMP_LIMIT 0 0 * 65536 * 1000 ∧
    (st 1).gstate ≠ 0 ∧ (g { missed := 2 }).gnss.missed + 1 = 3 ∧ (st 3).gstate = 3 ∧
    ((st 3).setGnss { baseAt := - 10 ^ 6 * 2 ^ 32 }).gnss.baseAt + 10 ^ 6 * 2 ^ 32 ≤ (st 3).now 0 ∧ (st 3).near (st 3).gnss.base 1 = true ∧
    (let v := (s.setGnss { surveyAt := some (- 10 ^ 18 * 2 ^ 32), surveyCount := 1 }).wfF F.GNSS.CFG_POS_MODE 0 0 2;
      v.gnss.surveyAt = some (- 10 ^ 18 * 2 ^ 32) ∧ v.rfF F.GNSS.CFG_POS_MODE 0 0 = 2 ∧ v.gnss.surveyDone = false ∧ 0 < v.gnss.surveyCount ∧
      (- 10 ^ 18 * 2 ^ 32 : Int) + ((v.rfF F.GNSS.SURVEY_MINUTES 0 0 * 60 : Nat) : Int) * (10 ^ 9 * 2 ^ 32) ≤ v.now 0) ∧
    (let v := ((s.setFlag F.GNSS.STATUS_SPARSE_ON 0 0).setRidge 0 { tick := 62500000 }).setGnss { edgeAt := some 0 };
      v.gnss.edgeAt = some 0 ∧ v.flag F.GNSS.STATUS_SPARSE_ON 0 0 = true ∧ v.gnss.burst = none ∧ 0 + 62500000 ≤ v.tick 0) ∧
    s.grantsWrite 0 (mkFa 0 B.GNSS 0 0x20) 32 1 = true ∧ (st 4).gstate = 4 ∧ (st 4).gstateBefore = 4 ∧ s.gstateBefore ≠ 4 ∧
    (let v := (st 1).setRidge 0 { tick := 624999999 };
      v.ppsIsDue = true ∧ v.gnss.take = false ∧ (v.pkgTick 0 < v.ppsTick (v.ppsTarget v.ppsSecond)) ∧
      (let w := (v.setGnss { v.gnss with take := true }).takeFix; w.ppsIsDue = true)) ∧
    (let v := ((st 1).setRidge 0 { tick := 624999999 }).wf F.RIDGE.SKEW_SKEW 0 0 4000;
      v.ppsIsDue = true ∧ v.gnss.take = false ∧ v.ppsTick (v.ppsTarget v.ppsSecond) ≤ v.pkgTick 0) ∧
    (g { plan := some ⟨1, 0, 0⟩ }).gnss.plan = some ⟨1, 0, 0⟩ ∧ 0 ≤ (g { plan := some ⟨1, 0, 0⟩ }).pkgTick 0 ∧
    (let v (t : Nat) := ((s.setFlag F.GNSS.STATUS_SPARSE_ON 0 0).setRidge 0 { tick := t }).setGnss { burst := some 0, solved := true, edgeAt := some 0 }
     (v 12499999).flag F.GNSS.STATUS_SPARSE_ON 0 0 = true ∧ (v 12499999).gnss.burst = some 0 ∧ (v 62500000).gnss.solved = true) := by
  decide +kernel

theorem witness_SatelliteReference_solution :
    let s := ((state B.GNSS 0 0 1 (State.reset.setRidge 0 { rate := 2 ^ 41 })).wfF F.GNSS.IF_RATE_RATE 0 0 16384000).wfF F.GNSS.CFG_POS_MODE 0 0 1
    let v := ((s.wf (F.GNSS.CH_CSTATE 15) 0 0 3).wf (F.GNSS.CH_PRN 15) 0 0 32).setGnss { ephemeris := [32] }
    let m : SampleSpan := ⟨10 ^ 6, 5 * 10 ^ 11, 0, 0, 0, 0, 0, 0⟩
    let off : SampleSpan := { m with blocks := 999000 }
    let w := (((v.measureClk m).wf (F.GNSS.CH_CN0 15) 0 0 45).wf (F.GNSS.CH_ELEV 15) 0 0 90).refreshChannels
    (v.measureClk m).gnss.range = false ∧ (v.measureClk off).gnss.range = true ∧
    v.hears = true ∧ v.flag F.GNSS.STATUS_SPARSE_ON 0 0 = false ∧ v.ppsIsDue = false ∧ (if w.fixedMode then 1 else 4) ≤ w.rf F.GNSS.STATUS_NSV_USED 0 0 := by decide +kernel

theorem witness_EventCapture :
    let t := state B.FIELD 7 0 1 (state B.EVT 7 7 1 State.reset)
    let s := (t.setFlag F.FIELD.STATUS_FVDD_OK 7 0).wfF F.EVT.CFG_SLOPE 7 7 3
    let a := s.evEdge 63 false 0
    let g := (mkFa 7 B.EVT 7 4, mkFa 7 B.EVT 7 0x10, mkFa 7 B.EVT 7 0x40)
    let rec_ (x : EvtState) : State := s.setEvt 63 x
    let o : EvOpen := { edges := [a], closes := some 0 }
    let one := rec_ { fifo := [[5#8, 0#8, 3#8]] }
    63 < Config.nChannels s.part ∧ s.resets.asserted = false ∧ State.reset.inRun 7 B.EVT 7 = false ∧ s.inRun 7 B.EVT 7 = true ∧
    s.inRun 7 B.FIELD 0 = true ∧ s.flag F.FIELD.STATUS_FVDD_OK 7 0 = true ∧ (s.rfF F.EVT.CFG_SLOPE 7 7).testBit 0 = true ∧
    (s.rfF F.EVT.CFG_SLOPE 7 7).testBit 1 = true ∧ s.evDead 63 a = false ∧ (rec_ { lastCross := some (0, a.tdc) }).evDead 63 a = true ∧
    (rec_ { lastCross := some (0, a.tdc), cur := some o }).evDead 63 a = true ∧
    s.rfF F.EVT.CFG_MODE 7 7 = 0 ∧ (s.wfF F.EVT.CFG_MODE 7 7 1).rfF F.EVT.CFG_MODE 7 7 = 1 ∧ (s.evt 63).cur = none ∧
    (s.evt 63).closedAt = none ∧ (s.setFlag F.EVT.STATUS_ARMED 7 7).flag F.EVT.STATUS_ARMED 7 7 = true ∧
    (s.evt 63).fifo.length < 256 ∧ 256 ≤ ((rec_ { fifo := List.replicate 256 [] }).evt 63).fifo.length ∧
    (s.wfF F.EVT.CFG_ONESHOT 7 7 1).rfF F.EVT.CFG_ONESHOT 7 7 = 1 ∧ s.grantsWrite 28 g.1 32 65535 = true ∧
    ((rec_ { settleAt := some 0 }).evt 63).settleAt = some 0 ∧ 0 ≤ (rec_ { settleAt := some 0 }).tick 7 ∧ s.grantsWrite 28 g.2.1 32 1 = true ∧ s.grantsWrite 28 g.2.1 32 0 = true ∧
    (∀ m ∈ [1, 2, 3], let v := (rec_ { cur := some o }).wfF F.EVT.CFG_MODE 7 7 m;
      v.rfF F.EVT.CFG_MODE 7 7 = m ∧ (v.evt 63).cur = some o ∧ v.pkgTick 7 ≤ 0 ∧ 0 < (v.setRidge 7 { tick := 1 }).pkgTick 7 ∧
        ((v.setRidge 7 { tick := 1 }).evt 63).cur = some o) ∧
    (o.edges.any fun b => b.src == 7 && (rec_ { lastCross := some (0, a.tdc), cur := some o }).isLast 7 b) = true ∧
    s.grants 28 g.2.2 64 = true ∧ (s.evt 63).fifo = [] ∧ one.grants 28 g.2.2 64 = true ∧ (one.evt 63).fifo = [5#8, 0#8, 3#8] :: [] ∧
    one.rfF F.EVT.FR_CFG_EN 7 7 = 0 ∧ (one.wfF F.EVT.FR_CFG_EN 7 7 1).rfF F.EVT.FR_CFG_EN 7 7 = 1 ∧
    (one.wfF F.EVT.FR_CFG_EN 7 7 1).inRun 7 B.EVT 7 = true ∧
    ((one.wfF F.EVT.FR_CFG_EN 7 7 1).eng ((one.wfF F.EVT.FR_CFG_EN 7 7 1).rfF F.EVT.FR_CFG_ENG 7 7)).rxq.length < 32 ∧
    (let b := s.evEdge 63 true 0
     let n : EvOpen := { edges := [a], closes := some 0, next := some b }
     let v := (rec_ { cur := some n }).wfF F.EVT.CFG_MODE 7 7 3
     n.next = some b ∧ v.rfF F.EVT.CFG_ONESHOT 7 7 = 0 ∧ (v.evt 63).cur = some n) := by
  decide +kernel

theorem witness_OutputSupplyAndTrigger :
    let s := state B.FIELD 7 0 1 State.reset
    let ok := s.setFlag F.FIELD.STATUS_FVDD_OK 7 0
    let fn (n : Nat) (u : State) : State := u.wfF (F.FIELD.OUT_CFG_FUNC 3) 7 0 n
    let ta := mkFa 7 B.FIELD 0 (0x110 + 64 * 3)
    -- the next edge's connector time less the target and 0.8 ns, in 10^-6 of 2^-32 ns
    let gap (u : State) : Int := (u.unitsAt 7 (u.pkgTick 7 + 1) : Int) * 10 ^ 6 +
      u.outLead 7 (u.rfS (F.FIELD.OUT_ADJ_OUT_ADJ 3) 7 0) * 2 ^ 32 -
      ((XT.units (BitVec.ofNat 128 (u.rf (F.FIELD.OUT_TRIG_TIME_TIME 3) 7 0)) : Int) * 10 ^ 6 - 800000 * 2 ^ 32)
    let at_ (n : Nat) (u : State) : State := u.wf (F.FIELD.OUT_TRIG_TIME_TIME 3) 7 0 (xtOfUnits n).toNat
    let even := at_ (s.unitsAt 7 (s.pkgTick 7 + 1) + 4 * 2 ^ 32) ((fn 4 s).wf (F.FIELD.OUT_ADJ_OUT_ADJ 3) 7 0 3200)
    let p : OutPlan := ⟨0, 0, 0, 625⟩
    let due := (fn 4 s).setOut 7 3 { plan := some p }
    s.hasDie 7 = true ∧ s.resets.asserted = false ∧ (s.putFlag F.FIELD.STATUS_FVDD_OK 7 0 false).flag F.FIELD.STATUS_FVDD_OK 7 0 = false ∧
    ok.flag F.FIELD.STATUS_FVDD_OK 7 0 = true ∧ (fn 4 s).grantsWrite 28 ta 32 1 = true ∧ (fn 4 s).inRun 7 B.FIELD 0 = true ∧
    (fn 4 s).outFunc 7 3 = 4 ∧ 0 < gap (fn 4 s) ∧ ((fn 4 s).out 7 3).plan = none ∧
    (fn 1 s).grantsWrite 28 ta 32 1 = true ∧ (fn 1 s).outFunc 7 3 = 1 ∧ gap (at_ (2 ^ 60) (fn 4 s)) < 0 ∧
    even.grantsWrite 28 ta 32 1 = true ∧ even.inRun 7 B.FIELD 0 = true ∧ even.outFunc 7 3 = 4 ∧ gap even = 0 ∧
    (even.out 7 3).plan = none ∧ due.grantsWrite 28 ta 32 1 = true ∧ (due.out 7 3).plan = some p ∧ p.tick ≤ due.pkgTick 7 ∧
    due.inRun 7 B.FIELD 0 = true ∧ due.outFunc 7 3 = 4 ∧
    (State.reset.inRun 7 B.FIELD 0 = false ∧ State.reset.grantsWrite 28 ta 32 1 = true) ∧
    (∀ n ∈ [1, 2 ^ 70], let u := (fn 4 s).setOut 7 3 { trig := some n }
      u.inRun 7 B.FIELD 0 = true ∧ u.outFunc 7 3 = 4 ∧ (u.out 7 3).trig = some n) := by
  decide +kernel

theorem witness_OutputEdges :
    let s := state B.FIELD 7 0 1 State.reset
    let ok := s.setFlag F.FIELD.STATUS_FVDD_OK 7 0
    let fn (n : Nat) (u : State) : State := u.wfF (F.FIELD.OUT_CFG_FUNC 3) 7 0 n
    let p : OutPlan := ⟨0, 0, 0, 625⟩
    let has (x : OutState) (u : State) : State := u.setOut 7 3 x
    let due (u : State) : State := has { plan := some p, endsAt := some 0, high := true } u
    s.hasDie 7 = true ∧ s.resets.asserted = false ∧ s.inRun 7 B.FIELD 0 = true ∧ (s.out 7 3).plan = none ∧
    (fn 1 s).outFunc 7 3 = 1 ∧ (fn 4 s).outFunc 7 3 = 4 ∧ (fn 3 s).outFunc 7 3 = 3 ∧
    (let u := has { frame := [8], slot := 98 } s
     let f := u.out 7 3
     f.frame ≠ [] ∧ max f.slot ((u.now 7 - f.second * (10 ^ 9 * 2 ^ 32) + (10 * (10 ^ 6 * 2 ^ 32) - 1)) / (10 * (10 ^ 6 * 2 ^ 32))) = 98) ∧
    (((fn 1 s).nextTarget 7 3).map fun x => decide (x.1 ≤ (((fn 1 s).now 7 + 10 ^ 6 * 2 ^ 32 : Nat) : Int))) = some true ∧
    State.reset.inRun 7 B.FIELD 0 = false ∧ s.nextTarget 7 3 = none ∧ ((due ok).out 7 3).plan.isSome = true ∧
    (((has { lastSec := some 9 } (fn 1 s)).nextTarget 7 3).map fun x =>
      decide ((((fn 1 s).now 7 + 10 ^ 6 * 2 ^ 32 : Nat) : Int) < x.1)) = some true ∧
    ((due ok).out 7 3).plan = some p ∧ (due ok).inRun 7 B.FIELD 0 = true ∧ p.tick ≤ (due ok).pkgTick 7 ∧
    (∀ n ∈ [1, 3, 4], (due (fn n ok)).fieldLive 7 = true ∧ (due (fn n ok)).outFunc 7 3 = n ∧
      ¬ (due (fn n s)).fieldLive 7 = true ∧ (due (fn n s)).outFunc 7 3 = n ∧ ((due (fn n s)).out 7 3).plan = some p) ∧
    s.pkgTick 7 < (⟨0, 1, 0, 0⟩ : OutPlan).tick ∧
    ((due ok).out 7 3).endsAt = some 0 ∧ 0 ≤ (due ok).tick 7 ∧ ((due ok).out 7 3).high = true ∧
    (s.out 7 3).endsAt = none ∧ (s.out 7 3).high = false ∧
    ((has { endsAt := some 1 } s).out 7 3).endsAt = some 1 ∧ s.tick 7 < 1 ∧
    ((has { lastSec := some 9 } s).out 7 3).lastSec = some 9 := by
  decide +kernel

theorem witness_Monitors :
    let s := (((state B.PERF 0 0 1 State.reset).wfF (F.PERF.SEL_MODE 7) 0 0 3).wfF (F.PERF.SEL_SRC 7) 0 0 0x30).wf
      (F.PERF.THR_THR 7) 0 0 5
    let f := s.setPerf 0 { fifo := [[5#8, 0#8, 3#8]] }
    let ta := mkFa 0 B.PERF 0 0x120
    let count (n m : Nat) : State := (s.wf (F.PERF.CNT_COUNT 7) 0 0 n).wf (F.PERF.CMP_CMP 7) 0 0 m
    let later := s.setRidge 0 { tick := 2 ^ 40 }
    let it : TagItem := { kind := 0, inPort := 3 }
    let m : CtlMsg := ⟨1, 0, .tagStage 2 5 it false false⟩
    let busy := s.setPerf 0 { frame := some it }
    s.hasDie 0 = true ∧ s.resets.asserted = false ∧ s.inRun 0 B.PERF 0 = true ∧
    s.level 0 0x30 (s.rfF (F.PERF.SEL_INDEX 7) 0 0) = some 0 ∧ s.rfF (F.PERF.SEL_SRC 7) 0 0 = 0x30 ∧ (s.perf 0).ahead.contains 7 = false ∧
    (∀ x ∈ [count 4 5, count (2 ^ 48 - 1) 0], x.levelAmount 0 7 = 1 ∧ x.inRun 0 B.PERF 0 = true ∧ (x.perf 0).ahead.contains 7 = false) ∧
    2 ≠ s.levelAmount 0 7 ∧
    ((count 4 5).rf (F.PERF.CNT_COUNT 7) 0 0 < (count 4 5).rf (F.PERF.CMP_CMP 7) 0 0 ∧ (count 4 5).rf (F.PERF.CMP_CMP 7) 0 0 ≤
      (count 4 5).rf (F.PERF.CNT_COUNT 7) 0 0 + 1) ∧
    2 ^ 48 ≤ (count (2 ^ 48 - 1) 0).rf (F.PERF.CNT_COUNT 7) 0 0 + 1 ∧
    (later.perf 0).window + later.rfF F.PERF.BW_CFG_WINDOW 0 0 * 625 ≤ later.tick 0 ∧ s.grants 0 ta 64 = true ∧ (s.perf 0).fifo = [] ∧
    f.grants 0 ta 64 = true ∧ (f.perf 0).fifo = [5#8, 0#8, 3#8] :: [] ∧ (s.perf 0).fifo.length < 16 ∧
    16 ≤ ((s.setPerf 0 { fifo := List.replicate 16 [] }).perf 0).fifo.length ∧
    (sent 1 0 (.tagStage 2 5 it false false) s).msgs = [] ++ m :: [] ∧ (s.perf 0).frame = none ∧ (busy.perf 0).frame = some it ∧ it.id = it.id ∧ it.id ≠ { it with id := 1 }.id ∧
    (∀ w ∈ [0, 1, 2, 3], s.grantsWrite 0 (mkFa 0 B.HIST 31 4) 32 w = true) ∧ s.has 0 B.HIST 31 = true := by decide +kernel

theorem witness_Monitors_histogram :
    let s := state B.HIST 0 31 1 State.reset
    let v := (s.wfF F.HIST.CFG_SRC 0 31 2)
    let w := (s.wfF F.HIST.CFG_SRC 0 31 3)
    s.resets.asserted = false ∧ v.has 0 B.HIST 31 = true ∧ v.rfF F.HIST.CFG_SRC 0 31 = 2 ∧
    (v.level 0 0x30 (v.rfF F.HIST.CFG_INDEX 0 31)).isSome = true ∧ (w.level 0 0x31 (w.rfF F.HIST.CFG_INDEX 0 31)).isSome = true ∧
    v.histWants 0 2 (v.rfF F.HIST.CFG_INDEX 0 31) 31 = true ∧ w.histWants 0 3 (w.rfF F.HIST.CFG_INDEX 0 31) 31 = true ∧
    v.tick 0 % 2 ^ v.rfF F.HIST.CFG_SPER 0 31 = 0 ∧ v.flag F.HIST.CTRL_HOLD 0 31 = false ∧ (v.perf 0).sampled.contains 31 = false ∧
    ((v.setPerf 0 { sampled := [31] }).perf 0).sampled.contains 31 = true ∧
    (v.setPerf 0 { sampled := [31] }).has 0 B.HIST 31 = true := by
  decide +kernel

/-! ## Witnesses: the switch core, redundancy and saddle links -/

/-- A frame of port 0 that goes on to port 1. -/
def meta0 : FrameMeta := { id := 1, src := .port 0, len := 64, ports := 2 }

theorem witness_SwitchInput :
    let t := port0
    let s := t.setFlag F.PCS.STATUS_LINK_UP 0 0
    let l : List Byte := [0x01#8, 0x80#8, 0xC2#8, 0#8, 0#8, 0x0E#8, 2#8, 0#8, 0#8, 0#8, 0#8, 1#8, 0x88#8, 0xF7#8]
    let pause : List Byte := [0x01#8, 0x80#8, 0xC2#8, 0#8, 0#8, 0x01#8, 2#8, 0#8, 0#8, 0#8, 0#8, 1#8, 0x88#8, 0x08#8]
    let r : RxFrameCur := ⟨meta0, [0], l, 0, withFcs l, false, false, none, false, none, false⟩
    let cell : Cell := ⟨meta0, true, true, false, l⟩
    let has (r : RxFrameCur) : State := s.setPort 0 { rx := some r }
    let stg (j : Nat) (s : State) : State := s.setFifo 0 j [⟨cell, [0]⟩]
    let far := (state B.MESH 0 7 1 s).setFlag F.MESH.STATUS_TX_UP 0 7
    s.resets.asserted = false ∧ t.canReceive 0 = false ∧ s.canReceive 0 = true ∧ s.mode 0 ≠ 1 ∧ takenAside l = true ∧
    takenAside pause = false ∧ etherType pause = 0x8808 ∧ r.dropped = false ∧ r.cutOff = false ∧ r.frame.tag = none ∧
    (r.dies ≠ [] ∧ ∀ x ∈ r.dies, s.txUp 0 x = true) ∧ slotsUsed (s.fifo 0 23) < 32 ∧
    32 ≤ slotsUsed ((s.setFifo 0 0 (List.replicate 32 ⟨cell, [0]⟩)).fifo 0 0) ∧ { r with done := 256 }.done ≠ 0 ∧
    s.rf F.MESH.STG_DROP_COUNT 0 7 < 2 ^ 32 - 1 ∧ ((has r).port 0).rx = some r ∧ ((has r).port 0).fwd = none ∧
    r.bytes.length ≤ r.done + 256 ∧ r.bad = false ∧ r.ovr = false ∧ fcsGood r.raw = true ∧ fcsGood l = false ∧
    0 + 256 < (List.replicate 257 0#8).length ∧
    s.hasDie 0 = true ∧ s.txUp 0 0 = true ∧ far.txUp 0 7 = true ∧ far.inRun 0 B.MESH 7 = true ∧ s.turnOf 0 0 = none ∧
    (stg 0 s).turnOf 0 0 = some 0 ∧ (stg 24 s).turnOf 0 0 = some 24 ∧ takeFor 0 ((stg 24 s).fifo 0 24) = some (cell, []) ∧
    ((far.setFifo 0 24 [⟨cell, [7]⟩]).turnOf 0 7 = some 24) ∧ takeFor 7 ((far.setFifo 0 24 [⟨cell, [7]⟩]).fifo 0 24) = some (cell, []) := by
  decide +kernel

theorem witness_SwitchOutput :
    let s := state B.QUE 0 0 1 ((state B.GATE 0 0 1 port0).setFlag F.PCS.STATUS_LINK_UP 0 0)
    let cell : Cell := ⟨meta0, true, true, false, [1#8]⟩
    let c : Copy := { frame := meta0, port := 0, queue := 15, charge := 1, prp := none, bytes := List.replicate 64 0#8, whole := true }
    let q (k : Nat) (s : State) : State := s.setPort 0 { queues := [(k, [c])] }
    let t : TxCur := ⟨c, none, false, [], 0, false, none⟩
    let out (t : TxCur) : State := s.setPort 0 { tx := some t }
    let on : State := { s with cells := [(1, [cell]), (0, [cell])] }
    0 < Config.nPorts s.part ∧ s.hasDie 0 = true ∧ s.hasDie 1 = true ∧ s.resets.asserted = false ∧ s.onWay 0 0 = [] ∧
    on.onWay 0 1 = cell :: [] ∧ on.onWay 0 0 = cell :: [] ∧ (q 15 s).heads 0 15 = some 64 ∧ (q 15 s).eligible 0 15 64 = true ∧
    (q 12 s).heads 0 12 = some 64 ∧ (q 12 s).eligible 0 12 64 = true ∧
    (∀ j ∈ [13, 14, 15], (q 12 s).heads 0 j = none) ∧ ((out t).port 0).tx.isSome = true ∧ (s.port 0).tx = none := by decide +kernel

theorem witness_SwitchOutput_transmission :
    let s := state B.QUE 0 0 1 ((state B.GATE 0 0 1 port0).setFlag F.PCS.STATUS_LINK_UP 0 0)
    let c : Copy := { frame := meta0, port := 0, queue := 15, charge := 1, prp := none, bytes := List.replicate 64 0#8, whole := true }
    let q (k : Nat) (s : State) : State := s.setPort 0 { queues := [(k, [c])] }
    let t : TxCur := ⟨c, none, false, [], 0, false, none⟩
    let out (t : TxCur) : State := s.setPort 0 { tx := some t }
    let gated := (s.wfF F.GATE.CFG_LIST_LEN 0 0 1).setPort 0 { gate := some ⟨0, true⟩ }
    s.portExists 0 = true ∧ (s.choose 0 (s.heads 0)).1 = none ∧ ((q 15 s).port 0).tx = none ∧
    ((q 15 s).choose 0 ((q 15 s).heads 0)).1 = some 15 ∧ (q 15 s).queue 0 15 = c :: [] ∧ (q 15 s).tooOld 0 c = false ∧
    c.spent = false ∧ ((out t).port 0).tx = some t ∧ t.copy.whole = true ∧ { c with whole := false }.whole = false ∧ t.copy.queue < 16 ∧
    (let stop := state B.PCS 0 0 0 (q 0 s);
      stop.run 0 B.PCS 0 = 0 ∧ stop.queueOn 0 0 0 = true ∧ stop.queue 0 0 = c :: []) ∧
    (state B.PCS 0 0 3 s).run 0 B.PCS 0 = 3 ∧ (q 0 s).run 0 B.PCS 0 = 1 ∧ (gated.port 0).gate = some ⟨0, true⟩ ∧
    (gated.gatePlace 0).isSome = true ∧ gated.inRun 0 B.GATE 0 = true := by decide +kernel

theorem witness_MirrorRedundancyMesh :
    let s := State.reset
    let ha := mkFa 7 B.MIRR 0 0x20
    let ring (l : List (List Byte)) : State := s.setDie 7 { mirr := { ring := l } }
    let x : PrpEntry := ⟨0, 5, false, none, none, none, 0⟩
    let late (u : State) : State := u.setRidge 0 { tick := 2 ^ 40 }
    let prp := (state B.PRP 0 0 1 s).setDie 0 { prp := [x], prpLan := [(0, 1), (1, 1)] }
    let run := state B.MESH 1 0 1 (state B.MESH 0 1 1 s)
    let repair := (run.wfF F.MESH.CFG_REPAIR_EN 0 1 1).wfF F.MESH.CFG_REPAIR_EN 1 0 1
    s.resets.asserted = false ∧ (ring []).grants 28 ha 64 = true ∧ ((ring []).die 7).mirr.ring = [] ∧
    (ring [[1#8]]).grants 28 ha 64 = true ∧ ((ring [[1#8]]).die 7).mirr.ring = [1#8] :: [] ∧ s.rfF F.MIRR.CFG_DEST 7 0 ≠ 1 ∧
    ((((s.die 7).mirr.ring.map List.length).foldl (· + ·) 0) + 64 ≤ 1048576) ∧
    (judge 64 none 65535).1 = .accept ∧ (judge 64 (some (65535, 1)) 0).1 = .accept ∧ (judge 64 (some (0, 5)) 65535).1 = .accept ∧
    prp.has 0 B.PRP 0 = true ∧ prp.prpEntry 0 0 5 = some x ∧
    prp.tick 0 < x.last + 625000 * max 1 (prp.rf F.PRP.FORGET_FORGET 0 0) ∧
    x.last + 625000 * max 1 ((late prp).rf F.PRP.FORGET_FORGET 0 0) ≤ (late prp).tick 0 ∧
    Store.get 0 (prp.die 0).prpLan (2 * 0 + ofBool true) ≠ 0 ∧
    Store.get 0 ((late prp).die 0).prpLan 1 - 1 + 625000 * max 1 ((late prp).rf F.PRP.FORGET_FORGET 0 0) ≤ (late prp).tick 0 ∧
    (s.hasDie 0 = true ∧ s.hasDie 1 = true ∧ 0 ≠ 1) ∧ run.flag F.MESH.STATUS_TX_UP 0 1 = false ∧
    (linked 0 1 run).flag F.MESH.STATUS_TX_UP 0 1 = true ∧ run.inRun 0 B.MESH 1 = true ∧ run.inRun 1 B.MESH 0 = true ∧
    Store.get 0 run.saddles 1 = 0 ∧ repair.rfF F.MESH.CFG_REPAIR_EN 0 1 = 1 ∧ repair.rfF F.MESH.CFG_REPAIR_EN 1 0 = 1 ∧
    ((List.range 32).filter fun j => (0x80000001#32).getLsbD j).length ≤ 2 ∧
    ¬ ((List.range 32).filter fun j => (0x80000003#32).getLsbD j).length ≤ 2 ∧
    ((List.range 32).filter fun j => (0#32).getLsbD j).length = 0 ∧
    (linked 0 1 run).linkUp 0 1 = true := by decide +kernel

theorem witness_MirrorRing_full :
    let s := State.reset.setDie 7 { mirr := { ring := List.replicate 1025 (List.replicate 1024 0#8) } }
    s.rfF F.MIRR.CFG_WRAP 7 0 ≠ 1 ∧ 1048576 < (((s.die 7).mirr.ring.map List.length).foldl (· + ·) 0) + 64 := by decide +kernel
/-! ## Witnesses: the tables -/

/-- L2T, LPM and MCG in RUN on every die, and every die linked to D0. -/
def tables : State :=
  (List.range 8).foldl (fun s d => linked 0 d (state B.L2T d 0 1 (state B.LPM d 0 1 (state B.MCG d 0 1 s)))) State.reset

theorem witness_L2Table_orderPoint :
    let s := state B.L2T 0 0 1 State.reset
    let ua := mkFa 0 B.L2T 0 0x68
    let ra := mkFa 0 B.L2T 0 0x78
    let h : L2Held := ⟨7, none, .learn 5 3⟩
    let busy := s.setFlag F.L2T.REHASH_CMD_BUSY 0 0
    let word (w : Nat) : State := s.wf F.L2T.UPD_WORD_VALUE 0 0 w
    let job (j : RehashJob) : State := { s with l2Order := { rehash := some j } }
    s.hasDie 7 = true ∧ s.resets.asserted = false ∧ (sent 7 0 (.l2Req h) s).msgs = [] ++ ⟨7, 0, .l2Req h⟩ :: [] ∧
    tables.linkUp 0 7 = true ∧ tables.l2MayNumber h = true ∧ tables.l2Order.held = [] ∧
    s.tick 0 < s.l2Order.ageFrom + 625000000 * s.rf F.L2T.AGE_PERIOD 0 0 ∧ s.rf F.L2T.AGE_PERIOD 0 0 ≠ 0 ∧
    (s.wf F.L2T.AGE_PERIOD 0 0 0).rf F.L2T.AGE_PERIOD 0 0 = 0 ∧
    s.l2Order.ageFrom + 625000000 * s.rf F.L2T.AGE_PERIOD 0 0 ≤ (s.setRidge 0 { tick := 625000000 * 150 }).tick 0 ∧
    (∀ op ∈ [1, 2], s.grantsWrite 0 ua 32 (op * 2 ^ 29) = true) ∧ (s.setFlag F.L2T.UPD_CMD_BUSY 0 0).flag F.L2T.UPD_CMD_BUSY 0 0 = true ∧
    s.flag F.L2T.UPD_CMD_BUSY 0 0 = false ∧
    (l2Static ((word (2 ^ 58)).rf F.L2T.UPD_WORD_VALUE 0 0) = false ∧ l2Kind ((word (2 ^ 58)).rf F.L2T.UPD_WORD_VALUE 0 0) ≠ 0) ∧
    (word (192 * 2 ^ 44)).l2DestOk ((word (192 * 2 ^ 44)).rf F.L2T.UPD_WORD_VALUE 0 0) = false ∧
    s.l2DestOk (s.rf F.L2T.UPD_WORD_VALUE 0 0) = true ∧ s.rf F.L2T.UPD_KEY_VALUE 0 0 / 2 ^ 60 % 16 = 0 ∧
    State.reset.inRun 0 B.L2T 0 = false ∧ busy.flag F.L2T.REHASH_CMD_BUSY 0 0 = true ∧ s.grantsWrite 0 ra 32 (2 ^ 30) = true ∧
    s.flag F.L2T.REHASH_CMD_BUSY 0 0 = false ∧ s.inRun 0 B.L2T 0 = true ∧ s.inRun 1 B.L2T 0 = false ∧
    (∀ k ∈ List.range (Config.nDies tables.part), tables.inRun k B.L2T 0 = true ∧ tables.linkUp 0 k = true) ∧
    tables.grantsWrite 0 ra 32 (2 ^ 30) = true ∧ tables.flag F.L2T.REHASH_CMD_BUSY 0 0 = false ∧ s.l2AllRoom = true ∧
    (job ⟨[], false⟩).l2Order.rehash = some ⟨[], false⟩ ∧ (job ⟨[], true⟩).l2Order.rehash = some ⟨[], true⟩ ∧
    (job ⟨[], true⟩).inRun 0 B.L2T 0 = true := by decide +kernel

theorem witness_L2Table_replica :
    let s := tables
    let c : L2Change := .learn 5 3
    let has (c : L2Change) : State := s.setL2 7 { queue := [(1, c)] }
    let at_ := (l2Bucket 0 (s.l2Seeds 7).1 5).headD 0
    let holds (w : Nat) : State := s.setL2 7 { bank0 := [(at_, 5, w)] }
    let idle := state B.L2T 7 0 0 s
    let sync := s.setFlag F.L2T.STATUS_RESYNC 7 0
    s.hasDie 7 = true ∧ s.resets.asserted = false ∧ (sent 0 7 (.l2Change 1 c) s).msgs = [] ++ ⟨0, 7, .l2Change 1 c⟩ :: [] ∧
    s.inRun 7 B.L2T 0 = true ∧ s.flag F.L2T.STATUS_RESYNC 7 0 = false ∧ seqAfter 1 (s.rf F.L2T.APPLIED_SEQ 7 0) = true ∧
    idle.inRun 7 B.L2T 0 = false ∧
    (∀ c ∈ [.learn 5 3, .age, .flush 3 true, .updWrite 5 1, .updDelete 5, .rehash 1 2], (has c).l2Head 7 = some (1, c)) ∧
    ((has (.rehash 1 2)).l2t 7).draining = none ∧
    (∀ w ∈ [l2Word true false false 0 3 1, l2Word false true false 0 3 1, l2Word false false false 0 9 1],
      ((holds w).l2Bank 7).find ((holds w).l2Seeds 7) 5 = some at_ ∧ ((holds w).l2Bank 7).at_ at_ = (5, w) ∧ w ≠ 0) ∧
    l2Static (l2Word true false false 0 3 1) = true ∧ l2Dest (l2Word false true false 0 3 1) = 3 ∧
    l2Hit (l2Word false true false 0 3 1) = true ∧ l2Static (l2Word false false false 0 9 1) = false ∧
    l2Kind (l2Word false false false 0 9 1) = 0 ∧ l2Dest (l2Word false false false 0 9 1) ≠ 3 ∧
    ((s.setL2 7 { scan := some (1, .age, 262144) }).l2t 7).scan = some (1, .age, 262144) ∧ (has .age).active 7 B.L2T 0 = true ∧
    ((has .age).l2t 7).scan = none ∧ idle.active 7 B.L2T 0 = false ∧
    sync.flag F.L2T.STATUS_RESYNC 7 0 = true ∧ sync.inRun 7 B.L2T 0 = true ∧ sync.inRun 0 B.L2T 0 = true ∧ sync.linkUp 0 7 = true ∧
    (sync.l2t 7).copying = none ∧ ((sync.setL2 7 { copying := some 0 }).l2t 7).copying = some 0 ∧
    (let z (lost : Bool) : L2State := ((sync.setL2 7 { copying := some 0, overrun := lost, snap := some sync.l2Snap }).l2t 7);
      (z false).copying = some 0 ∧ (z false).snap = some sync.l2Snap ∧ (z true).overrun = true ∧ (z false).overrun = false ∧
      (z false).copied = false ∧ (z false).queue = []) ∧ ((sync.setL2 7 { copying := some 0 }).l2t 7).snap = none := by
  decide +kernel
theorem witness_LpmMcgTables_commands :
    let b : TblBank := { groups := [(0, 2, 0)] }
    let has (op : Nat) : State := ((tables.setTbl 0 B.MCG { bank0 := b, bank1 := b, blk := [(0, BitVec.ofNat 8 op)] }).setFlag
      (fCmdBusy B.MCG) 0 0).setTblOrder B.MCG { queue := [0] }
    let s := State.reset
    isTbl B.MCG = true ∧ isTbl B.LPM = true ∧ s.has 0 B.MCG 0 = true ∧ s.has 7 B.LPM 0 = true ∧ s.has 0 B.L2T 0 = true ∧ s.resets.asserted = false ∧
    s.grantsWrite 0 (mkFa 0 B.MCG 0 0) 32 (2 ^ 30) = true ∧ (has 1).flag (fCmdBusy B.MCG) 0 0 = true ∧ s.flag (fCmdBusy B.MCG) 0 0 = false ∧
    (((s.setTbl 0 B.MCG { blk := [(0, 0xFF#8)] }).tbl 0 B.MCG).cmd B.MCG).bad B.MCG = true := by decide +kernel

theorem witness_LpmMcgTables_turns :
    let b : TblBank := { groups := [(0, 2, 0)] }
    let has (op : Nat) : State :=
      ((tables.setTbl 0 B.MCG { bank0 := b, bank1 := b, issued := { op := op } }).setFlag (fCmdBusy B.MCG) 0 0).setTblOrder
        B.MCG { queue := [0] }
    let open_ (op : Nat) : State := (has op).wf (fTstate B.MCG) 0 0 1
    (∀ op ∈ [0x01, 0x02, 0x10], (has op).tblTurn 0 B.MCG op = true ∧
      (has op).tblStatus 0 B.MCG ((has op).tbl 0 B.MCG).issued = 0) ∧
    (∀ op ∈ [0x11, 0x12, 0x13, 0x14], (has op).tblTurn 0 B.MCG op = true ∧
      (has op).tblStatus 0 B.MCG ((has op).tbl 0 B.MCG).issued = 2 ∧
      (open_ op).tblStatus 0 B.MCG ((open_ op).tbl 0 B.MCG).issued = 0 ∧ (open_ op).tblTurn 0 B.MCG op = true) ∧
    tables.tblTurn 0 B.MCG 1 = false ∧ ((has 3).tbl 0 B.MCG).issued.op = 3 ∧ (has 3).flag (fCmdBusy B.MCG) 0 0 = true := by
  decide +kernel

theorem witness_LpmMcgTables_replicas :
    let c : TblOp := ⟨1, 0, 0, 0, 0, 0, 0, 2, 0, 0, 0⟩
    let s := tables
    let x (t : TblState) : State := s.setTbl 7 B.LPM t
    let idle := state B.LPM 7 0 0 s
    let job (m : List Nat) (op : Nat) (st : TblStep) : State :=
      s.setTblOrder B.LPM { job := some ⟨0, 1, { c with op := op }, 1, st, m, false⟩ }
    let late := s.setRidge 7 { tick := 2 ^ 20 }
    let head (at_ : Nat) : State := s.setL2 7 { queue := [(1, .switch at_)] }
    let synced := s.wf (fTstate B.LPM) 0 0 2
    s.has 7 B.LPM 0 = true ∧ s.has 7 B.L2T 0 = true ∧ s.resets.asserted = false ∧
    (sent 0 7 (.tblStep B.LPM 1 c .shadow) s).msgs = [] ++ ⟨0, 7, .tblStep B.LPM 1 c .shadow⟩ :: [] ∧ s.run 7 B.LPM 0 = 1 ∧
    (s.tbl 7 B.LPM).draining = none ∧ ((x { draining := some 0 }).tbl 7 B.LPM).draining.isSome = true ∧ idle.run 7 B.LPM 0 = 0 ∧
    s.rf (fEpoch B.LPM) 7 0 ≤ 1 ∧ (job [7] 1 .shadow).tblAcked B.LPM 1 7 = false ∧ (job [7] 1 .shadow).tblLost B.LPM 7 = false ∧
    (sent 7 0 (.tblAck B.LPM 1 7) (job [7] 1 .shadow)).tblAcked B.LPM 1 7 = true ∧
    (sent 7 0 (.tblAck B.LPM 1 7) (job [7] 0x11 .shadow)).tblAcked B.LPM 1 7 = true ∧
    s.pkgTick 7 < 256 ∧ 256 ≤ late.pkgTick 7 ∧ late.run 7 B.LPM 0 = 1 ∧ (head 256).l2Head 7 = some (1, .switch 256) ∧
    (head 0).l2Head 7 = some (1, .switch 0) ∧ 0 = (head 0).pkgTick 7 ∧ (head 256).pkgTick 7 < 256 ∧
    ((late.setL2 7 { draining := some 0 }).l2t 7).draining = some 0 ∧ s.tick 7 < 0 + 40 ∧ 0 + 40 ≤ late.tick 7 ∧
    ((x { draining := some 0 }).tbl 7 B.LPM).again = none ∧ ((x { draining := some 0, again := some (1, c) }).tbl 7 B.LPM).again = some (1, c) ∧
    (synced.tblOrder B.LPM).job = none ∧ synced.msgs = [] ∧ (∀ k ∈ List.range 8, (synced.tbl k B.LPM).draining = none) ∧
    synced.rf (fTstate B.LPM) 0 0 = 2 ∧ (s.wf (fTstate B.LPM) 7 0 2).rf (fTstate B.LPM) 7 0 = 2 ∧
    ((x { missed := true }).tbl 7 B.LPM).missed = true ∧ (x { missed := true }).inRun 7 B.LPM 0 = true ∧
    (x { missed := true }).inRun 0 B.LPM 0 = true ∧ (x { missed := true }).linkUp 0 7 = true ∧
    ((x { copying := true }).tbl 7 B.LPM).copying = true ∧ ((x { copying := true }).tblOrder B.LPM).job = none := by decide +kernel

/-! ## Witnesses: calibration and NVS -/

theorem witness_CalibrationAndStore :
    let s := state B.TEMP 7 0 1 (state B.NVS 7 0 1 (state B.CAL 7 0 1 State.reset))
    let ga := mkFa 7 B.CAL 0 4
    let busy := (s.setFlag F.CAL.RUN_BUSY 7 0).wfF F.CAL.CFG_SCOPE 7 0 2
    let later (u : State) : State := u.setRidge 7 { tick := 62500000 }
    let cal (c : CalState) (u : State) : State := u.setCal 7 c
    let storing := s.setFlag F.CAL.STATUS_STORING 7 0
    let p (t : Int) : CalPoint := ⟨t, []⟩
    let q : NvsWrite := ⟨0, 64, 5, some 28⟩
    let nvs (n : NvsState) (u : State) : State := u.setNvs 7 n
    let na (off : Nat) : Nat := mkFa 7 B.NVS 0 off
    s.hasDie 7 = true ∧ s.resets.asserted = false ∧ s.inRun 7 B.TEMP 0 = true ∧ s.grantsWrite 28 ga 32 0x40000000 = true ∧
    busy.flag F.CAL.RUN_BUSY 7 0 = true ∧ s.flag F.CAL.RUN_BUSY 7 0 = false ∧ State.reset.inRun 7 B.CAL 0 = false ∧ s.inRun 7 B.CAL 0 = true ∧
    (later busy).has 7 B.LANE 23 = true ∧ (busy.rfF F.CAL.CFG_SCOPE 7 0).testBit 1 = true ∧
    ((later busy).cal 7).goTick + 62500000 ≤ (later busy).tick 7 ∧ (busy.cal 7).skipped.contains 23 = false ∧
    ¬ (busy.cal 7).piFrom.getD 23 0 + 4194304 ≤ (busy.lane (24 * 7 + 23)).quals ∧
    (let done := (cal { skipped := (List.range 24).tail } busy).setLane (24 * 7) { quals := 4194304 }
     ((done.cal 7).piFrom.getD 0 0 + 4194304 ≤ (done.lane (24 * 7 + 0)).quals ∧
      ∀ j, j < 24 → (done.cal 7).skipped.contains j = false → j = 0)) ∧
    (busy.rfF F.CAL.CFG_SCOPE 7 0).testBit 0 = false ∧ (s.cal 7).tempAt = none ∧ (s.cal 7).interpAt = none ∧
    (let h := (busy.wfF F.CAL.CFG_SCOPE 7 0 1).wfF F.CAL.CFG_HITS 7 0 2
     (h.rfF F.CAL.CFG_SCOPE 7 0).testBit 0 = true ∧
     h.tick 7 < (h.cal 7).goTick + 2 ^ (h.rfF F.CAL.CFG_HITS 7 0 + 16 + h.rfF F.CAL.CFG_RATE_DIV 7 0) ∧
     (h.cal 7).goTick + 2 ^ (h.rfF F.CAL.CFG_HITS 7 0 + 16 + h.rfF F.CAL.CFG_RATE_DIV 7 0) ≤ (later h).tick 7) ∧
    16 < (busy.rfS (F.TEMP.T_TEMP 0) 7 0 - ((cal { goTemp := 10000 } busy).cal 7).goTemp).natAbs ∧
    (busy.rfS (F.TEMP.T_TEMP 0) 7 0 - ((cal { goTemp := busy.rfS (F.TEMP.T_TEMP 0) 7 0 - 16 } busy).cal 7).goTemp).natAbs ≤ 16 ∧
    State.reset.inRun 7 B.NVS 0 = false ∧ s.inRun 7 B.NVS 0 = true ∧ storing.flag F.CAL.STATUS_STORING 7 0 = true ∧
    (storing.cal 7).store = [] ∧ s.active 7 B.CAL 0 = true ∧
    bracket (s.rfS (F.TEMP.T_TEMP 0) 7 0) ((cal { points := [p (-20000)] } s).cal 7).points = some (p (-20000), p (-20000)) ∧
    bracket (s.rfS (F.TEMP.T_TEMP 0) 7 0) ((cal { points := [p (-33000), p 33000] } s).cal 7).points = some (p (-33000), p 33000) ∧
    s.passes 28 (na 0) 64 = true ∧ s.grants 28 (na 0) 64 = true ∧ s.passes 28 (na 0xE080) 64 = true ∧
    State.reset.passes 28 (na 0xE080) 64 = true ∧ s.has 7 B.NVS 0 = true ∧ s.nvsEarly 28 7 0 64 5 = false ∧
    State.reset.nvsEarly 28 7 0xE080 64 0 = false ∧ State.reset.passes 0 (mkFa 0 B.NVS 0 0x10800) 64 = true ∧
    State.reset.passes 0 (mkFa 0 B.NVS 0 0x10FF8) 64 = true ∧ (s.nvsOf 7).ecc = [] ∧
    s.calWord 7 = false ∧ ((nvs { queue := [q] } s).nvsOf 7).queue = q :: [] ∧
    (let w := nvs { word := some true } (cal { store := [(1, 2)] } s)
     w.calWord 7 = true ∧ (w.cal 7).store = (1, 2) :: [] ∧ (w.cal 7).cut = false) := by
  decide +kernel

/-- The ends of the two stores, and a sensor that makes its die ask for a run. -/
theorem witness_CalibrationAndStore_ends :
    let s := state B.TEMP 7 0 1 (state B.NVS 7 0 1 (state B.CAL 7 0 1 State.reset))
    let q : NvsWrite := ⟨0, 64, 5, some 28⟩
    let nvs (n : NvsState) (u : State) : State := u.setNvs 7 n
    let na (off : Nat) : Nat := mkFa 7 B.NVS 0 off
    ((nvs { queue := [q], word := some false } s).nvsOf 7).word.isSome = true ∧ s.passes 28 (na 0x10000) 64 = true ∧
    s.nvsEarly 28 7 0x10000 64 0 = false ∧ s.grants 28 (na 0x7FFF8) 64 = true ∧ s.passes 28 (na 0xFFF8) 64 = true ∧
    s.nvsEarly 28 7 0xFFF8 64 0 = false ∧ State.reset.grants 0 (mkFa 0 B.NVS 0 0x3FFF8) 64 = true ∧
    (s.wf (F.TEMP.T_TEMP 0) 7 0 400).rfS (F.TEMP.T_TEMP 0) 7 0 = 400 ∧ s.rf F.TEMP.T_LAST_TEMP 7 0 = 0x8000 ∧
    s.flag F.TEMP.STATUS_DT_EXCEEDED 7 0 = false ∧ ({ s with rom := { progs := [29] } } : State).rom.progs.contains (4 * 7 + 1) = true := by
  decide +kernel

/-! ## Witnesses: the ROM-resident programs -/

/-- The programs of die 0 hold their engines, all in RUN. -/
def resident (r : RomState) : State :=
  [0, 1, 2, 3].foldl (fun s e => state B.ENG 0 e 1 s) { State.reset with rom := { r with progs := [0, 1, 2, 3] } }

theorem witness_RomHandlers :
    let s := resident {}
    let link (k : Nat) (s : State) : State := s.wf F.LINK.STATUS_LSTATE 0 0 k
    let mean := (link 2 s).setLink 0 { win := 3, means := [⟨0xFFFFFFFF, 0, 5⟩] }
    let wrong : RxFrame := ⟨0, 0, false, false, bytesBE 6 0x0180C200000E ++ bytesBE 6 0 ++ bytesBE 2 0x88B5 ++ [1#8, 2#8]⟩
    let warm : State := { s with rom := { s.rom with cals := [(0, ⟨true, none⟩)] } }
    let called (w : HookWait) (e : Nat) : State := (resident { calls := [(e, some ⟨8, w⟩)] }).setEng e { pc := 8 }
    let hook := warm.setEng 1 ((warm.eng 1).dmemWrite (0xFF00 + 8 * 2) [1#8])
    let able := s.setFlag F.SUMMIT.STATUS_ELIGIBLE 0 0
    let held := s.wf F.SUMMIT.STATUS_ROLE 0 0 2
    let old := (state B.RIDGE 0 0 1 held).setRidge 0 { held.ridge 0 with tick := 10 ^ 12 }
    let half (u : State) : Nat := msUnits (u.rfF F.SUMMIT.CFG_TERM 0 0) / 2
    s.pending = [] ∧ s.resets.asserted = false ∧ State.reset.rom.progs = [] ∧ (link 0 s).lstate 0 = 0 ∧ 4 ≤ (link 4 s).lstate 0 ∧
    (s.wfF F.LINK.CFG_TS_ONLY 0 0 1).rfF F.LINK.CFG_TS_ONLY 0 0 = 1 ∧ mean.sentMean 0 = some (5, 0xFFFFFFFF) ∧ (s.sentMean 0).isNone = true ∧
    (s.exch 0).asked ≠ some (s.linkWin 0) ∧ s.portFree 0 = true ∧ s.portFree 23 = true ∧ (called (.asym 0) 0).portFree 0 = false ∧
    (∀ w ∈ [HookWait.run, .asym 0, .lease true], (called w 1).hookOf 1 = some ⟨8, w⟩ ∧ (called w 1).romRuns 1 = true ∧
      ((called w 1).eng 1).pc = 8 ∧ ((called w 1).eng 1).hold = .none ∧ (called w 1).hookBack 1 = some w) ∧
    ((s.setExch 0 { asked := some (s.linkWin 0) }).exch 0).asked = some ((s.setExch 0 { asked := some (s.linkWin 0) }).linkWin 0) ∧
    dstMac wrong.bytes = 0x0180C200000E ∧ etherType wrong.bytes = 0x88B5 ∧ be wrong.bytes (typeOff wrong.bytes + 3) 1 ≠ 1 ∧
    (∀ u ∈ [warm, hook], u.romFree (4 * 0 + 1) = true ∧ (Store.get {} u.rom.cals 0).asked = true ∧ u.flag F.CAL.RUN_BUSY 0 0 = false) ∧
    (warm.eng 1).dmemRead (0xFF00 + 8 * 2) 8 = 0 ∧ (hook.eng 1).dmemRead (0xFF00 + 8 * 2) 8 ≠ 0 ∧
    (called (.lease false) 3).hookBack 3 = some (.lease false) ∧ (((called .run 1).eng 1).rv 1).toNat = 0 ∧
    (∀ v ∈ [1, 2], (({ pc := 8, v := [(1, BitVec.ofNat 64 v)] } : Engine).rv 1).toNat = v) ∧
    able.romFree 3 = true ∧ (able.eng 3).dmemRead (0xFF00 + 8 * 4) 8 = 0 ∧ able.flag F.SUMMIT.STATUS_ELIGIBLE 0 0 = true ∧
    able.rom.lease.seen = false ∧ s.flag F.SUMMIT.STATUS_ELIGIBLE 0 0 = false ∧ old.isSummit = true ∧ old.romFree 3 = true ∧
    old.sTime F.SUMMIT.RENEWED_TIME + half old ≤ old.sNow ∧ old.rom.lease.after ≤ old.sNow ∧ s.isSummit = false := by decide +kernel

theorem witness_RomServo :
    let s := resident {}
    let servo (v : ServoState) (s : State) : State := s.setServo v
    let a : Candidate := ⟨2, 3, 1, 50, false⟩
    let b : Candidate := ⟨258, 3, 1, 500, false⟩
    let limit := s.wfF F.RIDGE.JUMP_LIMIT_LIMIT 0 0 2000
    let room (u : State) : Int := max 0 (Int.ofNat (u.rfF F.RIDGE.JUMP_LIMIT_LIMIT 0 0 * 65536) -
      Int.ofNat ((u.ridge 0).stepSum (u.applyTick 0)))
    let at_ (v : ServoState) (theta : Int) : Bool := (v.fresh || v.state == 4) && decide (2000 * 65536 < theta.natAbs)
    let store := state B.NVS 0 0 1 s
    let summit := s.wf F.SUMMIT.STATUS_ROLE 0 0 2
    let fixed := ((state B.GNSS 0 0 1 summit).wf F.GNSS.STATUS_GSTATE 0 0 1).setEng 2 ((s.eng 2).dmemWrite (0xFF00 + 8 * 3) [0#8, 1#8])
    let rank := (resident { calls := [(2, some ⟨8, .rank [a, b] [0] true false⟩)] }).setEng 2 { pc := 8 }
    let queued := s.setNvs 0 { queue := [⟨0x10000, 64, 0, some 2⟩] }
    s.leader = 0 ∧ ownChoice 100 none [b, a] = some a ∧ ownChoice 100 (some b) [b, a] = some a ∧ ownChoice 1000 (some b) [b, a] = some b ∧
    ownChoice 100 none [{ a with loop := true }] = none ∧ b.source ≠ s.rom.servo.source ∧ b.source ≠ 1 ∧ s.flag F.PLL.SEL_BUSY 0 0 = false ∧
    s.candidates = [] ∧ s.hookAt 2 3 = none ∧ s.isSummit = false ∧ s.rom.servo.state = 0 ∧ (servo { state := 2 } s).isSummit = false ∧
    (servo { state := 2 } s).rom.servo.state ≠ 0 ∧ summit.isSummit = true ∧ summit.rom.servo.source % 256 ≠ 2 ∧
    (servo { source := 258 } summit).isSummit = true ∧ (servo { source := 258 } summit).rom.servo.source % 256 = 2 ∧
    (servo { source := 258 } summit).flag F.PLL.SEL_BUSY 0 0 = false ∧ fixed.candidates ≠ [] ∧ fixed.hookAt 2 3 = some 0x100 ∧
    rank.hookBack 2 = some (.rank [a, b] [0] true false) ∧ [a, b][1]? = some b ∧ b.loop = false ∧ [a, b].length ≤ 2 ∧
    limit.rfF F.RIDGE.JUMP_LIMIT_LIMIT 0 0 = 2000 ∧
    (((2000 * 65536 * 2 : Int) * Int.ofNat limit.rom.servo.par.gain / 16).natAbs : Int) ≤ room limit ∧
    room limit < (((2000 * 65536 * 2 + 2 : Int) * Int.ofNat limit.rom.servo.par.gain / 16).natAbs : Int) ∧
    limit.rom.servo.restart = .none ∧ limit.rom.servo.source ≠ 1 ∧ (limit.ridge 0).rate = 0x1999999999A ∧
    at_ {} (2000 * 65536 + 1) = false ∧ at_ { fresh := true } (2000 * 65536 + 1) = true ∧ at_ { state := 4 } (-2000 * 65536 - 1) = true ∧
    (servo { fresh := true } limit).rom.servo.par.restart ≠ 1 ∧ (servo { par := { restart := 1 } } limit).rom.servo.par.restart = 1 ∧
    limit.linkUp 0 0 = true ∧ limit.owner 0 B.RIDGE 0 = limit.engPart 2 ∧
    store.inRun 0 B.NVS 0 = true ∧ (∀ w, w < 8 → store.accessCause 2 (mkFa 0 B.NVS 0 (0x10000 + 64 * (0 % 32) + 8 * w)) 64 false = 0) ∧
    (∀ u ∈ [s, State.reset], (u.nvsOf 0).ecc = [] ∧ ∀ k, k < 256 → u.accessCause 2 (mkFa 0 B.NVS 0 (0x10000 + 8 * k)) 64 false = 0) ∧
    queued.servoFenced = true := by decide +kernel

/-- Slot 0 of the checkpoints is valid, with count 0: 60 zero bytes and their CRC. -/
theorem witness_RomServo_slot :
    let s := State.reset.setNvs 0 { mem := [(65596, 0x08#8), (65597, 0x89#8), (65598, 0x12#8), (65599, 0x04#8)] }
    s.newestSlot.2 = some (0, 0) ∧ s.rf F.PLL.STATUS_SRC s.leader 0 = 0 ∧ (s.nvsOf 0).ecc = [] := by decide +kernel

/-! ## Witnesses: the machine as a whole -/

theorem witness_IdleTick :
    let low : State := { State.reset with resets := { State.reset.resets with asserted := true } }
    State.reset.pending = [] ∧ State.reset.resets.asserted = false ∧ State.reset.rom.progs = [] ∧ low.pending = [] ∧ low.resets.asserted = true := by decide +kernel

theorem witness_FusesNeverUndone :
    let s : State := { State.reset with pending := [.nop 0], otp := { lifecycle := 2, rollback := 256 } }
    FuseInv { lifecycle := 1, rollback := 3 } s ∧ ∃ t, step s = .next t := by
  have h : ∀ s : State, s.otp = { lifecycle := 2, rollback := 256 } → s.sec.key = none → s.sec.rollTo = none →
      FuseInv { lifecycle := 1, rollback := 3 } s := by
    intro s ho hk hr
    refine ⟨?_, by simp [ho], by simp [ho], by simp [hk], by simp [hk], by simp [hr]⟩
    rw [ho]
    exact ⟨by decide, by decide, by simp, fun i => by simp [Store.get, KeySlot.le]⟩
  exact ⟨h _ rfl (by decide +kernel) (by decide +kernel), next_of _ (by decide +kernel)⟩

theorem witness_CommandsKeepWhatTheyDoNotReach :
    Instr.gnssClkLost.reachesVault = false ∧ Instr.gnssClkLost.reachesPrograms = false ∧
      ∃ t, exec .gnssClkLost State.reset = .next t := ⟨by decide, by decide, next_of _ (by decide +kernel)⟩

theorem witness_InstructionsKeepToTheirEngine :
    decodeUmmus 0 0x08220005#32 = some (.addi 0 1 2 5) ∧ (∃ t, exec (.addi 0 1 2 5) (engine {}) = .next t) ∧ 1 ≠ 0 :=
  ⟨by decide, next_of _ (by decide +kernel), by decide⟩

theorem witness_WordsRoundTrip :
    decodeUmmus 31 0x08220005#32 = some (.addi 31 1 2 5) ∧ encodeUmmus (.addi 31 1 2 5) = some 0x08220005#32 := by decide

end Sys2Proof.Tests
end

section
/-!
Branches (R115, R116): the fields of a word put together from its parts, the branch that a word spells, and what a branch
leaves behind.
-/
namespace Sys2Proof.Machine

/-! ## An instruction that moves the PC alone -/

/-- An instruction that leaves its engine's contents alone and goes on at `N` of it, on a calm engine. -/
theorem issue_goesTo {s : State} {e : Nat} (h : s.calm e = true) {N : Engine → BitVec 16}
    (hN : ∀ g : Engine, N g.still = N g) :
    ∃ t, issue e s (fun s => .next (s.completeTo e (N (s.eng e)))) = .next t ∧
      MonitorOnly (s.retired e (s.eng e) (N (s.eng e))) t := by
  rw [issue_ready (State.calm_ready h)]
  have hu := s.tagIssue_monitor e (s.eng e).pc.toNat (s.eng e).word
  generalize s.tagIssue e (s.eng e).pc.toNat (s.eng e).word = u at hu ⊢
  have hheld : (u.eng e).held = [] := (hu.field e (fun g => g.held) fun _ => rfl).trans (State.calm_held h)
  have hpc : (u.eng e).pc = (s.eng e).pc := hu.field e (fun g => g.pc) fun _ => rfl
  refine ⟨_, rfl, MonitorOnly.trans ?_ (State.completeTo_calm hheld _)⟩
  rw [hu.field e N hN, hpc]
  exact hu.setEng e
    (congrArg (fun g : Engine => { g with lastDone := (s.eng e).pc, pc := N (s.eng e), hold := .none }) (hu.engs e))

/-- Where execution goes on after a branch (R115). -/
def branchTarget (cc : Cond) (imm : Imm16) (g : Engine) : BitVec 16 :=
  if g.flags.holds cc = true then relTarget g.pc imm else g.pc + 4

/-- A branch goes on at its target, whether or not it is taken. -/
theorem execB_eq (e : Nat) (cc : Cond) (imm : Imm16) (s : State) :
    execB e cc imm s = issue e s fun s => .next (s.completeTo e (branchTarget cc imm (s.eng e))) := by
  unfold execB
  congr 1
  funext u
  by_cases hc : (u.eng e).flags.holds cc = true
  · simp only [branchTarget, hc, if_true]
  · simp only [branchTarget, hc, State.complete]; rfl

theorem execB_goesTo {s : State} {e : Nat} (h : s.calm e = true) (cc : Cond) (imm : Imm16) :
    ∃ t, execB e cc imm s = .next t ∧
      MonitorOnly (s.retired e (s.eng e) (branchTarget cc imm (s.eng e))) t := by
  rw [execB_eq]
  exact issue_goesTo h fun _ => rfl

/-! ## The word of a branch -/

/-- The word whose fields are an opcode, rd, rs1 and imm16 (R94). -/
def wordOf (op : BitVec 6) (d a : Reg) (i : Imm16) : Word32 := op ++ d ++ a ++ i

theorem wordOf_toNat (op : BitVec 6) (d a : Reg) (i : Imm16) :
    (wordOf op d a i).toNat = op.toNat * 2 ^ 26 + d.toNat * 2 ^ 21 + a.toNat * 2 ^ 16 + i.toNat := by
  unfold wordOf
  rw [BitVec.toNat_append, BitVec.toNat_append, BitVec.toNat_append, ← Nat.shiftLeft_add_eq_or_of_lt d.isLt,
    ← Nat.shiftLeft_add_eq_or_of_lt a.isLt, ← Nat.shiftLeft_add_eq_or_of_lt i.isLt]
  simp only [Nat.shiftLeft_eq]
  omega

@[simp] theorem opcode_wordOf (op : BitVec 6) (d a : Reg) (i : Imm16) : Word32.opcode (wordOf op d a i) = op.toNat := by
  unfold Word32.opcode
  rw [wordOf_toNat]
  omega

@[simp] theorem rdF_wordOf (op : BitVec 6) (d a : Reg) (i : Imm16) : Word32.rdF (wordOf op d a i) = d := by
  refine BitVec.eq_of_toNat_eq ?_
  rw [Word32.rdF, BitVec.toNat_ofNat, wordOf_toNat]
  omega

@[simp] theorem rs1F_wordOf (op : BitVec 6) (d a : Reg) (i : Imm16) : Word32.rs1F (wordOf op d a i) = a := by
  refine BitVec.eq_of_toNat_eq ?_
  rw [Word32.rs1F, BitVec.toNat_ofNat, wordOf_toNat]
  omega

@[simp] theorem imm_wordOf (op : BitVec 6) (d a : Reg) (i : Imm16) : Word32.imm (wordOf op d a i) = i := by
  refine BitVec.eq_of_toNat_eq ?_
  rw [Word32.imm, BitVec.toNat_ofNat, wordOf_toNat]
  omega

/-- The decoder on the opcode of branches. -/
theorem decodeUmmus_of_branchOpcode (e : Nat) {w : Word32} (h : Word32.opcode w = 0x30) :
    decodeUmmus e w =
      onlyIf (Word32.rs1F w == 0) ((condOfCode (Word32.rdF w).toNat).map fun c => .b e c (Word32.imm w)) := by
  unfold decodeUmmus
  simp only [h]

/-- The conditions in the order of their codes (R116). -/
def condTable : List Cond :=
  [.al, .eq, .ne, .lt, .ge, .gt, .le, .lo, .hs, .hi, .ls, .mi, .pl, .vs, .vc, .tmo, .nto, .pv, .npv]

theorem condOfCode_eq_condTable (code : Reg) : condOfCode code.toNat = condTable[code.toNat]? := by
  revert code
  decide

/-- A branch word is the branch on the condition its code names, and no instruction where it names none (R116). -/
theorem decodeUmmus_branchWord (e : Nat) (code : Reg) (imm : Imm16) :
    decodeUmmus e (wordOf 0x30 code 0 imm) = condTable[code.toNat]?.map fun c => Instr.b e c imm := by
  rw [decodeUmmus_of_branchOpcode e (opcode_wordOf _ _ _ _), rs1F_wordOf, rdF_wordOf, imm_wordOf,
    condOfCode_eq_condTable]
  rfl

/-- Settles O4: a branch moves the PC alone, to its target by the condition's flags; its word decodes by the table of
codes. -/
theorem controlInstructions : Obligations.ControlInstructions := by
  unfold Obligations.ControlInstructions
  intro s e cc imm hcalm
  refine ⟨?_, fun code => decodeUmmus_branchWord e code imm⟩
  have h := execB_goesTo hcalm cc imm
  cases cc <;> exact h

end Sys2Proof.Machine
end

section
/-!
Time instructions (R106 to R108): what each makes of its engine, and the cases of the saturating arithmetic on counts of
2^-32 ns units.
-/
namespace Sys2Proof.Machine

/-! ## Shapes of completion -/

/-- The outcome is the completion of engine `e`'s instruction, which makes `g` of the engine; execution goes on with the
next word. -/
def State.completesWith (s : State) (e : Nat) (g : Engine) (o : Out) : Prop :=
  ∃ t, o = .next t ∧ MonitorOnly (s.retired e g ((s.eng e).pc + 4)) t

/-- A time register and flags written. -/
theorem still_wt (td : TReg) (x : Engine → XT) (f : Engine → Flags) (hx : ∀ g : Engine, x g.still = x g)
    (hf : ∀ g : Engine, f g.still = f g) : Still fun g => { g.wt td (x g) with flags := f g } where
  still g g' h := by
    show { g.still.wt td (x g) with flags := f g } = { g'.still.wt td (x g') with flags := f g' }
    rw [h, Engine.still_ext h x hx, Engine.still_ext h f hf]
  held _ := rfl
  pc _ := rfl

/-- Flags written alone. -/
theorem still_flags (f : Engine → Flags) (hf : ∀ g : Engine, f g.still = f g) : Still fun g => { g with flags := f g } where
  still g g' h := by
    show { g.still with flags := f g } = { g'.still with flags := f g' }
    rw [h, Engine.still_ext h f hf]
  held _ := rfl
  pc _ := rfl

/-- Monitoring leaves the tick counts alone. -/
theorem MonitorOnly.tick {s t : State} (h : MonitorOnly s t) (d : Nat) : t.tick d = s.tick d := by
  rw [h.rest]
  rfl

section
variable {s : State} {e : Nat} (h : s.calm e = true)
include h

theorem issue_completesWith {F : Engine → Engine} (hF : Still F) :
    s.completesWith e (F (s.eng e)) (issue e s fun s => .next (s.doneWith e (F (s.eng e)))) := by
  unfold State.completesWith
  exact issue_done h hF

theorem timeOp_completes (td : TReg) (val : Engine → XT × Bool) (hval : ∀ g : Engine, val g.still = val g) :
    s.completesWith e { (s.eng e).wt td (val (s.eng e)).1 with flags := (s.eng e).flags.setV (val (s.eng e)).2 }
      (timeOp e td val s) := by
  unfold timeOp
  have hdone := issue_completesWith h (still_wt td (fun g => (val g).1) (fun g => g.flags.setV (val g).2)
    (fun g => by rw [hval]) (fun g => by rw [hval]; rfl))
  exact hdone

/-! ## The instructions -/

theorem execTnow_completes (td : TReg) :
    s.completesWith e { (s.eng e).wt td (xtOfUnits (s.now (e / 4))) with flags := (s.eng e).flags.setV (!s.tg (e / 4)) }
      (execTnow e td s) := by
  unfold execTnow
  exact timeOp_completes h td _ fun _ => rfl

/-- TNOW.TK reads the tick count after the instruction's tagging, which leaves it alone. -/
theorem execTnowTk_completes (rd : Reg) :
    s.completesWith e ((s.eng e).wv rd (BitVec.ofNat 64 (s.tick (e / 4)))) (execTnowTk e rd s) := by
  have hdone := issue_done h (still_wv rd (fun _ => BitVec.ofNat 64 (s.tick (e / 4))) fun _ => rfl)
  unfold execTnowTk State.completesWith
  rw [issue_ready (State.calm_ready h)] at hdone ⊢
  rw [(s.tagIssue_monitor e _ _).tick]
  exact hdone

theorem execTadd_completes (td ts1 : TReg) (rs2 : Reg) :
    let r := satUnits ((XT.units ((s.eng e).rt ts1) : Int) + ((s.eng e).rv rs2).toInt * 2 ^ 16)
    s.completesWith e { (s.eng e).wt td r.1 with flags := (s.eng e).flags.setV r.2 } (execTadd e td ts1 rs2 s) := by
  unfold execTadd
  exact timeOp_completes h td _ fun _ => rfl

theorem execTsub_completes (rd : Reg) (ts1 ts2 : TReg) :
    let q := tsubVal ((s.eng e).rt ts1) ((s.eng e).rt ts2)
    s.completesWith e { (s.eng e).wv rd (BitVec.ofInt 64 q.1) with
      flags := (s.eng e).flags.ofTsub (BitVec.ofInt 64 q.1) q.2 } (execTsub e rd ts1 ts2 s) := by
  unfold execTsub
  have hdone := issue_completesWith h (still_alu rd (fun g => BitVec.ofInt 64 (tsubVal (g.rt ts1) (g.rt ts2)).1)
    (fun g => g.flags.ofTsub (BitVec.ofInt 64 (tsubVal (g.rt ts1) (g.rt ts2)).1) (tsubVal (g.rt ts1) (g.rt ts2)).2)
    (fun _ => rfl) fun _ => rfl)
  exact hdone

theorem execTcmp_completes (ts1 ts2 : TReg) :
    s.completesWith e { s.eng e with
      flags := (s.eng e).flags.ofTcmp (XT.units ((s.eng e).rt ts1)) (XT.units ((s.eng e).rt ts2)) } (execTcmp e ts1 ts2 s) := by
  unfold execTcmp
  have hdone := issue_completesWith h
    (still_flags (fun g => g.flags.ofTcmp (XT.units (g.rt ts1)) (XT.units (g.rt ts2))) fun _ => rfl)
  exact hdone

theorem execTcvtPack_completes (td : TReg) (rs1 rs2 : Reg) :
    let r := packVal ((s.eng e).rv rs1) ((s.eng e).rv rs2)
    s.completesWith e { (s.eng e).wt td r.1 with flags := (s.eng e).flags.setV r.2 } (execTcvtPack e td rs1 rs2 s) := by
  unfold execTcvtPack
  exact timeOp_completes h td _ fun _ => rfl

theorem execTcvtSec_completes (rd : Reg) (ts1 : TReg) :
    s.completesWith e ((s.eng e).wv rd (BitVec.ofNat 64 (XT.secs ((s.eng e).rt ts1)))) (execTcvtSec e rd ts1 s) := by
  unfold execTcvtSec
  have hdone := issue_completesWith h (still_wv rd (fun g => BitVec.ofNat 64 (XT.secs (g.rt ts1))) fun _ => rfl)
  exact hdone

theorem execTcvtLo_completes (rd : Reg) (ts1 : TReg) :
    s.completesWith e ((s.eng e).wv rd (BitVec.ofNat 64 (((s.eng e).rt ts1).toNat % 2 ^ 64))) (execTcvtLo e rd ts1 s) := by
  unfold execTcvtLo
  have hdone := issue_completesWith h (still_wv rd (fun g => BitVec.ofNat 64 ((g.rt ts1).toNat % 2 ^ 64)) fun _ => rfl)
  exact hdone

theorem execTcvtMov_completes (td ts1 : TReg) :
    s.completesWith e ((s.eng e).wt td ((s.eng e).rt ts1)) (execTcvtMov e td ts1 s) := by
  unfold execTcvtMov
  have hdone := issue_completesWith h (still_wt td (fun g => g.rt ts1) (fun g => g.flags) (fun _ => rfl) fun _ => rfl)
  exact hdone

end

/-! ## Saturation (R107) -/

theorem satUnits_of_neg {x : Int} (h : x < 0) : satUnits x = (xtOfUnits 0, true) := if_pos h

theorem satUnits_of_le {x : Int} (h0 : 0 ≤ x) (h : x ≤ unitsMax) : satUnits x = (xtOfUnits x.toNat, false) :=
  (if_neg (Int.not_lt.mpr h0)).trans (if_neg (Int.not_lt.mpr h))

theorem satUnits_of_gt {x : Int} (h : (unitsMax : Int) < x) : satUnits x = (xtOfUnits unitsMax, true) := by
  have hpos : ¬ x < 0 := by omega
  exact (if_neg hpos).trans (if_pos h)

/-- The floored difference of two instants in 2^-16 ns, before saturation. -/
def tsubQuot (x y : XT) : Int := ((XT.units x : Int) - XT.units y) / 2 ^ 16

theorem tsubVal_of_lt {x y : XT} (h : tsubQuot x y < -2 ^ 63) : tsubVal x y = (-2 ^ 63, true) := if_pos h

theorem tsubVal_of_mem {x y : XT} (h0 : -2 ^ 63 ≤ tsubQuot x y) (h : tsubQuot x y < 2 ^ 63) :
    tsubVal x y = (tsubQuot x y, false) :=
  (if_neg (Int.not_lt.mpr h0)).trans (if_neg (Int.not_lt.mpr (Int.le_sub_one_of_lt h)))

theorem tsubVal_of_ge {x y : XT} (h : 2 ^ 63 ≤ tsubQuot x y) : tsubVal x y = (2 ^ 63 - 1, true) := by
  have hlow : ¬ tsubQuot x y < -2 ^ 63 := by omega
  exact (if_neg hlow).trans (if_pos (Int.sub_one_lt_of_le h))

/-- The seconds of TCVT.PACK after normalisation, before saturation. -/
def packSecs (a b : Word) : Nat := a.toNat + b.toNat / 2 ^ 32 / 10 ^ 9

theorem packVal_of_lt {a b : Word} (h : packSecs a b < 2 ^ 64) :
    packVal a b = (xtOf (packSecs a b) (b.toNat / 2 ^ 32 % 10 ^ 9) (b.toNat % 2 ^ 32), false) :=
  if_neg (Nat.not_lt.mpr (Nat.le_sub_one_of_lt h))

theorem packVal_of_ge {a b : Word} (h : 2 ^ 64 ≤ packSecs a b) : packVal a b = (xtOfUnits unitsMax, true) :=
  if_pos (Nat.sub_one_lt_of_le (by decide) h)

/-- Settles O5: each time instruction's completion, with its saturating value by the case of its range. -/
theorem timeInstructions : Obligations.TimeInstructions := by
  unfold Obligations.TimeInstructions
  intro s e rd a b td x y hcalm
  have hadd := execTadd_completes hcalm td x b
  have hsub := execTsub_completes hcalm rd x y
  have hpack := execTcvtPack_completes hcalm td a b
  refine ⟨execTnow_completes hcalm td, execTnowTk_completes hcalm rd, ?add_neg, ?add_mem, ?add_gt, ?sub_lt, ?sub_mem,
    ?sub_ge, execTcmp_completes hcalm x y, ?pack_lt, ?pack_ge, execTcvtSec_completes hcalm rd x,
    execTcvtLo_completes hcalm rd x, execTcvtMov_completes hcalm td x⟩
  case add_neg => intro hr; rw [satUnits_of_neg hr] at hadd; exact hadd
  case add_mem => intro h0 hr; rw [satUnits_of_le h0 hr] at hadd; exact hadd
  case add_gt => intro hr; rw [satUnits_of_gt hr] at hadd; exact hadd
  case sub_lt => intro hr; rw [tsubVal_of_lt hr] at hsub; exact hsub
  case sub_mem => intro h0 hr; rw [tsubVal_of_mem h0 hr] at hsub; exact hsub
  case sub_ge => intro hr; rw [tsubVal_of_ge hr] at hsub; exact hsub
  case pack_lt => intro hr; rw [packVal_of_lt hr] at hpack; exact hpack
  case pack_ge => intro hr; rw [packVal_of_ge hr] at hpack; exact hpack

end Sys2Proof.Machine
end
